-- ==== Sys2Proof/Word.lean ====
section
/-! DEFINITION. Sys2Proof/Word.lean: the machine's word types and the keyed maps the state is made of. -/

namespace Sys2Proof

/-- A 32-bit syllable (spec/01 R21). -/
abbrev Syl := BitVec 32
/-- A scalar, address or e register (spec/01 R9). -/
abbrev W64 := BitVec 64
/-- A vector register (spec/01 R9). -/
abbrev W1024 := BitVec 1024
/-- One byte of memory. -/
abbrev Byte := BitVec 8

/-- A finite map held as a list of key and value pairs; the first pair of a key counts. -/
abbrev AMap (κ α : Type) := List (κ × α)

/-- The value at a key, or the default given. -/
def AMap.get {κ α : Type} [DecidableEq κ] (m : AMap κ α) (k : κ) (d : α) : α :=
  match m with
  | [] => d
  | (k', v) :: r => if k' = k then v else AMap.get r k d

/-- The map with the value at one key replaced. -/
def AMap.set {κ α : Type} [DecidableEq κ] (m : AMap κ α) (k : κ) (v : α) : AMap κ α :=
  match m with
  | [] => [(k, v)]
  | (k', v') :: r => if k' = k then (k, v) :: r else (k', v') :: AMap.set r k v

/-- The map without one key. -/
def AMap.del {κ α : Type} [DecidableEq κ] (m : AMap κ α) (k : κ) : AMap κ α :=
  match m with
  | [] => []
  | (k', v') :: r => if k' = k then AMap.del r k else (k', v') :: AMap.del r k

/-- Replace the elements of a list that meet a test. -/
def updWhere {α : Type} (p : α → Bool) (f : α → α) (l : List α) : List α :=
  l.map (fun x => if p x then f x else x)

/-- The numbers from 0 up to n - 1. -/
abbrev upTo (n : Nat) : List Nat := List.range n

/-- Apply a function to 0, 1, ..., n - 1 in ascending order, threading a state. -/
def loopUp {α : Type} (n : Nat) (f : Nat → α → α) (init : α) : α :=
  match n with
  | 0 => init
  | k + 1 => f k (loopUp k f init)

end Sys2Proof
end

