-- ==== Sys2Proof/Syntax.lean ====
section
/-! DEFINITION. Sys2Proof/Syntax.lean: the instructions, one constructor per row of spec/opcode_table.json.
A slot operation carries its syllables' fields, in the layouts of spec/02 R43 to R53; codes stay bit fields, and
WellFormed.lean says which of them a mnemonic accepts. A slot operation acts for the context, and a step or event of
the device for the parties, that Machine/State.lean's field `sel` names. -/

namespace Sys2Proof

/-- A hardware context: chip, logical cluster, logical core, context (spec/09 R219). -/
structure Who where
  chip : Nat
  clus : Nat
  core : Nat
  ctx : Nat
  deriving DecidableEq, Repr

/-- A logical core of a chip. -/
structure CoreId where
  chip : Nat
  clus : Nat
  core : Nat
  deriving DecidableEq, Repr

/-- The core a context belongs to. -/
def Who.coreId (w : Who) : CoreId := ⟨w.chip, w.clus, w.core⟩

/-- The eleven issue slots (spec/01 R9). -/
inductive Slot where
  | s0 | s1 | v0 | v1 | v2 | f | d0 | d1 | m | k | e
  deriving DecidableEq, Repr

/-- The slot's fixed index, its bit in PRESENT and HOLD (spec/01 R9). -/
def Slot.index : Slot → Nat
  | .s0 => 0 | .s1 => 1 | .v0 => 2 | .v1 => 3 | .v2 => 4 | .f => 5
  | .d0 => 6 | .d1 => 7 | .m => 8 | .k => 9 | .e => 10

/-- The scalar slots. -/
inductive SSlot where | s0 | s1
  deriving DecidableEq, Repr
/-- The vector slots. -/
inductive VSlot where | v0 | v1 | v2
  deriving DecidableEq, Repr
/-- The memory slots. -/
inductive DSlot where | d0 | d1
  deriving DecidableEq, Repr

/-- A scalar slot as a slot. -/
def SSlot.slot : SSlot → Slot | .s0 => .s0 | .s1 => .s1
/-- A vector slot as a slot. -/
def VSlot.slot : VSlot → Slot | .v0 => .v0 | .v1 => .v1 | .v2 => .v2
/-- A memory slot as a slot. -/
def DSlot.slot : DSlot → Slot | .d0 => .d0 | .d1 => .d1

/-- The guard fields G and GI (spec/01 R13). -/
structure Guard where
  p : BitVec 3
  inv : Bool
  deriving DecidableEq, Repr

/-- An immediate of layouts SI, SL, SB and SBC: in the first syllable (L = 0) or in the second (L = 1). -/
inductive Imm (n : Nat) where
  | short (v : BitVec n)
  | long (v : BitVec 32)
  deriving DecidableEq, Repr

/-- The second operand of layout SC: a register (L = 0) or IMM32 (L = 1). -/
inductive SRhs where
  | reg (r : BitVec 5)
  | imm (v : BitVec 32)
  deriving DecidableEq, Repr

/-- Layout SR with L = 0 (spec/02 R43). -/
structure SR where
  slot : SSlot
  g : Guard
  d : BitVec 5
  a : BitVec 5
  b : BitVec 5
  fn : BitVec 5
  deriving DecidableEq, Repr

/-- Layout SR with L = 1: the second syllable's [11:0] (spec/02 R43). -/
structure SRX where
  slot : SSlot
  g : Guard
  d : BitVec 5
  a : BitVec 5
  b : BitVec 5
  fn : BitVec 5
  x : BitVec 12
  deriving DecidableEq, Repr

/-- Layout SI. -/
structure SI where
  slot : SSlot
  g : Guard
  d : BitVec 5
  a : BitVec 5
  imm : Imm 10
  deriving DecidableEq, Repr

/-- Layout SL. -/
structure SL where
  slot : SSlot
  g : Guard
  d : BitVec 5
  imm : Imm 15
  deriving DecidableEq, Repr

/-- Layout SC. -/
structure SC where
  slot : SSlot
  g : Guard
  pd : BitVec 3
  a : BitVec 5
  rhs : SRhs
  cond : BitVec 3
  deriving DecidableEq, Repr

/-- Layout SP. -/
structure SP where
  slot : SSlot
  g : Guard
  pd : BitVec 3
  pa : BitVec 3
  pb : BitVec 3
  v : Bool
  deriving DecidableEq, Repr

/-- Layout SB. -/
structure SB where
  slot : SSlot
  g : Guard
  off : Imm 20
  deriving DecidableEq, Repr

/-- Layout SBC. -/
structure SBC where
  slot : SSlot
  g : Guard
  p : BitVec 3
  pinv : Bool
  off : Imm 16
  deriving DecidableEq, Repr

/-- Layout SLP, used by loop, and by lbrk with no rotation field (spec/05 R112). -/
structure SLP where
  slot : SSlot
  g : Guard
  lc : BitVec 3
  rot : BitVec 3
  off : BitVec 14
  deriving DecidableEq, Repr

/-- Layout SX with no field: ret, nop, halt, yield (spec/05 R112). -/
structure SN where
  slot : SSlot
  g : Guard
  deriving DecidableEq, Repr

/-- Layout SX of jr. -/
structure SJ where
  slot : SSlot
  g : Guard
  a : BitVec 5
  deriving DecidableEq, Repr

/-- Layout SX of rrb.set and rrb.clr. -/
structure SRRB where
  slot : SSlot
  g : Guard
  rot : BitVec 3
  v : BitVec 4
  deriving DecidableEq, Repr

/-- Layout SX of wait with MODE = 0. -/
structure SWT where
  slot : SSlot
  g : Guard
  cc : BitVec 4
  thr : BitVec 15
  deriving DecidableEq, Repr

/-- Layout SX of wait with MODE = 1. -/
structure SWR where
  slot : SSlot
  g : Guard
  cc : BitVec 4
  a : BitVec 5
  deriving DecidableEq, Repr

/-- Layout SX of trap. -/
structure STR where
  slot : SSlot
  g : Guard
  code : BitVec 20
  deriving DecidableEq, Repr

/-- Layout SX of rfe. -/
structure SRF where
  slot : SSlot
  g : Guard
  skip : Bool
  deriving DecidableEq, Repr

/-- The second syllable of the vector class (spec/02 R45). -/
structure VExt where
  fmt : BitVec 4
  rm : BitVec 2
  fmt2 : BitVec 4
  c : BitVec 5
  imm16 : BitVec 16
  deriving DecidableEq, Repr

/-- The vector layout (spec/02 R45). -/
structure VOp where
  slot : VSlot
  g : Guard
  w : BitVec 2
  mask : BitVec 3
  d : BitVec 5
  a : BitVec 5
  b : BitVec 5
  x : Option VExt
  deriving DecidableEq, Repr

/-- Layout FA (spec/02 R47). -/
structure FA where
  g : Guard
  w : BitVec 2
  d : BitVec 4
  a : BitVec 4
  b : BitVec 4
  fmt : BitVec 4
  rm : BitVec 2
  deriving DecidableEq, Repr

/-- Layout FC, of sfcp (spec/02 R47). -/
structure FCp where
  g : Guard
  w : BitVec 2
  a : BitVec 4
  fc : BitVec 4
  d : BitVec 5
  deriving DecidableEq, Repr

/-- The second syllable of the memory class (spec/02 R48). -/
structure MExt where
  ac : BitVec 4
  ord : BitVec 2
  scope : BitVec 3
  ef : Bool
  skv : Bool
  sk : BitVec 12
  step : BitVec 9
  deriving DecidableEq, Repr

/-- Layout DA. -/
structure DA where
  slot : DSlot
  g : Guard
  base : BitVec 4
  fc : BitVec 4
  dreg : BitVec 5
  sz : BitVec 2
  off : BitVec 5
  x : Option MExt
  deriving DecidableEq, Repr

/-- Layout DT. -/
structure DT where
  slot : DSlot
  g : Guard
  base : BitVec 4
  tile : BitVec 6
  desc : BitVec 4
  x : Option MExt
  deriving DecidableEq, Repr

/-- Layout DM. -/
structure DM where
  slot : DSlot
  g : Guard
  base : BitVec 4
  fc : BitVec 4
  dreg : BitVec 5
  vreg : BitVec 5
  sz : BitVec 2
  x : Option MExt
  deriving DecidableEq, Repr

/-- Layout DF. -/
structure DF where
  slot : DSlot
  g : Guard
  scope : BitVec 3
  kind : BitVec 2
  deriving DecidableEq, Repr

/-- Layout DL. -/
structure DL where
  slot : DSlot
  g : Guard
  base : BitVec 4
  len : BitVec 4
  ret : BitVec 3
  deriving DecidableEq, Repr

/-- Layout DW. -/
structure DW where
  slot : DSlot
  g : Guard
  win : BitVec 4
  deriving DecidableEq, Repr

/-- The M layout of mzero, mlat, mma and mter (spec/02 R51). -/
structure MRow where
  g : Guard
  acc : BitVec 4
  lat : BitVec 2
  fmt : BitVec 4
  nrow : BitVec 7
  deriving DecidableEq, Repr

/-- The second syllable of mdrain. -/
structure MDrainExt where
  ka : BitVec 3
  kb : BitVec 3
  scl : Bool
  deriving DecidableEq, Repr

/-- The M layout of mdrain. -/
structure MDrain where
  g : Guard
  acc : BitVec 4
  lat : BitVec 2
  fmt : BitVec 4
  tile : BitVec 6
  rm : BitVec 2
  x : Option MDrainExt
  deriving DecidableEq, Repr

/-- The M layout of macc.ld. -/
structure MLd where
  g : Guard
  acc : BitVec 4
  lat : BitVec 2
  fmt : BitVec 4
  tile : BitVec 6
  deriving DecidableEq, Repr

/-- The M layout of mkat. -/
structure MKat where
  g : Guard
  seed : BitVec 16
  hash : BitVec 32
  deriving DecidableEq, Repr

/-- The M layout of mchk. -/
structure MChk where
  g : Guard
  acc : BitVec 4
  lat : BitVec 2
  fmt : BitVec 4
  tol : BitVec 8
  deriving DecidableEq, Repr

/-- The K layout of kld (spec/02 R52). -/
structure KLd where
  g : Guard
  c : BitVec 3
  fmt : BitVec 4
  addr : BitVec 13
  deriving DecidableEq, Repr

/-- The K layout of kset. -/
structure KSet where
  g : Guard
  c : BitVec 3
  fmt : BitVec 4
  val : BitVec 32
  deriving DecidableEq, Repr

/-- The K layout of kmov. -/
structure KMov where
  g : Guard
  c : BitVec 3
  src : BitVec 3
  deriving DecidableEq, Repr

/-- The second syllable of the engine class (spec/02 R53). -/
structure EExt where
  sk : BitVec 12
  skv : Bool
  imm : BitVec 19
  deriving DecidableEq, Repr

/-- The E layout. -/
structure EOp where
  g : Guard
  ed : BitVec 3
  ea : BitVec 3
  eb : BitVec 3
  cc : BitVec 4
  opt : BitVec 7
  x : Option EExt
  deriving DecidableEq, Repr

/-- The instructions: a slot operation of a bundle, or a step or event of the device (spec/95). -/
inductive Instr where
  /-- ADD (spec R102): Writes the wrapped 64-bit sum of two registers. -/
  | add (o : SR)
  /-- SUB (spec R102): Writes the wrapped 64-bit difference. -/
  | sub (o : SR)
  /-- MUL (spec R102): Writes the low 64 bits of the product. -/
  | mul (o : SR)
  /-- MULH (spec R102): Writes the high 64 bits of the signed product. -/
  | mulh (o : SR)
  /-- MULHN (spec R102): Writes the high 64 bits of the unsigned product. -/
  | mulhn (o : SR)
  /-- DIV (spec R104): Writes the signed quotient truncated toward zero. -/
  | div (o : SR)
  /-- DIVN (spec R104): Writes the unsigned quotient. -/
  | divn (o : SR)
  /-- REM (spec R104): Writes the signed remainder. -/
  | rem (o : SR)
  /-- REMN (spec R104): Writes the unsigned remainder. -/
  | remn (o : SR)
  /-- AND (spec R102): Writes the bitwise AND. -/
  | and (o : SR)
  /-- OR (spec R102): Writes the bitwise OR. -/
  | or (o : SR)
  /-- XOR (spec R102): Writes the bitwise XOR. -/
  | xor (o : SR)
  /-- ANDN (spec R102): Writes sa AND NOT sb. -/
  | andn (o : SR)
  /-- SHL (spec R102): Shifts left by the low 6 bits of sb. -/
  | shl (o : SR)
  /-- SHR (spec R102): Shifts right logically. -/
  | shr (o : SR)
  /-- SAR (spec R102): Shifts right arithmetically. -/
  | sar (o : SR)
  /-- ROTL (spec R102): Rotates left. -/
  | rotl (o : SR)
  /-- MIN (spec R102): Writes the smaller as i64. -/
  | min (o : SR)
  /-- MAX (spec R102): Writes the larger as i64. -/
  | max (o : SR)
  /-- MINN (spec R102): Writes the smaller as n64. -/
  | minn (o : SR)
  /-- MAXN (spec R102): Writes the larger as n64. -/
  | maxn (o : SR)
  /-- CLZ (spec R102): Counts leading zero bits. -/
  | clz (o : SR)
  /-- CTZ (spec R102): Counts trailing zero bits. -/
  | ctz (o : SR)
  /-- POPC (spec R102): Counts 1 bits. -/
  | popc (o : SR)
  /-- SEXT (spec R102): Sign-extends the low 8, 16 or 32 bits. -/
  | sext (o : SR)
  /-- ZEXT (spec R102): Zero-extends the low 8, 16 or 32 bits. -/
  | zext (o : SR)
  /-- BFX (spec R106): Extracts a bit field, optionally sign-extended. -/
  | bfx (o : SRX)
  /-- BFI (spec R106): Inserts a bit field into the destination. -/
  | bfi (o : SRX)
  /-- LEA (spec R102): Writes sa plus sb shifted left by k. -/
  | lea (o : SR)
  /-- SEL (spec R102): Selects sa or sb by a predicate. -/
  | sel (o : SR)
  /-- ADDI (spec R105): Adds a sign-extended immediate. -/
  | addi (o : SI)
  /-- ANDI (spec R105): ANDs a zero-extended immediate. -/
  | andi (o : SI)
  /-- ORI (spec R105): ORs a zero-extended immediate. -/
  | ori (o : SI)
  /-- XORI (spec R105): XORs a zero-extended immediate. -/
  | xori (o : SI)
  /-- SHLI (spec R105): Shifts left by an immediate count. -/
  | shli (o : SI)
  /-- SHRI (spec R105): Shifts right logically by an immediate count. -/
  | shri (o : SI)
  /-- SARI (spec R105): Shifts right arithmetically by an immediate count. -/
  | sari (o : SI)
  /-- LI (spec R105): Loads a sign-extended immediate. -/
  | li (o : SL)
  /-- LIH (spec R105): Loads a 32-bit immediate into the high half. -/
  | lih (o : SL)
  /-- CMP (spec R107): Writes a predicate with an integer comparison. -/
  | cmp (o : SC)
  /-- PSET (spec R108): Sets a predicate to a constant. -/
  | pset (o : SP)
  /-- PAND (spec R108): ANDs two predicates. -/
  | pand (o : SP)
  /-- POR (spec R108): ORs two predicates. -/
  | por (o : SP)
  /-- PNOT (spec R108): Inverts a predicate. -/
  | pnot (o : SP)
  /-- FADD (spec R109): Adds two f32 values with one rounding. -/
  | fadd (o : SR)
  /-- FSUB (spec R109): Subtracts two f32 values. -/
  | fsub (o : SR)
  /-- FMUL (spec R109): Multiplies two f32 values. -/
  | fmul (o : SR)
  /-- FMA (spec R109): Fused f32 multiply-add into the destination. -/
  | fma (o : SR)
  /-- FMIN (spec R110): Writes the smaller f32 operand. -/
  | fmin (o : SR)
  /-- FMAX (spec R110): Writes the larger f32 operand. -/
  | fmax (o : SR)
  /-- FCMP (spec R110): Writes a predicate with an f32 comparison. -/
  | fcmp (o : SC)
  /-- FCVT (spec R111): Converts between scalar float and integer formats. -/
  | fcvt (o : SR)
  /-- BR (spec R114): Branches to an offset when the guard is true. -/
  | br (o : SB)
  /-- BC (spec R114): Branches when the guard and a predicate test hold. -/
  | bc (o : SBC)
  /-- CALL (spec R114): Branches and writes the return address to a31. -/
  | call (o : SB)
  /-- RET (spec R115): Jumps to a31. -/
  | ret (o : SN)
  /-- JR (spec R115): Jumps to an a register. -/
  | jr (o : SJ)
  /-- LOOP (spec R117): Rotates bases, decrements a loop counter and branches while it is non-zero. -/
  | loop (o : SLP)
  /-- LBRK (spec R118): Clears a loop counter and branches out of the loop. -/
  | lbrk (o : SLP)
  /-- RRB_SET (spec R119): Sets the named rotating bases. -/
  | rrbSet (o : SRRB)
  /-- RRB_CLR (spec R119): Clears the named rotating bases. -/
  | rrbClr (o : SRRB)
  /-- NOP (spec R122): Has no effect. -/
  | nop (o : SN)
  /-- HALT (spec R226): Commits and puts the context in Halted or Dormant. -/
  | halt (o : SN)
  /-- WAIT (spec R123): Blocks until a completion counter reaches an immediate threshold, then subtracts it. -/
  | wait (o : SWT)
  /-- WAIT_REG (spec R123): Blocks until a completion counter reaches a register threshold, then subtracts it. -/
  | waitReg (o : SWR)
  /-- YIELD (spec R124): Commits and lets each other ready context issue once. -/
  | yield (o : SN)
  /-- TRAP (spec R125): Raises cause TRAP with a code after its bundle commits. -/
  | trap (o : STR)
  /-- RFE (spec R127): Returns from a trap handler, restoring mode and clearing VALID. -/
  | rfe (o : SRF)
  /-- IDR (spec R130): Reads an identifier into a register. -/
  | idr (o : SR)
  /-- CSRR (spec R132): Reads a CSR. -/
  | csrr (o : SRX)
  /-- CSRW (spec R132): Writes a CSR under its access codes. -/
  | csrw (o : SRX)
  /-- CSRX (spec R132): Reads and writes one CSR. -/
  | csrx (o : SRX)
  /-- CP (spec R134): Copies a scalar into a register or lane of another file. -/
  | cp (o : SR)
  /-- OVT_LD (spec R135): Loads the context's overflow table. -/
  | ovtLd (o : SR)
  /-- VADD (spec R141): Elementwise add. -/
  | vadd (o : VOp)
  /-- VSUB (spec R141): Elementwise subtract. -/
  | vsub (o : VOp)
  /-- VMUL (spec R141): Elementwise multiply. -/
  | vmul (o : VOp)
  /-- VFMA (spec R141): Elementwise fused multiply-add. -/
  | vfma (o : VOp)
  /-- VFMS (spec R141): Elementwise fused multiply-subtract. -/
  | vfms (o : VOp)
  /-- VFNMA (spec R141): Elementwise negated fused multiply-add. -/
  | vfnma (o : VOp)
  /-- VMIN (spec R141): Elementwise minimum. -/
  | vmin (o : VOp)
  /-- VMAX (spec R141): Elementwise maximum. -/
  | vmax (o : VOp)
  /-- VABS (spec R141): Elementwise absolute value. -/
  | vabs (o : VOp)
  /-- VNEG (spec R141): Elementwise negation. -/
  | vneg (o : VOp)
  /-- VSATADD (spec R141): Elementwise saturating add. -/
  | vsatadd (o : VOp)
  /-- VSATSUB (spec R141): Elementwise saturating subtract. -/
  | vsatsub (o : VOp)
  /-- VCLAMP (spec R141): Elementwise clamp between two bounds. -/
  | vclamp (o : VOp)
  /-- VDOT4 (spec R144): Sums groups of four narrow products into wide elements. -/
  | vdot4 (o : VOp)
  /-- VAND (spec R145): Elementwise AND. -/
  | vand (o : VOp)
  /-- VOR (spec R145): Elementwise OR. -/
  | vor (o : VOp)
  /-- VXOR (spec R145): Elementwise XOR. -/
  | vxor (o : VOp)
  /-- VANDN (spec R145): Elementwise AND NOT. -/
  | vandn (o : VOp)
  /-- VNOT (spec R145): Elementwise NOT. -/
  | vnot (o : VOp)
  /-- VSHL (spec R145): Elementwise shift left. -/
  | vshl (o : VOp)
  /-- VSHR (spec R145): Elementwise logical shift right. -/
  | vshr (o : VOp)
  /-- VSAR (spec R145): Elementwise arithmetic shift right. -/
  | vsar (o : VOp)
  /-- VCMP (spec R146): Writes a lane mask with an elementwise comparison. -/
  | vcmp (o : VOp)
  /-- VSEL (spec R147): Selects elements from two sources by a mask. -/
  | vsel (o : VOp)
  /-- VMOV (spec R147): Copies elements. -/
  | vmov (o : VOp)
  /-- VBCAST (spec R147): Broadcasts one element to all. -/
  | vbcast (o : VOp)
  /-- VIOTA (spec R147): Writes prefix counts of a mask. -/
  | viota (o : VOp)
  /-- VCVT (spec R148): Converts elements between formats. -/
  | vcvt (o : VOp)
  /-- VPACK (spec R150): Narrows two sources into one destination. -/
  | vpack (o : VOp)
  /-- VUNPACK (spec R150): Widens half of a source into the destination. -/
  | vunpack (o : VOp)
  /-- VPERM (spec R151): Permutes elements by indices. -/
  | vperm (o : VOp)
  /-- VSHUF (spec R151): Shuffles elements by a fixed pattern. -/
  | vshuf (o : VOp)
  /-- VSLIDE (spec R151): Slides elements across two sources. -/
  | vslide (o : VOp)
  /-- VCOMPRESS (spec R152): Packs selected elements to the low end. -/
  | vcompress (o : VOp)
  /-- VEXPAND (spec R152): Spreads elements to selected places. -/
  | vexpand (o : VOp)
  /-- VREDADD (spec R153): Sums selected elements into element 0. -/
  | vredadd (o : VOp)
  /-- VREDMAX (spec R153): Writes the largest selected element to element 0. -/
  | vredmax (o : VOp)
  /-- VREDMIN (spec R153): Writes the smallest selected element to element 0. -/
  | vredmin (o : VOp)
  /-- VSCAN_ADD (spec R154): Writes inclusive prefix sums. -/
  | vscanAdd (o : VOp)
  /-- VSCAN_MAX (spec R154): Writes inclusive prefix maxima. -/
  | vscanMax (o : VOp)
  /-- VSEGSCAN (spec R155): Writes segmented prefix sums with a carry. -/
  | vsegscan (o : VOp)
  /-- VCP (spec R157): Copies a vector register, or a 64-bit piece of it, into another file. -/
  | vcp (o : VOp)
  /-- MAND (spec R156): ANDs two lane masks. -/
  | mand (o : VOp)
  /-- MOR (spec R156): ORs two lane masks. -/
  | mor (o : VOp)
  /-- MNOT (spec R156): Inverts a lane mask. -/
  | mnot (o : VOp)
  /-- MPOPC (spec R156): Counts the set bits of a lane mask. -/
  | mpopc (o : VOp)
  /-- SFRCP (spec R159): Approximate reciprocal to 12 bits. -/
  | sfrcp (o : FA)
  /-- SFRSQ (spec R159): Approximate reciprocal square root to 12 bits. -/
  | sfrsq (o : FA)
  /-- SFRCPR (spec R160): Refines a reciprocal approximation. -/
  | sfrcpr (o : FA)
  /-- SFRSQR (spec R160): Refines a reciprocal square-root approximation. -/
  | sfrsqr (o : FA)
  /-- SFEXP2 (spec R161): Correctly rounded 2 to the power a. -/
  | sfexp2 (o : FA)
  /-- SFLOG2 (spec R161): Correctly rounded base-2 logarithm. -/
  | sflog2 (o : FA)
  /-- SFSIN (spec R161): Correctly rounded sine of pi times a. -/
  | sfsin (o : FA)
  /-- SFCOS (spec R161): Correctly rounded cosine of pi times a. -/
  | sfcos (o : FA)
  /-- SFTANH (spec R161): Correctly rounded hyperbolic tangent. -/
  | sftanh (o : FA)
  /-- SFSIGM (spec R161): Correctly rounded logistic sigmoid. -/
  | sfsigm (o : FA)
  /-- SFERF (spec R161): Correctly rounded error function. -/
  | sferf (o : FA)
  /-- SFSQRT (spec R161): Correctly rounded square root. -/
  | sfsqrt (o : FA)
  /-- SFDIV (spec R161): Correctly rounded division. -/
  | sfdiv (o : FA)
  /-- SFCP (spec R162): Copies a w register into an x, y or z register. -/
  | sfcp (o : FCp)
  /-- LDV (spec R168): Loads W bits from the scratchpad into a vector register. -/
  | ldv (o : DA)
  /-- STV (spec R170): Stores W bits to the scratchpad or, as a window store, to a peer pool. -/
  | stv (o : DA)
  /-- LDS (spec R168): Loads 1 to 8 scratchpad bytes into a scalar register. -/
  | lds (o : DA)
  /-- STS (spec R168): Stores 1 to 8 bytes to the scratchpad. -/
  | sts (o : DA)
  /-- LDB (spec R168): Loads one element and broadcasts it across a vector register. -/
  | ldb (o : DA)
  /-- GTH (spec R169): Gathers scratchpad elements by index. -/
  | gth (o : DA)
  /-- SCT (spec R169): Scatters elements to the scratchpad by index. -/
  | sct (o : DA)
  /-- LDT (spec R173): Loads rows of virtual memory into a tile register. -/
  | ldt (o : DT)
  /-- STT (spec R173): Stores rows of a tile register to virtual memory. -/
  | stt (o : DT)
  /-- LDTP (spec R174): Prefetches a tile's lines into their home slices. -/
  | ldtp (o : DT)
  /-- LDG (spec R176): Loads bytes of global memory into a register, setting its busy bit. -/
  | ldg (o : DA)
  /-- STG (spec R176): Posts a store of bytes to global memory. -/
  | stg (o : DA)
  /-- AADD (spec R177): Atomic add at the home slice. -/
  | aadd (o : DM)
  /-- AMIN (spec R177): Atomic signed minimum. -/
  | amin (o : DM)
  /-- AMAX (spec R177): Atomic signed maximum. -/
  | amax (o : DM)
  /-- AMINN (spec R177): Atomic unsigned minimum. -/
  | aminn (o : DM)
  /-- AMAXN (spec R177): Atomic unsigned maximum. -/
  | amaxn (o : DM)
  /-- AAND (spec R177): Atomic AND. -/
  | aand (o : DM)
  /-- AOR (spec R177): Atomic OR. -/
  | aor (o : DM)
  /-- AXOR (spec R177): Atomic XOR. -/
  | axor (o : DM)
  /-- ASWP (spec R177): Atomic swap. -/
  | aswp (o : DM)
  /-- ACAS (spec R177): Atomic compare-and-swap. -/
  | acas (o : DM)
  /-- AFADD (spec R178): Atomic f32 add. -/
  | afadd (o : DM)
  /-- AFMAX (spec R178): Atomic f32 maximum. -/
  | afmax (o : DM)
  /-- FENCE (spec R182): Orders the context's accesses at a scope. -/
  | fence (o : DF)
  /-- L2PIN (spec R185): Pins the lines of a range under a retention register. -/
  | l2pin (o : DL)
  /-- L2UNPIN (spec R185): Releases the lines of a range from a retention register. -/
  | l2unpin (o : DL)
  /-- L2INV (spec R185): Writes back and invalidates the lines of a range. -/
  | l2inv (o : DL)
  /-- WWAIT (spec R171): Stalls until every window store to a window is acknowledged. -/
  | wwait (o : DW)
  /-- MZERO (spec R197): Zeroes an accumulator and its checksum column. -/
  | mzero (o : MRow)
  /-- MLAT (spec R198): Fills a latch from 128 B FIFO entries. -/
  | mlat (o : MRow)
  /-- MMA (spec R199): Streams A rows against a latch into an accumulator. -/
  | mma (o : MRow)
  /-- MTER (spec R199): Streams i8 rows against ternary weights into an accumulator. -/
  | mter (o : MRow)
  /-- MDRAIN (spec R200): Converts an accumulator into tile registers. -/
  | mdrain (o : MDrain)
  /-- MACC_LD (spec R201): Loads an accumulator from two tiles. -/
  | maccLd (o : MLd)
  /-- MKAT (spec R202): Runs a known-answer product and compares its hash. -/
  | mkat (o : MKat)
  /-- MCHK (spec R203): Checks accumulator rows against their checksum column. -/
  | mchk (o : MChk)
  /-- KLD (spec R205): Loads 128 scale values from the scratchpad. -/
  | kld (o : KLd)
  /-- KSET (spec R206): Writes one f32 value to all 128 elements. -/
  | kset (o : KSet)
  /-- KMOV (spec R206): Copies a K register. -/
  | kmov (o : KMov)
  /-- CPY (spec R209): Issues a copy-engine command from a descriptor. -/
  | cpy (o : EOp)
  /-- AMSG (spec R214): Issues an active message to a target context. -/
  | amsg (o : EOp)
  /-- TASK_POST (spec R215): Posts a task index with an initial count. -/
  | taskPost (o : EOp)
  /-- TASK_DEC (spec R215): Decrements a task's count on a member. -/
  | taskDec (o : EOp)
  /-- ECNT_ADD (spec R213): Adds to a completion counter at issue. -/
  | ecntAdd (o : EOp)
  /-- ECNT_SET (spec R213): Sets a completion counter at issue. -/
  | ecntSet (o : EOp)
  /-- CLBAR (spec R217): Arrives at a cluster barrier. -/
  | clbar (o : EOp)
  /-- CHBAR (spec R217): Arrives at a chip barrier. -/
  | chbar (o : EOp)
  /-- FORK (spec R272): Requests a child revision whose task is ready at once. -/
  | fork (o : EOp)
  /-- SPAWN (spec R273): Requests a child revision whose task is posted under an index. -/
  | spawn (o : EOp)
  /-- JOIN (spec R274): Requests the merge of a child into the current revision. -/
  | join (o : EOp)
  /-- REV_ST (spec R275): Requests the state of a revision. -/
  | revSt (o : EOp)
  /-- FLOW_MODE (spec R301): Sets the mode of a flow and holds later packets until earlier ones drain. -/
  | flowMode (o : EOp)
  /-- SLK (spec R302): Queues a change of the context's slack controls. -/
  | slk (o : EOp)
  /-- COLL (spec R317): Issues a collective from a descriptor. -/
  | coll (o : EOp)
  /-- ESEND (spec R322): Issues the send of one eager slot. -/
  | esend (o : EOp)
  /-- EREL (spec R323): Issues a slot-release notice. -/
  | erel (o : EOp)
  /-- EPROBE (spec R324): Issues a read of an eager ring view. -/
  | eprobe (o : EOp)
  /-- XTLOAD_FULL (spec R368): Requests a load of a whole translation table. -/
  | xtloadFull (o : EOp)
  /-- XTLOAD_ENTRY (spec R368): Requests a load of one translation entry. -/
  | xtloadEntry (o : EOp)
  /-- XTLOAD_PAGE (spec R368): Requests a change of one page's absent bit. -/
  | xtloadPage (o : EOp)
  /-- GBAR (spec R394): Arrives at a gang barrier. -/
  | gbar (o : EOp)
  /-- ALMW (spec R395): Requests a staged write of a cell of the chip's column. -/
  | almw (o : EOp)
  /-- ALMW_LEN (spec R395): Requests a staged write of a slot length. -/
  | almwLen (o : EOp)
  /-- MIG_CTL_START (spec R413): Requests the retirement of a stack. -/
  | migCtlStart (o : EOp)
  /-- MIG_CTL_DONE (spec R413): Waits for a retirement to end and reports it. -/
  | migCtlDone (o : EOp)
  /-- BUNDLE_ISSUE (spec R34): A context decodes, checks and issues its next bundle, or one further issue of a repeated bundle. -/
  | bundleIssue
  /-- BLOCK_RELEASE (spec R19): The condition that a blocked context awaits comes to hold, and the context becomes Ready. -/
  | blockRelease
  /-- RESULT_LAND (spec R30): A fixed-latency result lands in its destination no later than its bound and sets its flags. -/
  | resultLand
  /-- LATE_FAULT (spec R436): A fault detected after its bundle issued is raised in the owning context with LATE and FROM set, whatever its state. -/
  | lateFault
  /-- QUEUE_SPILL (spec R234): The overflow engine moves the 32 youngest entries of a full served queue to the context's overflow ring. -/
  | queueSpill
  /-- E_QUEUE_HEAD (spec R207): An E command reaches the head of the context's command queue and is carried out. -/
  | eQueueHead
  /-- GLOBAL_LOAD_LAND (spec R176): The value of a global load or atomic reply lands in its destination and clears its busy bit. -/
  | globalLoadLand
  /-- TILE_ROWS_DONE (spec R173): The last row of an ldt lands in the tile, or the last row of an stt is read out, and the tile's busy bit clears. -/
  | tileRowsDone
  /-- ACCESS_PERFORMED (spec R180): An access reaches its point of coherence and takes its place in coherence order. -/
  | accessPerformed
  /-- HOME_SLICE_ACCESS (spec R244): An access is made at its line's home slice, hitting or allocating a way under the victim rules. -/
  | homeSliceAccess
  /-- MC_REQUEST_ACCEPT (spec R409): A request arrives at a memory controller and is performed under its map, or returned as stale. -/
  | mcRequestAccept
  /-- SORREL_SLOT_GRANT (spec R265): A write or merge waiting at Sorrel proceeds once a slot becomes free. -/
  | sorrelSlotGrant
  /-- ARBITER_GRANT (spec R282): An arbiter grants a packet and charges its wait to SUB and SLACK, setting EXH on exhaustion. -/
  | arbiterGrant
  /-- PACKET_ARRIVAL (spec R279): A packet arrives at a port ingress and is checked, deduplicated, reordered or performed. -/
  | packetArrival
  /-- REQUEST_PERFORM (spec R298): A remote request is performed at the target home slice or pool and its reply or acknowledgement is sent. -/
  | requestPerform
  /-- REPLY_LAND (spec R286): A reply or acknowledgement reaches the issuer, completing its request and counting an exhausted-slack event. -/
  | replyLand
  /-- WINDOW_ACK (spec R295): A window store's acknowledgement reaches the source and returns one WIN_ALLOW unit. -/
  | windowAck
  /-- PORT_LINK_CHANGE (spec R280): A fabric port goes up or down, changing which ports are live toward each chip. -/
  | portLinkChange
  /-- LINK_STATE_NOTICE (spec R280): A switch plane's link-state notice tells a port the state of another chip's port on that plane. -/
  | linkStateNotice
  /-- FLOW_MODE_DRAINED (spec R301): Every earlier packet of the flows named by flow.mode is acknowledged and its counter increments. -/
  | flowModeDrained
  /-- MATRIX_OP_START (spec R192): An M-class form starts in its pipe once its predecessor and its latch and accumulator dependencies allow. -/
  | matrixOpStart
  /-- MATRIX_OP_COMPLETE (spec R193): An M-class form completes, clearing its busy bits and setting its flags. -/
  | matrixOpComplete
  /-- COPY_START (spec R210): A copy command starts in its engine after earlier commands and any same-bundle M form complete. -/
  | copyStart
  /-- COPY_COMPLETE (spec R210): A copy finishes moving its elements, clears its busy bits and increments its counter. -/
  | copyComplete
  /-- FIFO_ENTRY_PUSH (spec R210): A copy engine pushes a 256-byte entry into a context's A or B queue, waiting while it is full. -/
  | fifoEntryPush
  /-- AMSG_SEND (spec R214): An amsg reaching the queue head reads its payload and sends it to the target context. -/
  | amsgSend
  /-- AMSG_LAND (spec R227): An active-message payload lands in the target scratchpad and its record joins the receive queue. -/
  | amsgLand
  /-- HANDLER_START (spec R228): A Dormant context with AM set takes its oldest arrival and starts at its handler. -/
  | handlerStart
  /-- TASK_POST_ACCEPT (spec R215): The task scheduler accepts or drops a task.post and updates the posted bit and count. -/
  | taskPostAccept
  /-- TASK_DEC_APPLY (spec R215): The task scheduler applies a task.dec to a task's count and acknowledges it. -/
  | taskDecApply
  /-- DISPATCH_DECISION (spec R231): The scheduler takes the oldest windowed task and chooses the next context free for tasks. -/
  | dispatchDecision
  /-- TASK_START (spec R231): The chosen context enters Ready at the task's entry with e0 and e1 set. -/
  | taskStart
  /-- BARRIER_ARRIVAL (spec R217): A clbar or chbar arrival is counted at its barrier instance. -/
  | barrierArrival
  /-- BARRIER_COMPLETE (spec R217): A barrier instance reaches its expected count and increments every arrival's counter. -/
  | barrierComplete
  /-- GBAR_ARRIVAL (spec R394): A gang-barrier arrival reaches the coordinator and is counted. -/
  | gbarArrival
  /-- GBAR_COMPLETE (spec R394): A gang-barrier completion reaches an arrival and increments its counter. -/
  | gbarComplete
  /-- MEMBER_FINISH (spec R223): A member has finished the kernel; Dormant contexts halt, tasks and arrivals are discarded. -/
  | memberFinish
  /-- FORK_PERFORM (spec R272): Sorrel performs a fork or spawn, creating the child revision and readying its task. -/
  | forkPerform
  /-- JOIN_PERFORM (spec R274): Sorrel performs a queued join once earlier joins and the child's task have finished. -/
  | joinPerform
  /-- REV_ST_PERFORM (spec R275): Sorrel reports the state of a revision for rev.st. -/
  | revStPerform
  /-- SEGMENT_COMMIT (spec R333): An open instance commits once its mkat, mchk and loads are done, handing its buffer to memory and sending closing commands. -/
  | segmentCommit
  /-- SEGMENT_ISSUE_LIMIT (spec R329): An instance reaching 4,096 bundle issues commits and the next bundle becomes an entry. -/
  | segmentIssueLimit
  /-- HOLD_RELEASE (spec R340): A partner's rendezvous hold is released after the rewinder commits or goes terminal. -/
  | holdRelease
  /-- PREEMPTION_REQUEST (spec R390): A pre-emption request stops a context at a bundle boundary by rewind, commit or in place. -/
  | preemptionRequest
  /-- ESEND_SLOT (spec R322): An esend at the queue head takes a free slot and sends its payload, or writes its predicate 0. -/
  | esendSlot
  /-- ESEND_SLOT_PERFORM (spec R322): A slot write is performed at the receiver in sequence order, raising HEAD and HCC. -/
  | esendSlotPerform
  /-- EREL_NOTICE (spec R323): An erel at the queue head clamps its count, raises REL and sends the release notice. -/
  | erelNotice
  /-- EREL_NOTICE_ARRIVAL (spec R323): A release notice reaches the sender and raises TAIL. -/
  | erelNoticeArrival
  /-- EPROBE_READ (spec R324): An eprobe at the queue head reads a free or pending count into ED. -/
  | eprobeRead
  /-- SLK_APPLY (spec R302): An slk at the queue head sets SLACK_CTL and SLACK_DEF. -/
  | slkApply
  /-- COLL_CONTEXT_TAKE (spec R313): A coll at the queue head takes its sequencer contexts, finds none, or waits for them. -/
  | collContextTake
  /-- COLL_START_FLIT (spec R315): A member's control flit reaches the collective coordinator with its result and descriptor CRC. -/
  | collStartFlit
  /-- COLL_GO (spec R315): The coordinator's go lets a member issue the collective's first chunk. -/
  | collGo
  /-- COLL_ABORT (spec R315): The coordinator's abort makes each member release contexts and complete with the status. -/
  | collAbort
  /-- COLL_CHUNK (spec R316): A sequencer forwards, adds or cuts a chunk through a port. -/
  | collChunk
  /-- COLL_COMPLETE (spec R317): A member's part of a collective ends; ED is written and its counter increments. -/
  | collComplete
  /-- ALMW_APPLY (spec R395): An almw at the queue head stages a cell or slot length, or refuses the value. -/
  | almwApply
  /-- XTLOAD_APPLY (spec R368): The command processor carries out an xtload walk, entry load or absent-bit change. -/
  | xtloadApply
  /-- MIG_START_APPLY (spec R405): A retirement start is checked and, when accepted, makes the migration ACTIVE. -/
  | migStartApply
  /-- MIG_DONE_APPLY (spec R413): A mig.ctl.done at the queue head waits for IDLE and reports the retirement. -/
  | migDoneApply
  /-- PERIOD_MARK (spec R408): Meridian sets the watermark to the next period and marks it moving at every controller. -/
  | periodMark
  /-- PERIOD_DRAINED (spec R408): Requests accepted before the mark are performed and the period is staged and written under the new map. -/
  | periodDrained
  /-- POLICY_EVALUATION (spec R425): Once per second the controller evaluates stack error counts against the retirement policy. -/
  | policyEvaluation
  /-- FIRMWARE_RETIRE_RETRY (spec R406): A firmware retirement refused with USED is tried again every 100 ms. -/
  | firmwareRetireRetry
  /-- SLOT_BOUNDARY (spec R375): A slot of the Almanac frame ends and the next begins, starting a switch when cells differ. -/
  | slotBoundary
  /-- FRAME_END_REPORT (spec R378): At a frame end each column sends its run cycles and cells to the master. -/
  | frameEndReport
  /-- ALMANAC_DELTAS (spec R378): The master's slot-length deltas reach a column, to apply at the second following boundary. -/
  | almanacDeltas
  /-- PREPARE (spec R380): A member receives PREPARE and refuses or stops injection, pre-empts and freezes sequencers. -/
  | prepare
  /-- ACK (spec R381): The coordinator receives an ACK with per-peer counts and commits once drained. -/
  | ack
  /-- ACK_RESEND (spec R380): A member resends ACK every 700 cycles while its counts change. -/
  | ackResend
  /-- REFUSE (spec R381): The coordinator receives a REFUSE and sends ABORT. -/
  | refuse
  /-- VOTE_TIMEOUT (spec R381): At 14,000 cycles after PREPARE the coordinator commits or aborts. -/
  | voteTimeout
  /-- COMMIT (spec R382): A member receives COMMIT, captures packets, saves the gang's contexts and marks pool units. -/
  | commit
  /-- ABORT (spec R383): A member receives ABORT, restarts injection, performs held requests and resumes the gang. -/
  | abort
  /-- READY (spec R384): The incoming gang's coordinator receives READY from a member. -/
  | ready
  /-- NOTREADY (spec R384): The incoming gang's coordinator receives NOTREADY and sends HALT. -/
  | notready
  /-- START_TIMEOUT (spec R384): 14,000 cycles after the boundary without every answer, the coordinator sends HALT. -/
  | startTimeout
  /-- GO (spec R384): A member receives a matching GO, re-injects captured packets and starts the gang's contexts. -/
  | go
  /-- VOTE_HALT (spec R384): A member receives HALT and the incoming gang stays switched out for the slot. -/
  | voteHalt
  /-- UNIT_FILL_DONE (spec R389): A first-touch spill and fill ends; the unit is RESIDENT and the access resumes. -/
  | unitFillDone
  /-- PEER_RESET (spec R393): A peer receives PEER_RESET; collectives end and accesses to the reset member are answered or poisoned. -/
  | peerReset
  /-- VF_RESET (spec R393): A VF reset stops and discards every gang context of the VF on the chip. -/
  | vfReset
  /-- DEVICE_RESET (spec R429): A PF function-level reset resets the whole device. -/
  | deviceReset
  /-- LAUNCH_RECORD (spec R357): The command processor takes a launch record and checks, loads and starts the kernel. -/
  | launchRecord
  /-- TRANSLATION_RECORD (spec R354): A KIND 1 launch record performs a translation load or update at once. -/
  | translationRecord
  /-- FAULT_REPORT_WRITE (spec R365): The reporting engine writes one pending fault record to a ring. -/
  | faultReportWrite
  /-- FR_RESUME (spec R365): A write of FR_RESUME resolves a QUOTA or MERGE_LIMIT freeze of the named context. -/
  | frResume
  /-- GANG_KILL (spec R360): A write of GANG_KILL stops the member's kernel of that gang context with STOPPED. -/
  | gangKill
  /-- DIRTY_LOG_RECORD (spec R369): The first write to a clean logged page appends its record before the write is performed. -/
  | dirtyLogRecord
  /-- DL_CLEAR (spec R369): DL_CTL.CLR clears every dirty bit of the VF. -/
  | dlClear
  /-- FRAME_ASSIGN (spec R370): FRAME_CMD ASSIGN makes a FREE frame ASSIGNED to a VF or refuses. -/
  | frameAssign
  /-- FRAME_FREE (spec R370): FRAME_CMD FREE starts scrubbing an unused ASSIGNED frame or refuses. -/
  | frameFree
  /-- FRAME_QUERY (spec R370): FRAME_CMD QUERY reports a frame's state and owner. -/
  | frameQuery
  /-- SCRUB_END (spec R370): A frame's scrub finishes and the frame becomes FREE. -/
  | scrubEnd
  /-- GC_CTL_WRITE (spec R374): A write of GC_CTL enables a gang context when its ranges lie in assigned frames, else sets ERR. -/
  | gcCtlWrite
  /-- S2_BASE_WRITE (spec R371): A write of S2_BASE is ignored while any gang context of the VF has a table loaded. -/
  | s2BaseWrite
  /-- WIN_ALLOW_MAX_WRITE (spec R297): A write of WIN_ALLOW.MAX clamps it and recomputes AVAIL. -/
  | winAllowMaxWrite
  /-- RETW_WAYS_WRITE (spec R245): A write of WAYS is limited to 8 and to the chip-wide sum, unpinning surplus lines. -/
  | retwWaysWrite
  /-- ANC_POOL_WRITE (spec R264): A write of ANC_POOL.SLOTS below USED is stored as USED. -/
  | ancPoolWrite
  /-- ANC_BASE_WRITE (spec R264): A write of ANC_BASE is ignored while USED is non-zero. -/
  | ancBaseWrite
  /-- REGISTER_WRITE (spec R4): A write to a register without behaviour of its own sets its fields under their access codes. -/
  | registerWrite
  /-- CK_TAKE (spec R416): A TAKE command makes a checkpoint PENDING, or sets BUSY. -/
  | ckTake
  /-- CHECKPOINT_WRITE (spec R417): At a commit point the checkpoint's parts and manifest are written to the slot. -/
  | checkpointWrite
  /-- CHECKPOINT_COMPLETE (spec R417): The manifest write completes, setting SEQ, GOOD and GSLOT, or the attempt ends with an error. -/
  | checkpointComplete
  /-- CK_RESTORE (spec R421): A RESTORE command verifies a slot and writes its extents and saved state. -/
  | ckRestore
  /-- ATTESTATION_REQUEST (spec R427): A write of ATT_CMD makes the controller write a signed attestation report. -/
  | attestationRequest
  /-- IFS_SCAN (spec R424): IFS_CMD GO starts an in-field scan of a core, or reports INUSE. -/
  | ifsScan
  /-- IFS_COMPLETE (spec R424): An in-field scan passes, fails and remaps, or is aborted by a launch. -/
  | ifsComplete
  /-- SUPPLY_SAG (spec R431): A core rail below threshold or over-temperature puts the core clock domain at half rate. -/
  | supplySag
  /-- SAG_RECOVER (spec R431): After 1,400 core cycles in range the core clock returns to full rate. -/
  | sagRecover
  /-- FREEZE (spec R432): The freeze signal stops every clock of both dies for scan read-out. -/
  | freeze
  /-- POWER_ON (spec R433): Power-on boots firmware, trains HBM and links, scans cores and resets registers. -/
  | powerOn
  /-- HOST_LINK_CHANGE (spec R417): A PCI Express host port's link goes down (or retrains), ending a checkpoint write in progress with HOSTERR and cutting host-kind traffic. -/
  | hostLinkChange
  /-- VF_RESET_END (spec R393): A pending VF reset ends on the chip, after which PREPARE of its gang contexts is answered with zero counts instead of REFUSE code 1. -/
  | vfResetEnd
  /-- ATTESTATION_REPORT_WRITE (spec R427): Within 100 ms of the request, the management controller writes the signed attestation report into the host buffer. -/
  | attestationReportWrite
  deriving DecidableEq, Repr

end Sys2Proof
end

