-- ==== Sys2Proof/Config.lean ====
section
/-! DEFINITION. Sys2Proof/Config.lean: what an implementation fixes and the free values. A free value is an opaque
constant: no proof can see what it is. Log 3, 4, 13, 14 and 18 name them. -/

namespace Sys2Proof

/-- An undefined value (spec/00 R5), by the free counter and the place that reads it (log 3). -/
opaque Config.undef : Nat → Nat → BitVec 4096
/-- A choice the spec leaves between two outcomes, such as the old or the new value (log 4). -/
opaque Config.pick : Nat → Nat → Bool
/-- A byte of an undefined memory image: a latch at kernel start, an accumulator of tag 3 (log 3). -/
opaque Config.undefByte : Nat → Nat → BitVec 8
/-- What an integer update takes for a checksum or bsum value that is no integer, by its f32 pattern (spec/08 R195;
log 49). -/
opaque Config.ckCross : Nat → Int
/-- The 8 bytes that hold a row of bsum in a save area, by its sign and kind, magnitude and exponent (spec/19 R391 gives no
encoding; log 18), and what other bytes there say. -/
opaque Config.bsumWord : Nat → Nat → Int → BitVec 64
opaque Config.bsumRead : Nat → Bool × Nat × Int
/-- A count the spec leaves open, such as lines corrected by an analogue event (log 3). -/
opaque Config.undefNat : Nat → Nat → Nat
/-- The die on which a cluster, a fabric port, a host port or a unit of a chip stands: kind 0 to 3 and number; true for die 1
(spec/10 R243, R244 give only the slices' dies; log 53). -/
opaque Config.dieOf : Nat → Nat → Bool
/-- How an all-reduce over a line splits data whose length is no multiple of the members: the block of an element, by the
descriptor without its addresses (spec/13 R310, spec/03 R88; log 27). -/
opaque Config.arSplit : Nat → Nat → Nat
/-- The ECDSA signature, r then s, of a SHA-384 value under a key pair, which its public key names (spec/22 R420, R426; log 13). -/
opaque Config.signWith : BitVec 768 → BitVec 384 → BitVec 768
/-- Other signatures of a value that verify under a key (log 13). -/
opaque Config.alsoVerifies : BitVec 768 → BitVec 384 → BitVec 768 → Bool
/-- A signature verifies under a key: what the key pair has signed does (spec/22 R420). -/
def Config.verifies (key : BitVec 768) (h : BitVec 384) (sig : BitVec 768) : Bool :=
  sig = Config.signWith key h || Config.alsoVerifies key h sig
/-- The identity key of a chip, made inside it at manufacture, and the Smixis root key held in fuses (spec/22 R426; log 13). -/
opaque Config.idKey : Nat → BitVec 768
opaque Config.rootKey : BitVec 768
/-- A chip signs with its identity key (spec/22 R420). -/
def Config.sign (n : Nat) (h : BitVec 384) : BitVec 768 := Config.signWith (Config.idKey n) h
/-- A firmware image with the configuration signed with it: hash, signature, version, the operator's trust list, and domain keys
wrapped for a chip (spec/22 R420, R426). -/
structure FwImage where
  hash : BitVec 384
  sig : BitVec 768
  version : BitVec 16
  trust : List (BitVec 768)
  wrapped : List (Nat × BitVec 1024)
  deriving DecidableEq, Repr, Inhabited
/-- The image with a number, as the outside supplies it (log 17). -/
opaque Config.image : Nat → FwImage
/-- A domain key unwrapped by ECDH with an identity key (spec/22 R426; log 13). -/
opaque Config.unwrap : BitVec 768 → BitVec 1024 → BitVec 512
/-- The firmware hashes of an attestation report (spec/22 R427; log 13). -/
opaque Config.firmware : Nat → BitVec 1536
/-- The rollback counter fused in a chip (spec/22 R426; log 13). -/
opaque Config.rollback : Nat → BitVec 16
/-- The stacks that pass the power-on test of a chip (spec/22 R433; log 17), and the clusters whose matrix engine fails. -/
opaque Config.stacks : Nat → BitVec 12
opaque Config.matrixFails : Nat → Nat → Bool
/-- A physical core of a cluster of a chip fails the core scan of power-on (spec/22 R433; log 17). -/
opaque Config.coreFails : Nat → Nat → Nat → Bool
/-- The private byte layouts: an engine block or a GANG part (spec/19 R391, spec/22 R418; log 18). -/
opaque Config.privateBytes : Nat → Nat → BitVec 8
opaque Config.privateLen : Nat → Nat
/-- A byte of the launch record and header that a GANG part of another pod holds in its private layout (spec/22 R418; log 18). -/
opaque Config.gangByte : List (BitVec 8) → Nat → BitVec 8
/-- The result of an in-field scan of a core (spec/22 R424; log 17). -/
opaque Config.scanPass : Nat → Bool

end Sys2Proof
end

