-- ==== Sys2Proof/WellFormed.lean ====
section
/-! DEFINITION. Sys2Proof/WellFormed.lean: which field values each mnemonic accepts. A value it does not accept is a
reserved value, rule [25] of spec/01 R37. What depends on the running kernel (tile and accumulator counts, NOMATRIX)
is checked at issue, in Machine/Bundle.lean. -/

namespace Sys2Proof

/-- f32, bf16, f16 (spec/06 R139). -/
def isFP (f : BitVec 4) : Bool := f.toNat ≤ 2
/-- i32, i16, i8, n32, n16, n8, i64, n64. -/
def isInt (f : BitVec 4) : Bool := 5 ≤ f.toNat ∧ f.toNat ≤ 12
/-- i8 to i64. -/
def isSigned (f : BitVec 4) : Bool := f = 5 ∨ f = 6 ∨ f = 7 ∨ f = 11
/-- FP, INT, f8e4 and f8e5. -/
def isAny (f : BitVec 4) : Bool := f.toNat ≤ 12
/-- FP and INT. -/
def isFPInt (f : BitVec 4) : Bool := isFP f || isInt f

/-- Bits of one element of a format code (spec/02 R41); t2 has two, a reserved code none. -/
def fmtBits (f : BitVec 4) : Nat :=
  match f.toNat with
  | 0 => 32 | 1 => 16 | 2 => 16 | 3 => 8 | 4 => 8 | 5 => 32 | 6 => 16 | 7 => 8
  | 8 => 32 | 9 => 16 | 10 => 8 | 11 => 64 | 12 => 64 | 13 => 2 | _ => 0

/-- Width of W in bits (spec/02 R41); code 3 is reserved. -/
def wBits (w : BitVec 2) : Nat :=
  match w.toNat with
  | 0 => 256 | 1 => 512 | 2 => 1024 | _ => 0

/-- lanes(w, f) (spec/01 R38). -/
def lanesOf (w : BitVec 2) (f : BitVec 4) : Nat := wBits w / fmtBits f

/-- The number fits the file a register-file code names (spec/02 R41, R42). -/
def regFits (fc : BitVec 4) (r : BitVec 5) : Bool :=
  match fc.toNat with
  | 0 | 1 | 2 | 3 | 4 => true
  | 5 | 6 | 7 => r.toNat < 16
  | 8 => r.toNat < 8
  | _ => false

/-- x, y, z or w. -/
def isVecFile (fc : BitVec 4) : Bool := fc = 2 ∨ fc = 3 ∨ fc = 4 ∨ fc = 5
/-- a, b, g, h or e. -/
def isScalFile (fc : BitVec 4) : Bool := fc = 0 ∨ fc = 1 ∨ fc = 6 ∨ fc = 7 ∨ fc = 8

/-- The CSR numbers that name a register (spec/05 R131 and the chapters that define the others). -/
def csrNamed (n : BitVec 12) : Bool :=
  let k := n.toNat
  k ≤ 0x008 || (0x010 ≤ k && k ≤ 0x015) || (0x018 ≤ k && k ≤ 0x01A) || k = 0x020 || (0x040 ≤ k && k ≤ 0x048) ||
    (0x04A ≤ k && k ≤ 0x06F) || (0x070 ≤ k && k ≤ 0x07A) || (0x080 ≤ k && k ≤ 0x095) || (0x0A0 ≤ k && k ≤ 0x0A8)

/-- The second syllable of a vector form, all 0 when absent (spec/02 R45). -/
def VOp.ext (o : VOp) : VExt := o.x.getD ⟨0, 0, 0, 0, 0⟩

/-- Fields of the second syllable that a vector form leaves unused are 0. `rm`, `f2`, `c`, `im` say which it uses. -/
def VExt.unused (e : VExt) (rm f2 c im : Bool) : Bool :=
  (rm || e.rm = 0) && (f2 || e.fmt2 = 0) && (c || e.c = 0) && (im || e.imm16 = 0)

/-- A three-operand elementwise vector form: formats accepted, rounds, third source, second source (spec/06 R139, R141). -/
def VOp.elemWf (o : VOp) (fmts : BitVec 4 → Bool) (rounds third second : Bool) : Bool :=
  o.w ≠ 3 && fmts o.ext.fmt && o.ext.unused rounds false third false && (second || o.b = 0)

/-- The shift forms (spec/06 R145). -/
def VOp.shiftWf (o : VOp) : Bool :=
  o.w ≠ 3 && isInt o.ext.fmt && o.ext.unused false false false true &&
    (if o.ext.imm16.getLsbD 15 then
      (o.ext.imm16.extractLsb' 0 6).toNat < fmtBits o.ext.fmt && o.ext.imm16.extractLsb' 6 9 = 0 && o.b = 0
    else o.ext.imm16 = 0)

/-- The pairs vcvt accepts (spec/06 R148). -/
def cvtPair (f t : BitVec 4) : Bool := (isAny f && isAny t) || (f = 13 && t = 7) || (f = 7 && t = 13)

/-- The destination of vcp (spec/06 R157). -/
def VOp.vcpWf (o : VOp) : Bool :=
  let e := o.ext
  let fc := e.imm16.extractLsb' 0 4
  o.w ≠ 3 && o.b = 0 && e.unused false false false true && regFits fc o.d &&
    (if isVecFile fc then isAny e.fmt && e.imm16.extractLsb' 4 12 = 0
    else isScalFile fc && (e.imm16.extractLsb' 4 4).toNat < wBits o.w / 64 && e.imm16.extractLsb' 8 8 = 0 &&
      o.mask = 0 && e.fmt = 0)

/-- The lane-mask forms mand, mor and mnot (spec/06 R156). -/
def VOp.maskWf (o : VOp) (second : Bool) : Bool :=
  o.w ≠ 3 && o.mask = 0 && o.d.extractLsb' 3 2 = 0 && o.a.extractLsb' 3 2 = 0 &&
    (if second then o.b.extractLsb' 3 2 = 0 else o.b = 0) && o.ext = ⟨0, 0, 0, 0, 0⟩

/-- Layout FA (spec/06 R158): W, format, a second source only where used, RM 0 where required. -/
def FA.fWf (o : FA) (second rounds : Bool) : Bool :=
  o.w ≠ 3 && isFP o.fmt && (second || o.b = 0) && (rounds || o.rm = 0)

/-- The second syllable of a memory form (spec/02 R48, spec/07 R167): orders accepted, EF allowed. -/
def MExt.memWf (e : MExt) (ord : BitVec 2 → Bool) (ef : Bool) : Bool :=
  ord e.ord && (if e.ord = 0 then e.scope = 0 else e.scope ≠ 7) && (ef || !e.ef) && (e.skv || e.sk = 0)

/-- The orders a load accepts: plain and acquire. -/
def ordLoad (o : BitVec 2) : Bool := o = 0 ∨ o = 1
/-- The orders a store accepts: plain and release. -/
def ordStore (o : BitVec 2) : Bool := o = 0 ∨ o = 2

/-- A DA form over a kind of file (spec/07 R168, R176). -/
def DA.daWf (o : DA) (ord : BitVec 2 → Bool) (vec : Bool) (szW : Bool) : Bool :=
  (if vec then isVecFile o.fc else isScalFile o.fc) && regFits o.fc o.dreg && (!szW || o.sz ≠ 3) &&
    (match o.x with | none => true | some e => e.memWf ord false)

/-- gth and sct: the second syllable is required and its STEP field holds IDX (spec/02 R48, spec/07 R169). -/
def DA.idxWf (o : DA) (ord : BitVec 2 → Bool) : Bool :=
  isVecFile o.fc && regFits o.fc o.dreg &&
    (match o.x with
    | none => false
    | some e => e.memWf ord false && e.step.extractLsb' 0 4 = 0 && regFits o.fc (e.step.extractLsb' 4 5))

/-- A DT form (spec/07 R173, R174). -/
def DT.dtWf (o : DT) (ord : BitVec 2 → Bool) (ef : Bool) : Bool :=
  match o.x with | none => true | some e => e.memWf ord ef

/-- An atomic (spec/07 R177): file a or b, sizes, CMP only for acas. -/
def DM.dmWf (o : DM) (f32 cas : Bool) : Bool :=
  (o.fc = 0 || o.fc = 1) && (if f32 then o.sz = 0 else o.sz.toNat < 2) &&
    (match o.x with
    | none => !cas
    | some e => e.memWf (fun _ => true) false && e.step.extractLsb' 0 4 = 0 && (cas || e.step = 0))

/-- The second syllable of an engine form; absent, its fields are 0 (spec/02 R53). -/
def EOp.ext (o : EOp) : EExt := o.x.getD ⟨0, false, 0⟩
/-- The slack fields: SK is reserved when SKV is 0; both are when the form takes no slack. -/
def EOp.slackWf (o : EOp) (used : Bool) : Bool :=
  if used then o.ext.skv || o.ext.sk = 0 else !o.ext.skv && o.ext.sk = 0

/-- The instruction's fields hold only values its mnemonic accepts. A step or event has no reserved field. -/
def Instr.wf (i : Instr) : Bool :=
  match i with
  | .add o => o.fn = 0
  | .sub o => o.fn = 0
  | .mul o => o.fn = 0
  | .mulh o => o.fn = 0
  | .mulhn o => o.fn = 0
  | .div o => o.fn = 0
  | .divn o => o.fn = 0
  | .rem o => o.fn = 0
  | .remn o => o.fn = 0
  | .and o => o.fn = 0
  | .or o => o.fn = 0
  | .xor o => o.fn = 0
  | .andn o => o.fn = 0
  | .shl o => o.fn = 0
  | .shr o => o.fn = 0
  | .sar o => o.fn = 0
  | .rotl o => o.fn = 0
  | .min o => o.fn = 0
  | .max o => o.fn = 0
  | .minn o => o.fn = 0
  | .maxn o => o.fn = 0
  | .clz o => o.b = 0 && o.fn = 0
  | .ctz o => o.b = 0 && o.fn = 0
  | .popc o => o.b = 0 && o.fn = 0
  | .sext o => o.b = 0 && o.fn.toNat < 3
  | .zext o => o.b = 0 && o.fn.toNat < 3
  | .bfx o => o.b = 0 && (o.x.extractLsb' 6 6).toNat + (o.x.extractLsb' 0 6).toNat + 1 ≤ 64 && o.fn.extractLsb' 1 4 = 0
  | .bfi o => o.b = 0 && (o.x.extractLsb' 6 6).toNat + (o.x.extractLsb' 0 6).toNat + 1 ≤ 64 && o.fn = 0
  | .lea o => o.fn.extractLsb' 3 2 = 0
  | .sel o => o.fn.getLsbD 4 = false
  | .addi _ => true
  | .andi _ => true
  | .ori _ => true
  | .xori _ => true
  | .shli o => (match o.imm with | .short v => v.toNat < 64 | .long v => v.toNat < 64)
  | .shri o => (match o.imm with | .short v => v.toNat < 64 | .long v => v.toNat < 64)
  | .sari o => (match o.imm with | .short v => v.toNat < 64 | .long v => v.toNat < 64)
  | .li _ => true
  | .lih o => (match o.imm with | .short _ => false | .long _ => true)
  | .cmp o => o.cond.toNat < 6
  | .pset o => o.pa = 0 && o.pb = 0
  | .pand o => !o.v
  | .por o => !o.v
  | .pnot o => o.pb = 0 && !o.v
  | .fadd o => o.fn.toNat < 4
  | .fsub o => o.fn.toNat < 4
  | .fmul o => o.fn.toNat < 4
  | .fma o => o.fn.toNat < 4
  | .fmin o => o.fn = 0
  | .fmax o => o.fn = 0
  | .fcmp o => o.cond.toNat < 4 && (match o.rhs with | .reg _ => true | .imm _ => false)
  | .fcvt o => o.fn.extractLsb' 0 2 = 0 && o.fn.extractLsb' 2 3 ≠ 7 && o.b.extractLsb' 2 3 ≠ 7
  | .br _ => true
  | .bc _ => true
  | .call _ => true
  | .ret _ => true
  | .jr _ => true
  | .loop o => o.lc.toNat < 6
  | .lbrk o => o.lc.toNat < 6 && o.rot = 0
  | .rrbSet o => o.rot ≠ 0
  | .rrbClr o => o.rot ≠ 0 && o.v = 0
  | .nop _ => true
  | .halt _ => true
  | .wait _ => true
  | .waitReg _ => true
  | .yield _ => true
  | .trap _ => true
  | .rfe _ => true
  | .idr o => o.a = 0 && o.b = 0 && o.fn.toNat < 9
  | .csrr o => o.a = 0 && o.b = 0 && o.fn = 0 && csrNamed o.x
  | .csrw o => o.d = 0 && o.b = 0 && o.fn = 0 && csrNamed o.x
  | .csrx o => o.b = 0 && o.fn = 0 && csrNamed o.x
  | .cp o => regFits (o.fn.extractLsb' 0 4) o.d && (if isVecFile (o.fn.extractLsb' 0 4) then (if o.fn.getLsbD 4 then o.b = 0 else o.b.getLsbD 4 = false) else o.b = 0 && o.fn.getLsbD 4 = false)
  | .ovtLd o => o.d = 0 && o.b = 0 && o.fn = 0
  | .vadd o => o.elemWf isFPInt true false true
  | .vsub o => o.elemWf isFPInt true false true
  | .vmul o => o.elemWf isFPInt true false true
  | .vfma o => o.elemWf isFPInt true true true
  | .vfms o => o.elemWf isFPInt true true true
  | .vfnma o => o.elemWf isFPInt true true true
  | .vmin o => o.elemWf isFPInt false false true
  | .vmax o => o.elemWf isFPInt false false true
  | .vabs o => o.elemWf (fun f => isFP f || isSigned f) false false false
  | .vneg o => o.elemWf (fun f => isFP f || isSigned f) false false false
  | .vsatadd o => o.elemWf isInt false false true
  | .vsatsub o => o.elemWf isInt false false true
  | .vclamp o => o.elemWf isFPInt false true true
  | .vdot4 o => o.w ≠ 3 && o.ext.unused true true false false && (((o.ext.fmt = 7 || o.ext.fmt = 10) && o.ext.fmt2 = 5 && o.ext.rm = 0) || ((o.ext.fmt = 3 || o.ext.fmt = 4) && o.ext.fmt2 = 0))
  | .vand o => o.elemWf isAny false false true
  | .vor o => o.elemWf isAny false false true
  | .vxor o => o.elemWf isAny false false true
  | .vandn o => o.elemWf isAny false false true
  | .vnot o => o.elemWf isAny false false false
  | .vshl o => o.shiftWf
  | .vshr o => o.shiftWf
  | .vsar o => o.shiftWf
  | .vcmp o => o.w ≠ 3 && isFPInt o.ext.fmt && o.ext.unused false false false true && o.ext.imm16.toNat < 4 && o.d.extractLsb' 3 2 = 0
  | .vsel o => o.elemWf isAny false false true
  | .vmov o => o.elemWf isAny false false false
  | .vbcast o => o.w ≠ 3 && isAny o.ext.fmt && o.ext.unused false false false true && o.b = 0 && o.ext.imm16.toNat < lanesOf o.w o.ext.fmt
  | .viota o => o.elemWf isInt false false false && o.a.extractLsb' 3 2 = 0
  | .vcvt o => o.w ≠ 3 && o.b = 0 && o.ext.unused true true false false && cvtPair o.ext.fmt o.ext.fmt2
  | .vpack o => o.w ≠ 3 && o.ext.unused true true false false && isAny o.ext.fmt && isAny o.ext.fmt2 && fmtBits o.ext.fmt = 2 * fmtBits o.ext.fmt2
  | .vunpack o => o.w ≠ 3 && o.b = 0 && o.ext.unused true true false true && o.ext.imm16.toNat < 2 && isAny o.ext.fmt && isAny o.ext.fmt2 && fmtBits o.ext.fmt2 = 2 * fmtBits o.ext.fmt
  | .vperm o => o.elemWf isAny false false true
  | .vshuf o => o.w ≠ 3 && isAny o.ext.fmt && o.ext.unused false false false true && o.ext.imm16.toNat < 4
  | .vslide o => o.w ≠ 3 && isAny o.ext.fmt && o.ext.unused false false false true && o.ext.imm16.toNat ≤ lanesOf o.w o.ext.fmt
  | .vcompress o => o.elemWf isAny false false false
  | .vexpand o => o.elemWf isAny false false false
  | .vredadd o => o.elemWf isFPInt true false false
  | .vredmax o => o.elemWf isFPInt false false false
  | .vredmin o => o.elemWf isFPInt false false false
  | .vscanAdd o => o.elemWf isFPInt true false false
  | .vscanMax o => o.elemWf isFPInt false false false
  | .vsegscan o => o.elemWf isFPInt true false true
  | .vcp o => o.vcpWf
  | .mand o => o.maskWf true
  | .mor o => o.maskWf true
  | .mnot o => o.maskWf false
  | .mpopc o => o.elemWf isAny false false false && o.mask = 0 && o.a.extractLsb' 3 2 = 0
  | .sfrcp o => o.fWf false false
  | .sfrsq o => o.fWf false false
  | .sfrcpr o => o.fWf false true
  | .sfrsqr o => o.fWf false true
  | .sfexp2 o => o.fWf false true
  | .sflog2 o => o.fWf false true
  | .sfsin o => o.fWf false true
  | .sfcos o => o.fWf false true
  | .sftanh o => o.fWf false true
  | .sfsigm o => o.fWf false true
  | .sferf o => o.fWf false true
  | .sfsqrt o => o.fWf false true
  | .sfdiv o => o.fWf true true
  | .sfcp o => o.w ≠ 3 && (o.fc = 2 || o.fc = 3 || o.fc = 4)
  | .ldv o => o.daWf ordLoad true true
  | .stv o => o.daWf ordStore true true
  | .lds o => o.daWf ordLoad false false
  | .sts o => o.daWf ordStore false false
  | .ldb o => o.daWf ordLoad true false
  | .gth o => o.idxWf ordLoad
  | .sct o => o.idxWf ordStore
  | .ldt o => o.dtWf ordLoad true
  | .stt o => o.dtWf ordStore false
  | .ldtp o => o.dtWf ordLoad true && o.tile = 0
  | .ldg o => o.daWf ordLoad false false
  | .stg o => o.daWf ordStore false false
  | .aadd o => o.dmWf false false
  | .amin o => o.dmWf false false
  | .amax o => o.dmWf false false
  | .aminn o => o.dmWf false false
  | .amaxn o => o.dmWf false false
  | .aand o => o.dmWf false false
  | .aor o => o.dmWf false false
  | .axor o => o.dmWf false false
  | .aswp o => o.dmWf false false
  | .acas o => o.dmWf false true
  | .afadd o => o.dmWf true false
  | .afmax o => o.dmWf true false
  | .fence o => o.scope ≠ 7 && o.kind ≠ 0
  | .l2pin _ => true
  | .l2unpin _ => true
  | .l2inv o => o.ret = 0
  | .wwait _ => true
  | .mzero o => o.lat = 0 && o.fmt = 0 && o.nrow = 0
  | .mlat o => o.acc = 0 && o.nrow = 0 && (o.fmt = 1 || o.fmt = 2 || o.fmt = 3 || o.fmt = 4 || o.fmt = 7 || o.fmt = 13)
  | .mma o => (o.fmt = 1 || o.fmt = 2 || o.fmt = 3 || o.fmt = 4 || o.fmt = 7)
  | .mter o => o.fmt = 7
  | .mdrain o => o.lat = 0 && (o.fmt = 1 || o.fmt = 2 || o.fmt = 3 || o.fmt = 4 || o.fmt = 7 || ((o.fmt = 0 || o.fmt = 5) && o.tile.getLsbD 0 = false)) && (match o.x with | none => true | some e => e.scl || (e.ka = 0 && e.kb = 0))
  | .maccLd o => o.lat = 0 && (o.fmt = 0 || o.fmt = 5) && o.tile.getLsbD 0 = false
  | .mkat _ => true
  | .mchk o => o.lat = 0 && o.fmt = 0
  | .kld o => isFP o.fmt
  | .kset o => o.fmt = 0
  | .kmov _ => true
  | .cpy o => o.ed = 0 && o.eb = 0 && o.opt.toNat < 2 && o.slackWf false && o.ext.imm = 0
  | .amsg o => o.ed = 0 && o.opt.toNat < 64 && o.slackWf true
  | .taskPost o => o.ed = 0 && o.opt = 0 && o.slackWf true
  | .taskDec o => o.ed = 0 && o.eb = 0 && o.opt ≠ 0 && o.slackWf true && o.ext.imm = 0
  | .ecntAdd o => o.ed = 0 && o.eb = 0 && o.opt.extractLsb' 2 5 = 0 && o.slackWf false && (if o.opt.getLsbD 1 then o.ea = 0 else o.ext.imm = 0) && !o.opt.getLsbD 0
  | .ecntSet o => o.ed = 0 && o.eb = 0 && o.opt.extractLsb' 2 5 = 0 && o.slackWf false && (if o.opt.getLsbD 1 then o.ea = 0 else o.ext.imm = 0) && o.opt.getLsbD 0
  | .clbar o => o.ed = 0 && o.ea = 0 && o.eb = 0 && o.opt.toNat < 16 && o.slackWf true && o.ext.imm ≠ 0 && o.ext.imm.toNat < 65536
  | .chbar o => o.ed = 0 && o.ea = 0 && o.eb = 0 && o.opt.toNat < 16 && o.slackWf true && o.ext.imm ≠ 0 && o.ext.imm.toNat < 65536
  | .fork o => o.opt = 0 && o.slackWf true && o.ext.imm = 0
  | .spawn o => o.opt = 0 && o.slackWf true
  | .join o => o.eb = 0 && o.opt = 0 && o.slackWf true && o.ext.imm = 0
  | .revSt o => o.eb = 0 && o.opt = 0 && o.slackWf true && o.ext.imm = 0
  | .flowMode o => o.ed = 0 && o.ea = 0 && o.eb = 0 && o.opt.toNat < 4 && o.slackWf false && (!o.ext.imm.getLsbD 18 || o.ext.imm.extractLsb' 8 10 = 0)
  | .slk o => o.ed = 0 && o.ea = 0 && o.eb = 0 && o.opt.toNat < 32 && o.slackWf true && o.ext.imm.toNat < 16 && (o.opt.getLsbD 4 || o.ext.imm = 0)
  | .coll o => o.eb = 0 && o.opt = 0 && o.slackWf true && o.ext.imm.toNat < 65536
  | .esend o => o.ed = 0 && o.eb = 0 && o.opt.toNat < 8 && o.slackWf true && o.ext.imm.toNat < 32
  | .erel o => o.ed = 0 && o.ea = 0 && o.eb = 0 && o.opt = 0 && o.slackWf true && o.ext.imm.extractLsb' 5 8 ≠ 0 && o.ext.imm.toNat < 8192
  | .eprobe o => o.ea = 0 && o.eb = 0 && o.opt.toNat < 2 && o.slackWf false && o.ext.imm.toNat < 32
  | .xtloadFull o => o.opt = 0 && o.slackWf false && o.ext.imm = 0
  | .xtloadEntry o => o.opt = 1 && o.slackWf false && o.ext.imm.toNat < 4096
  | .xtloadPage o => (o.opt = 2 || o.opt = 6) && o.ea = 0 && o.slackWf false
  | .gbar o => o.ed = 0 && o.ea = 0 && o.eb = 0 && o.opt.toNat < 16 && o.slackWf true && o.ext.imm ≠ 0 && o.ext.imm.toNat < 65536
  | .almw o => o.eb = 0 && o.opt = 0 && o.slackWf false && o.ext.imm.toNat < 16
  | .almwLen o => o.eb = 0 && o.opt = 0 && o.slackWf false && 16 ≤ o.ext.imm.toNat && o.ext.imm.toNat < 32
  | .migCtlStart o => o.ea = 0 && o.eb = 0 && o.opt = 0 && o.slackWf false && o.ext.imm.toNat < 12
  | .migCtlDone o => o.ea = 0 && o.eb = 0 && o.opt = 1 && o.slackWf false && o.ext.imm = 0
  | .bundleIssue => true
  | .blockRelease => true
  | .resultLand => true
  | .lateFault => true
  | .queueSpill => true
  | .eQueueHead => true
  | .globalLoadLand => true
  | .tileRowsDone => true
  | .accessPerformed => true
  | .homeSliceAccess => true
  | .mcRequestAccept => true
  | .sorrelSlotGrant => true
  | .arbiterGrant => true
  | .packetArrival => true
  | .requestPerform => true
  | .replyLand => true
  | .windowAck => true
  | .portLinkChange => true
  | .linkStateNotice => true
  | .flowModeDrained => true
  | .matrixOpStart => true
  | .matrixOpComplete => true
  | .copyStart => true
  | .copyComplete => true
  | .fifoEntryPush => true
  | .amsgSend => true
  | .amsgLand => true
  | .handlerStart => true
  | .taskPostAccept => true
  | .taskDecApply => true
  | .dispatchDecision => true
  | .taskStart => true
  | .barrierArrival => true
  | .barrierComplete => true
  | .gbarArrival => true
  | .gbarComplete => true
  | .memberFinish => true
  | .forkPerform => true
  | .joinPerform => true
  | .revStPerform => true
  | .segmentCommit => true
  | .segmentIssueLimit => true
  | .holdRelease => true
  | .preemptionRequest => true
  | .esendSlot => true
  | .esendSlotPerform => true
  | .erelNotice => true
  | .erelNoticeArrival => true
  | .eprobeRead => true
  | .slkApply => true
  | .collContextTake => true
  | .collStartFlit => true
  | .collGo => true
  | .collAbort => true
  | .collChunk => true
  | .collComplete => true
  | .almwApply => true
  | .xtloadApply => true
  | .migStartApply => true
  | .migDoneApply => true
  | .periodMark => true
  | .periodDrained => true
  | .policyEvaluation => true
  | .firmwareRetireRetry => true
  | .slotBoundary => true
  | .frameEndReport => true
  | .almanacDeltas => true
  | .prepare => true
  | .ack => true
  | .ackResend => true
  | .refuse => true
  | .voteTimeout => true
  | .commit => true
  | .abort => true
  | .ready => true
  | .notready => true
  | .startTimeout => true
  | .go => true
  | .voteHalt => true
  | .unitFillDone => true
  | .peerReset => true
  | .vfReset => true
  | .deviceReset => true
  | .launchRecord => true
  | .translationRecord => true
  | .faultReportWrite => true
  | .frResume => true
  | .gangKill => true
  | .dirtyLogRecord => true
  | .dlClear => true
  | .frameAssign => true
  | .frameFree => true
  | .frameQuery => true
  | .scrubEnd => true
  | .gcCtlWrite => true
  | .s2BaseWrite => true
  | .winAllowMaxWrite => true
  | .retwWaysWrite => true
  | .ancPoolWrite => true
  | .ancBaseWrite => true
  | .registerWrite => true
  | .ckTake => true
  | .checkpointWrite => true
  | .checkpointComplete => true
  | .ckRestore => true
  | .attestationRequest => true
  | .ifsScan => true
  | .ifsComplete => true
  | .supplySag => true
  | .sagRecover => true
  | .freeze => true
  | .powerOn => true
  | .hostLinkChange => true
  | .vfResetEnd => true
  | .attestationReportWrite => true

end Sys2Proof
end

