-- ==== Sys2Proof/Machine/Bits.lean ====
section
/-! DEFINITION. Sys2Proof/Machine/Bits.lean: bit fields, sign extension, elements of a register, and the CRC and hash
functions the spec names. -/

namespace Sys2Proof.Machine

/-- Bits lo to lo + len - 1 of a number. -/
def natFld (v lo len : Nat) : Nat := (v >>> lo) % 2 ^ len

/-- sign_extend of an n-bit value (R38). -/
def sInt (v n : Nat) : Int := if v % 2 ^ n < 2 ^ (n - 1) then ((v % 2 ^ n : Nat) : Int) else ((v % 2 ^ n : Nat) : Int) - 2 ^ n

/-- The low n bits of an integer (R38 wrap, as a bit pattern). -/
def wrapN (v : Int) (n : Nat) : Nat := (v % (2 ^ n : Int)).toNat

/-- Number of bits of a number: 0 for 0. -/
def bitLen (n : Nat) : Nat := if n = 0 then 0 else Nat.log2 n + 1

/-- Element i of width w bits (R38 elem). -/
def elemN (v : Nat) (i w : Nat) : Nat := natFld v (i * w) w

/-- The elements of a register value, lowest first. -/
def elemsOf (v n w : Nat) : List Nat := (upTo n).map (fun i => elemN v i w)

/-- A register value from its elements of width w, lowest first. -/
def packElems (w : Nat) : List Nat → Nat
  | [] => 0
  | x :: r => x % 2 ^ w + packElems w r * 2 ^ w

/-- The bits of the elements a list of booleans selects. -/
def packMask (w : Nat) : List Bool → Nat
  | [] => 0
  | x :: r => (if x then 2 ^ w - 1 else 0) + packMask w r * 2 ^ w

/-- The bytes of a number, least significant first (R2). -/
def bytesOf (v n : Nat) : List (BitVec 8) := (upTo n).map (fun i => BitVec.ofNat 8 (v >>> (8 * i)))

/-- The number whose bytes, least significant first, are given (R2). -/
def ofBytes : List (BitVec 8) → Nat
  | [] => 0
  | b :: r => b.toNat + 256 * ofBytes r

/-- One bit of CRC-32C, processed reflected (R56). -/
def crcBit (c : BitVec 32) : BitVec 32 := if c.getLsbD 0 then (c >>> 1) ^^^ 0x82F63B78#32 else c >>> 1

/-- One byte fed into the CRC state (R56). -/
def crcByte (c : BitVec 32) (b : BitVec 8) : BitVec 32 :=
  crcBit (crcBit (crcBit (crcBit (crcBit (crcBit (crcBit (crcBit (c ^^^ b.setWidth 32))))))))

/-- A syllable fed as four bytes, little-endian (R56). -/
def crcSyl (c : BitVec 32) (s : BitVec 32) : BitVec 32 :=
  crcByte (crcByte (crcByte (crcByte c (s.setWidth 8)) ((s >>> 8).setWidth 8)) ((s >>> 16).setWidth 8))
    ((s >>> 24).setWidth 8)

/-- Bytes fed in order. -/
def crcBytes (c : BitVec 32) (l : List (BitVec 8)) : BitVec 32 := l.foldl crcByte c

/-- The CRC state before any byte (R56). -/
def crcInit : BitVec 32 := 0xFFFFFFFF#32
/-- The CRC of a state: the final XOR (R56). -/
def crcFinal (c : BitVec 32) : BitVec 32 := c ^^^ 0xFFFFFFFF#32
/-- CRC-32C of a list of bytes (R56). -/
def crc32c (l : List (BitVec 8)) : BitVec 32 := crcFinal (crcBytes crcInit l)

/-- The index of the first element of a list that meets a test. -/
def firstIdx {α : Type} (p : α → Bool) : List α → Option Nat
  | [] => none
  | x :: r => if p x then some 0 else (firstIdx p r).map (· + 1)

/-- The first element that meets a test, removed from the list. -/
def takeFirst {α : Type} (p : α → Bool) : List α → Option (α × List α)
  | [] => none
  | x :: r => if p x then some (x, r) else (takeFirst p r).map (fun q => (q.1, x :: q.2))

/-- A list with the element at one place replaced. -/
def setAt {α : Type} (l : List α) (n : Nat) (v : α) : List α := l.set n v

end Sys2Proof.Machine
end

