-- ==== Sys2Proof/Machine/Format.lean ====
section
/-! DEFINITION. Sys2Proof/Machine/Format.lean: the number formats, rounding, overflow and exact arithmetic of spec/03. -/

namespace Sys2Proof.Machine

/-- A floating-point value: a NaN, an infinity, or (-1)^neg * m * 2^e (zeros keep their sign, R68). -/
inductive FVal where
  | nan
  | inf (neg : Bool)
  | fin (neg : Bool) (m : Nat) (e : Int)
  deriving DecidableEq, Repr

/-- The parameters of a floating-point format (R65). -/
structure FFmt where
  ew : Nat
  mw : Nat
  bias : Nat
  /-- f8e4 has no infinity, and its all-ones exponent is ordinary but for M = 111. -/
  e4 : Bool
  deriving DecidableEq, Repr

/-- The format of a code of R41; a code that is no float format is read as f32 (never asked). -/
def ffmt (f : BitVec 4) : FFmt :=
  match f.toNat with
  | 1 => ⟨8, 7, 127, false⟩
  | 2 => ⟨5, 10, 15, false⟩
  | 3 => ⟨4, 3, 7, true⟩
  | 4 => ⟨5, 2, 15, false⟩
  | _ => ⟨8, 23, 127, false⟩

/-- The code names a floating-point format. -/
def isFloatFmt (f : BitVec 4) : Bool := f.toNat ≤ 4

/-- The sticky flags of ARITH_FLAGS (R80). -/
abbrev Flags := BitVec 7
def fIV : Flags := 0b0000001
def fDZ : Flags := 0b0000010
def fOF : Flags := 0b0000100
def fIRANGE : Flags := 0b0001000
def fMOVF_F : Flags := 0b0010000
def fMOVF_I : Flags := 0b0100000
def fTERN_BAD : Flags := 0b1000000

/-- The value of a bit pattern (R65). -/
def decodeF (f : BitVec 4) (v : Nat) : FVal :=
  let p := ffmt f
  let m := v % 2 ^ p.mw
  let e := natFld v p.mw p.ew
  let neg := natFld v (p.mw + p.ew) 1 = 1
  let top := 2 ^ p.ew - 1
  if e = top ∧ (if p.e4 then m = 2 ^ p.mw - 1 else m ≠ 0) then .nan
  else if e = top ∧ !p.e4 then .inf neg
  else if e = 0 then .fin neg m (1 - (p.bias : Int) - p.mw)
  else .fin neg (m + 2 ^ p.mw) ((e : Int) - p.bias - p.mw)

/-- The sign bit's weight. -/
def signBit (f : BitVec 4) (neg : Bool) : Nat := if neg then 2 ^ ((ffmt f).mw + (ffmt f).ew) else 0

/-- The canonical NaN (R66). -/
def qnan (f : BitVec 4) : Nat :=
  match f.toNat with
  | 0 => 0x7FC00000 | 1 => 0x7FC0 | 2 => 0x7E00 | 3 => 0x7F | _ => 0x7E

/-- An infinity; f8e4 has none, and is given its canonical NaN (R74). -/
def infBits (f : BitVec 4) (neg : Bool) : Nat :=
  if (ffmt f).e4 then qnan f else signBit f neg + (2 ^ (ffmt f).ew - 1) * 2 ^ (ffmt f).mw

/-- The largest finite magnitude, as a pattern without sign (R65). -/
def maxFin (f : BitVec 4) : Nat :=
  if (ffmt f).e4 then 2 ^ 7 - 2 else (2 ^ (ffmt f).ew - 1) * 2 ^ (ffmt f).mw - 1

/-- An entry of the overflow table, OVT (R77): f8e4, f8e5, f16 and bf16. -/
def ovtEntry (ovt : BitVec 10) (f : BitVec 4) : Nat :=
  match f.toNat with
  | 1 => natFld ovt.toNat 6 2
  | 2 => natFld ovt.toNat 4 2
  | 3 => natFld ovt.toNat 0 2
  | 4 => natFld ovt.toNat 2 2
  | _ => 0

/-- What an overflow gives (R74). -/
def overflowBits (ovt : BitVec 10) (f : BitVec 4) (rm : BitVec 2) (neg : Bool) : Nat :=
  if f = 0 then
    match rm.toNat with
    | 0 => infBits f neg
    | 1 => signBit f neg + maxFin f
    | 2 => if neg then signBit f true + maxFin f else infBits f false
    | _ => if neg then infBits f true else maxFin f
  else
    match ovtEntry ovt f with
    | 0 => signBit f neg + maxFin f
    | 1 => infBits f neg
    | _ => qnan f

/-- Drop k low bits of m, rounding the magnitude of a value of the sign given (R71). -/
def dropBits (rm : BitVec 2) (neg : Bool) (m k : Nat) : Nat :=
  let q := m >>> k
  let r := m % 2 ^ k
  if r = 0 then q
  else
    match rm.toNat with
    | 0 => if 2 * r > 2 ^ k ∨ (2 * r = 2 ^ k ∧ q % 2 = 1) then q + 1 else q
    | 1 => q
    | 2 => if neg then q else q + 1
    | _ => if neg then q + 1 else q

/-- The magnitude m * 2^e on the grid of a format with mw fraction bits and least exponent qmin: the rounded
significand and its exponent (R71 to R73). -/
def roundGrid (mw : Nat) (qmin : Int) (rm : BitVec 2) (neg : Bool) (m : Nat) (e : Int) : Nat × Int :=
  let q := max ((bitLen m : Int) - 1 + e - mw) qmin
  let r := if q ≤ e then m <<< (e - q).toNat else dropBits rm neg m (q - e).toNat
  if r = 2 ^ (mw + 1) then (2 ^ mw, q + 1) else (r, q)

/-- A finite non-zero real rounded into a format: its pattern and flags (R71 to R74). -/
def roundFin (ovt : BitVec 10) (f : BitVec 4) (rm : BitVec 2) (neg : Bool) (m : Nat) (e : Int) : Nat × Flags :=
  let p := ffmt f
  let qmin : Int := 1 - (p.bias : Int) - p.mw
  let (r, q) := roundGrid p.mw qmin rm neg m e
  let bits := if r < 2 ^ p.mw then r else ((q - qmin + 1).toNat) * 2 ^ p.mw + (r - 2 ^ p.mw)
  if maxFin f < bits then (overflowBits ovt f rm neg, fOF) else (signBit f neg + bits, 0)

/-- round(v, f, rm) of a value (R38, R79): NaN gives the canonical NaN, infinities and zeros keep their sign. -/
def roundF (ovt : BitVec 10) (f : BitVec 4) (rm : BitVec 2) (v : FVal) : Nat × Flags :=
  match v with
  | .nan => (qnan f, 0)
  | .inf neg => if (ffmt f).e4 then (overflowBits ovt f rm neg, fOF) else (infBits f neg, 0)
  | .fin neg m e => if m = 0 then (signBit f neg, 0) else roundFin ovt f rm neg m e

/-- Exact negation. -/
def FVal.negate : FVal → FVal
  | .nan => .nan
  | .inf n => .inf (!n)
  | .fin n m e => .fin (!n) m e

/-- Exact product; the flag says ∞ × 0 (R67, R68). -/
def mulF (a b : FVal) : FVal × Bool :=
  match a, b with
  | .nan, _ => (.nan, false)
  | _, .nan => (.nan, false)
  | .inf n, .inf n' => (.inf (n != n'), false)
  | .inf n, .fin n' m _ => if m = 0 then (.nan, true) else (.inf (n != n'), false)
  | .fin n' m _, .inf n => if m = 0 then (.nan, true) else (.inf (n != n'), false)
  | .fin n m e, .fin n' m' e' => (.fin (n != n') (m * m') (e + e'), false)

/-- The signed significand of a finite value on the grid 2^e0 (e0 at most its exponent). -/
def scaled (e0 : Int) : FVal → Int
  | .fin n m e => let v : Int := ((m <<< (e - e0).toNat : Nat) : Int); if n then -v else v
  | _ => 0

/-- The least exponent among finite non-zero values. -/
def minExp : List FVal → Option Int
  | [] => none
  | .fin _ m e :: r =>
    if m = 0 then minExp r else some (match minExp r with | none => e | some e' => min e e')
  | _ :: r => minExp r

/-- Sum of the scaled significands. -/
def sumScaled (e0 : Int) : List FVal → Int
  | [] => 0
  | .fin n m e :: r => if m = 0 then sumScaled e0 r else scaled e0 (.fin n m e) + sumScaled e0 r
  | _ :: r => sumScaled e0 r

/-- A NaN is among the values. -/
def anyNan (l : List FVal) : Bool := l.any (fun v => v = .nan)
/-- An infinity of the sign given is among the values. -/
def anyInf (l : List FVal) (neg : Bool) : Bool := l.any (fun v => v = .inf neg)
/-- Every value is a zero of the sign given. -/
def allZero (l : List FVal) (neg : Bool) : Bool :=
  l.all (fun v => match v with | .fin n m _ => m = 0 && n = neg | _ => false)

/-- The exact sum of values, the sign of an exact zero taken under R68 for the mode; the flag says that +∞ and -∞ met.
DESIGN CHOICE (log 49): where a NaN stands beside both infinities, the NaN decides and the flag is not raised. -/
def sumF (rm : BitVec 2) (l : List FVal) : FVal × Bool :=
  if anyNan l then (.nan, false)
  else if anyInf l true && anyInf l false then (.nan, true)
  else if anyInf l true then (.inf true, false)
  else if anyInf l false then (.inf false, false)
  else
    match minExp l with
    | none => if l = [] then (.fin false 0 0, false)
              else if allZero l true then (.fin true 0 0, false)
              else if allZero l false then (.fin false 0 0, false)
              else (.fin (rm = 3) 0 0, false)
    | some e0 =>
      let s := sumScaled e0 l
      if s = 0 then (.fin (rm = 3) 0 0, false) else (.fin (s < 0) s.natAbs e0, false)

/-- IV when a flag is raised. -/
def ivIf (b : Bool) : Flags := if b then fIV else 0

/-- round of an exact sum (R79, R153). -/
def sumRound (ovt : BitVec 10) (f : BitVec 4) (rm : BitVec 2) (l : List FVal) : Nat × Flags :=
  let s := sumF rm l
  let r := roundF ovt f rm s.1
  (r.1, r.2 ||| ivIf s.2)

/-- The fused a * b + c with one rounding: ∞ * 0 formed inside sets IV whatever c is, and a NaN operand alone sets no flag
(R79, R142). -/
def fmaRound (ovt : BitVec 10) (f : BitVec 4) (rm : BitVec 2) (a b c : FVal) : Nat × Flags :=
  let p := mulF a b
  if p.2 then (qnan f, fIV)
  else if anyNan [a, b, c] then (qnan f, 0)
  else sumRound ovt f rm [p.1, c]

/-- The product rounded once. -/
def mulRound (ovt : BitVec 10) (f : BitVec 4) (rm : BitVec 2) (a b : FVal) : Nat × Flags :=
  let p := mulF a b
  let r := roundF ovt f rm p.1
  (r.1, r.2 ||| ivIf p.2)

/-- Compare two finite or infinite values exactly; zeros are equal. -/
def cmpF (a b : FVal) : Ordering :=
  match a, b with
  | .inf n, .inf n' => if n = n' then .eq else if n then .lt else .gt
  | .inf n, _ => if n then .lt else .gt
  | _, .inf n => if n then .gt else .lt
  | .fin n m e, .fin n' m' e' =>
    let e0 := min e e'
    compare (scaled e0 (.fin n m e)) (scaled e0 (.fin n' m' e'))
  | _, _ => .eq

/-- The order used by minimum and maximum: -0 below +0 (R110). -/
def leF (a b : FVal) : Bool :=
  match cmpF a b with
  | .lt => true
  | .gt => false
  | .eq => (match a, b with | .fin n 0 _, .fin n' 0 _ => n || !n' | _, _ => true)

/-- Smaller of two patterns of a format; the canonical NaN when either is a NaN (R110, R142). -/
def minBits (f : BitVec 4) (a b : Nat) : Nat :=
  let x := decodeF f a
  let y := decodeF f b
  if anyNan [x, y] then qnan f else if leF x y then a else b
/-- Larger of two patterns of a format. -/
def maxBits (f : BitVec 4) (a b : Nat) : Nat :=
  let x := decodeF f a
  let y := decodeF f b
  if anyNan [x, y] then qnan f else if leF x y then b else a

/-- The float relations eq, ne, lt, le by condition code (R110, R146). -/
def fcond (c : Nat) (x y : FVal) : Bool :=
  if anyNan [x, y] then c = 1
  else
    match c with
    | 0 => cmpF x y = .eq
    | 1 => cmpF x y ≠ .eq
    | 2 => cmpF x y = .lt
    | _ => cmpF x y ≠ .gt

/-! Integer formats (R64) -/

/-- The exact value of an element of an integer format. -/
def decodeI (f : BitVec 4) (v : Nat) : Int :=
  if isSigned f then sInt v (fmtBits f) else ((v % 2 ^ fmtBits f : Nat) : Int)
/-- The least value of an integer format. -/
def minI (f : BitVec 4) : Int := if isSigned f then -(2 ^ (fmtBits f - 1)) else 0
/-- The greatest value of an integer format. -/
def maxI (f : BitVec 4) : Int := if isSigned f then 2 ^ (fmtBits f - 1) - 1 else 2 ^ fmtBits f - 1
/-- wrap(v, f) as a pattern. -/
def wrapI (f : BitVec 4) (v : Int) : Nat := wrapN v (fmtBits f)
/-- sat(v, f) as a pattern. -/
def satI (f : BitVec 4) (v : Int) : Nat := wrapN (max (minI f) (min (maxI f) v)) (fmtBits f)

/-- A finite float value rounded to an integer in a mode (R76 step 3). -/
def roundInt (rm : BitVec 2) (neg : Bool) (m : Nat) (e : Int) : Int :=
  let a : Nat := if 0 ≤ e then m <<< e.toNat else dropBits rm neg m (-e).toNat
  if neg then -(a : Int) else a

/-- The last step of a conversion to an integer format (R76 step 4). -/
def fitInt (ovt : BitVec 10) (f : BitVec 4) (v : Int) : Nat × Flags :=
  if minI f ≤ v ∧ v ≤ maxI f then (wrapI f v, 0)
  else if f = 7 ∧ natFld ovt.toNat 8 2 = 1 then (wrapI f v, fIRANGE)
  else (satI f v, fIRANGE)

/-- A t2 code's value, and TERN_BAD for code 0b10 (R69, R70). -/
def decodeT2 (v : Nat) : Int × Flags :=
  match v % 4 with
  | 0 => (0, 0) | 1 => (1, 0) | 2 => (0, fTERN_BAD) | _ => (-1, 0)

/-- An integer value as an exact float value. -/
def intF (v : Int) : FVal := .fin (v < 0) v.natAbs 0

/-- convert(v, dst, rm) between two formats of ANY (R73 dst R76). -/
def convert (ovt : BitVec 10) (frm dst : BitVec 4) (rm : BitVec 2) (v : Nat) : Nat × Flags :=
  if isFloatFmt frm then
    let x := decodeF frm v
    if isFloatFmt dst then roundF ovt dst rm x
    else
      match x with
      | .nan => (0, fIV)
      | .inf neg => (wrapI dst (if neg then minI dst else maxI dst), fIRANGE)
      | .fin neg m e => fitInt ovt dst (roundInt rm neg m e)
  else
    let i := decodeI frm v
    if isFloatFmt dst then roundF ovt dst rm (intF i) else fitInt ovt dst i

/-- vcvt of one element: a bit copy between equal formats, t2 on its own terms (R148, R149). -/
def convertElem (ovt : BitVec 10) (frm dst : BitVec 4) (rm : BitVec 2) (v : Nat) : Nat × Flags :=
  if frm = dst then (v, 0)
  else if frm = 13 then ((decodeT2 v).1 |> wrapI 7, (decodeT2 v).2)
  else if dst = 13 then
    let i := decodeI 7 v
    if 1 < i then (1, fIRANGE) else if i < -1 then (3, fIRANGE) else (wrapN i 2, 0)
  else convert ovt frm dst rm v

/-! Exact quotients and roots, then one rounding -/

/-- An exact quotient a / b (b not 0) as a magnitude with a sticky lowest bit, at least 96 significant bits. -/
def divMag (m : Nat) (e : Int) (m' : Nat) (e' : Int) : Nat × Int :=
  let k := 96 + bitLen m'
  let n := m <<< k
  (2 * (n / m') + (if n % m' = 0 then 0 else 1), e - e' - k - 1)

/-- The integer square root by bisection, with fuel for the number of result bits. -/
def isqrtGo (n : Nat) : Nat → Nat → Nat
  | 0, r => r
  | k + 1, r => let r' := r + 2 ^ k; isqrtGo n k (if r' * r' ≤ n then r' else r)
/-- The integer square root. -/
def isqrt (n : Nat) : Nat := isqrtGo n (bitLen n / 2 + 1) 0

/-- An exact square root as a magnitude with a sticky lowest bit. -/
def sqrtMag (m : Nat) (e : Int) : Nat × Int :=
  let k : Nat := if (e - 192) % 2 = 0 then 192 else 193
  let n := m <<< k
  let r := isqrt n
  (2 * r + (if r * r = n then 0 else 1), (e - k) / 2 - 1)

end Sys2Proof.Machine
end

