-- ==== Sys2Proof/Machine/State.lean ====
section
/-! DEFINITION. Sys2Proof/Machine/State.lean: the state of a pod of GZ7A chips, all the spec gives it, as plain data.
A map (AMap) lists only what differs from its default. Reset values without a rule are in log 1 and log 15. -/

namespace Sys2Proof.Machine

/-- Why the machine stops instead of taking a step. -/
inductive Fault where
  /-- Raised by the meaning of a step or event of the device at a state in which that step does not occur (log 16).
  Safe: the device has no such step there, and Step never selects one. -/
  | notEnabled
  deriving DecidableEq, Repr

/-- Why the machine refuses. -/
inductive Refusal where
  /-- Raised by Dispatch for an instruction without a meaning yet. Safe. -/
  | notModelled (mnemonic : String)
  /-- Raised by the slot dispatcher for a row that is no slot operation; no decoded bundle holds one. Safe. -/
  | notASlotOperation
  deriving DecidableEq, Repr

/-! ## A context -/

/-- The states of R18. -/
inductive CtxState where
  | running | ready | blocked | dormant | frozen | halted
  deriving DecidableEq, Repr

/-- What a Frozen context waits for (R126, R236, R265, R363, R369, R389). -/
inductive FreezeCause where
  | none
  /-- An absent page of a member's table: chip, extent, page. -/
  | absent (chip ext page : Nat)
  | quota
  | merge
  | touch (unit : Nat)
  | dlog (id : Nat)
  deriving DecidableEq, Repr

/-- What a Blocked context waits for (R19). -/
inductive BlockCause where
  | none
  | fifo (b : Bool)
  | queue (q : Nat)
  | window (n : Nat)
  | counter (cc thr : Nat)
  | yield
  deriving DecidableEq, Repr

/-- The register files of a context (R9), with loop counters and rotating bases. -/
structure Regs where
  a : Vector (BitVec 64) 32
  b : Vector (BitVec 64) 32
  pa : BitVec 8
  pb : BitVec 8
  x : Vector (BitVec 1024) 32
  y : Vector (BitVec 1024) 32
  z : Vector (BitVec 1024) 32
  mx : Vector (BitVec 128) 8
  my : Vector (BitVec 128) 8
  mz : Vector (BitVec 128) 8
  w : Vector (BitVec 1024) 16
  g : Vector (BitVec 64) 16
  h : Vector (BitVec 64) 16
  e : Vector (BitVec 64) 8
  c : Vector (BitVec 4096) 8
  lc : Vector (BitVec 32) 8
  rb : Vector (BitVec 4) 4
  deriving DecidableEq, Repr

/-- Every register 0 (R222). -/
def Regs.zero : Regs :=
  { a := Vector.replicate 32 0, b := Vector.replicate 32 0, pa := 0, pb := 0, x := Vector.replicate 32 0,
    y := Vector.replicate 32 0, z := Vector.replicate 32 0, mx := Vector.replicate 8 0, my := Vector.replicate 8 0,
    mz := Vector.replicate 8 0, w := Vector.replicate 16 0, g := Vector.replicate 16 0, h := Vector.replicate 16 0,
    e := Vector.replicate 8 0, c := Vector.replicate 8 0, lc := Vector.replicate 8 0, rb := Vector.replicate 4 0 }

/-- A destination of a fixed-latency result. Numbers of x, y and z are physical (R116). -/
inductive Dest where
  | a (n : BitVec 5) | b (n : BitVec 5)
  | pa (n : BitVec 3) | pb (n : BitVec 3)
  | x (n : BitVec 5) | y (n : BitVec 5) | z (n : BitVec 5)
  | mx (n : BitVec 3) | my (n : BitVec 3) | mz (n : BitVec 3)
  | w (n : BitVec 4) | g (n : BitVec 4) | h (n : BitVec 4)
  | e (n : BitVec 3) | c (n : BitVec 3)
  | lc (n : BitVec 3) | rb (n : BitVec 2)
  | csr (n : BitVec 12)
  /-- No destination: a result that only sets flags. -/
  | none
  deriving DecidableEq, Repr

/-- What a scratchpad load has read of one piece or element: pool offset and bytes, the bit of the value they stand at, the
format they are widened from (0: none), and the slot and scratchpad address of the load. -/
structure PoolSrc where
  off : Nat
  n : Nat
  bit : Nat
  fmt : BitVec 4
  slot : Nat
  at_ : Nat
  deriving DecidableEq, Repr

/-- A fixed-latency result in flight (R30): value, the bits it writes, its issue cycle and bound, its flags, and the
segment instance that issued it (0 outside segments). -/
structure Landing where
  dest : Dest
  val : BitVec 4096
  en : BitVec 4096
  issued : Nat
  bound : Nat
  flags : Flags
  inst : Nat
  /-- The E command whose result it is, 0 for a fixed-latency result (R207). -/
  id : Nat
  /-- Of a scratchpad load of several 64-byte pieces, until the context does something that its reading comes before: what it
  has read where (R254). -/
  pool : List PoolSrc
  deriving DecidableEq, Repr

/-- A slot's held-operation memory (R24, R49): the operation and its held offset. -/
structure Held where
  op : Option Instr
  off : BitVec 32
  deriving DecidableEq, Repr

/-- An element of the scoreboard (R32). -/
inductive Elem where
  | tile (n : Nat)
  | acc (n : Nat)
  | lat (n : Nat)
  | reg (d : Dest)
  deriving DecidableEq, Repr

/-- A busy bit: the element, and the access or command that clears it. `core` marks a bit set by an M-class form (R192). -/
structure Busy where
  elem : Elem
  id : Nat
  core : Bool
  deriving DecidableEq, Repr

/-- The running signature (R59). -/
structure Sig where
  crc : BitVec 32
  sigv : BitVec 32
  live : Bool
  deriving DecidableEq, Repr

/-- How the next bundle is reached (R28, R58, R59): an entry or taken transfer, a fall-through out of a block-ending
bundle, a plain fall-through, or the same execution again. -/
inductive Arrive where
  | taken | afterEnd | plain | again
  deriving DecidableEq, Repr

/-- The trap record (R35), the address it recorded and the kept running signature (R126, R127). -/
structure TrapRec where
  pc : BitVec 64
  info : BitVec 64
  valid : Bool
  retry : Bool
  reason : BitVec 10
  slots : BitVec 11
  code : BitVec 8
  recorded : BitVec 64
  sig : Sig
  /-- The remaining repeat count of the recorded bundle (R127), its operations as stepped so far (R26), how the bundle was
  to be reached and the bundle before it: its first decode is still owed unless `arrive` says the same execution (R59). -/
  rep : Nat
  repOn : Bool
  held : Vector Held 11
  arrive : Arrive
  last : BitVec 64
  /-- How it was first reached and the running signature before it was fed, for a new execution after a rewind (R59, R332). -/
  arrive0 : Arrive
  sig0 : Sig
  deriving DecidableEq, Repr

/-- The retry record of R126. -/
structure Retry where
  code : BitVec 8
  pc : BitVec 64
  info : BitVec 64
  deriving DecidableEq, Repr

/-- The identifiers of R130. -/
structure Idents where
  core : BitVec 64
  clus : BitVec 64
  chip : BitVec 64
  stage : BitVec 64
  ctx : BitVec 64
  gang : BitVec 64
  nchips : BitVec 64
  nstages : BitVec 64
  ncores : BitVec 64
  deriving DecidableEq, Repr

/-- The control and status registers of a context that hold state of their own. -/
structure Csr where
  flags : Flags
  ovt : BitVec 10
  slackDef : BitVec 12
  aliasDef : BitVec 4
  pmode : Bool
  mode : Bool
  tvec : BitVec 64
  pinShort : BitVec 32
  mchkFrow : BitVec 8
  mchkUnchk : BitVec 16
  mchkN : BitVec 16
  engStat : BitVec 3
  ctxHdl : BitVec 64
  ovfBase : BitVec 64
  ovfQuota : BitVec 16
  ovfHwm : BitVec 16
  ovfSpills : BitVec 16
  occLimit : BitVec 32
  poolLimit : BitVec 32
  poolAccs : BitVec 5
  poolTiles : BitVec 8
  memClamps : BitVec 32
  scopeClamp : Bool
  revCur : BitVec 64
  ccnt : Vector (BitVec 32) 16
  winBind : Vector (BitVec 64) 16
  winMax : Vector (BitVec 16) 16
  winAvail : Vector (BitVec 16) 16
  slackCtl : BitVec 9
  slackExh : BitVec 32
  flowCur : BitVec 8
  collWovf : BitVec 16
  collBusy : BitVec 16
  collDone : BitVec 16
  eagerNoslot : BitVec 32
  eagerOvrel : Bool
  segRewinds : BitVec 16
  segPrewinds : BitVec 8
  segLcause : BitVec 4
  segRabt : Bool
  segEntry : BitVec 32
  segGroup : BitVec 8
  segWrid : BitVec 16
  deriving DecidableEq, Repr

/-- An E command waiting in a queue: its row, the e registers read at issue, its slack and the issuing instance. -/
structure ECmd where
  id : Nat
  op : Instr
  ea : BitVec 64
  eb : BitVec 64
  slack : BitVec 12
  rallow : BitVec 4
  exq : Bool
  evcc : Nat
  flow : Nat
  ovt : BitVec 10
  rev : BitVec 64
  po : Nat
  inst : Nat
  /-- For an absent bit that has been set: accesses numbered below it were translated before (R368); 0 before that. -/
  stamp : Nat
  /-- Of a command that sends packets in a flow of the context: the destination chip, the first SEQ, ORDS, the mode of the
  flow, and the number of its packets, all as at its issue (R278, R291, R301). -/
  dst : Nat
  seq : Nat
  ords : Bool
  mode : BitVec 2
  parts : Nat
  deriving DecidableEq, Repr

/-- A copy command, its descriptor read at issue (R209, R211). -/
structure CopyCmd where
  id : Nat
  who : Who
  cc : Nat
  sk : Nat
  dk : Nat
  esz : Nat
  sbase : Nat
  dbase : Nat
  dims : List (Nat × Int × Int)
  /-- The M form of the same bundle it starts after (R212). -/
  after : Option Nat
  inst : Nat
  deriving DecidableEq, Repr

/-- An entry of an operand FIFO (R188): its bytes, poison, and the instance and copy that pushed it. -/
structure FifoEntry where
  bytes : List Byte
  poison : Bool
  copy : Nat
  inst : Nat
  deriving DecidableEq, Repr

/-- An arrival record (R227, R391): e0, e1, the handler offset and its size in queue order. -/
structure Arrival where
  e0 : BitVec 64
  e1 : BitVec 64
  hoff : Nat
  /-- The clock at which its payload had landed, for arrivals of one cycle. -/
  since : Nat
  deriving DecidableEq, Repr

/-- An entry of the overflow ring (R234): the queue it belongs to. -/
inductive RingEntry where
  | e (c : ECmd)
  | copy (eng : Nat) (c : CopyCmd)
  | rcv (r : Arrival)
  deriving DecidableEq, Repr

/-- The views of the eager rings a context holds (R321). -/
structure EagerView where
  sent : BitVec 32
  tail : BitVec 32
  head : BitVec 32
  rel : BitVec 32
  deriving DecidableEq, Repr

/-- The state a segment instance shadows and a rewind restores (R332). -/
structure Shadow where
  regs : Regs
  held : Vector Held 11
  rep : Nat
  repOn : Bool
  arrive : Arrive
  sig : Sig
  flags : Flags
  slackDef : BitVec 12
  slackCtl : BitVec 9
  flowCur : BitVec 8
  aliasDef : BitVec 4
  ctxHdl : BitVec 64
  engStat : BitVec 3
  ccnt : Vector (BitVec 32) 16
  pc : BitVec 64
  deriving DecidableEq, Repr

/-- A change of flow mode that waits to drain (R301): its program order, flow, destination chips and counter; whether
its queue entry has come to the head. -/
structure FlowWait where
  id : Nat
  po : Nat
  flow : Nat
  dsts : List Nat
  cc : Nat
  inst : Nat
  atHead : Bool
  deriving DecidableEq, Repr

/-- A fence that orders later accesses (R182): its program-order number, kind and scope. -/
structure FenceRec where
  po : Nat
  kind : Nat
  scope : Nat
  deriving DecidableEq, Repr

/-- A late fault waiting to be raised (R436). -/
structure LateFault where
  code : BitVec 8
  info : BitVec 64
  /-- The segment instance of the access, and whether poison landed in another instance than that one (R334). -/
  inst : Nat
  stale : Bool
  freeze : FreezeCause
  deriving DecidableEq, Repr

/-- A trap to take: cause, information, the address it is recorded at, REASON and SLOTS, and what a freeze waits for. -/
structure TrapArgs where
  code : BitVec 8
  info : BitVec 64
  pc : BitVec 64
  reason : BitVec 10
  slots : BitVec 11
  freeze : FreezeCause
  deriving DecidableEq, Repr

/-- A trap to TVEC that waits for a commit (R329), and the instance its cause belongs to: a rewind of that one drops it. -/
structure Pend where
  args : TrapArgs
  inst : Nat
  deriving DecidableEq, Repr

/-- One hardware context. -/
structure Ctx where
  st : CtxState
  from_ : CtxState
  freeze : FreezeCause
  block : BlockCause
  pc : BitVec 64
  lastPc : BitVec 64
  arrive : Arrive
  /-- How the bundle at pc was first reached, and the running signature before it was fed (R59, R332). -/
  arrive0 : Arrive
  sig0 : Sig
  /-- Set by an executed control transfer of the issuing bundle: the target, and true when it is a plain rfe. -/
  next : Option (BitVec 64 × Bool)
  /-- The address of the bundle after the issuing one. -/
  fall : BitVec 64
  /-- The issuing bundle's operations have set pc themselves (a trap). -/
  moved : Bool
  /-- A halt that waits for its instance to commit (R329). -/
  halting : Bool
  /-- A trap that waits for its instance to commit (R329). -/
  pend : Option Pend
  rep : Nat
  repOn : Bool
  regs : Regs
  held : Vector Held 11
  /-- After an rfe that resumes a repeated bundle: its operations as the trap kept them (R26, R127). -/
  resume : Option (Vector Held 11)
  /-- Flags set by completions while a csrw of ARITH_FLAGS is in flight: the cycle, the instance, the flags (R81). -/
  sets : List (Nat × Nat × Flags)
  flight : List Landing
  /-- Snapshot results of a restore that wait for the context's first issue, with the cycles left as their bounds (R392). -/
  snaps : List Landing
  busy : List Busy
  sig : Sig
  trap : TrapRec
  retry : Option Retry
  csr : Csr
  ids : Idents
  imageBase : BitVec 64
  noMatrix : Bool
  -- segments
  inSeg : Bool
  segRetry : Bool
  segSafe : Bool
  segIssues : Nat
  segInst : Nat
  segLast : Nat
  shadow : Option Shadow
  closing : List ECmd
  holds : List Nat
  entryNext : Bool
  /-- A closing bundle has issued in the open instance, whatever its guard: the commit is due (R329, R331). -/
  closeDue : Bool
  /-- After a yield: the contexts that must issue one bundle first (R124). -/
  yieldFor : List Nat
  -- order
  po : Nat
  fences : List FenceRec
  /-- The clock at which every scratchpad load, and every acquire scratchpad load, has landed (R181, R182). -/
  loadUntil : Nat
  acqUntil : Nat
  late : List LateFault
  -- queues
  eq : List ECmd
  eHead : Option ECmd
  cq0 : List CopyCmd
  cq1 : List CopyCmd
  rq : List Arrival
  ring : List RingEntry
  /-- Entries on their way to the ring, of queues that have entries there (R234, R363). -/
  ovfWait : List RingEntry
  fifoA : List FifoEntry
  fifoB : List FifoEntry
  owedA : Nat
  owedB : Nat
  latFmt : Vector (BitVec 4) 4
  latDef : BitVec 4
  /-- bsum of each latch, exact (R195). -/
  bsum : AMap Nat (List FVal)
  eager : AMap Nat EagerView
  /-- Flow modes that wait to drain (R301). -/
  flowWait : List FlowWait
  /-- Next SEQ per (destination chip, flow), and ORDS pending. -/
  seqs : AMap (Nat × Nat) Nat
  modes : AMap (Nat × Nat) (BitVec 2)
  ords : List (Nat × Nat)
  fcyc : Nat
  fcycFrom : Nat
  /-- Payload bytes of queued commands that have been read ahead of the others: command, byte, value and poison (R214, R322). -/
  taken : List (Nat × Nat × Byte × Bool)
  /-- Acknowledged packets of each message that has more than one (R278). -/
  acks : AMap Nat Nat
  /-- What a spill of its queues has met, as raised: 0 nothing, 1 a range fault, else a page (R436). -/
  ovfTold : Nat
  deriving DecidableEq, Repr

/-! ## Accesses and packets -/

/-- A message in flight between the controllers of chips (R378, R379, R393): gang, epoch and slot index of the boundary,
and its content. -/
inductive VoteMsg where
  | prepare (g epoch slot : Nat)
  | ack (g epoch slot member : Nat) (s r : AMap Nat Nat)
  | refuse (g epoch slot member reason : Nat)
  | commit (g epoch slot : Nat)
  /-- `why`: 2 by refusal, 3 by timeout (R385). -/
  | abort (g epoch slot why : Nat)
  | ready (g epoch slot member : Nat)
  | notready (g epoch slot member : Nat)
  /-- `stop`: some member's save area has overflowed (R387). -/
  | go (g epoch slot : Nat) (stop : Bool)
  | halt (g epoch slot : Nat)
  | peerReset (g member : Nat)
  | deltas (d : List (Nat × Int))
  /-- A column's report of a frame: chip, run cycles of each tenant, the tenant of each slot's cell, frame cycles. -/
  | report (chip : Nat) (run cells : List (Nat × Nat)) (frame : Nat)
  deriving DecidableEq, Repr

/-- What an access or packet does where it is performed. -/
inductive AccOp where
  /-- ldg: bytes to a register. -/
  | load (n : Nat) (d : Dest)
  /-- stg, a row of stt, or a window store: bytes written. -/
  | store (bytes : List Byte)
  /-- An atomic (opcode), size, operand and comparand (R177). -/
  | atomic (f : Nat) (n : Nat) (v c : BitVec 64) (d : Dest)
  /-- A line of ldt: length and tile offset (R173). -/
  | row (n : Nat) (off : Nat)
  /-- A row of ldtp. -/
  | prefetch (n : Nat)
  /-- An L2 control form: 0 pin, 1 unpin, 2 inv; length and retention register (R185). -/
  | l2 (kind len ret : Nat)
  /-- A line of stt that has not been read out: length and tile offset (R173). -/
  | sttRow (n : Nat) (off : Nat)
  /-- sct in the segment store buffer: pool writes in order (R183). -/
  | pool (writes : List (Nat × List Byte))
  /-- A packet of an active message: its payload bytes for a context of the target core, the handler offset, and the place of
  the packet among those of the message, which its first packet's number names (R214, R278). -/
  | amsg (bytes : List Byte) (ctx hoff cc msg part parts : Nat)
  /-- task.dec toward a member (R215). -/
  | taskDec (idx amount cc : Nat)
  /-- A packet of a slot write of an eager ring (R322): ring, slot and payload, and its place among those of the write. -/
  | slot (ring idx : Nat) (bytes : List Byte) (cc msg part parts : Nat)
  /-- A release notice (R323). -/
  | notice (ring n cc : Nat)
  /-- A gang-barrier arrival (R394). -/
  | gbar (id n cc : Nat)
  /-- A gang-barrier completion on its way back. -/
  | gbarDone (cc : Nat) (bmis : Bool)
  /-- A command on its way to a unit of its own chip: scheduler, barriers, Sorrel (R207, R281). -/
  | cmd (k : ECmd)
  /-- A message between the controllers of chips (R379). -/
  | vote (m : VoteMsg)
  /-- A control flit of a collective (R315): its tag; kind 0 a member's start, 1 go, 2 abort; the member, status and CRC. -/
  | flit (tag kind member status : Nat) (crc : BitVec 32)
  /-- A packet of a chunk of a collective (R316): tag, step and bytes. -/
  | chunk (tag step : Nat) (bytes : List Byte)
  /-- The writeback of a dirty line that the L2 gives up, with the gang context that filled it (R247, R410). -/
  | writeBack (g : Nat)
  deriving DecidableEq, Repr

/-- Where an access goes (R362, R180). -/
inductive Target where
  /-- A DPA of this chip. -/
  | dpa (a : Nat)
  /-- A member's table at va' (R362). -/
  | peer (va : Nat)
  /-- A host address through a port. -/
  | host (port : Nat) (a : Nat)
  /-- The pool of a core of the target chip, at an offset. -/
  | pool (clus core off : Nat)
  /-- A unit of the target chip: scheduler, barrier coordinator, eager ring. -/
  | unit
  deriving DecidableEq, Repr

/-- Where an access or packet stands. -/
inductive Stage where
  /-- In the segment store buffer (R183). -/
  | buffered
  /-- Leaves its core once the ordering rules allow it (R181, R182, R292, R301). -/
  | core
  /-- An stt whose tile has not been read out (R173). -/
  | readout
  /-- Eligible at the on-die router of its own chip (R282). -/
  | router
  /-- Eligible at the die bridge of a chip (R282): 0 after the router of a request's own chip, 1 of its target's, 2 and 3 the
  same of its reply. -/
  | bridge (k : Nat)
  /-- Eligible at a port's egress (R282). -/
  | egress
  /-- On a link toward the destination: its copies are wires. -/
  | link
  /-- In the destination's ingress, accepted. -/
  | ingress
  /-- In the destination's reorder buffer (R291). -/
  | reorder
  /-- Eligible at the on-die router of the destination. -/
  | inRouter
  /-- At the unit, pool or table of the destination that takes it. -/
  | target
  /-- At its home slice (R244). -/
  | slice
  /-- A fill of the slice waits at the watermark (R409). -/
  | wmHold
  /-- A fill on its way to a memory controller, tagged with its phase and with the map it used (R409). -/
  | mc (phase : Nat) (map : BitVec 12)
  /-- Waits at Sorrel for a slot or a pool page (R264, R265). -/
  | sorrel
  /-- Waits for its dirty-log record (R369). -/
  | dlog
  /-- May be performed at its point of coherence. -/
  | ready
  /-- Held at the target for an absent page (R362). -/
  | absent
  /-- Held unperformed since PREPARE (R380). -/
  | voteHold
  /-- A reply at the router of the chip that performed the request. -/
  | replyRouter
  /-- A reply at that chip's egress. -/
  | replyEgress
  /-- A reply on a link. -/
  | replyLink
  /-- A reply in the issuer's ingress. -/
  | replyIngress
  /-- A reply at the router of the issuer's chip. -/
  | replyOut
  /-- A reply that has reached its core. -/
  | home
  /-- A barrier arrival or a join that waits for its instance to complete (R217, R268, R394). -/
  | parked
  /-- Performed; a value waits to land. -/
  | landing
  deriving DecidableEq, Repr

/-- An access or packet (R179, R279, R290): program order, extension fields and progress. -/
structure Pkt where
  id : Nat
  who : Who
  gctx : Nat
  slot : Nat
  op : AccOp
  va : Nat
  /-- The effective address of the form, before alignment (R165, R166). -/
  ea : Nat
  target : Target
  dst : Nat
  po : Nat
  ac : Nat
  ord : Nat
  scope : Nat
  ef : Bool
  reach : Nat
  flow : Nat
  seq : Nat
  ordf : Bool
  ords : Bool
  crit : Bool
  slack : Nat
  sub : Nat
  exh : Bool
  exq : Bool
  evcc : Nat
  rallow : Nat
  stage : Stage
  since : Nat
  /-- The issue cycle of the access, by its core's clock (log 29). -/
  born : Nat
  /-- The port it came in through, and the one its sender has named for it (R316). -/
  port : Nat
  via : Option Nat
  resv : Bool
  inst : Nat
  rev : Nat
  result : List Byte
  rflags : Flags
  poison : Bool
  /-- A fault the reply reports: the cause code. -/
  fault : BitVec 8
  performed : Bool
  /-- The pieces already performed: of 64 bytes, by the number of the piece, or of one byte (R254). -/
  pieces : List Nat
  /-- What it waits for at Sorrel, as raised in its context: 0 nothing, 1 MERGE_LIMIT, else a page (R264, R265). -/
  told : Nat
  win : Option Nat
  /-- The tile transfer it is a line of, 0 for none. -/
  xfer : Nat
  dropLanding : Bool
  /-- Captured and presented again after GO: every new packet of its flow stands behind it (R386). -/
  again : Bool
  deriving DecidableEq, Repr

/-- A copy of a packet on a link, or waiting at its sender's egress to be sent again (R294, R299): the packet, its flow and
SEQ, its direction and port, its slack, and whether its one resending has been asked for. -/
structure Wire where
  pkt : Nat
  who : Who
  gctx : Nat
  flow : Nat
  dst : Nat
  seq : Nat
  crit : Bool
  back : Bool
  unit : Bool
  port : Nat
  slack : Nat
  sub : Nat
  exh : Bool
  since : Nat
  tried : Bool
  out : Bool
  deriving DecidableEq, Repr

/-- A tile transfer in progress (R173): an ldt, or an stt that is out to memory; its lines are packets. -/
structure Xfer where
  id : Nat
  who : Who
  out : Bool
  tile : Nat
  inst : Nat
  buffered : Bool
  /-- Bytes of the tile that have been moved ahead of the others, with what an stt has read there (R241, R254). -/
  moved : List (Nat × Byte × Bool)
  deriving DecidableEq, Repr

/-! ## A core -/

/-- What a form has read at its last row (R193): the latch or tile bytes or the accumulator, bsum, and the tag. -/
structure FormRead where
  bytes : List Byte
  bsum : List FVal
  tag : BitVec 2
  deriving DecidableEq, Repr

/-- An M-class form from issue to completion (R192). -/
structure MForm where
  id : Nat
  who : Who
  op : Instr
  inst : Nat
  /-- Its place in program order, and the revision its context runs in (R251, R268). -/
  po : Nat
  rev : Nat
  issued : Nat
  started : Bool
  need : Nat
  got : List FifoEntry
  /-- Set once its last row has been read, before its completion (R193). -/
  read : Option FormRead
  /-- Pool bytes read ahead of the others, with their poison; the accumulator it adds into or checks, once read; and the bytes
  of its result that have been written ahead of the others (R241, R254). -/
  early : List (Nat × Byte × Bool)
  old : Option (List Byte)
  moved : List Nat
  ovt : BitVec 10
  ka : BitVec 4096
  kb : BitVec 4096
  deriving DecidableEq, Repr

/-- A copy in an engine (R210): elements moved, and bytes gathered for the next FIFO entry. -/
structure CopyRun where
  cmd : CopyCmd
  pos : Nat
  part : List Byte
  poison : Bool
  /-- Bytes of the copy that have been moved ahead of the others; of a copy to a FIFO they are kept here (R212, R254). -/
  moved : List (Nat × Byte × Bool)
  deriving DecidableEq, Repr

/-- A pool unit (R388): owner, WANTED by the running gang, and a move in progress. -/
structure PoolUnit where
  owner : Option Nat
  wanted : Bool
  moving : Bool
  deriving DecidableEq, Repr

/-- One logical core. -/
structure Core where
  clk : Nat
  run : Option Nat
  last : Nat
  mq : List MForm
  accTag : Vector (BitVec 2) 16
  ck : AMap Nat (List FVal)
  uf : AMap Nat (BitVec 128)
  cur0 : Option CopyRun
  cur1 : Option CopyRun
  units : AMap Nat PoolUnit
  spills : BitVec 16
  fills : BitVec 16
  deriving DecidableEq, Repr

/-! ## A gang context on a chip -/

/-- A translation entry (R361). -/
structure XEntry where
  kind : Nat
  r : Bool
  w : Bool
  x : Bool
  dlog : Bool
  hport : Nat
  domain : Nat
  member : Nat
  base : Nat
  absent : BitVec 128
  /-- Stage-one BASE, for step 9 of a launch and dirty records (R357, R369). -/
  gbase : Nat
  deriving DecidableEq, Repr

/-- A task index of the scheduler (R215). -/
structure Task where
  posted : Bool
  c : Int
  entry : BitVec 64
  arg : BitVec 64
  /-- The child revision of a spawned task, 0 for the root. -/
  rev : Nat
  deriving DecidableEq, Repr

/-- A ready task in or before the dispatch window (R230): an index, or a forked task's own entry. -/
structure WTask where
  idx : Option Nat
  entry : BitVec 64
  arg : BitVec 64
  rev : Nat
  /-- The clock at which it became ready. -/
  since : Nat
  deriving DecidableEq, Repr

/-- A request to a unit of the chip carried by the on-die network: tasks, barriers, Sorrel. -/
structure UnitReq where
  id : Nat
  who : Who
  cmd : ECmd
  deriving DecidableEq, Repr

/-- A barrier instance (R217, R394): expected count and arrivals, each a context, its counter, and its chip. -/
structure Barrier where
  n : Nat
  arrivals : List (Who × Nat)
  deriving DecidableEq, Repr

/-- A region of the region table (R257). -/
structure Region where
  base : Nat
  size : Nat
  fmt : BitVec 4
  merge : Nat
  esz : Nat
  deriving DecidableEq, Repr

/-- A live child revision (R260, R268). -/
structure Rev where
  num : Nat
  serial : Nat
  parent : Nat
  depth : Nat
  /-- 0 not started, 1 running, 2 its halt has committed. -/
  task : Nat
  joining : Bool
  deriving DecidableEq, Repr

/-- A queued join (R268): of its parent's queue, by list order. `cmd` is none for an implicit join, made for `outer`. -/
structure JoinRec where
  id : Nat
  who : Who
  cmd : Option ECmd
  outer : Nat
  child : Nat
  parent : Nat
  /-- Granules merged, for this child and for every merge the join has performed; conflicts and flags. -/
  done : List Nat
  /-- Elements merged of the granule being merged, which are the first of it (R266). -/
  pos : Nat
  grans : Nat
  confs : Nat
  flags : Flags
  /-- What it waits for, as raised in its issuer: 0 nothing, 1 MERGE_LIMIT, else a page (R264, R265). -/
  told : Nat
  deriving DecidableEq, Repr

/-- A slot of the ancestor pool in use (R263): a child's own granule, or an ancestor copy that serves children. -/
structure SlotUse where
  slot : Nat
  gran : Nat
  rev : Nat
  serves : List Nat
  deriving DecidableEq, Repr

/-- A ring of the eager ring table (R320). -/
structure Ring where
  smem : Nat
  sclus : Nat
  score : Nat
  sctx : Nat
  rmem : Nat
  rclus : Nat
  rcore : Nat
  rctx : Nat
  hcc : Nat
  base : Nat
  slotsz : Nat
  nslot : Nat
  deriving DecidableEq, Repr

/-- The kernel of a gang context on a member (R354 to R360). -/
structure Kernel where
  /-- Its number, which the fault records of its contexts carry. -/
  id : Nat
  vf : Nat
  q : Nat
  img : Nat
  member : Nat
  nchips : Nat
  super : Bool
  irq : Bool
  crec : Nat
  tag : BitVec 64
  entry : Nat
  dataOff : Nat
  dataSz : Nat
  tiles : Nat
  accs : Nat
  noMatrix : Bool
  stageMap : BitVec 128
  cls : Nat
  aliasDef : BitVec 4
  slackDef : BitVec 12
  quota : Nat
  ovfBase : Nat
  flows : List (BitVec 2)
  rings : List Ring
  nregs : List Region
  /-- Ancestor pool of the header: bytes and virtual address (R264). -/
  ancSz : Nat
  ancBase : Nat
  /-- 0 waiting for GO, 1 running or saved, 2 ended (R357, R223). -/
  phase : Nat
  startClk : Nat
  dtask : Nat
  darr : Nat
  drev : Nat
  tfaults : Nat
  deriving DecidableEq, Repr

/-- What a core holds of a gang that is switched out: its M queue, the side part of its accumulators, its engines (R388,
R391). -/
structure CoreSave where
  mq : List MForm
  accTag : Vector (BitVec 2) 16
  ck : AMap Nat (List FVal)
  uf : AMap Nat (BitVec 128)
  cur0 : Option CopyRun
  cur1 : Option CopyRun
  deriving DecidableEq, Repr

/-- A gang context on a chip (R374), with everything that belongs to it there. -/
structure Gang where
  loaded : Bool
  xlat : AMap Nat XEntry
  dirty : List (Nat × Nat)
  kernel : Option Kernel
  /-- Contexts and cores as saved, and the identity of the engine blocks' bytes (R391). -/
  savedCtx : List (Who × Ctx)
  cores : AMap CoreId CoreSave
  saveId : Nat
  /-- Accesses of the gang that had not left its own units at the switch (R390, R391). -/
  kept : List Pkt
  keptX : List Xfer
  keptR : List UnitReq
  nsa : List Pkt
  nsaBytes : Nat
  /-- Save areas of its contexts as the chip read them before it answered READY, their bytes by key, with the offsets of poisoned ones
  (R384, R392). -/
  image : AMap Who (List Host.Cell × List Nat)
  /-- GANG_STAT and the retention registers as they were saved (R392). -/
  savedStat : Nat
  savedRetw : List Nat
  ovf : Bool
  /-- Units whose bytes in the pool save area are valid: core block, unit (R389). -/
  poolValid : List (Nat × Nat)
  tasks : AMap Nat Task
  window : List WTask
  waiting : List WTask
  ptr : Nat
  picked : List (Who × WTask)
  bars : AMap Nat Barrier
  regions : List Region
  revs : List Rev
  slots : List SlotUse
  serial : Nat
  joins : List JoinRec
  ancBase : Nat
  ancSlots : Nat
  ancHwm : Nat
  expect : AMap (Who × Nat) Nat
  accepted : AMap (Who × Nat) (Nat × List Nat)
  /-- Packets and bytes landed of each message and slot write of which some are still to come (R228, R278). -/
  parts : AMap (Who × Nat) (Nat × Nat)
  sCnt : AMap Nat Nat
  rCnt : AMap Nat Nat
  commits : BitVec 16
  aborts : BitVec 16
  halts : BitVec 16
  lreason : BitVec 4
  lout : BitVec 8
  /-- CK_STAT (R415), and frame and slot of the last commit point (R418). -/
  ckState : Nat
  ckErr : Nat
  ckSeq : Nat
  ckGood : Bool
  ckSlot : Bool
  ckEpoch : Nat
  ckCslot : Nat
  resetDone : Bool
  runCyc : Nat
  goClk : Nat
  issues : Nat
  hbmBytes : Nat
  fabBytes : Nat
  peersReset : List Nat
  deriving DecidableEq, Repr

/-! ## A chip -/

/-- A way of an L2 set (R244 to R247). -/
structure Way where
  line : Option Nat
  /-- l2inv has invalidated the line, and the pinned way waits for its refill (R185). -/
  stale : Bool
  dirty : Bool
  pin : Option (Nat × Nat)
  ef : Bool
  filler : Option (Nat × Who)
  used : Nat
  deriving DecidableEq, Repr

/-- A fault record waiting in a pending buffer (R364, R365). -/
structure FaultRec where
  info : BitVec 64
  pc : BitVec 64
  code : BitVec 8
  lstat : Nat
  count : Nat
  who : Nat
  gctx : Nat
  hcode : Nat
  terminal : Bool
  /-- The kernel it belongs to, 0 for none (R359, R360). -/
  kern : Nat
  deriving DecidableEq, Repr

/-- A dirty-log record that waits to be written (R369): the writer, the page of a gang context, its guest-physical address
and VF; whether a full ring has frozen the writer. -/
structure DlogReq where
  id : Nat
  who : Who
  gctx : Nat
  ext : Nat
  page : Nat
  gpa : Nat
  vf : Nat
  told : Bool
  deriving DecidableEq, Repr

/-- The state of a frame (R366, R370). -/
inductive Frame where
  | free | assigned (vf : Nat) | scrubbing | reserved
  deriving DecidableEq, Repr

/-- A fabric port (R280, R313, R430). -/
structure Port where
  up : Bool
  resv : BitVec 16
  tag : BitVec 16
  dup : BitVec 16
  /-- Sequencer contexts in use, by collective. -/
  seqs : List Nat
  ptr : Nat
  deriving DecidableEq, Repr

/-- Meridian's registers and progress (R403 to R408, R425). -/
structure Mig where
  mask : BitVec 12
  phase : BitVec 32
  wmValid : Bool
  wm : Nat
  active : Bool
  stack : Nat
  fw : Bool
  last : BitVec 32
  total : BitVec 32
  replays : BitVec 32
  stalls : BitVec 32
  marked : Bool
  /-- Lines that units of the chip wait for at the watermark (R409; log 45). -/
  held : List Nat
  /-- The firmware request pending: its stack (R406, R425). -/
  request : Option Nat
  ce : AMap Nat (BitVec 32)
  ue : AMap Nat (BitVec 32)
  /-- Counts at each evaluation, newest first: (stack, CE, UE). -/
  history : List (List (Nat × Nat × Nat))
  events : Nat
  deriving DecidableEq, Repr

/-- Where Binnacle stands (R379 to R384). -/
structure Vote where
  /-- As a member of a vote: the gang, the boundary, the contexts already stopped, whether and when ACK was sent, the
  counts it held, and the requests held since PREPARE, in order of arrival. -/
  member : Option Nat
  epoch : Nat
  slotIdx : Nat
  stopped : List Who
  acked : Bool
  /-- The clock of its PREPARE, and of its first ACK: from then on it holds packets that arbiters would grant (R282, R380). -/
  openClk : Nat
  holdClk : Nat
  ackClk : Nat
  lastS : AMap Nat Nat
  lastR : AMap Nat Nat
  held : List Nat
  /-- As coordinator of the outgoing gang: gang, boundary, clock of PREPARE, and ACKs: member, S, R. -/
  coord : Option Nat
  cEpoch : Nat
  cSlot : Nat
  prepClk : Nat
  acks : List (Nat × AMap Nat Nat × AMap Nat Nat)
  /-- As coordinator of the incoming gang: gang, boundary, its clock, members READY, and whether it has been decided. -/
  inGang : Option Nat
  inEpoch : Nat
  inSlot : Nat
  startClk : Nat
  readies : List Nat
  decided : Bool
  /-- READY sent by this chip: gang, epoch, slot index. -/
  sentReady : Option (Nat × Nat × Nat)
  deriving DecidableEq, Repr

/-- The Almanac column of a chip (R375 to R378). -/
structure Alm where
  cells : AMap Nat (BitVec 64)
  lens : AMap Nat Nat
  stagedCells : AMap Nat (BitVec 64)
  stagedLens : AMap Nat Nat
  epoch : BitVec 32
  step : Nat
  adj : Bool
  master : Bool
  run : Bool
  nslots : Nat
  idx : Nat
  /-- Frame 0 has begun; the clock at which the slot ends. -/
  begun : Bool
  due : Nat
  /-- A frame has ended and its report has not been sent; run cycles of each tenant over the frame. -/
  ended : Bool
  runCyc : AMap Nat Nat
  lastRun : AMap Nat Nat
  /-- Cells, lengths and number of slots of the frame that has ended, as they stood in it. -/
  lastCells : AMap Nat (BitVec 64)
  lastLens : AMap Nat Nat
  lastN : Nat
  /-- Deltas received: frame boundaries left, and the lengths' changes. -/
  deltas : List (Nat × List (Nat × Int))
  /-- Reports the master holds of a frame: chip, run cycles of each tenant, the tenant of each slot's cell, frame cycles. -/
  reports : List (Nat × List (Nat × Nat) × List (Nat × Nat) × Nat)
  deriving DecidableEq, Repr

/-- The logical-core map of a cluster (R422). -/
structure CoreMap where
  mfail : Bool
  spare : Bool
  ncores : Nat
  phys : BitVec 32
  deriving DecidableEq, Repr

/-- A collective at a member (R304 to R317). -/
structure Coll where
  id : Nat
  who : Who
  gctx : Nat
  tag : Nat
  member : Nat
  cc : Nat
  ovt : BitVec 10
  desc : List Byte
  bad : Bool
  /-- 0 issued, 1 taken at the queue head, 2 its flit has been sent, 3 started. -/
  phase : Nat
  /-- Its command as issued: slack and reply allowance of its packets (R316). -/
  cmd : ECmd
  /-- The member's own result, then its final status. -/
  status : Nat
  /-- The coordinator's decision: none yet, 0 go, else the status it aborts with. -/
  decision : Option Nat
  ports : List Nat
  step : Nat
  sub : Nat
  chunks : Nat
  /-- Packets of chunks received in each step, and sent but not acknowledged (R316, R317). -/
  got : AMap Nat Nat
  owed : Nat
  /-- Inputs and outputs of each step: elements, whether a marked chunk formed them, and the member's flags. -/
  ins : AMap Nat (List (Nat × Bool))
  outs : AMap Nat (List (Nat × Bool) × Flags)
  /-- The bytes of each block it sends in a step (R316), and, of a coordinator that has decided, the members it is still to tell,
  with its decision (R315). -/
  sends : AMap Nat (List (List Byte))
  tell : List (Nat × Nat)
  /-- Which of them come from poisoned bytes, and the steps in which a chunk was delivered poisoned (R244, R299). -/
  inBad : AMap Nat (List Bool)
  outBad : AMap Nat (List Bool)
  sick : List Nat
  /-- Bytes of the source shard read ahead of the others, with their poison (R318). -/
  taken : List (Nat × Byte × Bool)
  /-- The page whose absence has been raised, 0 for none (R317). -/
  told : Nat
  deriving DecidableEq, Repr

/-- A checkpoint being written (R417): the gang context, the slot it goes to, and the manifest that is written last; or one being
restored from a slot, with no manifest (R421). -/
structure CkJob where
  g : Nat
  slot : Bool
  manifest : List Byte
  deriving DecidableEq, Repr

/-- A usage record before it is written (R428). -/
structure Usage where
  epoch : Nat
  slot : Nat
  tenant : Nat
  vf : Nat
  gctx : Nat
  span : Nat
  runCyc : Nat
  issues : Nat
  hbmB : Nat
  fabB : Nat
  deriving DecidableEq, Repr

/-- One GZ7A chip. -/
structure Chip where
  running : Option Nat
  gangs : AMap Nat Gang
  /-- BAR registers by (0 for the PF, v + 1 for VF v) and offset. -/
  bar : AMap (Nat × Nat) (BitVec 64)
  l2 : AMap (Nat × Nat) (List Way)
  l2tick : Nat
  retw : AMap (Nat × Nat) Nat
  frames : AMap Nat Frame
  pending : AMap Nat (List FaultRec)
  hpending : List FaultRec
  /-- Dirty-log appends waiting, in the order of their writes. -/
  dlogWait : List DlogReq
  rrVf : Nat
  rrQ : AMap Nat Nat
  repPtr : Nat
  repLeft : Nat
  mig : Mig
  alm : Alm
  vote : Vote
  ports : AMap Nat Port
  notices : AMap (Nat × Nat) Bool
  /-- Grants made by each arbiter (R283). -/
  grants : AMap Nat Nat
  /-- The input last granted at each arbiter (R283). -/
  rrArb : AMap Nat Nat
  /-- Of the flows of the chip's own controllers: the next SEQ toward each chip, and the accepted packets of each chip's
  (R293, R294). -/
  useqs : AMap Nat Nat
  uaccepted : AMap Nat (Nat × List Nat)
  colls : List Coll
  /-- Start flits received by the coordinator of a collective: gang context, tag, member, status and CRC (R315). -/
  flits : List (Nat × Nat × Nat × Nat × BitVec 32)
  coreMap : AMap Nat CoreMap
  /-- IFS_STAT, the core being scanned, and the clock at which its pattern ends (R424). -/
  ifs : Nat
  ifsCore : Nat
  ifsEnd : Nat
  /-- The usage record that waits for ring room, the sequence number of the next record, SHA-384 of the last one, and a
  signature record that is due (R428). -/
  urPend : Option Usage
  urSeq : Nat
  urPrev : BitVec 384
  urSign : Bool
  att : Option Nat
  sagEvents : BitVec 32
  sagTherm : Bool
  sagHalf : Bool
  sagFrom : Nat
  /-- The pod clock at which the half rate of now began, and the core cycles that earlier half rates have cost (R431). -/
  halfFrom : Nat
  lost : Nat
  /-- Clocks of the last policy evaluation and of the last firmware attempt (R406, R425). -/
  polClk : Nat
  fwClk : Nat
  frozen : Bool
  /-- The step of power-on that failed, as the management controller reports it, 0 for none (R433). -/
  failStep : Nat
  /-- Keys that the management controller trusts besides its own, and the keys of the encryption domains (R420, R426). -/
  trust : List (BitVec 768)
  domKeys : AMap Nat (BitVec 512)
  /-- The pod clock at the chip's last device reset: CYCLE counts from it (R131). -/
  cycFrom : Nat
  hostUp : BitVec 2
  resetting : List Nat
  /-- Interrupts signalled: function (0 the PF, v + 1 VF v) and vector. -/
  msix : List (Nat × Nat)
  /-- Launches that failed, in the order of their fault records: VF, queue, launch record, status (R357). -/
  failed : List (Nat × Nat × List Byte × Nat)
  /-- Translation records whose absent bit is set and whose completion waits: stamp, VF, queue, record (R368). -/
  xtWait : List (Nat × Nat × Nat × List Byte)
  /-- Checkpoints being written or restored. -/
  ckJobs : List CkJob
  deriving DecidableEq, Repr

/-! ## The pod -/

/-- The parties a step acts for: a context (its chip and core), an item's number, and a register write's operands. -/
structure Sel where
  who : Who
  id : Nat
  reg : Nat
  val : BitVec 64
  deriving DecidableEq, Repr

/-- The machine: a pod of chips. -/
structure State where
  ctxs : AMap Who Ctx
  cores : AMap CoreId Core
  chips : AMap Nat Chip
  /-- Number of chips of the pod. -/
  nchips : Nat
  /-- Every byte of memory, by the keys of Ops.lean, in canonical form: keys rising, no byte 0 listed. -/
  mem : List Host.Cell
  /-- Poisoned bytes of pools and lines of HBM, by key (R244, R299, R334). -/
  poison : List Nat
  /-- Lines that cannot be corrected, by key of their first byte. -/
  uncorr : List Nat
  /-- Lines that memory holds poisoned while their home slice holds them good (R244, R408). -/
  sunk : List Nat
  pkts : List Pkt
  wires : List Wire
  xfers : List Xfer
  reqs : List UnitReq
  votes : List (Nat × VoteMsg)
  /-- Gang states as checkpoints and engine blocks hold them, by the identity of their private bytes (log 18). -/
  snaps : List (Nat × Gang)
  nextId : Nat
  /-- The model's own: counter of free values (log 3), the schedule's choices (log 5), outside inputs (log 17),
  the parties of the step, the latest clock. -/
  free : Nat
  choices : List Nat
  inputs : List (Instr × Sel)
  sel : Sel
  now : Nat
  deriving DecidableEq, Repr

/-! ## Reset (R4, R222, R433; registers without a reset value: log 1 and log 15) -/

/-- No signature runs (R58). -/
def Sig.none : Sig := { crc := 0xFFFFFFFF, sigv := 0, live := false }

/-- An empty trap record (R35). -/
def TrapRec.none : TrapRec :=
  { pc := 0, info := 0, valid := false, retry := false, reason := 0, slots := 0, code := 0, recorded := 0,
    sig := Sig.none, rep := 0, repOn := false, held := Vector.replicate 11 ⟨Option.none, 0⟩, arrive := .again, last := 0,
    arrive0 := .taken, sig0 := Sig.none }

/-- The control and status registers of a context at reset. -/
def Csr.reset : Csr :=
  { flags := 0, ovt := 0, slackDef := 0xFFF, aliasDef := 0, pmode := false, mode := false, tvec := 0, pinShort := 0,
    mchkFrow := 0, mchkUnchk := 0, mchkN := 0, engStat := 0, ctxHdl := 0, ovfBase := 0, ovfQuota := 0, ovfHwm := 0,
    ovfSpills := 0, occLimit := 0xFFFFFFFF, poolLimit := 0x400000, poolAccs := 0, poolTiles := 0, memClamps := 0,
    scopeClamp := false, revCur := 0x8000000000000000, ccnt := Vector.replicate 16 0, winBind := Vector.replicate 16 0,
    winMax := Vector.replicate 16 32, winAvail := Vector.replicate 16 32, slackCtl := 0, slackExh := 0, flowCur := 0,
    collWovf := 0, collBusy := 0, collDone := 0, eagerNoslot := 0, eagerOvrel := false, segRewinds := 0,
    segPrewinds := 0, segLcause := 0, segRabt := false, segEntry := 0, segGroup := 0, segWrid := 0 }

/-- An empty held-operation memory (R24, R222). -/
def Held.none : Held := { op := Option.none, off := 0 }

/-- A context at device reset: Halted, every register 0. DESIGN CHOICE (log 3): of a latch that nothing has filled a save writes
format code 0 and bsum 0, for which the spec gives no value; a form that reads it meets free values. -/
def Ctx.reset (w : Who) : Ctx :=
  { st := .halted, from_ := .halted, freeze := .none, block := .none, pc := 0, lastPc := 0, arrive := .taken, arrive0 := .taken, sig0 := Sig.none,
    next := Option.none, fall := 0, moved := false, halting := false, pend := Option.none, rep := 0, repOn := false, regs := Regs.zero, held := Vector.replicate 11 Held.none, resume := Option.none, sets := [], flight := [], snaps := [],
    busy := [], sig := Sig.none, trap := TrapRec.none, retry := Option.none, csr := Csr.reset,
    ids := { core := w.core, clus := w.clus, chip := 0, stage := 0, ctx := w.ctx, gang := 0, nchips := 0, nstages := 0,
             ncores := 0 },
    imageBase := 0, noMatrix := false, inSeg := false, segRetry := false, segSafe := false, segIssues := 0,
    segInst := 0, segLast := 0, shadow := Option.none, closing := [], holds := [], entryNext := false, closeDue := false, yieldFor := [],
    po := 0, fences := [], loadUntil := 0, acqUntil := 0, late := [], eq := [], eHead := Option.none, cq0 := [], cq1 := [], rq := [], ring := [], ovfWait := [],
    fifoA := [], fifoB := [], owedA := 0, owedB := 0, latFmt := Vector.replicate 4 0, latDef := 0, bsum := [],
    eager := [], flowWait := [], seqs := [], modes := [], ords := [], fcyc := 0, fcycFrom := 0, taken := [], acks := [], ovfTold := 0 }

/-- A core at reset: nothing runs, the accumulators' tags at their reset value (R194). -/
def Core.reset : Core :=
  { clk := 0, run := Option.none, last := 3, mq := [], accTag := Vector.replicate 16 3, ck := [], uf := [],
    cur0 := Option.none, cur1 := Option.none, units := [], spills := 0, fills := 0 }

/-- A gang context without a table or a kernel. -/
def Gang.reset : Gang :=
  { loaded := false, xlat := [], dirty := [], kernel := Option.none, savedCtx := [], cores := [], saveId := 0, kept := [], keptX := [], keptR := [],
    nsa := [], nsaBytes := 0, image := [], savedStat := 0, savedRetw := [], ovf := false, poolValid := [], tasks := [], window := [], waiting := [], ptr := 0,
    picked := [], bars := [], regions := [], revs := [], slots := [], serial := 0, joins := [], ancBase := 0,
    ancSlots := 0, ancHwm := 0, expect := [], accepted := [], parts := [], sCnt := [], rCnt := [], commits := 0, aborts := 0,
    halts := 0, lreason := 0, lout := 0, ckState := 0, ckErr := 0, ckSeq := 0, ckGood := false, ckSlot := false,
    ckEpoch := 0, ckCslot := 0, resetDone := false, runCyc := 0, goClk := 0, issues := 0,
    hbmBytes := 0, fabBytes := 0, peersReset := [] }

/-- Meridian at reset: all twelve stacks, IDLE (R403, R404). -/
def Mig.reset : Mig :=
  { mask := 0xFFF, phase := 0, wmValid := false, wm := 0, active := false, stack := 0, fw := false, last := 0,
    total := 0, replays := 0, stalls := 0, marked := false, held := [], request := Option.none, ce := [], ue := [], history := [],
    events := 0 }

/-- No vote (R379). -/
def Vote.reset : Vote :=
  { member := Option.none, epoch := 0, slotIdx := 0, stopped := [], acked := false, openClk := 0, holdClk := 0, ackClk := 0, lastS := [], lastR := [],
    held := [], coord := Option.none, cEpoch := 0, cSlot := 0, prepClk := 0, acks := [], inGang := Option.none, inEpoch := 0,
    inSlot := 0, startClk := 0, readies := [], decided := false, sentReady := Option.none }

/-- The column at reset: one slot, EPOCH 0, STEP 1 (R378). -/
def Alm.reset : Alm :=
  { cells := [], lens := [], stagedCells := [], stagedLens := [], epoch := 0, step := 1, adj := false, master := false,
    run := false, nslots := 0, idx := 0, begun := false, due := 0, ended := false, runCyc := [], lastRun := [], lastCells := [], lastLens := [], lastN := 0, deltas := [],
    reports := [] }

/-- A port that is down (R280). -/
def Port.reset : Port := { up := false, resv := 0, tag := 0, dup := 0, seqs := [], ptr := 0 }

/-- CORE_MAP at reset (R422). -/
def CoreMap.reset : CoreMap := { mfail := false, spare := true, ncores := 8, phys := 0x76543210 }

/-- A chip after its power-on self-test. -/
def Chip.reset : Chip :=
  { running := Option.none, gangs := [], bar := [], l2 := [], l2tick := 0, retw := [], frames := [(0, .reserved), (1, .reserved)],
    pending := [], hpending := [], dlogWait := [], rrVf := 0, rrQ := [],
    repPtr := 0, repLeft := 0, mig := Mig.reset, alm := Alm.reset, vote := Vote.reset, ports := [],
    notices := [], grants := [], rrArb := [], useqs := [], uaccepted := [], colls := [], flits := [], coreMap := [], ifs := 0, ifsCore := 0, ifsEnd := 0, urPend := Option.none, urSeq := 0,
    urPrev := 0, urSign := false, att := Option.none, sagEvents := 0, sagTherm := false, sagHalf := false, sagFrom := 0, halfFrom := 0, lost := 0,
    polClk := 0, fwClk := 0, frozen := false, failStep := 0, trust := [], domKeys := [], cycFrom := 0, hostUp := 3, resetting := [], msix := [], failed := [], xtWait := [], ckJobs := [] }

/-- The machine right after reset: a pod of chips on which nothing has been launched. -/
def State.reset : State :=
  { ctxs := [], cores := [], chips := [], nchips := 1024, mem := [], poison := [], uncorr := [], sunk := [], pkts := [], wires := [], xfers := [],
    reqs := [], votes := [], snaps := [], nextId := 1, free := 0, choices := [], inputs := [], sel := ⟨⟨0, 0, 0, 0⟩, 0, 0, 0⟩, now := 0 }

end Sys2Proof.Machine
end

