-- ==== Sys2Proof/Machine/Ops.lean ====
section
/-! DEFINITION. Sys2Proof/Machine/Ops.lean: the named operations over memory, registers, contexts and trap records
that every meaning is written with. -/

namespace Sys2Proof.Machine

/-- The outcome of a step of this machine. -/
abbrev Out := Host.Outcome State Fault Refusal

/-! ## Memory: one canonical list of bytes, by key -/

/-- The byte at a key; an unlisted byte reads 0 (log 2). -/
def memGet : List Host.Cell → Nat → Byte
  | [], _ => 0
  | (k, b) :: r, a => if k = a then b else if a < k then 0 else memGet r a

/-- Write one byte, keeping keys rising and no byte 0 listed. -/
def memSet : List Host.Cell → Nat → Byte → List Host.Cell
  | [], a, v => if v = 0 then [] else [(a, v)]
  | (k, b) :: r, a, v =>
    if k = a then (if v = 0 then r else (a, v) :: r)
    else if a < k then (if v = 0 then (k, b) :: r else (a, v) :: (k, b) :: r)
    else (k, b) :: memSet r a v

/-- Write bytes at rising keys. -/
def memPut : List Host.Cell → Nat → List Byte → List Host.Cell
  | m, _, [] => m
  | m, a, b :: r => memPut (memSet m a b) (a + 1) r

/-- n bytes from a key up. -/
def memTake (m : List Host.Cell) (a n : Nat) : List Byte := (upTo n).map (fun i => memGet m (a + i))

/-- Keys rise strictly from a lower limit, and no listed byte is 0. -/
def memOk : Option Nat → List Host.Cell → Bool
  | _, [] => true
  | none, (k, b) :: r => b ≠ 0 && memOk (some k) r
  | some p, (k, b) :: r => p < k && b ≠ 0 && memOk (some k) r

/-- The canonical form of memory. -/
def Memory.wf (m : List Host.Cell) : Bool := memOk none m

/-- Keys: a chip's HBM, a core's pool, a host memory behind a port, a context's latches. -/
def keyAt (tag idx off : Nat) : Nat := off + 2 ^ 64 * (tag + 16 * idx)
/-- The number of a core among all. -/
def coreNum (c : CoreId) : Nat := (c.chip * 32 + c.clus) * 8 + c.core
/-- The number of a context among all. -/
def whoNum (w : Who) : Nat := coreNum w.coreId * 4 + w.ctx
/-- A DPA of a chip (R243). -/
def hbmKey (chip dpa : Nat) : Nat := keyAt 0 chip dpa
/-- A byte of a core's SRAM pool (R239). -/
def poolKey (c : CoreId) (off : Nat) : Nat := keyAt 1 (coreNum c) off
/-- A byte of the host memory behind a port of a chip (R362). -/
def hostKey (chip port a : Nat) : Nat := keyAt 2 (chip * 2 + port) a
/-- A byte of a latch, 32 KiB each (R191). -/
def latKey (w : Who) (lat off : Nat) : Nat := keyAt 3 (whoNum w) (lat * 32768 + off)

/-- Bytes from a key. -/
def State.peek (s : State) (k n : Nat) : List Byte := memTake s.mem k n
/-- Bytes stored from a key; what was poisoned there no longer is (R299). -/
def State.poke (s : State) (k : Nat) (b : List Byte) : State :=
  { s with mem := memPut s.mem k b, poison := s.poison.filter (fun p => p < k || k + b.length ≤ p) }
/-- Bytes stored from a key, but for those whose places in the list are named: they have been stored before. -/
def State.pokeRest (s : State) (k : Nat) (b : List Byte) (gone : List Nat) : State :=
  if gone = [] then s.poke k b
  else (b.zip (upTo b.length)).foldl (fun t x => if gone.contains x.2 then t else t.poke (k + x.2) [x.1]) s
/-- Some byte of a range is poisoned. -/
def State.poisoned (s : State) (k n : Nat) : Bool := s.poison.any (fun p => k ≤ p && p < k + n)
/-- Poison n bytes from a key. -/
def State.setPoison (s : State) (k n : Nat) : State :=
  { s with poison := (upTo n).map (fun i => k + i) ++ s.poison.filter (fun p => p < k || k + n ≤ p) }

/-! ## Parts of the pod -/

/-- A context's state. -/
def State.ctx (s : State) (w : Who) : Ctx := s.ctxs.get w (Ctx.reset w)
/-- A context replaced. -/
def State.setCtx (s : State) (w : Who) (c : Ctx) : State := { s with ctxs := s.ctxs.set w c }
/-- A context changed. -/
def State.updCtx (s : State) (w : Who) (f : Ctx → Ctx) : State := s.setCtx w (f (s.ctx w))
/-- The context the step acts for. -/
def State.cur (s : State) : Ctx := s.ctx s.sel.who
/-- That context changed. -/
def State.upd (s : State) (f : Ctx → Ctx) : State := s.updCtx s.sel.who f
/-- A core's state. -/
def State.core (s : State) (c : CoreId) : Core := s.cores.get c Core.reset
/-- A core changed. -/
def State.updCore (s : State) (c : CoreId) (f : Core → Core) : State := { s with cores := s.cores.set c (f (s.core c)) }
/-- A chip's state. -/
def State.chip (s : State) (n : Nat) : Chip := s.chips.get n Chip.reset
/-- A chip changed. -/
def State.updChip (s : State) (n : Nat) (f : Chip → Chip) : State := { s with chips := s.chips.set n (f (s.chip n)) }
/-- A gang context of a chip. -/
def State.gang (s : State) (n g : Nat) : Gang := (s.chip n).gangs.get g Gang.reset
/-- A gang context changed. -/
def State.updGang (s : State) (n g : Nat) (f : Gang → Gang) : State :=
  s.updChip n (fun c => { c with gangs := c.gangs.set g (f (c.gangs.get g Gang.reset)) })
/-- The gang context that runs on a chip (R374); 0 when none does. -/
def State.gctxOf (s : State) (n : Nat) : Nat := (s.chip n).running.getD 0
/-- The gang context that runs on a chip. -/
def State.rgang (s : State) (n : Nat) : Gang := s.gang n (s.gctxOf n)
/-- The running gang context of a chip changed. -/
def State.updRgang (s : State) (n : Nat) (f : Gang → Gang) : State := s.updGang n (s.gctxOf n) f
/-- The clock of the core of a context (log 6). -/
def State.clkOf (s : State) (w : Who) : Nat := (s.core w.coreId).clk
/-- Core cycles of a chip that the pod clock has passed: at half rate, one in two (R431). -/
def Chip.cycAt (c : Chip) (t : Nat) : Nat := t - c.lost - (if c.sagHalf then (t - c.halfFrom) / 2 else 0)
/-- The pod clock at a core cycle of a chip. -/
def Chip.timeOf (c : Chip) (k : Nat) : Nat := k + c.lost + (if c.sagHalf then k + c.lost - c.halfFrom else 0)
/-- The core cycle of a chip now. -/
def State.cycNow (s : State) (n : Nat) : Nat := (s.chip n).cycAt s.now
/-- The issue cycle of the current step. -/
def State.t (s : State) : Nat := s.clkOf s.sel.who
/-- A fresh number for an access, a command or an instance. -/
def State.fresh (s : State) : State := { s with nextId := s.nextId + 1 }

/-- Every logical core of a chip that State lists, and every context of a chip that State lists. -/
def State.ctxsOf (s : State) (n : Nat) : List Who := (s.ctxs.map (·.1)).filter (fun w => w.chip = n)

/-! ## Registers -/

/-- The stored value of a destination, zero-extended. -/
def Regs.get (r : Regs) (d : Dest) : BitVec 4096 :=
  match d with
  | .a n => (r.a[n.toNat]).setWidth 4096
  | .b n => (r.b[n.toNat]).setWidth 4096
  | .pa n => (r.pa >>> n.toNat &&& 1#8).setWidth 4096
  | .pb n => (r.pb >>> n.toNat &&& 1#8).setWidth 4096
  | .x n => (r.x[n.toNat]).setWidth 4096
  | .y n => (r.y[n.toNat]).setWidth 4096
  | .z n => (r.z[n.toNat]).setWidth 4096
  | .mx n => (r.mx[n.toNat]).setWidth 4096
  | .my n => (r.my[n.toNat]).setWidth 4096
  | .mz n => (r.mz[n.toNat]).setWidth 4096
  | .w n => (r.w[n.toNat]).setWidth 4096
  | .g n => (r.g[n.toNat]).setWidth 4096
  | .h n => (r.h[n.toNat]).setWidth 4096
  | .e n => (r.e[n.toNat]).setWidth 4096
  | .c n => r.c[n.toNat]
  | .lc n => (r.lc[n.toNat]).setWidth 4096
  | .rb n => (r.rb[n.toNat]).setWidth 4096
  | .csr _ => 0
  | .none => 0

/-- Replace bit n of a predicate file; bit 0 is never written (R10). -/
def setPred (p : BitVec 8) (n : BitVec 3) (v : Bool) : BitVec 8 :=
  if n = 0 then p else if v then p ||| (1#8 <<< n.toNat) else p &&& ~~~(1#8 <<< n.toNat)

/-- A value stored whole in a destination; predicate 0 and lane mask 0 discard it (R10). -/
def Regs.set (r : Regs) (d : Dest) (v : BitVec 4096) : Regs :=
  match d with
  | .a n => { r with a := r.a.set n.toNat (v.setWidth 64) }
  | .b n => { r with b := r.b.set n.toNat (v.setWidth 64) }
  | .pa n => { r with pa := setPred r.pa n (v.getLsbD 0) }
  | .pb n => { r with pb := setPred r.pb n (v.getLsbD 0) }
  | .x n => { r with x := r.x.set n.toNat (v.setWidth 1024) }
  | .y n => { r with y := r.y.set n.toNat (v.setWidth 1024) }
  | .z n => { r with z := r.z.set n.toNat (v.setWidth 1024) }
  | .mx n => if n = 0 then r else { r with mx := r.mx.set n.toNat (v.setWidth 128) }
  | .my n => if n = 0 then r else { r with my := r.my.set n.toNat (v.setWidth 128) }
  | .mz n => if n = 0 then r else { r with mz := r.mz.set n.toNat (v.setWidth 128) }
  | .w n => { r with w := r.w.set n.toNat (v.setWidth 1024) }
  | .g n => { r with g := r.g.set n.toNat (v.setWidth 64) }
  | .h n => { r with h := r.h.set n.toNat (v.setWidth 64) }
  | .e n => { r with e := r.e.set n.toNat (v.setWidth 64) }
  | .c n => { r with c := r.c.set n.toNat v }
  | .lc n => { r with lc := r.lc.set n.toNat (v.setWidth 32) }
  | .rb n => { r with rb := r.rb.set n.toNat (v.setWidth 4) }
  | .csr _ => r
  | .none => r

/-- All the bits of a destination. -/
def Dest.full (d : Dest) : BitVec 4096 :=
  match d with
  | .a _ | .b _ | .g _ | .h _ | .e _ | .csr _ => 0xFFFFFFFFFFFFFFFF#4096
  | .pa _ | .pb _ => 1
  | .x _ | .y _ | .z _ | .w _ => BitVec.ofNat 4096 (2 ^ 1024 - 1)
  | .mx _ | .my _ | .mz _ => BitVec.ofNat 4096 (2 ^ 128 - 1)
  | .c _ => BitVec.allOnes 4096
  | .lc _ => 0xFFFFFFFF#4096
  | .rb _ => 0xF#4096
  | .none => 0

/-- The fixed value of a destination that R10 fixes. -/
def Dest.fixed (d : Dest) : Option (BitVec 4096) :=
  match d with
  | .pa n | .pb n => if n = 0 then some 1 else Option.none
  | .mx n | .my n | .mz n => if n = 0 then some (BitVec.ofNat 4096 (2 ^ 128 - 1)) else Option.none
  | _ => Option.none

/-- Bits of a value under an enable. -/
def merge (old new en : BitVec 4096) : BitVec 4096 := (old &&& ~~~en) ||| (new &&& en)

/-- A destination as an issue at cycle t finds it: the value from the results issued before, and the bits that are
undefined because a bound has not passed (R30, R31). -/
def flightView (d : Dest) (t : Nat) : List Landing → BitVec 4096 × BitVec 4096 → BitVec 4096 × BitVec 4096
  | [], a => a
  | l :: r, a =>
    flightView d t r
      (if l.dest = d ∧ l.issued < t then (merge a.1 l.val l.en, if l.bound ≤ t then a.2 else a.2 ||| l.en) else a)

/-- Split results in flight at a cycle: those that land, and those that stay; a later write of a destination never lands
before an earlier one (R31). -/
def splitDue (t : Nat) : List Landing → List Dest → List Landing × List Landing
  | [], _ => ([], [])
  | l :: r, kept =>
    if l.bound ≤ t ∧ !kept.contains l.dest then
      let q := splitDue t r kept
      (l :: q.1, q.2)
    else
      let q := splitDue t r (l.dest :: kept)
      (q.1, l :: q.2)

/-- The value of a destination read at cycle t; undefined bits are free (log 3). -/
def readView (c : Ctx) (t free key : Nat) (d : Dest) : BitVec 4096 :=
  match d.fixed with
  | some v => v
  | Option.none =>
    let a := flightView d t c.flight (c.regs.get d, 0)
    if a.2 = 0 then a.1 else merge a.1 (Config.undef free key) a.2

/-- The value of a destination that an issue within its bound sees old or new, never undefined (R119, R133). -/
def pickView (d : Dest) (t free : Nat) : List Landing → BitVec 4096 → BitVec 4096
  | [], a => a
  | l :: r, a =>
    pickView d t free r
      (if l.dest = d ∧ l.issued < t ∧ (l.bound ≤ t ∨ Config.pick free l.issued) then merge a l.val l.en else a)

/-- A source of an operation of a slot: operand place pos of the slot at the issue cycle (R29). -/
def State.rd (s : State) (sl : Slot) (pos : Nat) (d : Dest) : BitVec 4096 :=
  readView s.cur s.t s.free (sl.index * 16 + pos) d
/-- A 64-bit source. -/
def State.rd64 (s : State) (sl : Slot) (pos : Nat) (d : Dest) : BitVec 64 := (s.rd sl pos d).setWidth 64
/-- The rotating base of a file, 0 for x, 1 for y, 2 for z (R116). -/
def State.rb (s : State) (n : BitVec 2) : BitVec 4 :=
  (pickView (.rb n) s.t s.free s.cur.flight (s.cur.regs.get (.rb n))).setWidth 4
/-- A loop counter (R117). -/
def State.lc (s : State) (n : BitVec 3) : BitVec 32 :=
  (pickView (.lc n) s.t s.free s.cur.flight (s.cur.regs.get (.lc n))).setWidth 32

/-- The physical number of a rotating register (R116). -/
def rotNum (rb : BitVec 4) (n : BitVec 5) : BitVec 5 :=
  if n.toNat < 16 then n else BitVec.ofNat 5 (16 + (n.toNat - 16 + 16 - rb.toNat) % 16)

/-- The register a register-file code and number name (R41, R116). -/
def State.fileReg (s : State) (fc : BitVec 4) (n : BitVec 5) : Dest :=
  match fc.toNat with
  | 0 => .a n
  | 1 => .b n
  | 2 => .x (rotNum (s.rb 0) n)
  | 3 => .y (rotNum (s.rb 1) n)
  | 4 => .z (rotNum (s.rb 2) n)
  | 5 => .w (n.setWidth 4)
  | 6 => .g (n.setWidth 4)
  | 7 => .h (n.setWidth 4)
  | 8 => .e (n.setWidth 3)
  | _ => .none

/-- The predicate a slot's guard reads (R13). -/
def slotPred (sl : Slot) (p : BitVec 3) : Dest :=
  match sl with
  | .s1 | .v1 | .v2 | .d1 => .pb p
  | _ => .pa p

/-- The guard value of an operation at its issue (R13). -/
def State.guard (s : State) (sl : Slot) (g : Guard) : Bool := (s.rd sl 15 (slotPred sl g.p)).getLsbD 0 != g.inv

/-- The segment instance open in a context, 0 outside segments. -/
def Ctx.inst (c : Ctx) : Nat := if c.inSeg then c.segInst else 0

/-- A late fault as a context finds it: poison of an access that another instance made is stale from then on (R334). -/
def Ctx.found (c : Ctx) (code : BitVec 8) (info : BitVec 64) (inst : Nat) (fr : FreezeCause) : LateFault :=
  { code := code, info := info, inst := inst, stale := code = 0x05 && inst ≠ c.inst, freeze := fr }

/-- A fixed-latency result issued now, with the bits it writes, its latency bound and its flags (R30, R81). -/
def State.land (s : State) (d : Dest) (v en : BitVec 4096) (lat : Nat) (fl : Flags) : State :=
  s.upd (fun c => { c with flight := c.flight ++ [{ dest := d, val := v, en := en, issued := s.t, bound := s.t + lat,
                                                    flags := fl, inst := c.inst, id := 0, pool := [] }] })
/-- The load just issued reads its pieces independently: what it has read where (R254). -/
def State.noteSrc (s : State) (l : List PoolSrc) : State :=
  s.upd (fun c => { c with flight := c.flight.dropLast ++ (c.flight.getLast?.toList.map (fun x => { x with pool := l })) })
/-- What the context does now comes after the reading of its loads. -/
def Ctx.fixLoads (c : Ctx) : Ctx := { c with flight := c.flight.map (fun l => { l with pool := [] }) }
/-- A whole-register result. -/
def State.landAll (s : State) (d : Dest) (v : BitVec 4096) (lat : Nat) (fl : Flags) : State := s.land d v d.full lat fl
/-- A 64-bit result. -/
def State.land64 (s : State) (d : Dest) (v : BitVec 64) (lat : Nat) (fl : Flags) : State :=
  s.landAll d (v.setWidth 4096) lat fl

/-- An operation under its guard: nothing happens when the guard is false (R14). -/
def guarded (sl : Slot) (g : Guard) (s : State) (f : State → State) : Out :=
  .next (if s.guard sl g then f s else s)

/-! ## Gang, member and VF of a context -/

/-- The kernel of the gang context that runs on a chip. -/
def State.kernel (s : State) (n : Nat) : Option Kernel := (s.rgang n).kernel
/-- The VF whose kernel runs on a chip; 0 when none does. -/
def State.vf (s : State) (n : Nat) : Nat := match s.kernel n with | some k => k.vf | none => 0

/-! ## Fault records (R364, R365) -/

/-- WHO of a fault record. -/
def whoRec (w : Who) : Nat := w.ctx + 4 * w.core + 32 * w.clus

/-- Causes whose TRAP_INFO holds an address in [39:0] (R166, R265): POISON, XLAT_ABSENT, XLAT_RANGE, MERGE_LIMIT, CAP_RANGE. -/
def hasPage (code : BitVec 8) : Bool := code = 5 || code = 8 || code = 9 || code = 11 || code = 12
/-- Two records coalesce: one context, one cause, one 2 MiB page (R365). -/
def FaultRec.sameAs (a b : FaultRec) : Bool :=
  a.who = b.who && a.gctx = b.gctx && a.kern = b.kern && a.code = b.code && a.terminal = b.terminal && hasPage a.code &&
    natFld a.info.toNat 21 19 = natFld b.info.toNat 21 19

/-- Add a record to a pending buffer of 64, coalescing. Records past the 64th wait in their contexts. -/
def addFault (r : FaultRec) (l : List FaultRec) : List FaultRec :=
  if (l.take 64).any (fun q => q.sameAs r) then
    l.map (fun q => if q.sameAs r then { q with count := min 65535 (q.count + 1) } else q)
  else l ++ [r]

/-- The number of the kernel of a gang context; 0 without one. -/
def State.kernId (s : State) (n g : Nat) : Nat := ((s.gang n g).kernel.map (fun k => k.id)).getD 0
/-- File a record of a VF, for the kernel its gang context holds. -/
def State.fileFault (s : State) (n vf : Nat) (r : FaultRec) : State :=
  s.updChip n (fun c => { c with pending := c.pending.set vf (addFault { r with kern := s.kernId n r.gctx } (c.pending.get vf [])) })

/-! ## Traps -/

/-- A cause code is retryable (R35). -/
def retryable (code : BitVec 8) : Bool := code = 0x08 || code = 0x0A || code = 0x0B

/-- The fault record of a trap of a context. -/
def TrapArgs.toRec (a : TrapArgs) (w : Who) (g : Nat) (term : Bool) : FaultRec :=
  { info := a.info, pc := a.pc, code := a.code, lstat := 0, count := 1, who := whoRec w, gctx := g, hcode := 0, terminal := term,
    kern := 0 }

/-- The trap registers as a trap writes them (R35), with the running signature, the repeat count and the stepped operations
kept (R26, R59, R127). A bundle recorded before its first decode keeps how it was reached; DEDUCED (log 50). -/
def TrapArgs.toTrap (a : TrapArgs) (c : Ctx) : TrapRec :=
  { pc := a.pc, info := a.info, valid := true, retry := retryable a.code, reason := a.reason, slots := a.slots,
    code := a.code, recorded := a.pc, sig := c.sig, rep := c.rep, repOn := c.repOn, held := c.resume.getD c.held,
    arrive := if a.pc = c.pc then c.arrive else .again, last := c.lastPc,
    arrive0 := if c.arrive = .again then c.arrive0 else c.arrive, sig0 := if c.arrive = .again then c.sig0 else c.sig }

/-- A terminal trap inside a segment discards the store buffer, the closing commands and the shadows (R330). -/
def Ctx.dropSeg (c : Ctx) : Ctx := { c with inSeg := false, segRetry := false, shadow := none, closing := [], closeDue := false }

/-- Release the holds a rewinder posted; RABT when it went terminal (R340). -/
def releaseHolds (s : State) (w : Who) (rabt : Bool) : State :=
  { s with ctxs := s.ctxs.map (fun p =>
      if p.1.chip = w.chip ∧ p.1.clus = w.clus ∧ p.1.ctx = w.ctx ∧ p.2.holds.contains w.core then
        (p.1, { p.2 with holds := p.2.holds.filter (fun k => k ≠ w.core),
                         csr := { p.2.csr with segRabt := p.2.csr.segRabt || rabt } })
      else p) }

/-- The core no longer runs the context (R224). -/
def leaveCore (s : State) (w : Who) : State :=
  s.updCore w.coreId (fun k => if k.run = some w.ctx then { k with run := none, last := w.ctx } else k)

/-- The collectives whose commands an open instance still holds are withdrawn (R330, R336). -/
def dropClosing (s : State) (w : Who) : State :=
  let closed := (s.ctx w).closing.map (·.id)
  if closed.isEmpty then s else s.updChip w.chip (fun h => { h with colls := h.colls.filter (fun k => !closed.contains k.id) })
/-- Accesses of an open instance that a discard drops: its buffered entries (R330, R335), their window units returned (R183). -/
def dropBuffered (s : State) (w : Who) : State :=
  let gone := s.pkts.filter (fun p => p.who = w ∧ p.stage = Stage.buffered)
  let back := fun (n : Nat) => (gone.filter (fun p => p.win = some n)).length
  { s with pkts := s.pkts.filter (fun p => !(p.who = w ∧ p.stage = Stage.buffered)),
           xfers := s.xfers.filter (fun x => !(x.who = w ∧ x.buffered)) }.updCtx w (fun c =>
    { c with csr := { c.csr with winAvail := c.csr.winAvail.mapIdx (fun i v => v + BitVec.ofNat 16 (back i)) } })

/-- The task of a child revision has finished: its context has committed its halt or trapped to termination (R268). -/
def endTask (s : State) (w : Who) : State :=
  let r := (s.ctx w).csr.revCur.toNat % 128
  if r = 0 then s
  else s.updRgang w.chip (fun g => { g with revs := updWhere (fun v => v.num = r) (fun v => { v with task := 2 }) g.revs })

/-- TVEC as the delivery of a trap at a cycle sees it: old or new while a write is in flight (R133). -/
def Ctx.tvecAt (c : Ctx) (t free : Nat) : BitVec 64 :=
  (pickView (.csr 0x008) t free c.flight (c.csr.tvec.setWidth 4096)).setWidth 64
/-- A write in flight that clears VALID, and that the delivery of a trap at a cycle counts as landed (R133). -/
def Landing.clears (l : Landing) (t free : Nat) : Bool :=
  l.dest = .csr 0x006 && l.val.getLsbD 31 && decide (l.issued < t) && (decide (l.bound ≤ t) || Config.pick free l.issued)
/-- VALID of the trap record as the delivery of a trap at a cycle sees it: old or new while a write is in flight (R133). -/
def Ctx.validAt (c : Ctx) (t free : Nat) : Bool := c.trap.valid && !c.flight.any (fun l => l.clears t free)
/-- The trap record written by a trap that finds VALID = 0 (R126). DESIGN CHOICE (log 4): a write of TRAP_PC, TRAP_CAUSE,
TRAP_INFO or STATUS that is in flight then lands afterwards, on the record; the spec does not order the two. -/
def Ctx.record (c : Ctx) (t free : Nat) (a : TrapArgs) : Ctx :=
  if c.validAt t free then c
  else { c with trap := a.toTrap c, flight := c.flight.filter (fun l => !l.clears t free) }

/-- A terminal trap: the context is Halted, its segment discarded, its partners released, the record filed (R126, R330,
R338). The kernel stops when the record has been written (R360). -/
def trapTerminal (s : State) (w : Who) (a : TrapArgs) : State :=
  let s1 := (dropClosing (dropBuffered (endTask s w) w) w).updCtx w (fun c =>
    { (c.record (s.clkOf w) s.free a).dropSeg with st := .halted, from_ := .halted })
  (releaseHolds (leaveCore s1 w) w true).fileFault w.chip (s.vf w.chip) (a.toRec w (s.gctxOf w.chip) true)

/-- A retryable trap: the context freezes from its state, and the retry record keeps the fault (R126). A Halted context
stays Halted (R436). -/
def trapFreeze (s : State) (w : Who) (a : TrapArgs) : State :=
  let s1 := s.updCtx w (fun c =>
    { c.record (s.clkOf w) s.free a with
             st := if c.st = .halted then .halted else .frozen, from_ := if c.st = .frozen then c.from_ else c.st,
             freeze := a.freeze, retry := some ⟨a.code, a.pc, a.info⟩ })
  (leaveCore s1 w).fileFault w.chip (s.vf w.chip) (a.toRec w (s.gctxOf w.chip) false)

/-- A trap delivered to TVEC: status and signature are kept, the mode is supervisor, and the handler is a taken transfer,
outside segments (R126, R28, R329). -/
def trapVector (s : State) (w : Who) (a : TrapArgs) : State :=
  s.updCtx w (fun c =>
    { c.record (s.clkOf w) s.free a with
             csr := { c.csr with pmode := c.csr.mode, mode := true },
             st := if c.st = .blocked ∨ c.st = .dormant then .ready else c.st, block := .none, entryNext := false,
             pc := (c.tvecAt (s.clkOf w) s.free >>> 2) <<< 2, arrive := .taken, rep := 0, repOn := false, sig := { c.sig with live := false } })

/-- Whether a non-retryable trap of a context reaches TVEC: EN is 1 and no record is held (R126). -/
def State.vectored (s : State) (w : Who) : Bool :=
  let c := s.ctx w
  (c.tvecAt (s.clkOf w) s.free).getLsbD 0 && !c.validAt (s.clkOf w) s.free && c.st ≠ .halted

/-- Take a trap (R126). What a segment turns into a rewind is decided before (R334). -/
def takeTrap (s : State) (w : Who) (a : TrapArgs) : State :=
  if retryable a.code then trapFreeze s w a
  else if s.vectored w then trapVector s w a
  else trapTerminal s w a

end Sys2Proof.Machine
end

