-- ==== Sys2Proof/Machine/Operands.lean ====
section
/-! DEFINITION. Sys2Proof/Machine/Operands.lean: every operand form of the scalar, vector and F classes (spec/02 R41 to
R47, spec/06 R137, R138). Memory operands are in Machine/Access.lean. -/

namespace Sys2Proof.Machine

/-! ## Scalar (R101, R43) -/

/-- A register of the issuing scalar slot's file. -/
def sReg (sl : SSlot) (n : BitVec 5) : Dest := match sl with | .s0 => .a n | .s1 => .b n
/-- A predicate of the issuing scalar slot's file. -/
def sPred (sl : SSlot) (n : BitVec 3) : Dest := match sl with | .s0 => .pa n | .s1 => .pb n

/-- An immediate sign-extended to 64 bits. -/
def immS {n : Nat} (i : Imm n) : BitVec 64 :=
  match i with | .short v => v.signExtend 64 | .long v => v.signExtend 64
/-- An immediate zero-extended to 64 bits. -/
def immZ {n : Nat} (i : Imm n) : BitVec 64 :=
  match i with | .short v => v.setWidth 64 | .long v => v.setWidth 64

/-- Layout SR: the result from sa, sb and d, with its flags. -/
def srOp (o : SR) (s : State) (lat : Nat) (f : BitVec 64 → BitVec 64 → BitVec 64 → BitVec 64 × Flags) : Out :=
  guarded o.slot.slot o.g s (fun s =>
    let r := f (s.rd64 o.slot.slot 0 (sReg o.slot o.a)) (s.rd64 o.slot.slot 1 (sReg o.slot o.b))
      (s.rd64 o.slot.slot 2 (sReg o.slot o.d))
    s.land64 (sReg o.slot o.d) r.1 lat r.2)

/-- Layout SR without flags, from sa and sb. -/
def srInt (o : SR) (s : State) (lat : Nat) (f : BitVec 64 → BitVec 64 → BitVec 64) : Out :=
  srOp o s lat (fun a b _ => (f a b, 0))

/-- Layout SR with L = 1: the result from sa and d. -/
def srxOp (o : SRX) (s : State) (lat : Nat) (f : BitVec 64 → BitVec 64 → BitVec 64) : Out :=
  guarded o.slot.slot o.g s (fun s =>
    s.land64 (sReg o.slot o.d) (f (s.rd64 o.slot.slot 0 (sReg o.slot o.a)) (s.rd64 o.slot.slot 2 (sReg o.slot o.d))) lat 0)

/-- Layout SI: the result from sa and the immediate as extended. -/
def siOp (o : SI) (s : State) (imm : BitVec 64) (f : BitVec 64 → BitVec 64 → BitVec 64) : Out :=
  guarded o.slot.slot o.g s (fun s =>
    s.land64 (sReg o.slot o.d) (f (s.rd64 o.slot.slot 0 (sReg o.slot o.a)) imm) 2 0)

/-- A predicate result of a scalar slot. -/
def predLand (sl : SSlot) (pd : BitVec 3) (v : Bool) (s : State) : State :=
  s.landAll (sPred sl pd) (if v then 1 else 0) 1 0

/-- Layout SC: a comparison of sa with the second operand (R107). -/
def scOp (o : SC) (s : State) (f : BitVec 64 → BitVec 64 → Bool) : Out :=
  guarded o.slot.slot o.g s (fun s =>
    let b := match o.rhs with
      | .reg r => s.rd64 o.slot.slot 1 (sReg o.slot r)
      | .imm v => v.signExtend 64
    predLand o.slot o.pd (f (s.rd64 o.slot.slot 0 (sReg o.slot o.a)) b) s)

/-- Layout SP: a predicate from two predicates. -/
def spOp (o : SP) (s : State) (f : Bool → Bool → Bool) : Out :=
  guarded o.slot.slot o.g s (fun s =>
    predLand o.slot o.pd (f ((s.rd o.slot.slot 0 (sPred o.slot o.pa)).getLsbD 0)
      ((s.rd o.slot.slot 1 (sPred o.slot o.pb)).getLsbD 0)) s)

/-! ## Vector (R45, R137, R138) -/

/-- A register of the issuing vector slot's file, through its rotating base. -/
def State.vReg (s : State) (sl : VSlot) (n : BitVec 5) : Dest :=
  match sl with
  | .v0 => .x (rotNum (s.rb 0) n)
  | .v1 => .y (rotNum (s.rb 1) n)
  | .v2 => .z (rotNum (s.rb 2) n)
/-- A lane mask of the issuing vector slot's file. -/
def vMask (sl : VSlot) (n : BitVec 3) : Dest :=
  match sl with | .v0 => .mx n | .v1 => .my n | .v2 => .mz n

/-- The overflow table at issue (R78, R135). -/
def State.ovt (s : State) : BitVec 10 := s.cur.csr.ovt

/-- The elements of a vector source: n elements of width w, lowest first. -/
def State.vElems (s : State) (sl : VSlot) (pos : Nat) (r : BitVec 5) (n w : Nat) : List Nat :=
  elemsOf (s.rd sl.slot pos (s.vReg sl r)).toNat n w
/-- The lane mask a vector operation names, as n booleans. -/
def State.vMaskBits (s : State) (o : VOp) (n : Nat) : List Bool :=
  let m := s.rd o.slot.slot 4 (vMask o.slot o.mask)
  (upTo n).map (fun i => m.getLsbD i)

/-- The union of the flags of the elements that are computed (R81). -/
def orFlags (l : List (Nat × Flags)) : Flags := l.foldl (fun a x => a ||| x.2) 0

/-- Land elements of width w in a vector register, those a list of booleans selects; flags of those alone. -/
def landElems (s : State) (d : Dest) (w : Nat) (m : List Bool) (r : List (Nat × Flags)) (lat : Nat) : State :=
  s.land d (BitVec.ofNat 4096 (packElems w (r.map (·.1)))) (BitVec.ofNat 4096 (packMask w m)) lat
    (orFlags ((r.zip m).filterMap (fun p => if p.2 then some p.1 else none)))

/-- Elements a[i], b[i], c[i] and d[i] combined under the write role of MASK. -/
def vElemwise (o : VOp) (s : State) (lat : Nat) (f : Nat → Nat → Nat → Nat → Nat × Flags) : Out :=
  guarded o.slot.slot o.g s (fun s =>
    let w := fmtBits o.ext.fmt
    let n := lanesOf o.w o.ext.fmt
    let a := s.vElems o.slot 0 o.a n w
    let b := s.vElems o.slot 1 o.b n w
    let c := s.vElems o.slot 2 o.ext.c n w
    let d := s.vElems o.slot 3 o.d n w
    let r := (upTo n).map (fun i => f (a.getD i 0) (b.getD i 0) (c.getD i 0) (d.getD i 0))
    landElems s (s.vReg o.slot o.d) w (s.vMaskBits o n) r lat)

/-- A whole result from the element lists of SA and SB, under the write role of MASK. -/
def vWhole (o : VOp) (s : State) (lat : Nat) (f : Nat → List Nat → List Nat → List Nat) : Out :=
  guarded o.slot.slot o.g s (fun s =>
    let w := fmtBits o.ext.fmt
    let n := lanesOf o.w o.ext.fmt
    let r := f n (s.vElems o.slot 0 o.a n w) (s.vElems o.slot 1 o.b n w)
    landElems s (s.vReg o.slot o.d) w (s.vMaskBits o n) (r.map (fun v => (v, 0))) lat)

/-- The latency of an elementwise form: the integer or the float bound (R62). -/
def vLat (o : VOp) (int flt : Nat) : Nat := if isFloatFmt o.ext.fmt then flt else int

/-! ## F (R47, R158) -/

/-- One or two issue cycles: the bound of a 1,024-bit form is one cycle longer (R16, R62). -/
def fLat (w : BitVec 2) (lat : Nat) : Nat := if w = 2 then lat + 1 else lat

/-- Layout FA: elements of DST, SA and SB combined. -/
def fElemwise (o : FA) (s : State) (lat : Nat) (f : Nat → Nat → Nat → Nat × Flags) : Out :=
  guarded .f o.g s (fun s =>
    let w := fmtBits o.fmt
    let n := lanesOf o.w o.fmt
    let a := elemsOf (s.rd .f 0 (.w o.a)).toNat n w
    let b := elemsOf (s.rd .f 1 (.w o.b)).toNat n w
    let d := elemsOf (s.rd .f 2 (.w o.d)).toNat n w
    let r := (upTo n).map (fun i => f (d.getD i 0) (a.getD i 0) (b.getD i 0))
    landElems s (.w o.d) w (List.replicate n true) r (fLat o.w lat))

end Sys2Proof.Machine
end

