-- ==== Sys2Proof/Machine/Flags.lean ====
section
/-! DEFINITION. Sys2Proof/Machine/Flags.lean: the sticky flags of ARITH_FLAGS (spec/03 R80, R81) and every flag
computation that is not part of a rounding (Format.lean). -/

namespace Sys2Proof.Machine

/-- DZ of a scalar division (R104): a zero divisor and a dividend that is not zero. -/
def divFlags (sa sb : BitVec 64) : Flags := if sb = 0 ∧ sa ≠ 0 then fDZ else 0

/-- Set sticky flags of a context (R81). -/
def setFlags (s : State) (w : Who) (f : Flags) : State :=
  s.updCtx w (fun c => { c with csr := { c.csr with flags := c.csr.flags ||| f } })

/-- The flags of results issued before a cycle whose bound has passed, and those still in flight (R81). -/
def flightFlags (t : Nat) (due : Bool) : List Landing → Flags
  | [] => 0
  | l :: r => (if l.issued < t ∧ decide (l.bound ≤ t) = due then l.flags else 0) ||| flightFlags t due r

/-- ARITH_FLAGS as a csrr at a cycle may read it: flags in flight may or may not show (R81, log 4). -/
def readFlags (c : Ctx) (t free : Nat) : Flags :=
  let late := flightFlags t false c.flight
  c.csr.flags ||| flightFlags t true c.flight ||| (if Config.pick free 81 then late else 0)

/-- The flag a sum of groups sets when it becomes infinite from finite operands (R83): MOVF_F. -/
def movfIf (before after : Bool) : Flags := if after && !before then fMOVF_F else 0

/-- The products of a group and their specials (R84): the values to sum, or the NaN the group gives, with IV.
DESIGN CHOICE (log 49): a group that meets the first row of the table and another gives what the first row says, no IV. -/
def groupProducts (l : List (FVal × FVal)) : List FVal × Flags :=
  if l.any (fun p => anyNan [p.1, p.2]) then ([.nan], 0)
  else if l.any (fun p => (mulF p.1 p.2).2) then ([.nan], fIV)
  else
    let q := l.map (fun p => (mulF p.1 p.2).1)
    if anyInf q true && anyInf q false then ([.nan], fIV) else (q, 0)

end Sys2Proof.Machine
end

