-- ==== Sys2Proof/Machine/Scalar.lean ====
section
/-! DEFINITION. Sys2Proof/Machine/Scalar.lean: the integer, immediate, comparison, predicate and f32 forms of S0 and S1
(spec/05 R101 to R111). -/

namespace Sys2Proof.Machine

/-- The Nat count of a shift or rotation: the low six bits (R102). -/
def cnt6 (b : BitVec 64) : Nat := b.toNat % 64
/-- 64 - number of significant bits. -/
def clz64 (a : BitVec 64) : Nat := 64 - bitLen a.toNat
/-- Trailing zero bits; 64 for 0. -/
def ctz64 (a : BitVec 64) : Nat := (firstIdx (fun i => a.getLsbD i) (upTo 64)).getD 64
/-- Number of 1 bits among the low n. -/
def popBits (v n : Nat) : Nat := ((upTo n).filter (fun i => v.testBit i)).length

/-- ADD (R102). -/
def execAdd (o : SR) (s : State) : Out := srInt o s 2 (fun a b => a + b)
/-- SUB (R102). -/
def execSub (o : SR) (s : State) : Out := srInt o s 2 (fun a b => a - b)
/-- MUL (R102). -/
def execMul (o : SR) (s : State) : Out := srInt o s 4 (fun a b => a * b)
/-- MULH (R102). -/
def execMulh (o : SR) (s : State) : Out := srInt o s 4 (fun a b => BitVec.ofInt 64 ((a.toInt * b.toInt) / 2 ^ 64))
/-- MULHN (R102). -/
def execMulhn (o : SR) (s : State) : Out := srInt o s 4 (fun a b => BitVec.ofNat 64 ((a.toNat * b.toNat) / 2 ^ 64))

/-- The quotient of R104. -/
def divQ (sgn : Bool) (a b : BitVec 64) : BitVec 64 :=
  if b = 0 then BitVec.allOnes 64
  else if sgn then BitVec.ofInt 64 (a.toInt.tdiv b.toInt) else BitVec.ofNat 64 (a.toNat / b.toNat)
/-- The remainder of R104. -/
def divR (sgn : Bool) (a b : BitVec 64) : BitVec 64 :=
  if b = 0 then a
  else if sgn then BitVec.ofInt 64 (a.toInt.tmod b.toInt) else BitVec.ofNat 64 (a.toNat % b.toNat)

/-- DIV (R104). -/
def execDiv (o : SR) (s : State) : Out := srOp o s 24 (fun a b _ => (divQ true a b, divFlags a b))
/-- DIVN (R104). -/
def execDivn (o : SR) (s : State) : Out := srOp o s 24 (fun a b _ => (divQ false a b, divFlags a b))
/-- REM (R104). -/
def execRem (o : SR) (s : State) : Out := srOp o s 24 (fun a b _ => (divR true a b, divFlags a b))
/-- REMN (R104). -/
def execRemn (o : SR) (s : State) : Out := srOp o s 24 (fun a b _ => (divR false a b, divFlags a b))

/-- AND (R102). -/
def execAnd (o : SR) (s : State) : Out := srInt o s 2 (fun a b => a &&& b)
/-- OR (R102). -/
def execOr (o : SR) (s : State) : Out := srInt o s 2 (fun a b => a ||| b)
/-- XOR (R102). -/
def execXor (o : SR) (s : State) : Out := srInt o s 2 (fun a b => a ^^^ b)
/-- ANDN (R102). -/
def execAndn (o : SR) (s : State) : Out := srInt o s 2 (fun a b => a &&& ~~~b)
/-- SHL (R102). -/
def execShl (o : SR) (s : State) : Out := srInt o s 2 (fun a b => a <<< cnt6 b)
/-- SHR (R102). -/
def execShr (o : SR) (s : State) : Out := srInt o s 2 (fun a b => a >>> cnt6 b)
/-- SAR (R102). -/
def execSar (o : SR) (s : State) : Out := srInt o s 2 (fun a b => a.sshiftRight (cnt6 b))
/-- ROTL (R102). -/
def execRotl (o : SR) (s : State) : Out := srInt o s 2 (fun a b => a.rotateLeft (cnt6 b))
/-- MIN (R102). -/
def execMin (o : SR) (s : State) : Out := srInt o s 2 (fun a b => if a.toInt ≤ b.toInt then a else b)
/-- MAX (R102). -/
def execMax (o : SR) (s : State) : Out := srInt o s 2 (fun a b => if a.toInt ≤ b.toInt then b else a)
/-- MINN (R102). -/
def execMinn (o : SR) (s : State) : Out := srInt o s 2 (fun a b => if a.toNat ≤ b.toNat then a else b)
/-- MAXN (R102). -/
def execMaxn (o : SR) (s : State) : Out := srInt o s 2 (fun a b => if a.toNat ≤ b.toNat then b else a)
/-- CLZ (R102). -/
def execClz (o : SR) (s : State) : Out := srInt o s 2 (fun a _ => BitVec.ofNat 64 (clz64 a))
/-- CTZ (R102). -/
def execCtz (o : SR) (s : State) : Out := srInt o s 2 (fun a _ => BitVec.ofNat 64 (ctz64 a))
/-- POPC (R102). -/
def execPopc (o : SR) (s : State) : Out := srInt o s 2 (fun a _ => BitVec.ofNat 64 (popBits a.toNat 64))

/-- The width FN[1:0] of sext and zext names (R102). -/
def extWidth (fn : BitVec 5) : Nat := 8 * 2 ^ (fn.toNat % 4)
/-- SEXT (R102). -/
def execSext (o : SR) (s : State) : Out := srInt o s 2 (fun a _ => BitVec.ofInt 64 (sInt a.toNat (extWidth o.fn)))
/-- ZEXT (R102). -/
def execZext (o : SR) (s : State) : Out := srInt o s 2 (fun a _ => BitVec.ofNat 64 (a.toNat % 2 ^ extWidth o.fn))

/-- LEN of bfx and bfi (R106). -/
def bfLen (x : BitVec 12) : Nat := x.toNat % 64 + 1
/-- POS of bfx and bfi (R106). -/
def bfPos (x : BitVec 12) : Nat := x.toNat / 64
/-- The field's mask m of R106. -/
def bfMask (x : BitVec 12) : BitVec 64 := BitVec.ofNat 64 ((2 ^ bfLen x - 1) * 2 ^ bfPos x)
/-- BFX (R106). -/
def execBfx (o : SRX) (s : State) : Out :=
  srxOp o s 2 (fun a _ =>
    let f := natFld a.toNat (bfPos o.x) (bfLen o.x)
    if o.fn.getLsbD 0 then BitVec.ofInt 64 (sInt f (bfLen o.x)) else BitVec.ofNat 64 f)
/-- BFI (R106). -/
def execBfi (o : SRX) (s : State) : Out :=
  srxOp o s 2 (fun a d => (d &&& ~~~bfMask o.x) ||| ((a <<< bfPos o.x) &&& bfMask o.x))
/-- LEA (R102). -/
def execLea (o : SR) (s : State) : Out := srInt o s 2 (fun a b => a + b <<< (o.fn.toNat % 8))
/-- SEL (R102): the predicate FN[2:0] of the slot's file, xor FN[3], chooses sa. -/
def execSel (o : SR) (s : State) : Out :=
  srInt o s 2 (fun a b =>
    if (s.rd o.slot.slot 3 (sPred o.slot (o.fn.extractLsb' 0 3))).getLsbD 0 != o.fn.getLsbD 3 then a else b)

/-- ADDI (R105). -/
def execAddi (o : SI) (s : State) : Out := siOp o s (immS o.imm) (fun a i => a + i)
/-- ANDI (R105). -/
def execAndi (o : SI) (s : State) : Out := siOp o s (immZ o.imm) (fun a i => a &&& i)
/-- ORI (R105). -/
def execOri (o : SI) (s : State) : Out := siOp o s (immZ o.imm) (fun a i => a ||| i)
/-- XORI (R105). -/
def execXori (o : SI) (s : State) : Out := siOp o s (immZ o.imm) (fun a i => a ^^^ i)
/-- SHLI (R105). -/
def execShli (o : SI) (s : State) : Out := siOp o s (immZ o.imm) (fun a i => a <<< cnt6 i)
/-- SHRI (R105). -/
def execShri (o : SI) (s : State) : Out := siOp o s (immZ o.imm) (fun a i => a >>> cnt6 i)
/-- SARI (R105). -/
def execSari (o : SI) (s : State) : Out := siOp o s (immZ o.imm) (fun a i => a.sshiftRight (cnt6 i))
/-- LI (R105). -/
def execLi (o : SL) (s : State) : Out :=
  guarded o.slot.slot o.g s (fun s => s.land64 (sReg o.slot o.d) (immS o.imm) 2 0)
/-- LIH (R105): reads its own destination's low half. -/
def execLih (o : SL) (s : State) : Out :=
  guarded o.slot.slot o.g s (fun s =>
    let d := s.rd64 o.slot.slot 2 (sReg o.slot o.d)
    s.land64 (sReg o.slot o.d) ((immZ o.imm) <<< 32 ||| (d &&& 0xFFFFFFFF#64)) 2 0)

/-- The conditions of cmp (R107). -/
def cmpCond (c : Nat) (a b : BitVec 64) : Bool :=
  match c with
  | 0 => a = b
  | 1 => a ≠ b
  | 2 => a.toInt < b.toInt
  | 3 => a.toInt ≤ b.toInt
  | 4 => a.toNat < b.toNat
  | _ => a.toNat ≤ b.toNat
/-- CMP (R107). -/
def execCmp (o : SC) (s : State) : Out := scOp o s (cmpCond o.cond.toNat)
/-- PSET (R108). -/
def execPset (o : SP) (s : State) : Out := spOp o s (fun _ _ => o.v)
/-- PAND (R108). -/
def execPand (o : SP) (s : State) : Out := spOp o s (fun a b => a && b)
/-- POR (R108). -/
def execPor (o : SP) (s : State) : Out := spOp o s (fun a b => a || b)
/-- PNOT (R108). -/
def execPnot (o : SP) (s : State) : Out := spOp o s (fun a _ => !a)

/-- The f32 value in bits [31:0] of a register (R101). -/
def f32Of (a : BitVec 64) : FVal := decodeF 0 (a.toNat % 2 ^ 32)
/-- A 32-bit pattern in a register, 0 above (R101). -/
def regOf (r : Nat × Flags) : BitVec 64 × Flags := (BitVec.ofNat 64 r.1, r.2)

/-- FADD (R109). -/
def execFadd (o : SR) (s : State) : Out :=
  srOp o s 4 (fun a b _ => regOf (sumRound s.ovt 0 (o.fn.setWidth 2) [f32Of a, f32Of b]))
/-- FSUB (R109). -/
def execFsub (o : SR) (s : State) : Out :=
  srOp o s 4 (fun a b _ => regOf (sumRound s.ovt 0 (o.fn.setWidth 2) [f32Of a, (f32Of b).negate]))
/-- FMUL (R109). -/
def execFmul (o : SR) (s : State) : Out :=
  srOp o s 4 (fun a b _ => regOf (mulRound s.ovt 0 (o.fn.setWidth 2) (f32Of a) (f32Of b)))
/-- FMA (R109). -/
def execFma (o : SR) (s : State) : Out :=
  srOp o s 5 (fun a b d => regOf (fmaRound s.ovt 0 (o.fn.setWidth 2) (f32Of a) (f32Of b) (f32Of d)))
/-- FMIN (R110). -/
def execFmin (o : SR) (s : State) : Out :=
  srOp o s 4 (fun a b _ => regOf (minBits 0 (a.toNat % 2 ^ 32) (b.toNat % 2 ^ 32), 0))
/-- FMAX (R110). -/
def execFmax (o : SR) (s : State) : Out :=
  srOp o s 4 (fun a b _ => regOf (maxBits 0 (a.toNat % 2 ^ 32) (b.toNat % 2 ^ 32), 0))
/-- FCMP (R110). -/
def execFcmp (o : SC) (s : State) : Out := scOp o s (fun a b => fcond o.cond.toNat (f32Of a) (f32Of b))

/-- The format codes of fcvt as those of R41 (R111). -/
def fcvtFmt (c : BitVec 3) : BitVec 4 :=
  match c.toNat with
  | 0 => 0 | 1 => 1 | 2 => 2 | 3 => 5 | 4 => 8 | 5 => 11 | _ => 12
/-- The result of fcvt in a register: i32 sign-extended, everything else zero-extended (R111). -/
def fcvtResult (dst : BitVec 4) (v : Nat) : BitVec 64 :=
  if dst = 5 then BitVec.ofInt 64 (sInt v 32) else BitVec.ofNat 64 v
/-- FCVT (R111). -/
def execFcvt (o : SR) (s : State) : Out :=
  srOp o s 3 (fun a _ _ =>
    let src := fcvtFmt (o.b.extractLsb' 2 3)
    let dst := fcvtFmt (o.fn.extractLsb' 2 3)
    let r := convert s.ovt src dst (o.b.extractLsb' 0 2) (a.toNat % 2 ^ fmtBits src)
    (fcvtResult dst r.1, r.2))

end Sys2Proof.Machine
end

