-- ==== Sys2Proof/Decode.lean ====
section
/-! DEFINITION. Sys2Proof/Decode.lean: from syllables to an instruction, total, rejecting by rule; and the encoder.
Layouts of spec/02 R39 to R53, opcode maps of R44, R46, R47, R50, R51, R52 and R54. A bit that a layout does not name
is reserved (R43): a syllable that is not the encoding of the instruction its fields give is rejected. -/

namespace Sys2Proof

/-- Why a syllable is no instruction: the rules of spec/01 R37 that it breaks. -/
inductive DecodeErr where
  /-- rule [24]: the opcode is unassigned in the slot class's map. -/
  | unassigned
  /-- rule [25]: a reserved field or value, or an L bit the opcode forbids. -/
  | reserved
  deriving DecidableEq, Repr

/-- The first syllable and, when L is 1, the second. -/
abbrev Words := Syl × Option Syl

/-- OP, [30:24] (R39). -/
def opOf (w : Syl) : BitVec 7 := w.extractLsb' 24 7
/-- G and GI (R39). -/
def guardOf (w : Syl) : Guard := ⟨w.extractLsb' 21 3, w.getLsbD 20⟩
/-- The frame of R39. -/
def frame (l : Bool) (op : BitVec 7) (g : Guard) (opnd : BitVec 20) : Syl :=
  BitVec.ofBool l ++ op ++ g.p ++ BitVec.ofBool g.inv ++ opnd

def SR.ofSyl (sl : SSlot) (w : Syl) (_ : Option Syl) : SR :=
  ⟨sl, guardOf w, w.extractLsb' 15 5, w.extractLsb' 10 5, w.extractLsb' 5 5, w.extractLsb' 0 5⟩
def SR.words (o : SR) (op : BitVec 7) : Words := (frame false op o.g (o.d ++ o.a ++ o.b ++ o.fn), none)

def SRX.ofSyl (sl : SSlot) (w : Syl) (x : Option Syl) : SRX :=
  ⟨sl, guardOf w, w.extractLsb' 15 5, w.extractLsb' 10 5, w.extractLsb' 5 5, w.extractLsb' 0 5, (x.getD 0).extractLsb' 0 12⟩
def SRX.words (o : SRX) (op : BitVec 7) : Words :=
  (frame true op o.g (o.d ++ o.a ++ o.b ++ o.fn), some ((0 : BitVec 20) ++ o.x))

/-- An immediate field of n bits at the low end of OPND, or IMM32. -/
def immOf (n : Nat) (w : Syl) (x : Option Syl) : Imm n :=
  match x with
  | none => .short (w.extractLsb' 0 n)
  | some v => .long v
/-- The L bit an immediate takes. -/
def Imm.isLong {n : Nat} : Imm n → Bool | .short _ => false | .long _ => true
/-- The field's bits in the first syllable: reserved, so 0, under L = 1. -/
def Imm.fld {n : Nat} : Imm n → BitVec n | .short v => v | .long _ => 0
/-- The second syllable of an immediate. -/
def Imm.second {n : Nat} : Imm n → Option Syl | .short _ => none | .long v => some v

def SI.ofSyl (sl : SSlot) (w : Syl) (x : Option Syl) : SI :=
  ⟨sl, guardOf w, w.extractLsb' 15 5, w.extractLsb' 10 5, immOf 10 w x⟩
def SI.words (o : SI) (op : BitVec 7) : Words := (frame o.imm.isLong op o.g (o.d ++ o.a ++ o.imm.fld), o.imm.second)

def SL.ofSyl (sl : SSlot) (w : Syl) (x : Option Syl) : SL := ⟨sl, guardOf w, w.extractLsb' 15 5, immOf 15 w x⟩
def SL.words (o : SL) (op : BitVec 7) : Words := (frame o.imm.isLong op o.g (o.d ++ o.imm.fld), o.imm.second)

def SC.ofSyl (sl : SSlot) (w : Syl) (x : Option Syl) : SC :=
  ⟨sl, guardOf w, w.extractLsb' 17 3, w.extractLsb' 12 5,
    match x with | none => .reg (w.extractLsb' 7 5) | some v => .imm v, w.extractLsb' 4 3⟩
/-- The SB field of layout SC. -/
def SRhs.fld : SRhs → BitVec 5 | .reg r => r | .imm _ => 0
/-- The second syllable of layout SC. -/
def SRhs.second : SRhs → Option Syl | .reg _ => none | .imm v => some v
def SC.words (o : SC) (op : BitVec 7) : Words :=
  (frame o.rhs.second.isSome op o.g (o.pd ++ o.a ++ o.rhs.fld ++ o.cond ++ (0 : BitVec 4)), o.rhs.second)

def SP.ofSyl (sl : SSlot) (w : Syl) (_ : Option Syl) : SP :=
  ⟨sl, guardOf w, w.extractLsb' 17 3, w.extractLsb' 14 3, w.extractLsb' 11 3, w.getLsbD 10⟩
def SP.words (o : SP) (op : BitVec 7) : Words :=
  (frame false op o.g (o.pd ++ o.pa ++ o.pb ++ BitVec.ofBool o.v ++ (0 : BitVec 10)), none)

def SB.ofSyl (sl : SSlot) (w : Syl) (x : Option Syl) : SB := ⟨sl, guardOf w, immOf 20 w x⟩
def SB.words (o : SB) (op : BitVec 7) : Words := (frame o.off.isLong op o.g o.off.fld, o.off.second)

def SBC.ofSyl (sl : SSlot) (w : Syl) (x : Option Syl) : SBC :=
  ⟨sl, guardOf w, w.extractLsb' 17 3, w.getLsbD 16, immOf 16 w x⟩
def SBC.words (o : SBC) (op : BitVec 7) : Words :=
  (frame o.off.isLong op o.g (o.p ++ BitVec.ofBool o.pinv ++ o.off.fld), o.off.second)

def SLP.ofSyl (sl : SSlot) (w : Syl) (_ : Option Syl) : SLP :=
  ⟨sl, guardOf w, w.extractLsb' 17 3, w.extractLsb' 14 3, w.extractLsb' 0 14⟩
def SLP.words (o : SLP) (op : BitVec 7) : Words := (frame false op o.g (o.lc ++ o.rot ++ o.off), none)

def SN.ofSyl (sl : SSlot) (w : Syl) (_ : Option Syl) : SN := ⟨sl, guardOf w⟩
def SN.words (o : SN) (op : BitVec 7) : Words := (frame false op o.g 0, none)

def SJ.ofSyl (sl : SSlot) (w : Syl) (_ : Option Syl) : SJ := ⟨sl, guardOf w, w.extractLsb' 10 5⟩
def SJ.words (o : SJ) (op : BitVec 7) : Words :=
  (frame false op o.g ((0 : BitVec 5) ++ o.a ++ (0 : BitVec 10)), none)

def SRRB.ofSyl (sl : SSlot) (w : Syl) (_ : Option Syl) : SRRB :=
  ⟨sl, guardOf w, w.extractLsb' 17 3, w.extractLsb' 13 4⟩
def SRRB.words (o : SRRB) (op : BitVec 7) : Words := (frame false op o.g (o.rot ++ o.v ++ (0 : BitVec 13)), none)

def SWT.ofSyl (sl : SSlot) (w : Syl) (_ : Option Syl) : SWT :=
  ⟨sl, guardOf w, w.extractLsb' 16 4, w.extractLsb' 0 15⟩
def SWT.words (o : SWT) (op : BitVec 7) : Words := (frame false op o.g (o.cc ++ (0 : BitVec 1) ++ o.thr), none)

def SWR.ofSyl (sl : SSlot) (w : Syl) (_ : Option Syl) : SWR :=
  ⟨sl, guardOf w, w.extractLsb' 16 4, w.extractLsb' 10 5⟩
def SWR.words (o : SWR) (op : BitVec 7) : Words :=
  (frame false op o.g (o.cc ++ (1 : BitVec 1) ++ o.a ++ (0 : BitVec 10)), none)

def STR.ofSyl (sl : SSlot) (w : Syl) (_ : Option Syl) : STR := ⟨sl, guardOf w, w.extractLsb' 0 20⟩
def STR.words (o : STR) (op : BitVec 7) : Words := (frame false op o.g o.code, none)

def SRF.ofSyl (sl : SSlot) (w : Syl) (_ : Option Syl) : SRF := ⟨sl, guardOf w, w.getLsbD 0⟩
def SRF.words (o : SRF) (op : BitVec 7) : Words :=
  (frame false op o.g ((0 : BitVec 19) ++ BitVec.ofBool o.skip), none)

def VExt.ofSyl (x : Syl) : VExt :=
  ⟨x.extractLsb' 28 4, x.extractLsb' 26 2, x.extractLsb' 22 4, x.extractLsb' 17 5, x.extractLsb' 0 16⟩
def VExt.syl (e : VExt) : Syl := e.fmt ++ e.rm ++ e.fmt2 ++ e.c ++ (0 : BitVec 1) ++ e.imm16
def VOp.ofSyl (sl : VSlot) (w : Syl) (x : Option Syl) : VOp :=
  ⟨sl, guardOf w, w.extractLsb' 18 2, w.extractLsb' 15 3, w.extractLsb' 10 5, w.extractLsb' 5 5, w.extractLsb' 0 5,
    x.map VExt.ofSyl⟩
def VOp.words (o : VOp) (op : BitVec 7) : Words :=
  (frame o.x.isSome op o.g (o.w ++ o.mask ++ o.d ++ o.a ++ o.b), o.x.map VExt.syl)

def FA.ofSyl (w : Syl) (_ : Option Syl) : FA :=
  ⟨guardOf w, w.extractLsb' 18 2, w.extractLsb' 14 4, w.extractLsb' 10 4, w.extractLsb' 6 4, w.extractLsb' 2 4,
    w.extractLsb' 0 2⟩
def FA.words (o : FA) (op : BitVec 7) : Words :=
  (frame false op o.g (o.w ++ o.d ++ o.a ++ o.b ++ o.fmt ++ o.rm), none)

def FCp.ofSyl (w : Syl) (_ : Option Syl) : FCp :=
  ⟨guardOf w, w.extractLsb' 18 2, w.extractLsb' 14 4, w.extractLsb' 10 4, w.extractLsb' 5 5⟩
def FCp.words (o : FCp) (op : BitVec 7) : Words :=
  (frame false op o.g (o.w ++ o.a ++ o.fc ++ o.d ++ (0 : BitVec 5)), none)

def MExt.ofSyl (x : Syl) : MExt :=
  ⟨x.extractLsb' 28 4, x.extractLsb' 26 2, x.extractLsb' 23 3, x.getLsbD 22, x.getLsbD 21, x.extractLsb' 9 12,
    x.extractLsb' 0 9⟩
def MExt.syl (e : MExt) : Syl :=
  e.ac ++ e.ord ++ e.scope ++ BitVec.ofBool e.ef ++ BitVec.ofBool e.skv ++ e.sk ++ e.step

def DA.ofSyl (sl : DSlot) (w : Syl) (x : Option Syl) : DA :=
  ⟨sl, guardOf w, w.extractLsb' 16 4, w.extractLsb' 12 4, w.extractLsb' 7 5, w.extractLsb' 5 2, w.extractLsb' 0 5,
    x.map MExt.ofSyl⟩
def DA.words (o : DA) (op : BitVec 7) : Words :=
  (frame o.x.isSome op o.g (o.base ++ o.fc ++ o.dreg ++ o.sz ++ o.off), o.x.map MExt.syl)

def DT.ofSyl (sl : DSlot) (w : Syl) (x : Option Syl) : DT :=
  ⟨sl, guardOf w, w.extractLsb' 16 4, w.extractLsb' 10 6, w.extractLsb' 6 4, x.map MExt.ofSyl⟩
def DT.words (o : DT) (op : BitVec 7) : Words :=
  (frame o.x.isSome op o.g (o.base ++ o.tile ++ o.desc ++ (0 : BitVec 6)), o.x.map MExt.syl)

def DM.ofSyl (sl : DSlot) (w : Syl) (x : Option Syl) : DM :=
  ⟨sl, guardOf w, w.extractLsb' 16 4, w.extractLsb' 12 4, w.extractLsb' 7 5, w.extractLsb' 2 5, w.extractLsb' 0 2,
    x.map MExt.ofSyl⟩
def DM.words (o : DM) (op : BitVec 7) : Words :=
  (frame o.x.isSome op o.g (o.base ++ o.fc ++ o.dreg ++ o.vreg ++ o.sz), o.x.map MExt.syl)

def DF.ofSyl (sl : DSlot) (w : Syl) (_ : Option Syl) : DF := ⟨sl, guardOf w, w.extractLsb' 17 3, w.extractLsb' 15 2⟩
def DF.words (o : DF) (op : BitVec 7) : Words := (frame false op o.g (o.scope ++ o.kind ++ (0 : BitVec 15)), none)

def DL.ofSyl (sl : DSlot) (w : Syl) (_ : Option Syl) : DL :=
  ⟨sl, guardOf w, w.extractLsb' 16 4, w.extractLsb' 12 4, w.extractLsb' 9 3⟩
def DL.words (o : DL) (op : BitVec 7) : Words :=
  (frame false op o.g (o.base ++ o.len ++ o.ret ++ (0 : BitVec 9)), none)

def DW.ofSyl (sl : DSlot) (w : Syl) (_ : Option Syl) : DW := ⟨sl, guardOf w, w.extractLsb' 16 4⟩
def DW.words (o : DW) (op : BitVec 7) : Words := (frame false op o.g (o.win ++ (0 : BitVec 16)), none)

def MRow.ofSyl (w : Syl) (_ : Option Syl) : MRow :=
  ⟨guardOf w, w.extractLsb' 16 4, w.extractLsb' 14 2, w.extractLsb' 10 4, w.extractLsb' 3 7⟩
def MRow.words (o : MRow) (op : BitVec 7) : Words :=
  (frame false op o.g (o.acc ++ o.lat ++ o.fmt ++ o.nrow ++ (0 : BitVec 3)), none)

def MDrainExt.ofSyl (x : Syl) : MDrainExt := ⟨x.extractLsb' 29 3, x.extractLsb' 26 3, x.getLsbD 25⟩
def MDrainExt.syl (e : MDrainExt) : Syl := e.ka ++ e.kb ++ BitVec.ofBool e.scl ++ (0 : BitVec 25)
def MDrain.ofSyl (w : Syl) (x : Option Syl) : MDrain :=
  ⟨guardOf w, w.extractLsb' 16 4, w.extractLsb' 14 2, w.extractLsb' 10 4, w.extractLsb' 4 6, w.extractLsb' 2 2,
    x.map MDrainExt.ofSyl⟩
def MDrain.words (o : MDrain) (op : BitVec 7) : Words :=
  (frame o.x.isSome op o.g (o.acc ++ o.lat ++ o.fmt ++ o.tile ++ o.rm ++ (0 : BitVec 2)), o.x.map MDrainExt.syl)

def MLd.ofSyl (w : Syl) (_ : Option Syl) : MLd :=
  ⟨guardOf w, w.extractLsb' 16 4, w.extractLsb' 14 2, w.extractLsb' 10 4, w.extractLsb' 4 6⟩
def MLd.words (o : MLd) (op : BitVec 7) : Words :=
  (frame false op o.g (o.acc ++ o.lat ++ o.fmt ++ o.tile ++ (0 : BitVec 4)), none)

def MKat.ofSyl (w : Syl) (x : Option Syl) : MKat := ⟨guardOf w, w.extractLsb' 4 16, x.getD 0⟩
def MKat.words (o : MKat) (op : BitVec 7) : Words := (frame true op o.g (o.seed ++ (0 : BitVec 4)), some o.hash)

def MChk.ofSyl (w : Syl) (_ : Option Syl) : MChk :=
  ⟨guardOf w, w.extractLsb' 16 4, w.extractLsb' 14 2, w.extractLsb' 10 4, w.extractLsb' 2 8⟩
def MChk.words (o : MChk) (op : BitVec 7) : Words :=
  (frame false op o.g (o.acc ++ o.lat ++ o.fmt ++ o.tol ++ (0 : BitVec 2)), none)

def KLd.ofSyl (w : Syl) (_ : Option Syl) : KLd :=
  ⟨guardOf w, w.extractLsb' 17 3, w.extractLsb' 13 4, w.extractLsb' 0 13⟩
def KLd.words (o : KLd) (op : BitVec 7) : Words := (frame false op o.g (o.c ++ o.fmt ++ o.addr), none)

def KSet.ofSyl (w : Syl) (x : Option Syl) : KSet :=
  ⟨guardOf w, w.extractLsb' 17 3, w.extractLsb' 13 4, x.getD 0⟩
def KSet.words (o : KSet) (op : BitVec 7) : Words := (frame true op o.g (o.c ++ o.fmt ++ (0 : BitVec 13)), some o.val)

def KMov.ofSyl (w : Syl) (_ : Option Syl) : KMov := ⟨guardOf w, w.extractLsb' 17 3, w.extractLsb' 14 3⟩
def KMov.words (o : KMov) (op : BitVec 7) : Words := (frame false op o.g (o.c ++ o.src ++ (0 : BitVec 14)), none)

def EExt.ofSyl (x : Syl) : EExt := ⟨x.extractLsb' 20 12, x.getLsbD 19, x.extractLsb' 0 19⟩
def EExt.syl (e : EExt) : Syl := e.sk ++ BitVec.ofBool e.skv ++ e.imm
def EOp.ofSyl (w : Syl) (x : Option Syl) : EOp :=
  ⟨guardOf w, w.extractLsb' 17 3, w.extractLsb' 14 3, w.extractLsb' 11 3, w.extractLsb' 7 4, w.extractLsb' 0 7,
    x.map EExt.ofSyl⟩
def EOp.words (o : EOp) (op : BitVec 7) : Words :=
  (frame o.x.isSome op o.g (o.ed ++ o.ea ++ o.eb ++ o.cc ++ o.opt), o.x.map EExt.syl)

/-- The opcode map of the scalar class; none where the opcode is unassigned. -/
def parseS (sl : SSlot) (w : Syl) (x : Option Syl) : Option Instr :=
  match (opOf w).toNat with
  | 0x00 => some (.add (.ofSyl sl w x))
  | 0x01 => some (.sub (.ofSyl sl w x))
  | 0x02 => some (.mul (.ofSyl sl w x))
  | 0x03 => some (.mulh (.ofSyl sl w x))
  | 0x04 => some (.mulhn (.ofSyl sl w x))
  | 0x05 => some (.div (.ofSyl sl w x))
  | 0x06 => some (.divn (.ofSyl sl w x))
  | 0x07 => some (.rem (.ofSyl sl w x))
  | 0x08 => some (.remn (.ofSyl sl w x))
  | 0x09 => some (.and (.ofSyl sl w x))
  | 0x0A => some (.or (.ofSyl sl w x))
  | 0x0B => some (.xor (.ofSyl sl w x))
  | 0x0C => some (.andn (.ofSyl sl w x))
  | 0x0D => some (.shl (.ofSyl sl w x))
  | 0x0E => some (.shr (.ofSyl sl w x))
  | 0x0F => some (.sar (.ofSyl sl w x))
  | 0x10 => some (.rotl (.ofSyl sl w x))
  | 0x11 => some (.min (.ofSyl sl w x))
  | 0x12 => some (.max (.ofSyl sl w x))
  | 0x13 => some (.minn (.ofSyl sl w x))
  | 0x14 => some (.maxn (.ofSyl sl w x))
  | 0x15 => some (.clz (.ofSyl sl w x))
  | 0x16 => some (.ctz (.ofSyl sl w x))
  | 0x17 => some (.popc (.ofSyl sl w x))
  | 0x18 => some (.sext (.ofSyl sl w x))
  | 0x19 => some (.zext (.ofSyl sl w x))
  | 0x1A => some (.bfx (.ofSyl sl w x))
  | 0x1B => some (.bfi (.ofSyl sl w x))
  | 0x1C => some (.lea (.ofSyl sl w x))
  | 0x1D => some (.sel (.ofSyl sl w x))
  | 0x20 => some (.addi (.ofSyl sl w x))
  | 0x21 => some (.andi (.ofSyl sl w x))
  | 0x22 => some (.ori (.ofSyl sl w x))
  | 0x23 => some (.xori (.ofSyl sl w x))
  | 0x24 => some (.shli (.ofSyl sl w x))
  | 0x25 => some (.shri (.ofSyl sl w x))
  | 0x26 => some (.sari (.ofSyl sl w x))
  | 0x27 => some (.li (.ofSyl sl w x))
  | 0x28 => some (.lih (.ofSyl sl w x))
  | 0x30 => some (.cmp (.ofSyl sl w x))
  | 0x31 => some (.pset (.ofSyl sl w x))
  | 0x32 => some (.pand (.ofSyl sl w x))
  | 0x33 => some (.por (.ofSyl sl w x))
  | 0x34 => some (.pnot (.ofSyl sl w x))
  | 0x38 => some (.fadd (.ofSyl sl w x))
  | 0x39 => some (.fsub (.ofSyl sl w x))
  | 0x3A => some (.fmul (.ofSyl sl w x))
  | 0x3B => some (.fma (.ofSyl sl w x))
  | 0x3C => some (.fmin (.ofSyl sl w x))
  | 0x3D => some (.fmax (.ofSyl sl w x))
  | 0x3E => some (.fcmp (.ofSyl sl w x))
  | 0x3F => some (.fcvt (.ofSyl sl w x))
  | 0x40 => some (.br (.ofSyl sl w x))
  | 0x41 => some (.bc (.ofSyl sl w x))
  | 0x42 => some (.call (.ofSyl sl w x))
  | 0x43 => some (.ret (.ofSyl sl w x))
  | 0x44 => some (.jr (.ofSyl sl w x))
  | 0x45 => some (.loop (.ofSyl sl w x))
  | 0x46 => some (.lbrk (.ofSyl sl w x))
  | 0x47 => some (.rrbSet (.ofSyl sl w x))
  | 0x48 => some (.rrbClr (.ofSyl sl w x))
  | 0x49 => some (.nop (.ofSyl sl w x))
  | 0x4A => some (.halt (.ofSyl sl w x))
  | 0x4B => if w.getLsbD 15 then some (.waitReg (.ofSyl sl w x)) else some (.wait (.ofSyl sl w x))
  | 0x4C => some (.yield (.ofSyl sl w x))
  | 0x4D => some (.trap (.ofSyl sl w x))
  | 0x4E => some (.rfe (.ofSyl sl w x))
  | 0x50 => some (.idr (.ofSyl sl w x))
  | 0x51 => some (.csrr (.ofSyl sl w x))
  | 0x52 => some (.csrw (.ofSyl sl w x))
  | 0x53 => some (.csrx (.ofSyl sl w x))
  | 0x54 => some (.cp (.ofSyl sl w x))
  | 0x55 => some (.ovtLd (.ofSyl sl w x))
  | _ => none

/-- The opcode map of the vector class; none where the opcode is unassigned. -/
def parseV (sl : VSlot) (w : Syl) (x : Option Syl) : Option Instr :=
  match (opOf w).toNat with
  | 0x00 => some (.vadd (.ofSyl sl w x))
  | 0x01 => some (.vsub (.ofSyl sl w x))
  | 0x02 => some (.vmul (.ofSyl sl w x))
  | 0x03 => some (.vfma (.ofSyl sl w x))
  | 0x04 => some (.vfms (.ofSyl sl w x))
  | 0x05 => some (.vfnma (.ofSyl sl w x))
  | 0x06 => some (.vmin (.ofSyl sl w x))
  | 0x07 => some (.vmax (.ofSyl sl w x))
  | 0x08 => some (.vabs (.ofSyl sl w x))
  | 0x09 => some (.vneg (.ofSyl sl w x))
  | 0x0A => some (.vsatadd (.ofSyl sl w x))
  | 0x0B => some (.vsatsub (.ofSyl sl w x))
  | 0x0C => some (.vclamp (.ofSyl sl w x))
  | 0x0D => some (.vdot4 (.ofSyl sl w x))
  | 0x10 => some (.vand (.ofSyl sl w x))
  | 0x11 => some (.vor (.ofSyl sl w x))
  | 0x12 => some (.vxor (.ofSyl sl w x))
  | 0x13 => some (.vandn (.ofSyl sl w x))
  | 0x14 => some (.vnot (.ofSyl sl w x))
  | 0x15 => some (.vshl (.ofSyl sl w x))
  | 0x16 => some (.vshr (.ofSyl sl w x))
  | 0x17 => some (.vsar (.ofSyl sl w x))
  | 0x20 => some (.vcmp (.ofSyl sl w x))
  | 0x21 => some (.vsel (.ofSyl sl w x))
  | 0x22 => some (.vmov (.ofSyl sl w x))
  | 0x23 => some (.vbcast (.ofSyl sl w x))
  | 0x24 => some (.viota (.ofSyl sl w x))
  | 0x28 => some (.vcvt (.ofSyl sl w x))
  | 0x29 => some (.vpack (.ofSyl sl w x))
  | 0x2A => some (.vunpack (.ofSyl sl w x))
  | 0x30 => some (.vperm (.ofSyl sl w x))
  | 0x31 => some (.vshuf (.ofSyl sl w x))
  | 0x32 => some (.vslide (.ofSyl sl w x))
  | 0x33 => some (.vcompress (.ofSyl sl w x))
  | 0x34 => some (.vexpand (.ofSyl sl w x))
  | 0x38 => some (.vredadd (.ofSyl sl w x))
  | 0x39 => some (.vredmax (.ofSyl sl w x))
  | 0x3A => some (.vredmin (.ofSyl sl w x))
  | 0x3B => some (.vscanAdd (.ofSyl sl w x))
  | 0x3C => some (.vscanMax (.ofSyl sl w x))
  | 0x3D => some (.vsegscan (.ofSyl sl w x))
  | 0x40 => some (.vcp (.ofSyl sl w x))
  | 0x41 => some (.mand (.ofSyl sl w x))
  | 0x42 => some (.mor (.ofSyl sl w x))
  | 0x43 => some (.mnot (.ofSyl sl w x))
  | 0x44 => some (.mpopc (.ofSyl sl w x))
  | _ => none

/-- The opcode map of the special-function class; none where the opcode is unassigned. -/
def parseF  (w : Syl) (x : Option Syl) : Option Instr :=
  match (opOf w).toNat with
  | 0x00 => some (.sfrcp (.ofSyl w x))
  | 0x01 => some (.sfrsq (.ofSyl w x))
  | 0x02 => some (.sfrcpr (.ofSyl w x))
  | 0x03 => some (.sfrsqr (.ofSyl w x))
  | 0x04 => some (.sfexp2 (.ofSyl w x))
  | 0x05 => some (.sflog2 (.ofSyl w x))
  | 0x06 => some (.sfsin (.ofSyl w x))
  | 0x07 => some (.sfcos (.ofSyl w x))
  | 0x08 => some (.sftanh (.ofSyl w x))
  | 0x09 => some (.sfsigm (.ofSyl w x))
  | 0x0A => some (.sferf (.ofSyl w x))
  | 0x0B => some (.sfsqrt (.ofSyl w x))
  | 0x0C => some (.sfdiv (.ofSyl w x))
  | 0x10 => some (.sfcp (.ofSyl w x))
  | _ => none

/-- The opcode map of the memory class; none where the opcode is unassigned. -/
def parseD (sl : DSlot) (w : Syl) (x : Option Syl) : Option Instr :=
  match (opOf w).toNat with
  | 0x00 => some (.ldv (.ofSyl sl w x))
  | 0x01 => some (.stv (.ofSyl sl w x))
  | 0x02 => some (.lds (.ofSyl sl w x))
  | 0x03 => some (.sts (.ofSyl sl w x))
  | 0x04 => some (.ldb (.ofSyl sl w x))
  | 0x05 => some (.gth (.ofSyl sl w x))
  | 0x06 => some (.sct (.ofSyl sl w x))
  | 0x08 => some (.ldt (.ofSyl sl w x))
  | 0x09 => some (.stt (.ofSyl sl w x))
  | 0x0A => some (.ldtp (.ofSyl sl w x))
  | 0x10 => some (.ldg (.ofSyl sl w x))
  | 0x11 => some (.stg (.ofSyl sl w x))
  | 0x18 => some (.aadd (.ofSyl sl w x))
  | 0x19 => some (.amin (.ofSyl sl w x))
  | 0x1A => some (.amax (.ofSyl sl w x))
  | 0x1B => some (.aminn (.ofSyl sl w x))
  | 0x1C => some (.amaxn (.ofSyl sl w x))
  | 0x1D => some (.aand (.ofSyl sl w x))
  | 0x1E => some (.aor (.ofSyl sl w x))
  | 0x1F => some (.axor (.ofSyl sl w x))
  | 0x20 => some (.aswp (.ofSyl sl w x))
  | 0x21 => some (.acas (.ofSyl sl w x))
  | 0x22 => some (.afadd (.ofSyl sl w x))
  | 0x23 => some (.afmax (.ofSyl sl w x))
  | 0x28 => some (.fence (.ofSyl sl w x))
  | 0x29 => some (.l2pin (.ofSyl sl w x))
  | 0x2A => some (.l2unpin (.ofSyl sl w x))
  | 0x2B => some (.l2inv (.ofSyl sl w x))
  | 0x2C => some (.wwait (.ofSyl sl w x))
  | _ => none

/-- The opcode map of the matrix class; none where the opcode is unassigned. -/
def parseM  (w : Syl) (x : Option Syl) : Option Instr :=
  match (opOf w).toNat with
  | 0x00 => some (.mzero (.ofSyl w x))
  | 0x01 => some (.mlat (.ofSyl w x))
  | 0x02 => some (.mma (.ofSyl w x))
  | 0x03 => some (.mter (.ofSyl w x))
  | 0x04 => some (.mdrain (.ofSyl w x))
  | 0x05 => some (.maccLd (.ofSyl w x))
  | 0x06 => some (.mkat (.ofSyl w x))
  | 0x07 => some (.mchk (.ofSyl w x))
  | _ => none

/-- The opcode map of the scale class; none where the opcode is unassigned. -/
def parseK  (w : Syl) (x : Option Syl) : Option Instr :=
  match (opOf w).toNat with
  | 0x00 => some (.kld (.ofSyl w x))
  | 0x01 => some (.kset (.ofSyl w x))
  | 0x02 => some (.kmov (.ofSyl w x))
  | _ => none

/-- The opcode map of the engine class; none where the opcode is unassigned. -/
def parseE  (w : Syl) (x : Option Syl) : Option Instr :=
  match (opOf w).toNat with
  | 0x00 => some (.cpy (.ofSyl w x))
  | 0x01 => some (.amsg (.ofSyl w x))
  | 0x02 => some (.taskPost (.ofSyl w x))
  | 0x03 => some (.taskDec (.ofSyl w x))
  | 0x04 => if w.getLsbD 0 then some (.ecntSet (.ofSyl w x)) else some (.ecntAdd (.ofSyl w x))
  | 0x05 => some (.clbar (.ofSyl w x))
  | 0x06 => some (.chbar (.ofSyl w x))
  | 0x08 => some (.fork (.ofSyl w x))
  | 0x09 => some (.spawn (.ofSyl w x))
  | 0x0A => some (.join (.ofSyl w x))
  | 0x0B => some (.revSt (.ofSyl w x))
  | 0x10 => some (.flowMode (.ofSyl w x))
  | 0x11 => some (.slk (.ofSyl w x))
  | 0x18 => some (.coll (.ofSyl w x))
  | 0x19 => some (.esend (.ofSyl w x))
  | 0x1A => some (.erel (.ofSyl w x))
  | 0x1B => some (.eprobe (.ofSyl w x))
  | 0x20 => if w.getLsbD 1 then some (.xtloadPage (.ofSyl w x)) else if w.getLsbD 0 then some (.xtloadEntry (.ofSyl w x)) else some (.xtloadFull (.ofSyl w x))
  | 0x21 => some (.gbar (.ofSyl w x))
  | 0x22 => if (x.getD 0).getLsbD 4 then some (.almwLen (.ofSyl w x)) else some (.almw (.ofSyl w x))
  | 0x23 => if w.getLsbD 0 then some (.migCtlDone (.ofSyl w x)) else some (.migCtlStart (.ofSyl w x))
  | _ => none

/-- The instruction that the fields of a slot's syllables give; none where the opcode is unassigned (R37 [24]). -/
def parse (sl : Slot) (w : Syl) (x : Option Syl) : Option Instr :=
  match sl with
  | .s0 => parseS .s0 w x
  | .s1 => parseS .s1 w x
  | .v0 => parseV .v0 w x
  | .v1 => parseV .v1 w x
  | .v2 => parseV .v2 w x
  | .f => parseF w x
  | .d0 => parseD .d0 w x
  | .d1 => parseD .d1 w x
  | .m => parseM w x
  | .k => parseK w x
  | .e => parseE w x

/-- The words of a slot operation, from the encoding tables of spec/02; none for a step or event of the device. -/
def encode (i : Instr) : Option Words :=
  match i with
  | .add o => some (o.words 0x00)
  | .sub o => some (o.words 0x01)
  | .mul o => some (o.words 0x02)
  | .mulh o => some (o.words 0x03)
  | .mulhn o => some (o.words 0x04)
  | .div o => some (o.words 0x05)
  | .divn o => some (o.words 0x06)
  | .rem o => some (o.words 0x07)
  | .remn o => some (o.words 0x08)
  | .and o => some (o.words 0x09)
  | .or o => some (o.words 0x0A)
  | .xor o => some (o.words 0x0B)
  | .andn o => some (o.words 0x0C)
  | .shl o => some (o.words 0x0D)
  | .shr o => some (o.words 0x0E)
  | .sar o => some (o.words 0x0F)
  | .rotl o => some (o.words 0x10)
  | .min o => some (o.words 0x11)
  | .max o => some (o.words 0x12)
  | .minn o => some (o.words 0x13)
  | .maxn o => some (o.words 0x14)
  | .clz o => some (o.words 0x15)
  | .ctz o => some (o.words 0x16)
  | .popc o => some (o.words 0x17)
  | .sext o => some (o.words 0x18)
  | .zext o => some (o.words 0x19)
  | .bfx o => some (o.words 0x1A)
  | .bfi o => some (o.words 0x1B)
  | .lea o => some (o.words 0x1C)
  | .sel o => some (o.words 0x1D)
  | .addi o => some (o.words 0x20)
  | .andi o => some (o.words 0x21)
  | .ori o => some (o.words 0x22)
  | .xori o => some (o.words 0x23)
  | .shli o => some (o.words 0x24)
  | .shri o => some (o.words 0x25)
  | .sari o => some (o.words 0x26)
  | .li o => some (o.words 0x27)
  | .lih o => some (o.words 0x28)
  | .cmp o => some (o.words 0x30)
  | .pset o => some (o.words 0x31)
  | .pand o => some (o.words 0x32)
  | .por o => some (o.words 0x33)
  | .pnot o => some (o.words 0x34)
  | .fadd o => some (o.words 0x38)
  | .fsub o => some (o.words 0x39)
  | .fmul o => some (o.words 0x3A)
  | .fma o => some (o.words 0x3B)
  | .fmin o => some (o.words 0x3C)
  | .fmax o => some (o.words 0x3D)
  | .fcmp o => some (o.words 0x3E)
  | .fcvt o => some (o.words 0x3F)
  | .br o => some (o.words 0x40)
  | .bc o => some (o.words 0x41)
  | .call o => some (o.words 0x42)
  | .ret o => some (o.words 0x43)
  | .jr o => some (o.words 0x44)
  | .loop o => some (o.words 0x45)
  | .lbrk o => some (o.words 0x46)
  | .rrbSet o => some (o.words 0x47)
  | .rrbClr o => some (o.words 0x48)
  | .nop o => some (o.words 0x49)
  | .halt o => some (o.words 0x4A)
  | .wait o => some (o.words 0x4B)
  | .waitReg o => some (o.words 0x4B)
  | .yield o => some (o.words 0x4C)
  | .trap o => some (o.words 0x4D)
  | .rfe o => some (o.words 0x4E)
  | .idr o => some (o.words 0x50)
  | .csrr o => some (o.words 0x51)
  | .csrw o => some (o.words 0x52)
  | .csrx o => some (o.words 0x53)
  | .cp o => some (o.words 0x54)
  | .ovtLd o => some (o.words 0x55)
  | .vadd o => some (o.words 0x00)
  | .vsub o => some (o.words 0x01)
  | .vmul o => some (o.words 0x02)
  | .vfma o => some (o.words 0x03)
  | .vfms o => some (o.words 0x04)
  | .vfnma o => some (o.words 0x05)
  | .vmin o => some (o.words 0x06)
  | .vmax o => some (o.words 0x07)
  | .vabs o => some (o.words 0x08)
  | .vneg o => some (o.words 0x09)
  | .vsatadd o => some (o.words 0x0A)
  | .vsatsub o => some (o.words 0x0B)
  | .vclamp o => some (o.words 0x0C)
  | .vdot4 o => some (o.words 0x0D)
  | .vand o => some (o.words 0x10)
  | .vor o => some (o.words 0x11)
  | .vxor o => some (o.words 0x12)
  | .vandn o => some (o.words 0x13)
  | .vnot o => some (o.words 0x14)
  | .vshl o => some (o.words 0x15)
  | .vshr o => some (o.words 0x16)
  | .vsar o => some (o.words 0x17)
  | .vcmp o => some (o.words 0x20)
  | .vsel o => some (o.words 0x21)
  | .vmov o => some (o.words 0x22)
  | .vbcast o => some (o.words 0x23)
  | .viota o => some (o.words 0x24)
  | .vcvt o => some (o.words 0x28)
  | .vpack o => some (o.words 0x29)
  | .vunpack o => some (o.words 0x2A)
  | .vperm o => some (o.words 0x30)
  | .vshuf o => some (o.words 0x31)
  | .vslide o => some (o.words 0x32)
  | .vcompress o => some (o.words 0x33)
  | .vexpand o => some (o.words 0x34)
  | .vredadd o => some (o.words 0x38)
  | .vredmax o => some (o.words 0x39)
  | .vredmin o => some (o.words 0x3A)
  | .vscanAdd o => some (o.words 0x3B)
  | .vscanMax o => some (o.words 0x3C)
  | .vsegscan o => some (o.words 0x3D)
  | .vcp o => some (o.words 0x40)
  | .mand o => some (o.words 0x41)
  | .mor o => some (o.words 0x42)
  | .mnot o => some (o.words 0x43)
  | .mpopc o => some (o.words 0x44)
  | .sfrcp o => some (o.words 0x00)
  | .sfrsq o => some (o.words 0x01)
  | .sfrcpr o => some (o.words 0x02)
  | .sfrsqr o => some (o.words 0x03)
  | .sfexp2 o => some (o.words 0x04)
  | .sflog2 o => some (o.words 0x05)
  | .sfsin o => some (o.words 0x06)
  | .sfcos o => some (o.words 0x07)
  | .sftanh o => some (o.words 0x08)
  | .sfsigm o => some (o.words 0x09)
  | .sferf o => some (o.words 0x0A)
  | .sfsqrt o => some (o.words 0x0B)
  | .sfdiv o => some (o.words 0x0C)
  | .sfcp o => some (o.words 0x10)
  | .ldv o => some (o.words 0x00)
  | .stv o => some (o.words 0x01)
  | .lds o => some (o.words 0x02)
  | .sts o => some (o.words 0x03)
  | .ldb o => some (o.words 0x04)
  | .gth o => some (o.words 0x05)
  | .sct o => some (o.words 0x06)
  | .ldt o => some (o.words 0x08)
  | .stt o => some (o.words 0x09)
  | .ldtp o => some (o.words 0x0A)
  | .ldg o => some (o.words 0x10)
  | .stg o => some (o.words 0x11)
  | .aadd o => some (o.words 0x18)
  | .amin o => some (o.words 0x19)
  | .amax o => some (o.words 0x1A)
  | .aminn o => some (o.words 0x1B)
  | .amaxn o => some (o.words 0x1C)
  | .aand o => some (o.words 0x1D)
  | .aor o => some (o.words 0x1E)
  | .axor o => some (o.words 0x1F)
  | .aswp o => some (o.words 0x20)
  | .acas o => some (o.words 0x21)
  | .afadd o => some (o.words 0x22)
  | .afmax o => some (o.words 0x23)
  | .fence o => some (o.words 0x28)
  | .l2pin o => some (o.words 0x29)
  | .l2unpin o => some (o.words 0x2A)
  | .l2inv o => some (o.words 0x2B)
  | .wwait o => some (o.words 0x2C)
  | .mzero o => some (o.words 0x00)
  | .mlat o => some (o.words 0x01)
  | .mma o => some (o.words 0x02)
  | .mter o => some (o.words 0x03)
  | .mdrain o => some (o.words 0x04)
  | .maccLd o => some (o.words 0x05)
  | .mkat o => some (o.words 0x06)
  | .mchk o => some (o.words 0x07)
  | .kld o => some (o.words 0x00)
  | .kset o => some (o.words 0x01)
  | .kmov o => some (o.words 0x02)
  | .cpy o => some (o.words 0x00)
  | .amsg o => some (o.words 0x01)
  | .taskPost o => some (o.words 0x02)
  | .taskDec o => some (o.words 0x03)
  | .ecntAdd o => some (o.words 0x04)
  | .ecntSet o => some (o.words 0x04)
  | .clbar o => some (o.words 0x05)
  | .chbar o => some (o.words 0x06)
  | .fork o => some (o.words 0x08)
  | .spawn o => some (o.words 0x09)
  | .join o => some (o.words 0x0A)
  | .revSt o => some (o.words 0x0B)
  | .flowMode o => some (o.words 0x10)
  | .slk o => some (o.words 0x11)
  | .coll o => some (o.words 0x18)
  | .esend o => some (o.words 0x19)
  | .erel o => some (o.words 0x1A)
  | .eprobe o => some (o.words 0x1B)
  | .xtloadFull o => some (o.words 0x20)
  | .xtloadEntry o => some (o.words 0x20)
  | .xtloadPage o => some (o.words 0x20)
  | .gbar o => some (o.words 0x21)
  | .almw o => some (o.words 0x22)
  | .almwLen o => some (o.words 0x22)
  | .migCtlStart o => some (o.words 0x23)
  | .migCtlDone o => some (o.words 0x23)
  | .bundleIssue => none
  | .blockRelease => none
  | .resultLand => none
  | .lateFault => none
  | .queueSpill => none
  | .eQueueHead => none
  | .globalLoadLand => none
  | .tileRowsDone => none
  | .accessPerformed => none
  | .homeSliceAccess => none
  | .mcRequestAccept => none
  | .sorrelSlotGrant => none
  | .arbiterGrant => none
  | .packetArrival => none
  | .requestPerform => none
  | .replyLand => none
  | .windowAck => none
  | .portLinkChange => none
  | .linkStateNotice => none
  | .flowModeDrained => none
  | .matrixOpStart => none
  | .matrixOpComplete => none
  | .copyStart => none
  | .copyComplete => none
  | .fifoEntryPush => none
  | .amsgSend => none
  | .amsgLand => none
  | .handlerStart => none
  | .taskPostAccept => none
  | .taskDecApply => none
  | .dispatchDecision => none
  | .taskStart => none
  | .barrierArrival => none
  | .barrierComplete => none
  | .gbarArrival => none
  | .gbarComplete => none
  | .memberFinish => none
  | .forkPerform => none
  | .joinPerform => none
  | .revStPerform => none
  | .segmentCommit => none
  | .segmentIssueLimit => none
  | .holdRelease => none
  | .preemptionRequest => none
  | .esendSlot => none
  | .esendSlotPerform => none
  | .erelNotice => none
  | .erelNoticeArrival => none
  | .eprobeRead => none
  | .slkApply => none
  | .collContextTake => none
  | .collStartFlit => none
  | .collGo => none
  | .collAbort => none
  | .collChunk => none
  | .collComplete => none
  | .almwApply => none
  | .xtloadApply => none
  | .migStartApply => none
  | .migDoneApply => none
  | .periodMark => none
  | .periodDrained => none
  | .policyEvaluation => none
  | .firmwareRetireRetry => none
  | .slotBoundary => none
  | .frameEndReport => none
  | .almanacDeltas => none
  | .prepare => none
  | .ack => none
  | .ackResend => none
  | .refuse => none
  | .voteTimeout => none
  | .commit => none
  | .abort => none
  | .ready => none
  | .notready => none
  | .startTimeout => none
  | .go => none
  | .voteHalt => none
  | .unitFillDone => none
  | .peerReset => none
  | .vfReset => none
  | .deviceReset => none
  | .launchRecord => none
  | .translationRecord => none
  | .faultReportWrite => none
  | .frResume => none
  | .gangKill => none
  | .dirtyLogRecord => none
  | .dlClear => none
  | .frameAssign => none
  | .frameFree => none
  | .frameQuery => none
  | .scrubEnd => none
  | .gcCtlWrite => none
  | .s2BaseWrite => none
  | .winAllowMaxWrite => none
  | .retwWaysWrite => none
  | .ancPoolWrite => none
  | .ancBaseWrite => none
  | .registerWrite => none
  | .ckTake => none
  | .checkpointWrite => none
  | .checkpointComplete => none
  | .ckRestore => none
  | .attestationRequest => none
  | .ifsScan => none
  | .ifsComplete => none
  | .supplySag => none
  | .sagRecover => none
  | .freeze => none
  | .powerOn => none
  | .hostLinkChange => none
  | .vfResetEnd => none
  | .attestationReportWrite => none

/-- The slot decoder: total, rejecting an unassigned opcode under R37 [24] and everything reserved under [25]. -/
def decodeSlot (sl : Slot) (w : Syl) (x : Option Syl) : Except DecodeErr Instr :=
  match parse sl w x with
  | none => .error .unassigned
  | some i => if encode i = some (w, x) ∧ i.wf = true then .ok i else .error .reserved

/-- L, [31]: a second syllable follows (R40). -/
def lBit (w : Syl) : Bool := w.getLsbD 31

/-- The slots a lone word is tried in when nothing says which slot it stands in. -/
def wordSlots : List Slot := [.s0, .v0, .f, .d0, .m, .k, .e]

/-- The first slot class whose decoder accepts the words, with the instruction. -/
def decodeAny (w : Syl) (x : Option Syl) : List Slot → Option (Slot × Instr)
  | [] => none
  | sl :: r =>
    match decodeSlot sl w x with
    | .ok i => some (sl, i)
    | .error _ => decodeAny w x r

/-- The words of a table row: the first syllable is bits 31 to 0, the second, read when L is 1, bits 63 to 32. -/
def tableWords (w : Nat) : Words :=
  let w0 := BitVec.ofNat 32 w
  (w0, if lBit w0 then some (BitVec.ofNat 32 (w >>> 32)) else none)

/-- The instruction the decoder reads from a table word. A word does not say its slot: the classes are tried in the
order S0, V0, F, D0, M, K, E (DESIGN CHOICE, log 8; on the device the header's PRESENT bits say it). Unsafe: only this
host probe reads it. -/
def decodeTableWord (nbits w : Nat) : Option Instr :=
  let p := tableWords (w % 2 ^ nbits)
  (decodeAny p.1 p.2 wordSlots).map (·.2)

end Sys2Proof
end

