-- ==== Sys2Proof/Machine/Bar.lean ====
section
/-! DEFINITION. Sys2Proof/Machine/Bar.lean: the registers of the PF and VF BARs that hold state of their own (spec/18
R365, R372, spec/19 R374, R378, spec/21 R404, spec/22), by (0 for the PF, v + 1 for VF v) and offset. -/

namespace Sys2Proof.Machine

/-- The reset value of a BAR register (R365 and R428: SIZE 4; R371 WEIGHT 1, R425; others 0, log 15). -/
def barDefault (f off : Nat) : BitVec 64 :=
  if f = 0 then
    if 0x10000 ≤ off ∧ off < 0x10000 + 0x100 * 126 then
      (match off % 0x100 with | 0x00 => 0x10000 | 0x28 => 4 | _ => 0)
    else if off = 0x50108 ∨ off = 0x36008 then 4
    else if off = 0x32008 then 0x3C00
    else 0
  else if off < 0x200 then (if off % 0x20 = 8 then 4 else 0)
  else if off = 0x208 ∨ off = 0x228 then 4
  else 0

/-- A BAR register of a chip. -/
def State.bar (s : State) (n f off : Nat) : BitVec 64 := (s.chip n).bar.get (f, off) (barDefault f off)
/-- A BAR register as a number. -/
def State.barN (s : State) (n f off : Nat) : Nat := (s.bar n f off).toNat
/-- A BAR register written. -/
def State.setBar (s : State) (n f off : Nat) (v : BitVec 64) : State :=
  s.updChip n (fun c => { c with bar := c.bar.set (f, off) v })
/-- A BAR register written with a number. -/
def State.setBarN (s : State) (n f off : Nat) (v : Nat) : State := s.setBar n f off (BitVec.ofNat 64 v)

/-- The policy block of a VF (R371, R372). -/
def vfBlock (vf : Nat) : Nat := 0x10000 + 0x100 * vf
/-- VF_POLICY.SCAP (R371). -/
def State.scap (s : State) (n vf : Nat) : Bool := (s.bar n 0 (vfBlock vf)).getLsbD 0
/-- VF_POLICY.SUPOK (R371). -/
def State.supok (s : State) (n vf : Nat) : Bool := (s.bar n 0 (vfBlock vf)).getLsbD 1
/-- VF_POLICY.WEIGHT (R371). -/
def State.weight (s : State) (n vf : Nat) : Nat := natFld (s.barN n 0 (vfBlock vf)) 16 4
/-- The block of a gang context (R374). -/
def gcBlock (g : Nat) : Nat := 0x20000 + 0x40 * g
/-- GC_CTL of a gang context. -/
def State.gcCtl (s : State) (n g : Nat) : Nat := s.barN n 0 (gcBlock g)
/-- GC_CTL.VF: the owner of a gang context on a chip. -/
def State.gcVf (s : State) (n g : Nat) : Nat := natFld (s.gcCtl n g) 1 7
/-- GC_CTL.MEMBER: the chip's member index. -/
def State.gcMember (s : State) (n g : Nat) : Nat := natFld (s.gcCtl n g) 8 10
/-- GC_CTL.NCHIPS. -/
def State.gcNchips (s : State) (n g : Nat) : Nat := natFld (s.gcCtl n g) 18 11
/-- The chip of a member, read from the member map (R374). -/
def State.memberChip (s : State) (n g m : Nat) : Nat :=
  ofBytes (s.peek (hbmKey n (s.barN n 0 (gcBlock g + 8) + 2 * m)) 2)
/-- The member index of a chip in a gang: its own GC_CTL.MEMBER. -/
def State.memberOf (s : State) (n : Nat) : Nat := s.gcMember n (s.gctxOf n)

end Sys2Proof.Machine
end

