-- ==== Sys2Proof/Machine/Access.lean ====
section
/-! DEFINITION. Sys2Proof/Machine/Access.lean: addresses, translation, the order of accesses, and the packets that an
access becomes when it issues (spec/07 R164 to R183, spec/10 R239 to R243, spec/12 R281 to R301, spec/18 R362). -/

namespace Sys2Proof.Machine

/-! ## Registers read within a write's bound (R133) -/

/-- A register an operation depends on, old or new while a csrw to it is in flight. -/
def State.csrPick (s : State) (n : BitVec 12) (base : BitVec 64) : BitVec 64 :=
  (pickView (.csr n) s.t s.free s.cur.flight (base.setWidth 4096)).setWidth 64
/-- SLACK_DEF as an operation sees it (R287). -/
def State.slackDef (s : State) : Nat := ((s.csrPick 0x002 (s.cur.csr.slackDef.setWidth 64)).toNat) % 4096
/-- ALIAS_DEF as an operation sees it (R256). -/
def State.aliasDef (s : State) : Nat := ((s.csrPick 0x003 (s.cur.csr.aliasDef.setWidth 64)).toNat) % 16
/-- SLACK_CTL as an operation sees it (R288). -/
def State.slackCtl (s : State) : Nat := ((s.csrPick 0x078 (s.cur.csr.slackCtl.setWidth 64)).toNat) % 512
/-- FLOW_CUR as an operation sees it (R290). -/
def State.flowCur (s : State) : Nat := ((s.csrPick 0x07A (s.cur.csr.flowCur.setWidth 64)).toNat) % 256

/-! ## Traps at issue (R126, R166) -/

/-- TRAP_INFO of a memory fault detected at issue (R166). -/
def memInfo (slot kind addr : Nat) : BitVec 64 := BitVec.ofNat 64 (slot * 2 ^ 44 + kind * 2 ^ 40 + addr % 2 ^ 40)
/-- A fault of the issuing bundle. -/
def State.issueTrap (s : State) (code : BitVec 8) (info : BitVec 64) (fr : FreezeCause) : TrapArgs :=
  { code := code, info := info, pc := s.cur.pc, reason := 0, slots := 0, freeze := fr }
/-- XLAT_RANGE at issue. -/
def State.rangeTrap (s : State) (slot kind addr : Nat) : TrapArgs := s.issueTrap 0x09 (memInfo slot kind addr) .none
/-- PRIV at issue (R55). -/
def State.privTrap (s : State) (slot op : Nat) : TrapArgs := s.issueTrap 0x07 (BitVec.ofNat 64 (slot + 16 * op)) .none

/-- Raise a trap of the issuing bundle. One that goes to TVEC from inside a segment waits for the commit (R329). -/
def raiseTrap (s : State) (a : TrapArgs) : State :=
  let c := s.cur
  if !retryable a.code && c.inSeg && s.vectored s.sel.who then s.upd (fun c => { c with pend := some ⟨a, c.segInst⟩, moved := true })
  else (takeTrap s s.sel.who a).upd (fun c => { c with moved := true })

/-- A scoreboard-like stall: a cycle passes, nothing of the bundle issues (R33). -/
def stallCycle (s : State) : State :=
  (s.updCore s.sel.who.coreId (fun k => { k with clk := k.clk + 1 })).upd (fun c => { c with moved := true })
/-- The bundle blocks: the context leaves Running and nothing of the bundle issues (R19, R20). -/
def blockOn (s : State) (b : BlockCause) : State :=
  (leaveCore s s.sel.who).upd (fun c => { c with st := .blocked, block := b, moved := true })

/-- An operation under its guard that may fault: the trap is taken in place of its effect. -/
def guardedFault (sl : Slot) (g : Guard) (s : State) (flt : Option TrapArgs) (f : State → State) : Out :=
  .next (if s.guard sl g then (match flt with | some a => raiseTrap s a | none => f s) else s)

/-! ## The pool (R239, R240) -/

/-- The core a context belongs to, of the running step. -/
def State.coreId (s : State) : CoreId := s.sel.who.coreId
/-- POOL_PART.LIMIT of a context. -/
def Ctx.limit (c : Ctx) : Nat := c.csr.poolLimit.toNat
/-- The pool byte at which a tile register starts. -/
def Ctx.tileAt (c : Ctx) (t : Nat) : Nat := c.limit + t * 32768
/-- The pool byte at which an accumulator starts. -/
def Ctx.accAt (c : Ctx) (m : Nat) : Nat := c.limit + c.csr.poolTiles.toNat * 32768 + m * 65536

/-- Write bytes over part of a range that starts at a. -/
def overlay (a : Nat) (base : List Byte) (at_ : Nat) (new : List Byte) : List Byte :=
  base.mapIdx (fun i b => if at_ ≤ a + i ∧ a + i < at_ + new.length then new.getD (a + i - at_) 0 else b)

/-- What an access of a context has yet to write in the context's own pool: a store held back, or a window store bound to
its own core, without the bytes it has written (R179, R183, R242). -/
def Pkt.poolWrites (w : Who) (p : Pkt) : List (Nat × List Byte) :=
  if p.who ≠ w ∨ p.performed then []
  else
    match p.op, p.target with
    | .store b, .pool cl co off =>
      if p.dst = w.chip ∧ cl = w.clus ∧ co = w.core then
        (if p.pieces = [] then [(off, b)]
         else (b.zipIdx.filter (fun q => !p.pieces.contains q.2)).map (fun q => (off + q.2, [q.1])))
      else []
    | .pool ws, _ => ws
    | _, _ => []
/-- A context's own writes that its pool does not show yet, in program order. -/
def State.ownWrites (s : State) (w : Who) : List (Nat × List Byte) := s.pkts.flatMap (Pkt.poolWrites w)

/-- Bytes of the own scratchpad as a load of the context reads them: the pool, with its own stores that are held back over
it in program order (R179, R183, R252). -/
def scratchRead (s : State) (w : Who) (a n : Nat) : List Byte :=
  (s.ownWrites w).foldl (fun l q => overlay a l q.1 q.2) (s.peek (poolKey w.coreId a) n)
/-- A byte of a range is poisoned and no store of the context that is held back covers it (R334). -/
def scratchPoisoned (s : State) (w : Who) (a n : Nat) : Bool :=
  let k := poolKey w.coreId a
  let own := s.ownWrites w
  s.poison.any (fun p => k ≤ p && p < k + n && !own.any (fun q => q.1 ≤ p - k + a && p - k + a < q.1 + q.2.length))

/-! ## Addresses (R164, R165, R169) -/

/-- The address register of a memory slot. -/
def dBase (sl : DSlot) (n : BitVec 4) : Dest := match sl with | .d0 => .g n | .d1 => .h n
/-- Round down to a multiple. -/
def alignTo (a n : Nat) : Nat := a / n * n
/-- The held offset of a slot, sign-extended (R49). -/
def State.heldOff (s : State) (sl : Slot) : Int := (s.cur.held[sl.index]'(by cases sl <;> decide)).off.toInt
/-- The effective address of a DA or DT form: base plus held offset, modulo 2^64 (R165). -/
def State.eaRaw (s : State) (sl : DSlot) (base : BitVec 4) : Nat :=
  wrapN ((s.rd64 sl.slot 0 (dBase sl base)).toNat + s.heldOff sl.slot) 64
/-- That address aligned, as the access uses it. -/
def State.eaOff (s : State) (sl : DSlot) (base : BitVec 4) (size : Nat) : Nat := alignTo (s.eaRaw sl base) size
/-- The effective address of a DM or DL form: the base register alone (R165). -/
def State.eaReg (s : State) (sl : DSlot) (base : BitVec 4) : Nat := (s.rd64 sl.slot 0 (dBase sl base)).toNat
/-- That address aligned. -/
def State.eaBase (s : State) (sl : DSlot) (base : BitVec 4) (size : Nat) : Nat := alignTo (s.eaReg sl base) size
/-- SZ as a size in bytes. -/
def szBytes (sz : BitVec 2) : Nat := 2 ^ sz.toNat
/-- The access size of a DA form: W/8 for ldv and stv, else SZ. -/
def State.eaDA (s : State) (o : DA) (size : Nat) : Nat := s.eaOff o.slot o.base size
/-- The effective element addresses of gth and sct (R169). -/
def State.eaElems (s : State) (o : DA) : List Nat :=
  let e := szBytes o.sz
  let idx := (s.rd o.slot.slot 2 (s.fileReg o.fc ((o.x.getD ⟨0, 0, 0, false, false, 0, 0⟩).step.extractLsb' 4 5))).toNat
  (upTo (128 / e)).map (fun i => (s.eaRaw o.slot o.base + elemN idx i (8 * e) * e) % 2 ^ 64)
/-- Those addresses aligned. -/
def State.eaIdx (s : State) (o : DA) : List Nat := (s.eaElems o).map (fun a => alignTo a (szBytes o.sz))

/-- The window range (R164). -/
def isWindow (a : Nat) : Bool := 0x01000000 ≤ a && a < 0x05000000
/-- The window an address lies in. -/
def winOf (a : Nat) : Nat := (a - 0x01000000) / 0x00400000
/-- The offset in its window. -/
def winOff (a : Nat) : Nat := (a - 0x01000000) % 0x00400000
/-- A window's binding (R242). -/
def Ctx.winBinding (c : Ctx) (n : Nat) : BitVec 64 := c.csr.winBind.toList.getD n 0

/-- A scratchpad address at or above the limit (R166). -/
def State.localFault (s : State) (slot a : Nat) : Option TrapArgs :=
  if s.cur.limit ≤ a then some (s.rangeTrap slot 1 a) else none

/-! ## Translation (R361, R362, R401) -/

/-- Capacity in bytes under a number of stacks (R401). -/
def capBytes (n : Nat) : Nat := 16777216 * n / 3960 * 3960 * 4096
/-- Number of stacks in the map. -/
def Mig.count (m : Mig) : Nat := ((upTo 12).filter (fun i => m.mask.getLsbD i)).length
/-- The capacity limit: CAP_LIVE, or CAP_NEXT while a retirement is active (R405). -/
def State.capLimit (s : State) (n : Nat) : Nat :=
  let m := (s.chip n).mig
  capBytes (if m.active then m.count - 1 else m.count)

/-- What a lookup gives. -/
inductive XRes where
  | range
  | absent (ext page : Nat)
  | cap
  | dpa (a : Nat) (rev : Bool)
  | host (port a : Nat)
  | peer (member va : Nat)
  deriving DecidableEq, Repr

/-- The entry of an extent of a gang context's table on a chip; kind 0 with every page absent before a load. -/
def State.xentry (s : State) (n g ext : Nat) : XEntry :=
  (s.gang n g).xlat.get ext
    { kind := 0, r := false, w := false, x := false, dlog := false, hport := 0, domain := 0, member := 0, base := 0,
      absent := BitVec.allOnes 128, gbase := 0 }

/-- A lookup with the permissions an access needs (R362). -/
def State.lookup (s : State) (n g va : Nat) (r w x : Bool) : XRes :=
  let ext := va / 2 ^ 28 % 4096
  let page := natFld va 21 7
  let e := s.xentry n g ext
  if e.kind = 0 || (r && !e.r) || (w && !e.w) || (x && !e.x) then .range
  else if e.absent.getLsbD page then .absent ext page
  else
    match e.kind with
    | 2 => .peer e.member ((e.base % 4096) * 2 ^ 28 + va % 2 ^ 28)
    | 3 => .host e.hport (e.base + va % 2 ^ 28)
    | k => if s.capLimit n ≤ e.base + va % 2 ^ 28 then .cap else .dpa (e.base + va % 2 ^ 28) (k = 4)

/-- The region that covers a virtual address (R257). -/
def regionAt (l : List Region) (va : Nat) : Option Region := l.find? (fun q => q.base ≤ va && va < q.base + q.size)
/-- The revision a context runs in: 0 is the root (R260). -/
def Ctx.rev (c : Ctx) : Nat := c.csr.revCur.toNat % 128

/-- An address of an extent of revision kind that no region covers (R259), or a write in a child to a NONE region (R267). -/
def State.revFault (s : State) (n va : Nat) (rev : Nat) (w : Bool) : Bool :=
  match regionAt (s.rgang n).regions va with
  | none => true
  | some q => w && rev ≠ 0 && q.merge = 0

/-- The trap of a failed lookup at issue; none when it succeeds (R166, R259, R267, R363, R411). -/
def State.xlatFault (s : State) (slot va : Nat) (r w x : Bool) : Option TrapArgs :=
  let n := s.sel.who.chip
  if 2 ^ 40 ≤ va then some (s.rangeTrap slot 3 va)
  else
    match s.lookup n (s.gctxOf n) va r w x with
    | .range => some (s.rangeTrap slot 0 va)
    | .absent ext page => some (s.issueTrap 0x08 (memInfo slot 0 va) (.absent n ext page))
    | .cap => some (s.issueTrap 0x0C (memInfo slot 0 va) .none)
    | .dpa _ true => if s.revFault n va s.cur.rev w then some (s.rangeTrap slot 0 va) else none
    | _ => none

/-- Where a translated access goes, its destination chip and reach (R180, R290). -/
def State.targetOf (s : State) (va : Nat) : Target × Nat × Nat :=
  let n := s.sel.who.chip
  match s.lookup n (s.gctxOf n) va false false false with
  | .dpa a _ => (.dpa a, n, 0)
  | .host p a => (.host p a, n, 5)
  | .peer m a => (.peer a, s.memberChip n (s.gctxOf n) m, 4)
  | _ => (.dpa 0, n, 0)

/-- The translation entry of a virtual address is of revision kind. -/
def State.isRev (s : State) (n g va : Nat) : Bool := (s.xentry n g (va / 2 ^ 28 % 4096)).kind = 4

/-! ## Scopes (R249) -/

/-- SCOPE as it acts: system scope is clamped to tenant scope in a VF whose policy says so. -/
def State.scopeAs (s : State) (sc : BitVec 3) : Nat :=
  if sc = 6 ∧ s.scap s.sel.who.chip (s.vf s.sel.who.chip) then 5 else sc.toNat
/-- Count a clamped operation (R249). -/
def clampCount (s : State) (ord : Bool) (sc : BitVec 3) : State :=
  if ord && s.scopeAs sc ≠ sc.toNat then
    s.upd (fun c =>
      let k := if c.csr.memClamps = 0xFFFFFFFF then c.csr.memClamps else c.csr.memClamps + 1
      { c with csr := { c.csr with scopeClamp := true, memClamps := k } })
  else s

/-! ## Packets at issue (R279, R281, R290) -/

/-- The second syllable's fields as the operation uses them, the defaults when it is absent (R48). -/
def State.extOf (s : State) (x : Option MExt) : MExt :=
  match x with
  | some e => e
  | none => { ac := BitVec.ofNat 4 s.aliasDef, ord := 0, scope := 0, ef := false, skv := false, sk := 0, step := 0 }

/-- The program-order number of a slot's operation of this issue (R179, R182). -/
def State.poOf (s : State) (sl : Slot) : Nat :=
  s.cur.po + (match sl with | .d1 => 1 | .e => 3 | _ => 0)

/-- The mode of a flow: bit 0 ordered, bit 1 critical (R290). -/
def State.flowMode (s : State) (w : Who) (dst flow : Nat) : BitVec 2 :=
  (s.ctx w).modes.get (dst, flow)
    (match s.kernel w.chip with | some k => k.flows.getD flow 0 | none => 0)

/-- A packet of the issuing context, with the extension it carries. -/
def State.mkPkt (s : State) (sl : Slot) (x : Option MExt) (va : Nat) (tg : Target × Nat × Nat) (op : AccOp) : Pkt :=
  let e := s.extOf x
  let ctl := s.slackCtl
  let flow := s.flowCur
  let m := s.flowMode s.sel.who tg.2.1 flow
  { id := s.nextId, who := s.sel.who, gctx := s.gctxOf s.sel.who.chip, slot := sl.index, op := op, va := va, ea := va,
    target := tg.1, dst := tg.2.1, po := s.poOf sl, ac := e.ac.toNat, ord := e.ord.toNat,
    scope := if e.ord = 0 then 0 else s.scopeAs e.scope, ef := e.ef, reach := tg.2.2, flow := flow, seq := 0,
    ordf := m.getLsbD 0, ords := false, crit := m.getLsbD 1, slack := if e.skv then e.sk.toNat else s.slackDef,
    sub := 0, exh := false, exq := natFld ctl 8 1 = 1, evcc := natFld ctl 4 4, rallow := natFld ctl 0 4,
    stage := .core, since := s.now, born := s.t, port := 0, via := none, resv := false, inst := s.cur.inst,
    rev := s.cur.csr.revCur.toNat, result := [], rflags := 0, poison := false, fault := 0, performed := false,
    pieces := [], told := 0, win := none, xfer := 0, dropLanding := false, again := false }

/-- Number the packet in its flow, and mark an ordered start (R291). -/
def numberPkt (s : State) (p : Pkt) : State × Pkt :=
  let c := s.ctx p.who
  let k := (p.dst, p.flow)
  let n := c.seqs.get k 0
  (s.updCtx p.who (fun c => { c with seqs := c.seqs.set k ((n + 1) % 4096), ords := c.ords.filter (fun q => q ≠ k) }),
   { p with seq := n, ords := c.ords.contains k })

/-- Send an access: one that a segment holds back is buffered, and is numbered when the segment commits (R183). -/
def issuePkt (s : State) (p : Pkt) (held : Bool) : State :=
  let s := s.fresh.upd Ctx.fixLoads
  if held && s.cur.inSeg then { s with pkts := s.pkts ++ [{ p with stage := .buffered }] }
  else
    let r := numberPkt s p
    { r.1 with pkts := r.1.pkts ++ [r.2] }

/-- Set a busy bit (R32). -/
def setBusy (s : State) (e : Elem) (id : Nat) (core : Bool) : State :=
  s.upd (fun c => { c with busy := c.busy ++ [⟨e, id, core⟩] })
/-- Clear the busy bits that an access or command set. -/
def clearBusy (s : State) (w : Who) (id : Nat) : State :=
  s.updCtx w (fun c => { c with busy := c.busy.filter (fun b => b.id ≠ id) })

/-! ## When an access may leave its core (R179, R181, R182, R292, R294, R301) -/

/-- Bytes an access touches at its address; 0 for one that names no bytes of memory. -/
def AccOp.bytes (op : AccOp) : Nat :=
  match op with
  | .load n _ => n
  | .store b => b.length
  | .atomic _ n _ _ _ => n
  | .row n _ => n
  | .prefetch n => n
  | .sttRow n _ => n
  | _ => 0
/-- The key of a virtual address on a chip of a gang context; an address that leads nowhere has a key of its own. -/
def State.baseKey (s : State) (n g va : Nat) : Nat :=
  match s.lookup n g va false false false with
  | .dpa a _ => hbmKey n a
  | .host port a => hostKey n port a
  | _ => keyAt 5 n va
/-- The extents a range touches below 2^40. -/
def extentsOf (a n : Nat) : List Nat :=
  if n = 0 then [] else (upTo (min ((a + n - 1) / 2 ^ 28 + 1) 4096 - a / 2 ^ 28)).map (fun i => a / 2 ^ 28 + i)
/-- The locations an access touches, as keys and lengths: two addresses of one byte are one location (R251, R252). -/
def State.places (s : State) (p : Pkt) : List (Nat × Nat) :=
  match p.op with
  | .pool ws => ws.map (fun q => (poolKey p.who.coreId q.1, q.2.length))
  | .l2 _ len _ =>
    (extentsOf p.va len).map (fun e =>
      let lo := max p.va (e * 2 ^ 28)
      (s.baseKey p.who.chip p.gctx lo, min (p.va + len) ((e + 1) * 2 ^ 28) - lo))
  | op =>
    match op.bytes with
    | 0 => []
    | n =>
      [((match p.target with
         | .dpa a => hbmKey p.dst a
         | .peer va => s.baseKey p.dst p.gctx va
         | .host port a => hostKey p.dst port a
         | .pool cl co off => poolKey ⟨p.dst, cl, co⟩ off
         | .unit => keyAt 6 p.dst p.va), n)]
/-- Two lists of places overlap, in units of a number of bytes. -/
def placesMeet (u : Nat) (a b : List (Nat × Nat)) : Bool :=
  a.any (fun x => b.any (fun y => x.1 / u ≤ (y.1 + y.2 - 1) / u && y.1 / u ≤ (x.1 + x.2 - 1) / u && x.2 ≠ 0 && y.2 ≠ 0))
/-- Same alias class, or one unclassified (R179). -/
def sameClass (p q : Pkt) : Bool := p.ac = q.ac || p.ac = 0 || q.ac = 0
/-- A store, window store, atomic or L2 control form (R182). -/
def Pkt.isWrite (p : Pkt) : Bool :=
  match p.op with
  | .store _ | .atomic .. | .l2 .. | .sttRow .. | .pool _ => true
  | _ => false
/-- A load, gather or atomic, whose value lands (R182). -/
def Pkt.isLoad (p : Pkt) : Bool := match p.op with | .load .. | .row .. | .atomic .. => true | _ => false
/-- A memory-class access: what the ordering rules of spec/07 cover. -/
def Pkt.isMem (p : Pkt) : Bool := p.isWrite || p.isLoad || (match p.op with | .prefetch _ => true | _ => false)
/-- A store to the own scratchpad that waits to be performed. -/
def Pkt.isPool (p : Pkt) : Bool := match p.op with | .pool _ => true | _ => false
/-- An access has reached its point of coherence: one that goes to another core or chip, when its acknowledgement or reply
has returned (R180). -/
def Pkt.done (p : Pkt) : Bool :=
  p.performed && (p.stage = .landing || (match p.target with | .peer _ | .pool .. | .unit => false | _ => true))

/-- The reply or acknowledgement of an access has returned. -/
def Pkt.acked (p : Pkt) : Bool := p.stage = .landing

/-- Every packet on its way, those captured in a network save area among them (R382, R386): they are unacknowledged. -/
def State.flights (s : State) : List Pkt := s.pkts ++ s.chips.flatMap (fun c => c.2.gangs.flatMap (fun g => g.2.nsa))
/-- The accesses of a context that are not yet performed and come before a place in program order. One that is still in
the segment store buffer holds nothing back: loads read it there, and every later write waits in the buffer behind it. -/
def State.earlier (s : State) (w : Who) (po : Nat) : List Pkt :=
  s.flights.filter (fun q => q.who = w ∧ q.po < po ∧ !q.done ∧ q.stage ≠ Stage.buffered)
/-- An earlier line of the same transfer: rows are written in order (R173). -/
def Pkt.lineBefore (q p : Pkt) : Bool := p.xfer ≠ 0 && q.xfer = p.xfer && q.id < p.id && !q.done

/-- An access covered by an ordering at a scope (R181). -/
def Pkt.covered (q : Pkt) (scope : Nat) : Bool := q.isMem && q.reach ≤ scope
/-- An M form of a context from before a place in program order has not completed: what it writes or reads a release orders
(R251). -/
def State.formsPending (s : State) (w : Who) (po : Nat) : Bool :=
  (s.core w.coreId).mq.any (fun m => m.who = w && m.po < po)
/-- What an access before a place in program order has yet to do for a release that covers it: be performed, and for a line
of ldt land in its tile (R181, R250, R251). -/
def State.released (s : State) (w : Who) (po scope : Nat) : Bool :=
  (s.earlier w po).all (fun q => !q.covered scope) && !s.formsPending w po &&
    !s.flights.any (fun q => q.who = w && q.po < po && q.covered scope && !q.dropLanding && (match q.op with | .row .. => true | _ => false))

/-- The flow and destination of the packets a queued command is still to send (R290). -/
def ECmd.lane (k : ECmd) : Option (Nat × Nat) :=
  match k.op with
  | .amsg _ => some (k.flow, k.dst)
  | .taskDec _ | .taskPost _ => some (255, k.dst)
  | _ => none
/-- The E commands of a context that have not left its queue. -/
def Ctx.cmds (c : Ctx) : List ECmd :=
  c.eHead.toList ++ c.eq ++ (c.ring ++ c.ovfWait).filterMap (fun r => match r with | .e k => some k | _ => none)
/-- Packets of one flow: the same source, destination chip and flow identifier (R255). -/
def Pkt.sameFlow (p q : Pkt) : Bool := q.who = p.who && q.flow = p.flow && q.dst = p.dst
/-- A critical packet lies within 64 of the oldest unacknowledged SEQ of its flow, of packets and of commands that are still to
send theirs (R294). -/
def State.critNear (s : State) (p : Pkt) : Bool :=
  !p.crit || (s.flights.all (fun q => !(p.sameFlow q && !q.acked && !q.isPool && q.stage ≠ Stage.buffered) ||
      (p.seq + 4096 - q.seq) % 4096 < 64 || 2048 ≤ (p.seq + 4096 - q.seq) % 4096) &&
    (s.ctx p.who).cmds.all (fun k => !(k.lane = some (p.flow, p.dst) && k.po < p.po) || (p.seq + 4096 - k.seq) % 4096 < 64))
/-- An access may leave its core and be performed. One to another chip keeps R294 at its egress. -/
def State.mayLeave (s : State) (p : Pkt) : Bool :=
  let c := s.ctx p.who
  let before := s.earlier p.who p.po
  let here := s.places p
  -- same-location order; an ordered flow keeps it by itself
  (before ++ s.flights.filter (fun q => q.lineBefore p)).all (fun q =>
    !(p.isMem && q.isMem && sameClass p q && !(p.ordf && q.ordf && p.sameFlow q && !p.isPool && !q.isPool)) || !placesMeet 1 here (s.places q)) &&
  -- the own pool's program order
  (!p.isPool || before.all (fun q => !q.isPool)) &&
  -- release accesses
  (p.ord < 2 || s.released p.who p.po p.scope) &&
  -- fence.rel and fence.full before it
  c.fences.all (fun f => !(f.po < p.po && 2 ≤ f.kind && p.isWrite) || s.released p.who f.po f.scope) &&
  (p.isPool ||
   -- flow.mode holds later packets of its flows
   (c.flowWait.all (fun f => !(f.po < p.po && f.flow = p.flow && f.dsts.contains p.dst) ||
     (!s.flights.any (fun q => p.sameFlow q && q.po < f.po && !q.acked && !q.isPool) &&
      !c.cmds.any (fun k => k.lane = some (p.flow, p.dst) && k.po < f.po))) &&
   -- unordered flows: one packet to a 64-byte piece at a time
   (p.ordf || s.flights.all (fun q => !(p.sameFlow q && q.po < p.po && !q.acked && q.stage ≠ Stage.buffered && !q.isPool && sameClass p q &&
     p.isMem && q.isMem && placesMeet 64 here (s.places q)))) &&
   -- critical flows of the own chip: 64 above the oldest unacknowledged
   (p.dst ≠ p.who.chip || s.critNear p)))

/-- The aligned 64-byte pieces of an access: offset and length (R254). -/
def piecesOf (k n : Nat) : List (Nat × Nat) :=
  if n = 0 then []
  else (upTo ((k + n - 1) / 64 - k / 64 + 1)).map (fun i => let lo := max k ((k / 64 + i) * 64); (lo - k, min (k + n) ((k / 64 + i + 1) * 64) - lo))
/-- The writes of a pool store by their pieces. -/
def splitWrites (ws : List (Nat × List Byte)) : List (Nat × List Byte) :=
  ws.flatMap (fun q => (piecesOf q.1 q.2.length).map (fun r => (q.1 + r.1, (q.2.drop r.1).take r.2)))
/-- Writes in a core's pool, in order. -/
def pokeAll (s : State) (c : CoreId) (ws : List (Nat × List Byte)) : State := ws.foldl (fun s q => s.poke (poolKey c q.1) q.2) s
/-- The pieces of a pool store that are left for later: those of a store of several pieces that a free choice picks (R254, log
40). -/
def laterPieces (free : Nat) (ws : List (Nat × List Byte)) : List (Nat × List Byte) :=
  let l := splitWrites ws
  if l.all (fun q => l.head?.any (fun h => q.1 / 64 = h.1 / 64)) then []
  else l.filter (fun q => Config.pick free (0x640000 + q.1 / 64))
/-- A store to the own scratchpad that stands among the packets is performed in the pool: its pieces independently, so that
some may be left for later (R254). -/
def performPool (s : State) (p : Pkt) : State :=
  match p.op with
  | .pool ws =>
    let later := laterPieces s.free ws
    let s1 := pokeAll s p.who.coreId ((splitWrites ws).filter (fun q => !later.contains q))
    { s1 with pkts := if later.isEmpty then s1.pkts.filter (fun q => q.id ≠ p.id)
                      else updWhere (fun q => q.id = p.id) (fun q => { q with op := .pool later, stage := .core, told := 1 }) s1.pkts }
  | _ => s
/-- Every store to a scratchpad whose order now allows it is performed, in program order (R179, R182). -/
def State.settlePools (s : State) : State :=
  (s.pkts.filter Pkt.isPool).foldl (fun s p => if p.stage = Stage.core ∧ p.told = 0 ∧ s.mayLeave p then performPool s p else s) s
/-- Every access whose order now allows it becomes eligible at the router (R282). -/
def State.settle (s : State) : State :=
  let s1 := s.settlePools
  { s1 with pkts := s1.pkts.map (fun p =>
      if p.stage = Stage.core ∧ !p.isPool ∧ s1.mayLeave p then { p with stage := .router, since := s.now } else p) }

/-- A member's requests of a core that are outstanding (R291). -/
def State.outstanding (s : State) (c : CoreId) : Nat :=
  (s.flights.filter (fun p => p.who.coreId = c ∧ p.stage ≠ Stage.buffered ∧ !p.acked ∧ !p.isPool)).length

/-- Entries of a context's segment store buffer in use: an stt takes one (R333). -/
def State.bufferUse (s : State) (w : Who) : Nat :=
  (s.pkts.filter (fun p => p.who = w ∧ p.stage = Stage.buffered ∧ p.xfer = 0)).length +
    (s.xfers.filter (fun x => x.who = w ∧ x.buffered)).length

end Sys2Proof.Machine
end

