-- ==== Sys2Proof/Machine/MatrixMath.lean ====
section
/-! DEFINITION. Sys2Proof/Machine/MatrixMath.lean: the arithmetic of the matrix array (spec/03 R82 to R86, spec/08 R195,
R201 to R203). -/

namespace Sys2Proof.Machine

/-- K of a latch format (R82). -/
def latDepth (f : BitVec 4) : Nat := if f = 13 then 1024 else if fmtBits f = 8 then 256 else 128

/-- Element (k, j) of a latch image in a format, as its pattern (R191). -/
def latElem (img : Nat) (f : BitVec 4) (k j : Nat) : Nat := elemN img (k * 128 + j) (fmtBits f)

/-- The groups of 32 of a list of products. -/
def groupsOf {α : Type} (l : List α) : Nat → List (List α)
  | 0 => []
  | n + 1 => l.take 32 :: groupsOf (l.drop 32) n

/-- One group added to an f32 accumulator element (R83, R84). -/
def fGroupStep (s : Nat × Flags) (g : List (FVal × FVal)) : Nat × Flags :=
  let special := groupProducts g
  let q := if special.1 = [.nan] then (qnan 0, special.2)
    else
      let r := sumRound 0 0 0 special.1
      let infOperand := special.1.any (fun v => v = .inf true || v = .inf false)
      (r.1, if infOperand then 0 else if r.1 % 2 ^ 31 = 0x7F800000 then fMOVF_F else 0)
  let qv := decodeF 0 q.1
  let sv := decodeF 0 s.1
  let isInf := fun v => v = FVal.inf true || v = FVal.inf false
  let r := sumRound 0 0 0 [sv, qv]
  (r.1, s.2 ||| q.2 ||| (r.2 &&& fIV) |||
    (if isInf (decodeF 0 r.1) && !isInf sv && !isInf qv then fMOVF_F else 0))

/-- One f32 element of mma: every group in order (R83). -/
def fAccum (n : Nat) (s : Nat) (ab : List (FVal × FVal)) : Nat × Flags := (groupsOf ab n).foldl fGroupStep (s, 0)

/-- One i32 element: the group sums, saturated after each (R85). -/
def iAccum (n : Nat) (s : Int) (ab : List (Int × Int)) : Int × Flags :=
  (groupsOf ab n).foldl (fun a g =>
    let v := a.1 + (g.map (fun p => p.1 * p.2)).foldl (· + ·) 0
    let c := max (-2147483648) (min 2147483647 v)
    (c, a.2 ||| (if c = v then 0 else fMOVF_I))) (s, 0)

/-- An f32 pattern that is a NaN or an infinity. -/
def notFinite (v : Nat) : Bool := v / 2 ^ 23 % 256 = 255

/-- A checksum value as an i32 update takes it (R195): exact where it is an integer, else a free value (log 49). -/
def ckInt (v : FVal) : Int :=
  match v with
  | .fin ng m e =>
    if 0 ≤ e ∨ m % 2 ^ (-e).toNat = 0 then (if ng then -1 else 1) * ((m <<< e.toNat >>> (-e).toNat : Nat) : Int)
    else Config.ckCross (roundF 0 0 0 v).1
  | _ => Config.ckCross (roundF 0 0 0 v).1

/-- mma or mter on one row: elements, checksum, row flag, arithmetic flags. `a` is the A row as patterns of format f,
`img` the latch image, `lf` the format the latch is read in. DESIGN CHOICE (log 49): where ck or bsum is of the other
kind than the accumulation, an f32 update takes the integer rounded to f32, and an i32 update takes an integral float as
its value and for any other a free value. -/
def rowMma (f lf : BitVec 4) (a : List Nat) (img : Nat) (bsum : List FVal) (acc : List Nat) (ck : FVal) (uf : Bool) :
    List Nat × FVal × Bool × Flags :=
  let kk := latDepth lf
  let n := kk / 32
  if isFloatFmt f then
    let av := a.map (decodeF f)
    let cols := (upTo 128).map (fun j =>
      fAccum n (acc.getD j 0) (av.zip ((upTo kk).map (fun k => decodeF lf (latElem img lf k j)))))
    let c := fAccum n (match ck with | .fin ng m e => (roundF 0 0 0 (.fin ng m e)).1 | .inf ng => infBits 0 ng | .nan => qnan 0)
      (av.zip ((upTo kk).map (fun k => bsum.getD k (.fin false 0 0))))
    let fl := orFlags cols
    let bad := cols.any (fun c => notFinite c.1 || c.2 &&& (fMOVF_F ||| fMOVF_I) ≠ 0)
    (cols.map (·.1), decodeF 0 c.1, uf || bad || notFinite c.1, fl)
  else
    let ai := a.map (decodeI f)
    let bi := fun k j => if lf = 13 then decodeT2 (latElem img lf k j) else (decodeI lf (latElem img lf k j), (0 : Flags))
    let cols := (upTo 128).map (fun j =>
      iAccum n (decodeI 5 (acc.getD j 0)) (ai.zip ((upTo kk).map (fun k => (bi k j).1))))
    let tern := (upTo kk).foldl (fun f k => (upTo 128).foldl (fun f j => f ||| (bi k j).2) f) 0
    let c := ckInt ck + ((ai.zip (bsum.map ckInt)).map (fun p => p.1 * p.2)).foldl (· + ·) 0
    let fl := cols.foldl (fun f c => f ||| c.2) (0 : Flags)
    (cols.map (fun c => wrapI 5 c.1), intF c, uf || cols.any (fun c => c.2 ≠ 0), fl ||| tern)

/-- bsum[k] of a fill: the exact sum of a latch row in the fill format (R195). -/
def latSums (f : BitVec 4) (img : Nat) : List FVal :=
  (upTo (latDepth f)).map (fun k =>
    let row := (upTo 128).map (fun j => latElem img f k j)
    if isFloatFmt f then (sumF 0 (row.map (decodeF f))).1
    else intF ((row.map (fun v => if f = 13 then (decodeT2 v).1 else decodeI f v)).foldl (· + ·) 0))

/-- One element of a drain (R86): the accumulator's tag, format, mode, scales or none. A NaN scale gives the canonical
NaN with IV. With tag 3 the value and the flags are free: `free` gives them (R194, R200). DESIGN CHOICE (log 49): f32 to f32 without scales is the identity on every pattern, a NaN that macc.ld
brought in among them. -/
def drainElem (ovt : BitVec 10) (tag : BitVec 2) (dst : BitVec 4) (rm : BitVec 2) (scl : Option (Nat × Nat)) (free : BitVec 4096)
    (v : Nat) : Nat × Flags :=
  if tag = 3 then (natFld free.toNat 0 (fmtBits dst), BitVec.ofNat 7 (natFld free.toNat 64 7)) else
  let src : BitVec 4 := if tag = 1 then 0 else 5
  let v := if tag = 0 then 0 else v
  match scl with
  | none => if src = dst then (v, 0) else convert ovt src dst rm v
  | some (sa, sb) =>
    let f0 := if src = 5 then roundF 0 0 0 (intF (decodeI 5 v)) else (v, 0)
    let f1 := mulRound 0 0 0 (decodeF 0 f0.1) (decodeF 0 sa)
    let f2 := mulRound 0 0 0 (decodeF 0 f1.1) (decodeF 0 sb)
    let r := if dst = 0 then (f2.1, 0) else convert ovt 0 dst rm f2.1
    (r.1, f0.2 ||| f1.2 ||| f2.2 ||| r.2 ||| ivIf (anyNan [decodeF 0 sa, decodeF 0 sb]))

/-- The generator of mkat (R202): the next state. -/
def katNext (x : Nat) : Nat := (25173 * x + 13849) % 65536
/-- n values of the generator from a state, with the state after. -/
def katTake : Nat → Nat → List Int × Nat
  | 0, x => ([], x)
  | n + 1, x =>
    let y := katNext x
    let r := katTake n y
    (sInt (natFld y 12 4) 4 :: r.1, r.2)
/-- The hash of a known-answer product (R202). -/
def katHash (seed : Nat) : BitVec 32 :=
  let a := katTake 256 seed
  let b := katTake 4096 a.2
  let r := (upTo 8).flatMap (fun i => (upTo 128).flatMap (fun j =>
    bytesOf (wrapN (((upTo 32).map (fun k => a.1.getD (i * 32 + k) 0 * b.1.getD (k * 128 + j) 0)).foldl (· + ·) 0) 32) 4))
  crc32c r

/-- 2^e ≤ |x| < 2^(e+1) gives ulp(x) = 2^(max(e, -126) - 23); ulp(0) = 2^-149 (R203). As an exponent. -/
def ulpExp (m : Nat) (e : Int) : Int := if m = 0 then -149 else max ((bitLen m : Int) - 1 + e) (-126) - 23

/-- The magnitude of a finite value on a grid. -/
def absOn (e0 : Int) (v : FVal) : Int := (scaled e0 v).natAbs

/-- Row check of mchk: none when UNCHECKED, else whether the row fails (R203). DESIGN CHOICE (log 49): a row of tag 1 whose
rounded sum or ck is a NaN while its flag is clear, which forms of the other kind can leave, is UNCHECKED like one whose sum
is infinite; so is a row of tag 2 or 0 whose ck is not finite. -/
def rowCheck (tag : BitVec 2) (row : List Nat) (ck : FVal) (uf : Bool) (tol : Nat) : Option Bool :=
  if tag = 3 || uf then none
  else if tag = 1 then
    let s := (sumRound 0 0 0 (row.map (decodeF 0))).1
    if notFinite s then none
    else
      let sv := decodeF 0 s
      match sv, ck with
      | .fin ng m e, .fin ng' m' e' =>
        let u := max (ulpExp m e) (ulpExp m' e')
        let e0 := min (min e e') u
        let d := (scaled e0 (.fin ng m e) - scaled e0 (.fin ng' m' e')).natAbs
        some (tol * 2 ^ (u - e0).toNat < d)
      | _, _ => none
  else
    let sum := ((row.map (fun v => if tag = 0 then 0 else decodeI 5 v))).foldl (· + ·) 0
    match ck with
    | .fin ng m e =>
      let u := 2 ^ (0 - min e 0).toNat
      some (tol * u < (sum * (u : Int) - scaled (min e 0) (.fin ng m e)).natAbs)
    | _ => none

end Sys2Proof.Machine
end

