-- ==== Sys2Proof/Machine/Matrix.lean ====
section
/-! DEFINITION. Sys2Proof/Machine/Matrix.lean: the forms of slot M as they issue (spec/08 R188 to R203), and of slot K
(R205, R206). What a form does at its completion is in Machine/EvCore.lean. -/

namespace Sys2Proof.Machine

/-- NROW: 0 means 128 (R199). -/
def nrowOf (n : BitVec 7) : Nat := if n = 0 then 128 else n.toNat

/-- Entries a form claims from the A FIFO and from the B FIFO (R189). -/
def claims (i : Instr) : Nat × Nat :=
  match i with
  | .mlat _ => (0, 128)
  | .mma o => (nrowOf o.nrow, 0)
  | .mter o => (4 * nrowOf o.nrow, 0)
  | _ => (0, 0)

/-- The unclaimed count of a context's A or B queue (R189). -/
def Ctx.unclaimed (c : Ctx) (b : Bool) : Nat := if b then c.fifoB.length - c.owedB else c.fifoA.length - c.owedA

/-- The FIFO a popping form would block on (R19, R189). -/
def fifoBlock (i : Instr) (s : State) : Option BlockCause :=
  let k := claims i
  if k.1 ≠ 0 ∧ s.cur.unclaimed false = 0 then some (.fifo false)
  else if k.2 ≠ 0 ∧ s.cur.unclaimed true = 0 then some (.fifo true)
  else none

/-- The M queue is full: 16 forms wait for the pipes (R192). -/
def State.mqFull (s : State) : Bool := 16 ≤ ((s.core s.coreId).mq.filter (fun m => !m.started)).length

/-- An M-class form enters the M queue: it claims its entries and sets its busy bits (R189, R192, R193). -/
def mEnqueue (i : Instr) (elems : List Elem) (ka kb : BitVec 4096) (s : State) : State :=
  let k := claims i
  let m : MForm := { id := s.nextId, who := s.sel.who, op := i, inst := s.cur.inst, po := s.cur.po + 2, rev := s.cur.csr.revCur.toNat, issued := s.t, started := false,
                     need := k.1 + k.2, got := [], read := none, early := [], old := none, moved := [], ovt := s.ovt, ka := ka, kb := kb }
  let s1 := elems.foldl (fun s e => setBusy s e m.id true) s.fresh
  (s1.upd (fun c => { c with owedA := c.owedA + k.1, owedB := c.owedB + k.2 })).updCore s.coreId
    (fun c => { c with mq := c.mq ++ [m] })

/-- An M-class form under its guard: it blocks on an empty FIFO, stalls on a full M queue, or issues. -/
def mIssue (i : Instr) (g : Guard) (elems : List Elem) (ka kb : State → BitVec 4096) (s : State) : Out :=
  guarded .m g s (fun s =>
    match fifoBlock i s with
    | some b => blockOn s b
    | none => if s.mqFull then stallCycle s else mEnqueue i elems (ka s) (kb s) s)

/-- The tiles a drain writes, or macc.ld reads (R200, R201). -/
def drainTiles (fmt : BitVec 4) (tile : BitVec 6) : List Elem :=
  if fmtBits fmt = 32 then [.tile tile.toNat, .tile (tile.toNat + 1)] else [.tile tile.toNat]

/-- MZERO (R197). -/
def execMzero (o : MRow) (s : State) : Out :=
  mIssue (.mzero o) o.g [.acc o.acc.toNat] (fun _ => 0) (fun _ => 0) s
/-- MLAT (R198). -/
def execMlat (o : MRow) (s : State) : Out :=
  mIssue (.mlat o) o.g [.lat o.lat.toNat] (fun _ => 0) (fun _ => 0) s
/-- MMA (R199). -/
def execMma (o : MRow) (s : State) : Out :=
  mIssue (.mma o) o.g [.acc o.acc.toNat, .lat o.lat.toNat] (fun _ => 0) (fun _ => 0) s
/-- MTER (R199). -/
def execMter (o : MRow) (s : State) : Out :=
  mIssue (.mter o) o.g [.acc o.acc.toNat, .lat o.lat.toNat] (fun _ => 0) (fun _ => 0) s
/-- MDRAIN (R200): the K registers and the overflow table are read at issue. -/
def execMdrain (o : MDrain) (s : State) : Out :=
  let e := o.x.getD ⟨0, 0, false⟩
  mIssue (.mdrain o) o.g (.acc o.acc.toNat :: drainTiles o.fmt o.tile)
    (fun s => s.rd .m 0 (.c e.ka)) (fun s => s.rd .m 1 (.c e.kb)) s
/-- MACC_LD (R201). -/
def execMaccLd (o : MLd) (s : State) : Out :=
  mIssue (.maccLd o) o.g (.acc o.acc.toNat :: drainTiles 0 o.tile) (fun _ => 0) (fun _ => 0) s
/-- MKAT (R202). -/
def execMkat (o : MKat) (s : State) : Out := mIssue (.mkat o) o.g [] (fun _ => 0) (fun _ => 0) s
/-- MCHK (R203). -/
def execMchk (o : MChk) (s : State) : Out :=
  mIssue (.mchk o) o.g [.acc o.acc.toNat] (fun _ => 0) (fun _ => 0) s

/-! ## Slot K -/

/-- Bytes kld reads (R205). -/
def kldBytes (o : KLd) : Nat := if o.fmt = 0 then 512 else 256
/-- The fault of kld: its bytes reach the limit. -/
def kldFault (o : KLd) (s : State) : Option TrapArgs :=
  if s.cur.limit < o.addr.toNat * 512 + kldBytes o then some (s.rangeTrap 9 1 (o.addr.toNat * 512)) else none
/-- KLD (R205): 128 values, 16-bit ones widened exactly. -/
def execKld (o : KLd) (s : State) : Out :=
  guardedFault .k o.g s (kldFault o s) (fun s =>
    let a := o.addr.toNat * 512
    let b := ofBytes (scratchRead s s.sel.who a (kldBytes o))
    let v := packElems 32 ((elemsOf b 128 (fmtBits o.fmt)).map (fun x =>
      if o.fmt = 0 then x else (convert 0 o.fmt 0 0 x).1))
    let e := fmtBits o.fmt / 8
    let src := (upTo 128).map (fun i => ({ off := a + e * i, n := e, bit := 32 * i, fmt := o.fmt, slot := 9, at_ := a } : PoolSrc))
    let s1 := (s.landAll (.c o.c) (BitVec.ofNat 4096 v) 8 0).noteSrc src
    if scratchPoisoned s s.sel.who a (kldBytes o) then
      s1.upd (fun c => { c with late := c.late ++ [c.found 0x05 (memInfo 9 3 a) c.inst .none] })
    else s1)
/-- KSET (R206). -/
def execKset (o : KSet) (s : State) : Out :=
  guarded .k o.g s (fun s => s.landAll (.c o.c) (BitVec.ofNat 4096 (packElems 32 (List.replicate 128 o.val.toNat))) 2 0)
/-- KMOV (R206). -/
def execKmov (o : KMov) (s : State) : Out :=
  guarded .k o.g s (fun s => s.landAll (.c o.c) (s.rd .k 0 (.c o.src)) 2 0)

end Sys2Proof.Machine
end

