-- ==== Sys2Proof/Machine/Memory.lean ====
section
/-! DEFINITION. Sys2Proof/Machine/Memory.lean: the forms of slots D0 and D1 (spec/07 R164 to R185). -/

namespace Sys2Proof.Machine

/-! ## Scratchpad forms (R168, R169) -/

/-- The trap information of poisoned pool bytes read by a scratchpad form (R334), before LATE and FROM. -/
def poolPoison (s : State) (slot a n : Nat) : State :=
  if scratchPoisoned s s.sel.who a n then
    s.upd (fun c => { c with late := c.late ++ [c.found 0x05 (memInfo slot 3 a) c.inst .none] })
  else s

/-- A scratchpad load is in flight until its bound; an acquire holds later memory bundles until then (R181, R182). -/
def noteLoad (s : State) (lat : Nat) (acq : Bool) : State :=
  s.upd (fun c => { c with loadUntil := max c.loadUntil (s.t + lat),
                           acqUntil := if acq then max c.acqUntil (s.t + lat) else c.acqUntil })

/-- ORD of a DA form. -/
def daOrd (o : DA) : Nat := (o.x.map (fun e => e.ord.toNat)).getD 0
/-- The clamp a DA form counts (R249). -/
def daClamp (o : DA) (s : State) : State :=
  match o.x with | some e => clampCount s (e.ord ≠ 0) e.scope | none => s

/-- The pieces of a load, when there is more than one: bytes of the scratchpad as they stand (R254). -/
def loadSrc (sl a n : Nat) : List PoolSrc :=
  let l := piecesOf a n
  if l.length < 2 then [] else l.map (fun q => { off := a + q.1, n := q.2, bit := 8 * q.1, fmt := 0, slot := sl, at_ := a })
/-- A load of n scratchpad bytes at a into bits of a register (R168). -/
def scratchLoad (o : DA) (s : State) (a n lat : Nat) (val : List Byte → Nat) (en : BitVec 4096) : State :=
  let b := scratchRead s s.sel.who a n
  let s1 := (daClamp o s).land (s.fileReg o.fc o.dreg) (BitVec.ofNat 4096 (val b)) en lat 0
  let src := loadSrc o.slot.slot.index a n
  poolPoison (noteLoad (if src.isEmpty then s1 else s1.noteSrc src) lat (daOrd o = 1)) o.slot.slot.index a n

/-- A store to the own scratchpad: performed in the pool at issue, its pieces independently (R254), or buffered in a segment
(R179, R183). One that an
earlier fence.rel, or an earlier write of the same bytes through a window, still holds back issues without a stall and is
performed as soon as its order allows; the context's loads read it meanwhile (R182, R252). -/
def scratchStore (o : DA) (s : State) (w : List (Nat × List Byte)) : State :=
  let s := (daClamp o s).upd Ctx.fixLoads
  let w0 := s.sel.who
  let p := s.mkPkt o.slot.slot o.x 0 (.pool w0.clus w0.core 0, w0.chip, 0) (.pool w)
  let s1 := { s.fresh with pkts := s.pkts ++ [p] }
  if s.cur.inSeg then { s1 with pkts := s.pkts ++ [{ p with stage := .buffered }] }
  else if s.mayLeave p then (if (laterPieces s.free w).isEmpty then pokeAll s s.coreId w else performPool s1 p)
  else s1

/-- Faults of a scratchpad form at its address: ADDR is the effective address, low bits and all (R165, R166). -/
def daLocalFault (o : DA) (s : State) (_size : Nat) : Option TrapArgs := s.localFault o.slot.slot.index (s.eaRaw o.slot o.base)
/-- Faults of gth and sct: every element address is checked (R166). DESIGN CHOICE (log 51): of several bad elements ADDR
shows the first in element order. -/
def idxFault (o : DA) (s : State) : Option TrapArgs :=
  (s.eaElems o).findSome? (fun a => s.localFault o.slot.slot.index a)

/-- W/8 of ldv and stv. -/
def daW (o : DA) : Nat := wBits o.sz / 8

/-- LDV (R168). -/
def execLdv (o : DA) (s : State) : Out :=
  guardedFault o.slot.slot o.g s (daLocalFault o s (daW o)) (fun s =>
    scratchLoad o s (s.eaDA o (daW o)) (daW o) 6 ofBytes (BitVec.ofNat 4096 (2 ^ wBits o.sz - 1)))
/-- LDS (R168). -/
def execLds (o : DA) (s : State) : Out :=
  guardedFault o.slot.slot o.g s (daLocalFault o s (szBytes o.sz)) (fun s =>
    scratchLoad o s (s.eaDA o (szBytes o.sz)) (szBytes o.sz) 4 ofBytes 0xFFFFFFFFFFFFFFFF#4096)
/-- LDB (R168): the element in every place of all 1,024 bits. -/
def execLdb (o : DA) (s : State) : Out :=
  guardedFault o.slot.slot o.g s (daLocalFault o s (szBytes o.sz)) (fun s =>
    let e := szBytes o.sz
    scratchLoad o s (s.eaDA o e) e 6 (fun b => packElems (8 * e) (List.replicate (128 / e) (ofBytes b)))
      (BitVec.ofNat 4096 (2 ^ 1024 - 1)))
/-- GTH (R169). -/
def execGth (o : DA) (s : State) : Out :=
  guardedFault o.slot.slot o.g s (idxFault o s) (fun s =>
    let e := szBytes o.sz
    let as := s.eaIdx o
    let v := packElems (8 * e) (as.map (fun a => ofBytes (scratchRead s s.sel.who a e)))
    let s1 := noteLoad ((daClamp o s).land (s.fileReg o.fc o.dreg) (BitVec.ofNat 4096 v) (BitVec.ofNat 4096 (2 ^ 1024 - 1))
      10 0) 10 (daOrd o = 1)
    let src := as.mapIdx (fun i a => ({ off := a, n := e, bit := 8 * e * i, fmt := 0, slot := o.slot.slot.index, at_ := a } : PoolSrc))
    let s2 := if as.all (fun a => as.head?.any (fun h => a / 64 = h / 64)) then s1 else s1.noteSrc src
    as.foldl (fun s a => poolPoison s o.slot.slot.index a e) s2)

/-- The source register of a storing DA form. -/
def State.daSrc (s : State) (o : DA) : Nat := (s.rd o.slot.slot 1 (s.fileReg o.fc o.dreg)).toNat

/-- STS (R168). -/
def execSts (o : DA) (s : State) : Out :=
  guardedFault o.slot.slot o.g s (daLocalFault o s (szBytes o.sz)) (fun s =>
    scratchStore o s [(s.eaDA o (szBytes o.sz), bytesOf (s.daSrc o) (szBytes o.sz))])
/-- SCT (R169): ascending, so of equal addresses the highest element wins. -/
def execSct (o : DA) (s : State) : Out :=
  guardedFault o.slot.slot o.g s (idxFault o s) (fun s =>
    let e := szBytes o.sz
    scratchStore o s ((s.eaIdx o).mapIdx (fun i a => (a, bytesOf (elemN (s.daSrc o) i (8 * e)) e))))

/-! ## stv: the scratchpad or a window (R164, R168, R170, R296) -/

/-- Faults of stv: outside the scratchpad and the windows, an unbound window, or past the limit (R166, R242, R296). -/
def stvFault (o : DA) (s : State) : Option TrapArgs :=
  let a := s.eaDA o (daW o)
  let sl := o.slot.slot.index
  if isWindow a then
    if !(s.cur.winBinding (winOf a)).getLsbD 63 || s.cur.limit < winOff a + daW o then some (s.rangeTrap sl 1 (s.eaRaw o.slot o.base)) else none
  else s.localFault sl (s.eaRaw o.slot o.base)
/-- The window a store with a true guard needs a unit of (R170). -/
def stvWindow (o : DA) (s : State) : Option Nat :=
  let a := s.eaDA o (daW o)
  if isWindow a then some (winOf a) else none
/-- Take one unit of a window's allowance. -/
def takeWindow (s : State) (n : Nat) : State :=
  s.upd (fun c => { c with csr := { c.csr with
    winAvail := c.csr.winAvail.mapIdx (fun i v => if i = n then v - 1 else v) } })
/-- The peer a window names: target, destination chip, reach (R180, R242). -/
def State.windowTarget (s : State) (a : Nat) : Target × Nat × Nat :=
  let b := (s.cur.winBinding (winOf a)).toNat
  let me := s.sel.who
  let chip := s.memberChip me.chip (s.gctxOf me.chip) (natFld b 0 10)
  let clus := natFld b 10 5
  (.pool clus (natFld b 15 3) (winOff a), chip, if chip ≠ me.chip then 4 else if clus ≠ me.clus then 3 else 2)
/-- A window store: one packet, one unit (R170, R295). -/
def windowStore (o : DA) (s : State) (a : Nat) : State :=
  let s := takeWindow (daClamp o s) (winOf a)
  let p := s.mkPkt o.slot.slot o.x a (s.windowTarget a) (.store (bytesOf (s.daSrc o) (daW o)))
  (issuePkt s { p with win := some (winOf a), ea := s.eaRaw o.slot o.base } true).settle
/-- STV (R168, R170). -/
def execStv (o : DA) (s : State) : Out :=
  guardedFault o.slot.slot o.g s (stvFault o s) (fun s =>
    let a := s.eaDA o (daW o)
    if isWindow a then
      if s.cur.csr.winAvail.toList.getD (winOf a) 0 = 0 then
        blockOn s (.window (winOf a))
      else windowStore o s a
    else scratchStore o s [(a, bytesOf (s.daSrc o) (daW o))])

/-! ## Global scalar loads, stores and atomics (R176, R177) -/

/-- Faults of ldg and stg. -/
def globalFault (o : DA) (s : State) (r w : Bool) : Option TrapArgs :=
  s.xlatFault o.slot.slot.index (s.eaRaw o.slot o.base) r w false

/-- LDG (R176). -/
def execLdg (o : DA) (s : State) : Out :=
  guardedFault o.slot.slot o.g s (globalFault o s true false) (fun s =>
    let a := s.eaDA o (szBytes o.sz)
    let d := s.fileReg o.fc o.dreg
    let p := s.mkPkt o.slot.slot o.x a (s.targetOf a) (.load (szBytes o.sz) d)
    let p := { p with ea := s.eaRaw o.slot o.base }
    (issuePkt (setBusy (daClamp o s) (.reg d) s.nextId false) p false).settle)
/-- STG (R176). -/
def execStg (o : DA) (s : State) : Out :=
  guardedFault o.slot.slot o.g s (globalFault o s false true) (fun s =>
    let a := s.eaDA o (szBytes o.sz)
    let p := s.mkPkt o.slot.slot o.x a (s.targetOf a) (.store (bytesOf (s.daSrc o) (szBytes o.sz)))
    (issuePkt (daClamp o s) { p with ea := s.eaRaw o.slot o.base } true).settle)

/-- The size of an atomic. -/
def atomicSize (o : DM) : Nat := if o.sz = 1 then 8 else 4
/-- Faults of an atomic: R and W (R362). -/
def atomicFault (o : DM) (s : State) : Option TrapArgs :=
  s.xlatFault o.slot.slot.index (s.eaReg o.slot o.base) true true false
/-- An atomic by opcode: operand and comparand read at issue, DREG busy until the old value lands (R177). -/
def atomicIssue (o : DM) (f : Nat) (s : State) : State :=
  let a := s.eaBase o.slot o.base (atomicSize o)
  let d := s.fileReg o.fc o.dreg
  let v := s.rd64 o.slot.slot 1 (s.fileReg o.fc o.vreg)
  let e := s.extOf o.x
  let c := s.rd64 o.slot.slot 2 (s.fileReg o.fc (e.step.extractLsb' 4 5))
  let p := s.mkPkt o.slot.slot o.x a (s.targetOf a) (.atomic f (atomicSize o) v c d)
  let s := match o.x with | some e => clampCount s (e.ord ≠ 0) e.scope | none => s
  (issuePkt (setBusy s (.reg d) s.nextId false) { p with ea := s.eaReg o.slot o.base } true).settle
/-- An atomic under its guard. -/
def atomicOp (o : DM) (f : Nat) (s : State) : Out := guardedFault o.slot.slot o.g s (atomicFault o s) (atomicIssue o f)

/-- AADD (R177). -/
def execAadd (o : DM) (s : State) : Out := atomicOp o 0x18 s
/-- AMIN (R177). -/
def execAmin (o : DM) (s : State) : Out := atomicOp o 0x19 s
/-- AMAX (R177). -/
def execAmax (o : DM) (s : State) : Out := atomicOp o 0x1A s
/-- AMINN (R177). -/
def execAminn (o : DM) (s : State) : Out := atomicOp o 0x1B s
/-- AMAXN (R177). -/
def execAmaxn (o : DM) (s : State) : Out := atomicOp o 0x1C s
/-- AAND (R177). -/
def execAand (o : DM) (s : State) : Out := atomicOp o 0x1D s
/-- AOR (R177). -/
def execAor (o : DM) (s : State) : Out := atomicOp o 0x1E s
/-- AXOR (R177). -/
def execAxor (o : DM) (s : State) : Out := atomicOp o 0x1F s
/-- ASWP (R177). -/
def execAswp (o : DM) (s : State) : Out := atomicOp o 0x20 s
/-- ACAS (R177). -/
def execAcas (o : DM) (s : State) : Out := atomicOp o 0x21 s
/-- AFADD (R178). -/
def execAfadd (o : DM) (s : State) : Out := atomicOp o 0x22 s
/-- AFMAX (R178). -/
def execAfmax (o : DM) (s : State) : Out := atomicOp o 0x23 s

/-- What an atomic writes, none when it writes nothing, and its flags (R177, R178). -/
def atomicNew (f n : Nat) (old v c : Nat) : Option Nat × Flags :=
  let w := 8 * n
  let o := old % 2 ^ w
  let x := v % 2 ^ w
  match f with
  | 0x18 => (some ((o + x) % 2 ^ w), 0)
  | 0x19 => (some (if sInt o w ≤ sInt x w then o else x), 0)
  | 0x1A => (some (if sInt o w ≤ sInt x w then x else o), 0)
  | 0x1B => (some (min o x), 0)
  | 0x1C => (some (max o x), 0)
  | 0x1D => (some (o &&& x), 0)
  | 0x1E => (some (o ||| x), 0)
  | 0x1F => (some (o ^^^ x), 0)
  | 0x20 => (some x, 0)
  | 0x21 => (if o = c % 2 ^ w then some x else none, 0)
  | 0x22 => let r := sumRound 0 0 0 [decodeF 0 o, decodeF 0 x]; (some r.1, r.2)
  | _ => (some (maxBits 0 o x), 0)

/-! ## Tile transfers (R172 to R175) -/

/-- A tile descriptor: row stride, rows, lines of 128 bytes a row, reserved bytes. -/
def readDesc (b : List Byte) : Int × Nat × Nat × Nat :=
  let v := ofBytes b
  (sInt (natFld v 0 64) 64, natFld v 64 16, natFld v 80 16, natFld v 96 32)
/-- The descriptor's scratchpad address. -/
def State.descAt (s : State) (o : DT) : Nat := (s.rd64 o.slot.slot 1 (dBase o.slot o.desc)).toNat
/-- The descriptor read at issue. -/
def State.desc (s : State) (o : DT) : Int × Nat × Nat × Nat := readDesc (scratchRead s s.sel.who (s.descAt o) 16)
/-- The descriptor is malformed (R175). -/
def descBad (d : Int × Nat × Nat × Nat) : Bool :=
  d.2.1 = 0 || 256 < d.2.1 || d.2.2.1 = 0 || 256 < d.2.2.1 || 256 < d.2.1 * d.2.2.1 || d.1 % 128 ≠ 0 || d.2.2.2 ≠ 0
/-- The lines of a transfer, in row order: tile offset and virtual address (R173). -/
def State.dtLines (s : State) (o : DT) : List (Nat × Nat) :=
  let d := s.desc o
  let row0 := s.eaOff o.slot o.base 128
  (upTo d.2.1).flatMap (fun r => (upTo d.2.2.1).map (fun l =>
    ((r * d.2.2.1 + l) * 128, wrapN ((row0 : Int) + r * d.1 + l * 128) 64)))
/-- Faults of ldt, stt and ldtp: the descriptor, then every page the rows touch (R166, R173, R175). DESIGN CHOICE (log 51): a
descriptor address that is misaligned and past the limit is malformed, KIND 2; ADDR of a bad line is that line's address,
for the first line the effective address. -/
def dtFault (o : DT) (s : State) (r w : Bool) : Option TrapArgs :=
  let a := s.descAt o
  let sl := o.slot.slot.index
  if a % 16 ≠ 0 then some (s.rangeTrap sl 2 a)
  else if s.cur.limit ≤ a then some (s.rangeTrap sl 1 a)
  else if descBad (s.desc o) then some (s.rangeTrap sl 2 a)
  else
    let ea := s.eaRaw o.slot o.base
    let lines := (s.dtLines o).map (fun q => if q.1 = 0 then ea else q.2)
    if !r && !w then lines.findSome? (fun a => if 2 ^ 40 ≤ a then some (s.rangeTrap sl 3 a) else none)
    else lines.findSome? (fun a => s.xlatFault sl a r w false)

/-- The clamp a DT form counts. -/
def dtClamp (o : DT) (s : State) : State :=
  match o.x with | some e => clampCount s (e.ord ≠ 0) e.scope | none => s
/-- Issue one access per line, each numbered in its flow. -/
def issueLines (o : DT) (xfer : Nat) (op : Nat → AccOp) (bad : Nat → Bool) (held : Bool) (s : State) (l : List (Nat × Nat)) : State :=
  l.foldl (fun s q => issuePkt s { s.mkPkt o.slot.slot o.x q.2 (s.targetOf q.2) (op q.1) with xfer := xfer, poison := bad q.1 } held) s
/-- Start a transfer: its record, and the tile's busy bit. -/
def startXfer (o : DT) (out : Bool) (s : State) : State :=
  let x : Xfer := { id := s.nextId, who := s.sel.who, out := out, tile := o.tile.toNat, inst := s.cur.inst,
                    buffered := out && s.cur.inSeg, moved := [] }
  { setBusy s.fresh (.tile o.tile.toNat) s.nextId false with xfers := s.xfers ++ [x] }

/-- LDT (R173). -/
def execLdt (o : DT) (s : State) : Out :=
  guardedFault o.slot.slot o.g s (dtFault o s true false) (fun s =>
    (issueLines o s.nextId (fun off => .row 128 off) (fun _ => false) false (startXfer o false (dtClamp o s)) (s.dtLines o)).settle)
/-- STT (R173): its lines wait until the tile is read out. In a segment they hold the tile's bytes and wait in the
store buffer (R183). -/
def execStt (o : DT) (s : State) : Out :=
  guardedFault o.slot.slot o.g s (dtFault o s false true) (fun s =>
    let at0 := poolKey s.coreId (s.cur.tileAt o.tile.toNat)
    let s1 := startXfer o true (dtClamp o s)
    if s.cur.inSeg then issueLines o s.nextId (fun off => .store (s.peek (at0 + off) 128)) (fun off => s.poisoned (at0 + off) 128) true s1 (s.dtLines o)
    else
      let s2 := issueLines o s.nextId (fun off => .sttRow 128 off) (fun _ => false) false s1 (s.dtLines o)
      { s2 with pkts := s2.pkts.map (fun p =>
          if p.xfer = s.nextId ∧ p.stage = Stage.core then { p with stage := .readout } else p) })
/-- LDTP (R174): lines of pages that would fault are skipped. -/
def execLdtp (o : DT) (s : State) : Out :=
  guardedFault o.slot.slot o.g s (dtFault o s false false) (fun s =>
    let lines := (s.dtLines o).filter (fun q => (s.xlatFault o.slot.slot.index q.2 true false false).isNone)
    (issueLines o 0 (fun _ => .prefetch 128) (fun _ => false) false (dtClamp o s) lines).settle)

/-! ## fence, L2 control and wwait (R171, R182, R185) -/

/-- FENCE (R182): recorded in program order; Machine/Bundle.lean holds later bundles back by it. -/
def execFence (o : DF) (s : State) : Out :=
  guarded o.slot.slot o.g s (fun s =>
    let s := clampCount s true o.scope
    s.upd (fun c => { c with fences := c.fences ++ [⟨c.po + 2, if o.kind = 3 then 3 else o.kind.toNat, s.scopeAs o.scope⟩] }))

/-- The length register of an L2 control form. -/
def State.dlLen (s : State) (o : DL) : Nat := (s.rd64 o.slot.slot 1 (dBase o.slot o.len)).toNat
/-- An address of a range that no region covers: its start, or the end of a region inside it (R259). -/
def uncovered (l : List Region) (lo hi : Nat) : Option Nat :=
  (lo :: (l.map (fun q => q.base + q.size)).filter (fun e => lo < e && e < hi)).find? (fun va => (regionAt l va).isNone)
/-- Faults of the L2 control forms: an address past the space, or an invalid entry (R185). DESIGN CHOICE (log 51): ADDR is the
first address of the range in the extent or past the space, 2^40 showing as 0; and a range of length 0, which acts on nothing,
raises no fault, even with its base past the space (R166 beside R185). -/
def dlFault (o : DL) (s : State) : Option TrapArgs :=
  let a := (s.rd64 o.slot.slot 0 (dBase o.slot o.base)).toNat
  let n := s.dlLen o
  let sl := o.slot.slot.index
  if n = 0 then none
  else if 2 ^ 40 ≤ a then some (s.rangeTrap sl 3 a)
  else if 2 ^ 40 < a + n then some (s.rangeTrap sl 3 (2 ^ 40))
  else (extentsOf a n).findSome? (fun e =>
    let x := s.xentry s.sel.who.chip (s.gctxOf s.sel.who.chip) e
    let lo := max a (e * 2 ^ 28)
    let hi := min (a + n) ((e + 1) * 2 ^ 28)
    if x.kind = 0 || !x.r then some (s.rangeTrap sl 0 lo)
    else if x.kind = 4 then (uncovered (s.rgang s.sel.who.chip).regions lo hi).map (fun va => s.rangeTrap sl 0 va)
    else none)
/-- An L2 control form: posted, ordered as a store (R185). -/
def l2Issue (o : DL) (kind : Nat) (s : State) : Out :=
  guardedFault o.slot.slot o.g s (dlFault o s) (fun s =>
    let a := (s.rd64 o.slot.slot 0 (dBase o.slot o.base)).toNat
    let p := s.mkPkt o.slot.slot none a (.dpa 0, s.sel.who.chip, 0) (.l2 kind (s.dlLen o) o.ret.toNat)
    (issuePkt s p true).settle)
/-- L2PIN (R185). -/
def execL2pin (o : DL) (s : State) : Out := l2Issue o 0 s
/-- L2UNPIN (R185). -/
def execL2unpin (o : DL) (s : State) : Out := l2Issue o 1 s
/-- L2INV (R185). -/
def execL2inv (o : DL) (s : State) : Out := l2Issue o 2 s

/-- Window stores to a window, of the bundles before a place in program order, that are not acknowledged (R171). -/
def State.windowOut (s : State) (w : Who) (n po : Nat) : Bool := s.pkts.any (fun p => p.who = w && p.win = some n && p.po < po)
/-- WWAIT (R171): passes when no store to the window is outstanding; until then its bundle stalls, one cycle at a time.
DESIGN CHOICE (log 51): a store of its own bundle is not waited for, since a stall is no issue of any slot (R33). -/
def execWwait (o : DW) (s : State) : Out :=
  guarded o.slot.slot o.g s (fun s =>
    if s.windowOut s.sel.who o.win.toNat s.cur.po then stallCycle s else s)

end Sys2Proof.Machine
end

