-- ==== Sys2Proof/Machine/Plan.lean ====
section
/-! DEFINITION. Sys2Proof/Machine/Plan.lean: the collective descriptor, its validity and its plan (spec/13 R304 to R311). -/

namespace Sys2Proof.Machine

/-- A collective descriptor (R304). Layouts are (KIND, AXES) per dimension. -/
structure CDesc where
  ndim : Nat
  fmt : BitVec 4
  narrow : Bool
  waitq : Bool
  tree : Bool
  naxes : Nat
  axsz : List Nat
  mbase : Nat
  slay : List (Nat × Nat)
  dlay : List (Nat × Nat)
  chunk : Nat
  src : Nat
  dst : Nat
  dim : List Nat
  pbase : Nat
  nport : Nat
  deriving DecidableEq, Repr

/-- The field of n bytes at an offset of a structure in memory. -/
def fieldAt (b : List Byte) (off n : Nat) : Nat := ofBytes ((b.drop off).take n)

/-- Read a descriptor (R304). -/
def readCDesc (b : List Byte) : CDesc :=
  let lay := fun off => (upTo 4).map (fun d => let v := fieldAt b (off + d) 1; (natFld v 6 2, natFld v 0 3))
  let fl := fieldAt b 2 1
  { ndim := fieldAt b 0 1, fmt := BitVec.ofNat 4 (fieldAt b 1 1), narrow := fl.testBit 0, waitq := fl.testBit 1,
    tree := fl.testBit 2, naxes := fieldAt b 3 1, axsz := (upTo 3).map (fun x => fieldAt b (4 + 2 * x) 2),
    mbase := fieldAt b 10 2, slay := lay 12, dlay := lay 16, chunk := fieldAt b 20 4, src := fieldAt b 24 8,
    dst := fieldAt b 32 8, dim := (upTo 4).map (fun d => fieldAt b (40 + 4 * d) 4), pbase := fieldAt b 56 1,
    nport := fieldAt b 57 1 }

/-- Size of a mesh axis, 1 for an unused one. -/
def CDesc.ax (d : CDesc) (x : Nat) : Nat := if x < d.naxes then d.axsz.getD x 1 else 1
/-- Members of the mesh (R306). -/
def CDesc.size (d : CDesc) : Nat := d.ax 0 * d.ax 1 * d.ax 2
/-- Mesh coordinate of a member index of the gang. -/
def CDesc.coord (d : CDesc) (m : Nat) : List Nat :=
  let k := m - d.mbase
  [k % d.ax 0, k / d.ax 0 % d.ax 1, k / (d.ax 0 * d.ax 1)]
/-- Member index of a coordinate. -/
def CDesc.memberAt (d : CDesc) (c : List Nat) : Nat :=
  d.mbase + c.getD 0 0 + d.ax 0 * (c.getD 1 0 + d.ax 1 * c.getD 2 0)
/-- The shard count of a dimension: the product over its S set (R306). -/
def CDesc.shards (d : CDesc) (l : Nat × Nat) : Nat :=
  if l.1 = 1 then ((upTo 3).filter (fun x => l.2.testBit x)).foldl (fun a x => a * d.ax x) 1 else 1
/-- The shard index of a coordinate within a dimension's set. -/
def CDesc.shardIdx (d : CDesc) (l : Nat × Nat) (c : List Nat) : Nat :=
  if l.1 = 1 then (((upTo 3).filter (fun x => l.2.testBit x)).foldl (fun a x => (a.1 + a.2 * c.getD x 0, a.2 * d.ax x)) (0, 1)).1
  else 0
/-- The extents a member holds under a layout, one per dimension. -/
def CDesc.extents (d : CDesc) (lay : List (Nat × Nat)) : List Nat :=
  (upTo d.ndim).map (fun i => d.dim.getD i 1 / d.shards (lay.getD i (0, 0)))
/-- Bytes of an element. -/
def CDesc.esz (d : CDesc) : Nat := fmtBits d.fmt / 8
/-- Bytes of a shard under a layout. -/
def CDesc.bytes (d : CDesc) (lay : List (Nat × Nat)) : Nat := (d.extents lay).foldl (fun a x => a * x) d.esz

/-- A layout's bytes break R305. -/
def CDesc.layBad (d : CDesc) (raw : List Nat) : Bool :=
  let one : Nat → Nat → Bool := fun i v =>
    if d.ndim ≤ i then v ≠ 0
    else natFld v 3 3 ≠ 0 || natFld v 6 2 = 3 || (natFld v 6 2 = 0 && natFld v 0 3 ≠ 0) ||
      (natFld v 6 2 ≠ 0 && (natFld v 0 3 = 0 || 2 ^ d.naxes ≤ natFld v 0 3))
  (raw.mapIdx one).any id ||
    (upTo 3).any (fun x => 1 < (raw.filter (fun v => natFld v 6 2 ≠ 0 && v.testBit x)).length)

/-- The role of a mesh axis in a layout (R308): 0 in no set, 1 + d in the S set of dimension d, 9 in a P set. -/
def role (lay : List (Nat × Nat)) (x : Nat) : Nat :=
  ((lay.zipIdx).find? (fun q => q.1.1 ≠ 0 && q.1.2.testBit x)).elim 0 (fun q => if q.1.1 = 1 then 1 + q.2 else 9)

/-- A descriptor that is invalid for a member of a gang (R307). -/
def cdescBad (b : List Byte) (nchips me : Nat) : Bool :=
  let d := readCDesc b
  let at1 := fun off => fieldAt b off 1
  d.ndim = 0 || 4 < d.ndim || 15 < at1 1 || !([0, 1, 2, 3, 4, 5, 7].contains d.fmt.toNat) || 7 < at1 2 ||
  d.naxes = 0 || 3 < d.naxes ||
  (upTo 3).any (fun x => if x < d.naxes then d.axsz.getD x 0 = 0 else d.axsz.getD x 0 ≠ 0) ||
  d.layBad ((upTo 4).map (fun i => at1 (12 + i))) || d.layBad ((upTo 4).map (fun i => at1 (16 + i))) ||
  d.chunk % 256 ≠ 0 || d.chunk < 256 || 65536 < d.chunk ||
  (upTo 4).any (fun i => if i < d.ndim then d.dim.getD i 0 = 0 else d.dim.getD i 0 ≠ 0) ||
  47 < d.pbase || d.nport = 0 || 48 < d.nport || fieldAt b 58 6 ≠ 0 ||
  (upTo d.ndim).any (fun i =>
    d.dim.getD i 0 % d.shards (d.slay.getD i (0, 0)) ≠ 0 || d.dim.getD i 0 % d.shards (d.dlay.getD i (0, 0)) ≠ 0) ||
  nchips < d.mbase + d.size || me < d.mbase || d.mbase + d.size ≤ me ||
  d.src % d.esz ≠ 0 || d.dst % d.esz ≠ 0 ||
  (let n := d.bytes d.slay; let m := d.bytes d.dlay
   d.src < d.dst + m && d.dst < d.src + n && !(d.src = d.dst && n = m)) ||
  (upTo 3).any (fun x => role d.dlay x = 9 && role d.slay x ≠ 9)

/-- A step of a plan (R308): 0 slice, 1 reduce-scatter, 2 all-reduce, 3 all-to-all, 4 all-gather; its axis, and the
dimensions it takes from and to. -/
structure PStep where
  kind : Nat
  axis : Nat
  from_ : Nat
  into : Nat
  deriving DecidableEq, Repr

/-- The step of one axis (R308). -/
def axisStep (d : CDesc) (x : Nat) : Option PStep :=
  let a := role d.slay x
  let b := role d.dlay x
  if a = 9 then (if b = 0 then some ⟨2, x, 0, 0⟩ else if b = 9 then none else some ⟨1, x, 0, b - 1⟩)
  else if a = 0 then (if b = 0 then none else some ⟨0, x, 0, b - 1⟩)
  else if b = 0 then some ⟨4, x, a - 1, 0⟩
  else if a = b then none
  else some ⟨3, x, a - 1, b - 1⟩

/-- The plan: local slices, reduce-scatters, all-reduces, all-to-alls, all-gathers, ascending axes within a kind (R309). -/
def plan (d : CDesc) : List PStep :=
  (upTo 5).flatMap (fun k => (upTo d.naxes).filterMap (fun x => (axisStep d x).filter (fun p => p.kind = k)))

end Sys2Proof.Machine
end

