-- ==== Sys2Proof/Machine/Engine.lean ====
section
/-! DEFINITION. Sys2Proof/Machine/Engine.lean: the forms of slot E as they issue (spec/08 R207 to R217, spec/11 R271,
spec/12 R301, R302, spec/13 R317, R322 to R324, spec/18 R368, spec/19 R394, R395, spec/21 R413). What a command does at
the head of its queue is in the event files. -/

namespace Sys2Proof.Machine

/-! ## The queues that the overflow engine serves (R233 to R236) -/

/-- The queue of a ring entry: 0 E, 1 and 2 the copy engines, 3 receive. -/
def RingEntry.queue (r : RingEntry) : Nat := match r with | .e _ => 0 | .copy g _ => 1 + g | .rcv _ => 3
/-- Entries in a served queue. -/
def Ctx.queueLen (c : Ctx) (q : Nat) : Nat :=
  match q with | 0 => c.eq.length | 1 => c.cq0.length | 2 => c.cq1.length | _ => c.rq.length
/-- Slots of the ring taken, those of the entries on their way there among them. -/
def Ctx.ringUsed (c : Ctx) : Nat := c.ring.length + c.ovfWait.length
/-- Some entry of a queue is in the ring, or on its way there. -/
def Ctx.inRing (c : Ctx) (q : Nat) : Bool := (c.ring ++ c.ovfWait).any (fun r => r.queue = q)

/-- What an entry that must enter a queue meets. -/
inductive Room where
  | ok | block | quota
  deriving DecidableEq, Repr

/-- Room for one more entry (R234, R236): appended to the ring while the queue has entries there; a full queue blocks
until its 32 youngest entries have moved to the ring, which must have slots for them. -/
def Ctx.room (c : Ctx) (q : Nat) : Room :=
  if c.inRing q then (if c.csr.ovfQuota.toNat ≤ c.ringUsed then .quota else .ok)
  else if c.queueLen q < 64 then .ok
  else if c.csr.ovfQuota.toNat < c.ringUsed + 32 then .quota
  else .block

/-- The high-water mark follows the slots taken (R236). -/
def Ctx.noteHwm (c : Ctx) : Ctx :=
  { c with csr := { c.csr with ovfHwm := if c.csr.ovfHwm.toNat < c.ringUsed then BitVec.ofNat 16 c.ringUsed else c.csr.ovfHwm } }
/-- Entries enter the ring. -/
def Ctx.toRing (c : Ctx) (l : List RingEntry) : Ctx := { c with ring := c.ring ++ l }.noteHwm
/-- An entry enters its queue, or goes on its way to the ring behind those of its queue there. -/
def Ctx.enter (c : Ctx) (e : RingEntry) : Ctx :=
  if c.inRing e.queue then { c with ovfWait := c.ovfWait ++ [e] }.noteHwm
  else
    match e with
    | .e k => { c with eq := c.eq ++ [k] }
    | .copy 0 k => { c with cq0 := c.cq0 ++ [k] }
    | .copy _ k => { c with cq1 := c.cq1 ++ [k] }
    | .rcv r => { c with rq := c.rq ++ [r] }

/-- TRAP_INFO of QUOTA (R236). -/
def quotaInfo (c : Ctx) (q frm : Nat) : BitVec 64 := BitVec.ofNat 64 (q + c.ringUsed * 2 ^ 16 + frm * 2 ^ 48)

/-! ## Commands -/

/-- Commands with external effect (R54 column X). -/
def external (i : Instr) : Bool :=
  match i with
  | .amsg _ | .taskPost _ | .taskDec _ | .clbar _ | .chbar _ | .fork _ | .spawn _ | .join _ | .coll _ | .esend _
  | .erel _ | .xtloadFull _ | .xtloadEntry _ | .xtloadPage _ | .gbar _ | .almw _ | .almwLen _ | .migCtlStart _
  | .migCtlDone _ => true
  | _ => false

/-- An e register a command reads at issue. -/
def State.eReg (s : State) (pos : Nat) (n : BitVec 3) : BitVec 64 := s.rd64 .e pos (.e n)

/-- The queue entry of a command (R207, R281). -/
def State.mkECmd (s : State) (i : Instr) (o : EOp) : ECmd :=
  let ctl := s.slackCtl
  { id := s.nextId, op := i, ea := s.eReg 0 o.ea, eb := s.eReg 1 o.eb,
    slack := if o.ext.skv then o.ext.sk else BitVec.ofNat 12 s.slackDef, rallow := BitVec.ofNat 4 ctl,
    exq := natFld ctl 8 1 = 1, evcc := natFld ctl 4 4, flow := s.flowCur, ovt := s.ovt, rev := s.cur.csr.revCur,
    po := s.poOf .e, inst := s.cur.inst, stamp := 0, dst := s.sel.who.chip, seq := 0, ords := false, mode := 0, parts := 1 }

/-- A destination that a command writes: undefined from issue until its counter's increment (R207). -/
def Ctx.owe (c : Ctx) (d : Dest) (id t : Nat) : Ctx :=
  { c with flight := c.flight ++ [{ dest := d, val := 0, en := d.full, issued := t, bound := 2 ^ 64, flags := 0, inst := c.inst, id := id, pool := [] }] }

/-- Payload bytes of an amsg. -/
def amsgBytes (o : EOp) : Nat := (o.opt.toNat + 1) * 64
/-- Packets a payload takes: 256 bytes each (R278). -/
def packetsOf (n : Nat) : Nat := max 1 ((n + 255) / 256)
/-- The member to which a command sends packets of a flow of its context: that of an amsg or a task.dec, else its own. -/
def ECmd.toMember (k : ECmd) (own : Nat) : Nat :=
  match k.op with
  | .amsg _ => natFld k.eb.toNat 0 10
  | .taskDec _ => natFld k.ea.toNat 12 10
  | _ => own
/-- A command is numbered in its flow as it issues, and carries the mode the flow has then (R291, R301). -/
def numberCmd (s : State) (w : Who) (k : ECmd) : State × ECmd :=
  match k.lane with
  | none => (s, k)
  | some (f, _) =>
    let dst := s.memberChip w.chip (s.gctxOf w.chip) (k.toMember (s.memberOf w.chip))
    let n := match k.op with | .amsg o => packetsOf (amsgBytes o) | _ => 1
    let c := s.ctx w
    let q := c.seqs.get (dst, f) 0
    (s.updCtx w (fun c => { c with seqs := c.seqs.set (dst, f) ((q + n) % 4096), ords := c.ords.filter (fun x => x ≠ (dst, f)) }),
     { k with dst := dst, seq := q, ords := c.ords.contains (dst, f), mode := s.flowMode w dst f, parts := n })

/-- Send a command: into its queue, or, inside a segment with external effect, held until the commit (R331). -/
def sendE (d : Dest) (k : ECmd) (s : State) : State :=
  let t := s.t
  let s1 := (s.fresh.upd Ctx.fixLoads).upd (fun c => if d = .none then c else c.owe d k.id t)
  if s1.cur.inSeg && external k.op then s1.upd (fun c => { c with closing := c.closing ++ [k] })
  else
    let q := numberCmd s1 s.sel.who k
    q.1.upd (fun c => c.enter (.e q.2))

/-- The fault of a command at issue: privilege, its own faults, the ring (R55, R236). -/
def eFault (priv : Bool) (op : Nat) (q : Nat) (own : Option TrapArgs) (s : State) : Option TrapArgs :=
  if priv && !s.cur.csr.mode then some (s.privTrap 10 op)
  else
    match own with
    | some a => some a
    | none => if s.cur.room q = .quota then some (s.issueTrap 0x0A (quotaInfo s.cur q 0) .quota) else none

/-- A command under its guard. -/
def eIssue (o : EOp) (priv : Bool) (op q : Nat) (own : State → Option TrapArgs) (act : State → State) (s : State) : Out :=
  guardedFault .e o.g s (eFault priv op q (own s) s) (fun s =>
    if s.cur.room q = .block then blockOn s (.queue q) else act s)

/-- A command without a fault of its own, into the E queue. -/
def ePlain (i : Instr) (o : EOp) (d : Dest) (s : State) : Out :=
  eIssue o false 0 0 (fun _ => none) (fun s => sendE d (s.mkECmd i o) s) s
/-- A privileged command. -/
def ePriv (i : Instr) (o : EOp) (op : Nat) (s : State) : Out :=
  eIssue o true op 0 (fun _ => none) (fun s => sendE (.e o.ed) (s.mkECmd i o) s) s

/-! ## cpy (R209 to R212) -/

/-- The descriptor's address. -/
def State.cpyAt (s : State) (o : EOp) : Nat := alignTo (s.eReg 0 o.ea).toNat 32
/-- A dimension of a descriptor: count, source stride, destination stride. -/
def cpyDim (b : List Byte) (d : Nat) : Nat × Int × Int :=
  (fieldAt b (16 + 12 * d) 4, sInt (fieldAt b (20 + 12 * d) 4) 32, sInt (fieldAt b (24 + 12 * d) 4) 32)
/-- The command a descriptor gives (R209). -/
def readCpy (b : List Byte) (id : Nat) (w : Who) (cc inst : Nat) : CopyCmd :=
  { id := id, who := w, cc := cc, sk := fieldAt b 0 1, dk := fieldAt b 1 1, esz := 2 ^ fieldAt b 2 1,
    sbase := fieldAt b 4 4, dbase := fieldAt b 8 4, dims := (upTo (fieldAt b 3 1)).map (cpyDim b), after := none,
    inst := inst }
/-- Lowest and one past the highest byte that one side touches. -/
def CopyCmd.extent (k : CopyCmd) (dst : Bool) : Int × Int :=
  let base : Int := if dst then k.dbase else k.sbase
  let str := fun (q : Nat × Int × Int) => ((q.1 : Int) - 1) * (if dst then q.2.2 else q.2.1)
  (k.dims.foldl (fun a q => a + min 0 (str q)) base, k.dims.foldl (fun a q => a + max 0 (str q)) base + k.esz)
/-- Elements a copy moves. -/
def CopyCmd.total (k : CopyCmd) : Nat := k.dims.foldl (fun a q => a * q.1) 1
/-- The destination is a FIFO. -/
def CopyCmd.toFifo (k : CopyCmd) : Bool := 2 ≤ k.dk
/-- The bytes of one space a copy may name. -/
def Ctx.spaceSize (c : Ctx) (kind : Nat) : Nat :=
  match kind with | 0 => c.limit | 1 => c.csr.poolTiles.toNat * 32768 | _ => 131072

/-- A descriptor that R211 refuses. -/
def cpyBad (c : Ctx) (b : List Byte) : Bool :=
  let nd := fieldAt b 3 1
  let k := readCpy b 0 ⟨0, 0, 0, 0⟩ 0 0
  let aligned := fun (dst : Bool) =>
    (if dst then k.dbase else k.sbase) % k.esz = 0 &&
      k.dims.all (fun q => q.1 < 2 || (if dst then q.2.2 else q.2.1) % (k.esz : Int) = 0)
  let inside := fun (dst : Bool) (kind : Nat) =>
    let e := k.extent dst
    decide (0 ≤ e.1) && decide (e.2 ≤ (c.spaceSize kind : Int))
  2 < fieldAt b 0 1 || 3 < fieldAt b 1 1 || 7 < fieldAt b 2 1 || nd = 0 || 6 < nd ||
  fieldAt b 12 4 ≠ 0 || fieldAt b 88 8 ≠ 0 || fieldAt b (16 + 12 * nd) (12 * (6 - nd)) ≠ 0 ||
  k.dims.any (fun q => q.1 = 0) || (k.toFifo && k.dbase ≠ 0) ||
  !aligned false || (!k.toFifo && !aligned true) || !inside false k.sk || (!k.toFifo && !inside true k.dk) ||
  (k.toFifo && (k.total * k.esz % 256 ≠ 0 || c.noMatrix))

/-- Faults of cpy (R211). -/
def cpyFault (o : EOp) (s : State) : Option TrapArgs :=
  let a := s.cpyAt o
  if s.cur.limit < a + 96 then some (s.rangeTrap 10 1 a)
  else if cpyBad s.cur (scratchRead s s.sel.who a 96) then some (s.rangeTrap 10 2 a)
  else none

/-- Tile registers and latches within one side's extent. -/
def sideElems (kind : Nat) (tile lat : Nat) (e : Int × Int) : List Elem :=
  let l := (upTo 64).filter (fun (i : Nat) => decide (e.1 < ((i : Int) + 1) * 32768) && decide ((i : Int) * 32768 < e.2))
  if kind = tile then l.map Elem.tile else if kind = lat then l.map Elem.lat else []
/-- The elements of R212. -/
def CopyCmd.elems (k : CopyCmd) : List Elem :=
  (sideElems k.sk 1 2 (k.extent false) ++ (if k.toFifo then [] else sideElems k.dk 1 9 (k.extent true))).dedup

/-- CPY (R209, R211, R212): its busy bits are set, and it waits for an M form of its own bundle that writes its elements. -/
def execCpy (o : EOp) (s : State) : Out :=
  let eng := o.opt.toNat % 2
  eIssue o false 0 (1 + eng) (cpyFault o) (fun s =>
    let b := scratchRead s s.sel.who (s.cpyAt o) 96
    let k := readCpy b s.nextId s.sel.who o.cc.toNat s.cur.inst
    let mine := (s.core s.coreId).mq.filter (fun m => m.who = s.sel.who ∧ m.issued = s.t)
    let dep := mine.find? (fun m => s.cur.busy.any (fun q => q.id = m.id && k.elems.contains q.elem))
    let k := { k with after := dep.map MForm.id }
    let s1 := poolPoison s 10 (s.cpyAt o) 96
    (k.elems.foldl (fun s e => setBusy s e k.id false) s1.fresh).upd (fun c => c.enter (.copy eng k))) s

/-! ## Messages, tasks, counters and barriers (R213 to R217) -/

/-- A logical core exists on a chip (R422). -/
def State.isLogical (s : State) (chip clus core : Nat) : Bool :=
  clus < 32 && core < ((s.chip chip).coreMap.get clus CoreMap.reset).ncores
/-- nchips of the running gang. -/
def State.nchipsOf (s : State) (n : Nat) : Nat := match s.kernel n with | some k => k.nchips | none => 0
/-- The chip of a member of the issuer's gang. -/
def State.peer (s : State) (m : Nat) : Nat := s.memberChip s.sel.who.chip (s.gctxOf s.sel.who.chip) m

/-- Faults of amsg (R214). -/
def amsgFault (o : EOp) (s : State) : Option TrapArgs :=
  let w := (s.eReg 1 o.eb).toNat
  let m := natFld w 0 10
  let src := s.eReg 0 o.ea
  if natFld w 20 2 ≠ 0 || natFld w 38 26 ≠ 0 || s.nchipsOf s.sel.who.chip ≤ m ||
     !s.isLogical (s.peer m) (natFld w 10 5) (natFld w 15 3) || s.cur.limit < natFld w 22 16 * 64 + amsgBytes o
  then some (s.rangeTrap 10 1 w)
  else if s.cur.limit < alignTo src.toNat 64 + amsgBytes o then some (s.rangeTrap 10 1 src.toNat)
  else none
/-- AMSG (R214). -/
def execAmsg (o : EOp) (s : State) : Out :=
  eIssue o false 0 0 (amsgFault o) (fun s => sendE .none (s.mkECmd (.amsg o) o) s) s
/-- TASK_POST (R215). -/
def execTaskPost (o : EOp) (s : State) : Out := ePlain (.taskPost o) o .none s
/-- Faults of task.dec (R215). -/
def taskDecFault (o : EOp) (s : State) : Option TrapArgs :=
  let w := (s.eReg 0 o.ea).toNat
  if natFld w 22 42 ≠ 0 || s.nchipsOf s.sel.who.chip ≤ natFld w 12 10 then some (s.rangeTrap 10 1 w) else none
/-- TASK_DEC (R215). -/
def execTaskDec (o : EOp) (s : State) : Out :=
  eIssue o false 0 0 (taskDecFault o) (fun s => sendE .none (s.mkECmd (.taskDec o) o) s) s

/-- The source of ecnt (R213). -/
def ecntSrc (o : EOp) (s : State) : BitVec 32 :=
  if o.opt.getLsbD 1 then o.ext.imm.setWidth 32 else (s.eReg 0 o.ea).setWidth 32
/-- A completion counter changed. -/
def Ctx.setCC (c : Ctx) (n : Nat) (f : BitVec 32 → BitVec 32) : Ctx :=
  { c with csr := { c.csr with ccnt := c.csr.ccnt.mapIdx (fun i v => if i = n then f v else v) } }
/-- ECNT_ADD (R213): at issue. -/
def execEcntAdd (o : EOp) (s : State) : Out :=
  guarded .e o.g s (fun s => let v := ecntSrc o s; s.upd (fun c => c.setCC o.cc.toNat (fun x => x + v)))
/-- ECNT_SET (R213): at issue. -/
def execEcntSet (o : EOp) (s : State) : Out :=
  guarded .e o.g s (fun s => let v := ecntSrc o s; s.upd (fun c => c.setCC o.cc.toNat (fun _ => v)))
/-- CLBAR (R217). -/
def execClbar (o : EOp) (s : State) : Out := ePlain (.clbar o) o .none s
/-- CHBAR (R217). -/
def execChbar (o : EOp) (s : State) : Out := ePlain (.chbar o) o .none s
/-- GBAR (R394). -/
def execGbar (o : EOp) (s : State) : Out := ePlain (.gbar o) o .none s

/-! ## Revisions (R271 to R275) -/

/-- FORK (R272). -/
def execFork (o : EOp) (s : State) : Out := ePlain (.fork o) o (.e o.ed) s
/-- SPAWN (R273). -/
def execSpawn (o : EOp) (s : State) : Out := ePlain (.spawn o) o (.e o.ed) s
/-- JOIN (R274). -/
def execJoin (o : EOp) (s : State) : Out := ePlain (.join o) o (.e o.ed) s
/-- REV_ST (R275). -/
def execRevSt (o : EOp) (s : State) : Out := ePlain (.revSt o) o (.e o.ed) s

/-! ## Flows and slack (R301, R302) -/

/-- The flow identifier of flow.mode. -/
def fmFlow (o : EOp) : Nat := (o.ext.imm.extractLsb' 0 8).toNat
/-- The chips flow.mode names. -/
def fmChips (o : EOp) (s : State) : List Nat :=
  if o.ext.imm.getLsbD 18 then (upTo (s.nchipsOf s.sel.who.chip)).map s.peer
  else [s.peer (o.ext.imm.extractLsb' 8 10).toNat]
/-- Faults of flow.mode. -/
def fmFault (o : EOp) (s : State) : Option TrapArgs :=
  let m := (o.ext.imm.extractLsb' 8 10).toNat
  if !o.ext.imm.getLsbD 18 && s.nchipsOf s.sel.who.chip ≤ m then some (s.rangeTrap 10 1 m) else none
/-- FLOW_MODE (R291, R301): the mode changes at issue, and an ordered flow's next packet starts it. -/
def execFlowMode (o : EOp) (s : State) : Out :=
  eIssue o false 0 0 (fmFault o) (fun s =>
    let k := s.mkECmd (.flowMode o) o
    let f := fmFlow o
    let ds := fmChips o s
    (sendE .none k s).upd (fun c =>
      { c with modes := ds.foldl (fun m d => m.set (d, f) (o.opt.setWidth 2)) c.modes,
               ords := c.ords.filter (fun q => !(q.2 = f && ds.contains q.1)) ++
                 (if o.opt.getLsbD 0 then ds.map (fun d => (d, f)) else []),
               flowWait := c.flowWait ++ [⟨k.id, k.po, f, ds, o.cc.toNat, k.inst, false⟩] })) s
/-- SLK (R302). -/
def execSlk (o : EOp) (s : State) : Out := ePlain (.slk o) o .none s

/-! ## Collectives and eager slots (R317, R322 to R324) -/

/-- The first fault of a byte range of the kernel space, by extents (R317, R362); absent pages are met later. A collective
does not reach an extent of revision kind (R259; DEDUCED, log 51). -/
def rangeFault (s : State) (slot a n : Nat) (r w : Bool) : Option TrapArgs :=
  if n = 0 then none
  else if 2 ^ 40 ≤ a then some (s.rangeTrap slot 3 a)
  else if 2 ^ 40 < a + n then some (s.rangeTrap slot 3 (2 ^ 40))
  else (extentsOf a n).findSome? (fun e =>
    let n := s.sel.who.chip
    let g := s.gctxOf n
    let bad := fun (y : XEntry) => y.kind = 0 || y.kind = 4 || (r && !y.r) || (w && !y.w)
    let x := s.xentry n g e
    let y := s.xentry (s.memberChip n g x.member) g (x.base % 4096)
    if bad x || (x.kind = 2 && (bad y || y.kind = 2 || y.kind = 3)) then some (s.rangeTrap slot 0 (max a (e * 2 ^ 28))) else none)
/-- The descriptor's address of coll. -/
def State.collAt (s : State) (o : EOp) : Nat := alignTo (s.eReg 0 o.ea).toNat 64
/-- Faults of coll (R317). -/
def collFault (o : EOp) (s : State) : Option TrapArgs :=
  let a := s.collAt o
  if s.cur.limit < a + 64 then some (s.rangeTrap 10 1 a)
  else
    let b := scratchRead s s.sel.who a 64
    let d := readCDesc b
    if cdescBad b (s.nchipsOf s.sel.who.chip) (s.memberOf s.sel.who.chip) then none
    else
      match rangeFault s 10 d.src (d.bytes d.slay) true false with
      | some f => some f
      | none => rangeFault s 10 d.dst (d.bytes d.dlay) false true
/-- The collective of a coll as issued: its descriptor is read at issue. -/
def newColl (o : EOp) (k : ECmd) (s : State) : Coll :=
  let b := scratchRead s s.sel.who (s.collAt o) 64
  { id := k.id, who := s.sel.who, gctx := s.gctxOf s.sel.who.chip, tag := (o.ext.imm.extractLsb' 0 16).toNat,
    member := s.memberOf s.sel.who.chip, cc := o.cc.toNat, ovt := k.ovt, desc := b,
    bad := cdescBad b (s.nchipsOf s.sel.who.chip) (s.memberOf s.sel.who.chip), phase := 0, cmd := k, status := 0, decision := none,
    ports := [], step := 0, sub := 0, chunks := 0, got := [], owed := 0, ins := [], outs := [], sends := [], tell := [], inBad := [], outBad := [], sick := [], taken := [], told := 0 }
/-- COLL (R317). -/
def execColl (o : EOp) (s : State) : Out :=
  eIssue o false 0 0 (collFault o) (fun s =>
    let k := s.mkECmd (.coll o) o
    let c := newColl o k s
    (sendE (.e o.ed) k (poolPoison s 10 (s.collAt o) 64)).updChip s.sel.who.chip (fun h => { h with colls := h.colls ++ [c] })) s

/-- The ring table of the kernel (R320). -/
def State.rings (s : State) (n : Nat) : List Ring := match s.kernel n with | some k => k.rings | none => []
/-- A ring the issuer holds the sender's or the receiver's side of. -/
def State.myRing (s : State) (n : Nat) (w : Who) (i : Nat) (rx : Bool) : Option Ring :=
  ((s.rings n)[i]?).filter (fun r =>
    if rx then r.rmem = s.memberOf n && r.rclus = w.clus && r.rcore = w.core && r.rctx = w.ctx
    else r.smem = s.memberOf n && r.sclus = w.clus && r.score = w.core && r.sctx = w.ctx)
/-- The ring a command names. -/
def ringOf (o : EOp) : Nat := (o.ext.imm.extractLsb' 0 5).toNat
/-- A ring that is absent or not the issuer's: the spec gives ADDR no value there (log 3). -/
def ringFault (o : EOp) (rx : Bool) (s : State) : Option TrapArgs :=
  if (s.myRing s.sel.who.chip s.sel.who (ringOf o) rx).isNone then
    some (s.rangeTrap 10 1 (Config.undef s.free 322).toNat)
  else none
/-- Faults of esend (R322). -/
def esendFault (o : EOp) (s : State) : Option TrapArgs :=
  match s.myRing s.sel.who.chip s.sel.who (ringOf o) false with
  | none => ringFault o false s
  | some r =>
    let a := alignTo (s.eReg 0 o.ea).toNat 64
    if s.cur.limit < a + r.slotsz * 64 then some (s.rangeTrap 10 1 a) else none
/-- The predicate esend writes. -/
def esendDest (o : EOp) : Dest := if o.opt.extractLsb' 0 3 = 0 then .none else .pa (o.opt.extractLsb' 0 3)
/-- ESEND (R322). -/
def execEsend (o : EOp) (s : State) : Out :=
  eIssue o false 0 0 (esendFault o) (fun s => sendE (esendDest o) (s.mkECmd (.esend o) o) s) s
/-- EREL (R323). -/
def execErel (o : EOp) (s : State) : Out :=
  eIssue o false 0 0 (ringFault o true) (fun s => sendE .none (s.mkECmd (.erel o) o) s) s
/-- EPROBE (R324). -/
def execEprobe (o : EOp) (s : State) : Out :=
  eIssue o false 0 0 (ringFault o (o.opt.getLsbD 0)) (fun s => sendE (.e o.ed) (s.mkECmd (.eprobe o) o) s) s

/-! ## Privileged commands (R368, R395, R413) -/

/-- XTLOAD_FULL (R368). -/
def execXtloadFull (o : EOp) (s : State) : Out := ePriv (.xtloadFull o) o 0x20 s
/-- XTLOAD_ENTRY (R368). -/
def execXtloadEntry (o : EOp) (s : State) : Out := ePriv (.xtloadEntry o) o 0x20 s
/-- XTLOAD_PAGE (R368). -/
def execXtloadPage (o : EOp) (s : State) : Out := ePriv (.xtloadPage o) o 0x20 s
/-- ALMW (R395). -/
def execAlmw (o : EOp) (s : State) : Out := ePriv (.almw o) o 0x22 s
/-- ALMW_LEN (R395). -/
def execAlmwLen (o : EOp) (s : State) : Out := ePriv (.almwLen o) o 0x22 s
/-- MIG_CTL_START (R413). -/
def execMigCtlStart (o : EOp) (s : State) : Out := ePriv (.migCtlStart o) o 0x23 s
/-- MIG_CTL_DONE (R413). -/
def execMigCtlDone (o : EOp) (s : State) : Out := ePriv (.migCtlDone o) o 0x23 s

end Sys2Proof.Machine
end

