-- ==== Sys2Proof/Machine/Csr.lean ====
section
/-! DEFINITION. Sys2Proof/Machine/Csr.lean: every control and status register: its value, and what a write stores
(spec/05 R131 to R133 and the chapter that defines each register). -/

namespace Sys2Proof.Machine

/-! ## Values -/

/-- Bits of a register. -/
def atBit (v lo : Nat) : Nat := v * 2 ^ lo
/-- A count that saturates at n bits. -/
def satN (v n : Nat) : Nat := min v (2 ^ n - 1)
/-- A Bool as a bit. -/
def bit (b : Bool) : Nat := if b then 1 else 0

/-- The tag a completed form gives an accumulator (R194, R197 to R201). -/
def formTag (i : Instr) : Option (Nat × BitVec 2) :=
  match i with
  | .mzero o => some (o.acc.toNat, 0)
  | .mma o => some (o.acc.toNat, if isFloatFmt o.fmt then 1 else 2)
  | .mter o => some (o.acc.toNat, 2)
  | .maccLd o => some (o.acc.toNat, if o.fmt = 0 then 1 else 2)
  | _ => none

/-- Tags as csrr finds them: a form in flight may show or not (R194, log 4). -/
def State.tagView (s : State) (c : CoreId) : Nat :=
  let k := s.core c
  let t := k.mq.foldl (fun (t : Vector (BitVec 2) 16) m =>
    match formTag m.op with
    | some (n, v) => if Config.pick s.free (41000 + m.id) then t.mapIdx (fun i x => if i = n then v else x) else t
    | none => t) k.accTag
  t.toList.foldr (fun v a => v.toNat + 4 * a) 0

/-- Valid lines of a chip's L2 that meet a test. -/
def State.l2Count (s : State) (n : Nat) (p : Way → Bool) : Nat :=
  ((s.chip n).l2.map (fun q => (q.2.filter (fun w => w.line.isSome && !w.stale && p w)).length)).foldl (· + ·) 0

/-- CAP_USED (R402): one past the highest frame in use. -/
def State.capUsed (s : State) (n : Nat) : Nat :=
  ((s.chip n).frames.foldl (fun a f => if f.2 = .free then a else max a (f.1 + 1)) 2) * 2 ^ 28
/-- CAP_LIVE (R403). -/
def State.capLive (s : State) (n : Nat) : Nat := capBytes (s.chip n).mig.count
/-- CAP_NEXT (R403). -/
def State.capNext (s : State) (n : Nat) : Nat :=
  let k := (s.chip n).mig.count
  if k ≤ 8 then 0 else capBytes (k - 1)
/-- Register 0x0A0 + i of Meridian (R403, R404). -/
def State.migReg (s : State) (n i : Nat) : Nat :=
  let m := (s.chip n).mig
  match i with
  | 0 => s.capLive n
  | 1 => s.capNext n
  | 2 => s.capUsed n
  | 3 => m.mask.toNat
  | 4 => m.phase.toNat
  | 5 => atBit (bit m.wmValid) 31 + m.wm
  | 6 => atBit (bit m.fw) 8 + atBit m.stack 4 + bit m.active
  | 7 => atBit m.last.toNat 32 + m.total.toNat
  | 8 => atBit m.replays.toNat 32 + m.stalls.toNat
  | _ => 0

/-- Slots of the ancestor pool in use (R264). -/
def Gang.used (g : Gang) : Nat := g.slots.length
/-- OCC.COUNT (R246). -/
def State.occCount (s : State) (w : Who) : Nat := s.l2Count w.chip (fun y => y.filler = some (s.gctxOf w.chip, w))
/-- RETWn of the tenant whose kernel runs on the context's chip (R245). -/
def State.retwReg (s : State) (w : Who) (n : Nat) : Nat :=
  let v := s.vf w.chip
  atBit (satN (s.l2Count w.chip (fun y => y.pin = some (v, n))) 32) 16 + (s.chip w.chip).retw.get (v, n) 0

/-- SEG_STAT (R342). -/
def Ctx.segStat (c : Ctx) : Nat :=
  atBit c.csr.segRewinds.toNat 48 + atBit c.csr.segPrewinds.toNat 40 + atBit (if c.inSeg then c.segIssues else 0) 16 +
    atBit c.csr.segLcause.toNat 8 + atBit (bit c.csr.segRabt) 4 + atBit (bit !c.holds.isEmpty) 3 +
    atBit (bit (c.inSeg && c.segSafe)) 2 + atBit (bit (c.inSeg && c.segRetry)) 1 + bit c.inSeg
/-- GANG_STAT (R385). -/
def Gang.stat (g : Gang) : Nat :=
  atBit g.commits.toNat 48 + atBit g.aborts.toNat 32 + atBit g.halts.toNat 16 + atBit g.lreason.toNat 12 + g.lout.toNat
/-- SPILL_STAT (R389): the fields of the core. -/
def State.spillStat (s : State) (w : Who) : Nat :=
  let k := s.core w.coreId
  let cyc := ((upTo 4).map (fun i => (s.ctx { w with ctx := i }).fcyc)).foldl (· + ·) 0
  atBit (satN (cyc / 64) 16) 32 + atBit k.fills.toNat 16 + k.spills.toNat
/-- TRAP_CAUSE (R35). -/
def TrapRec.cause (r : TrapRec) : Nat :=
  atBit (bit r.valid) 31 + atBit (bit r.retry) 30 + atBit r.reason.toNat 19 + atBit r.slots.toNat 8 + r.code.toNat

/-- The value of a register that a csrr at issue finds, before results in flight to it (R132). -/
def State.csrValue (s : State) (w : Who) (n : Nat) : Nat :=
  let c := s.ctx w
  let k := c.csr
  let g := s.rgang w.chip
  if 0x050 ≤ n ∧ n < 0x060 then (k.ccnt.toList.getD (n - 0x050) 0).toNat
  else if 0x060 ≤ n ∧ n < 0x070 then (k.winBind.toList.getD (n - 0x060) 0).toNat
  else if 0x070 ≤ n ∧ n < 0x078 then s.retwReg w (n - 0x070)
  else if 0x080 ≤ n ∧ n < 0x090 then
    atBit (k.winMax.toList.getD (n - 0x080) 0).toNat 16 + (k.winAvail.toList.getD (n - 0x080) 0).toNat
  else if 0x0A0 ≤ n then s.migReg w.chip (n - 0x0A0)
  else
    match n with
    | 0x000 => (readFlags c (s.clkOf w) s.free).toNat
    | 0x001 => k.ovt.toNat
    | 0x002 => k.slackDef.toNat
    | 0x003 => k.aliasDef.toNat
    | 0x004 => atBit (bit k.pmode) 1 + bit k.mode
    | 0x005 => c.trap.pc.toNat
    | 0x006 => c.trap.cause
    | 0x007 => c.trap.info.toNat
    | 0x008 => k.tvec.toNat
    | 0x020 => s.clkOf w - (s.chip w.chip).cycFrom
    | 0x040 => k.pinShort.toNat
    | 0x041 => s.tagView w.coreId
    | 0x042 => atBit k.mchkFrow.toNat 32 + atBit k.mchkUnchk.toNat 16 + k.mchkN.toNat
    | 0x043 => k.engStat.toNat
    | 0x044 => k.ctxHdl.toNat
    | 0x045 => k.ovfBase.toNat
    | 0x046 => k.ovfQuota.toNat
    | 0x047 => atBit k.ovfHwm.toNat 32 + atBit k.ovfSpills.toNat 16 + c.ringUsed
    | 0x048 => atBit k.occLimit.toNat 32 + satN (s.occCount w) 32
    | 0x04A => atBit k.poolLimit.toNat 32 + atBit k.poolAccs.toNat 8 + k.poolTiles.toNat
    | 0x04B => atBit k.memClamps.toNat 32 + bit k.scopeClamp
    | 0x04C => k.revCur.toNat
    | 0x04D => atBit g.ancSlots 32 + g.used
    | 0x04E => g.ancBase
    | 0x04F => atBit g.revs.length 32 + g.ancHwm
    | 0x078 => k.slackCtl.toNat
    | 0x079 => k.slackExh.toNat
    | 0x07A => k.flowCur.toNat
    | 0x090 => atBit k.collWovf.toNat 32 + atBit k.collBusy.toNat 16 + k.collDone.toNat
    | 0x091 => atBit (bit k.eagerOvrel) 32 + k.eagerNoslot.toNat
    | 0x092 => c.segStat
    | 0x093 => atBit k.segEntry.toNat 32 + atBit k.segGroup.toNat 24 + k.segWrid.toNat
    | 0x094 => g.stat
    | 0x095 => s.spillStat w
    | _ => 0

/-- The destination a write of a register lands in: loop counters have one of their own. -/
def csrDest (n : BitVec 12) : Dest :=
  if 0x010 ≤ n.toNat ∧ n.toNat < 0x016 then .lc (BitVec.ofNat 3 (n.toNat - 0x010))
  else if 0x018 ≤ n.toNat ∧ n.toNat < 0x01B then .rb (BitVec.ofNat 2 (n.toNat - 0x018))
  else .csr n

/-- What csrr reads (R132): undefined while a write of the register is within its bound (R133). -/
def State.csrRead (s : State) (n : BitVec 12) : BitVec 64 :=
  match csrDest n with
  | .csr n =>
    let v := (BitVec.ofNat 64 (s.csrValue s.sel.who n.toNat)).setWidth 4096
    let inFlight := s.cur.flight.any (fun l => l.dest = .csr n && l.issued < s.t && s.t < l.bound)
    (if inFlight then Config.undef s.free (0x51000 + n.toNat) else v).setWidth 64
  | d => (readView s.cur s.t s.free (0x51000 + n.toNat) d).setWidth 64

/-! ## Access (R55, R131, R132) -/

/-- Registers that only supervisor mode reads. -/
def csrSuperRead (n : BitVec 12) : Bool := n = 0x008
/-- Registers that only supervisor mode writes, as a whole or in one field (R55). -/
def csrSuperWrite (n : BitVec 12) : Bool :=
  let k := n.toNat
  (0x004 ≤ k && k ≤ 0x008) || k = 0x045 || k = 0x046 || k = 0x048 || k = 0x04D || k = 0x04E || (0x070 ≤ k && k < 0x078) ||
    (0x080 ≤ k && k < 0x090)

/-! ## Writes that land (R4, R132, R133) -/

/-- Ways chosen to keep pinned: the lowest-numbered up to a count stay pinned under a register (R245). -/
def unpinSurplus (owner : Nat × Nat) (keep : Nat) : List Way → Nat → List Way
  | [], _ => []
  | w :: r, n =>
    if w.pin = some owner then
      (if n < keep then w else { w with pin := none }) :: unpinSurplus owner keep r (n + 1)
    else w :: unpinSurplus owner keep r n
/-- A write of RETWn.WAYS of a tenant on a chip (R245). -/
def setWays (s : State) (chip vf n v : Nat) : State :=
  let c := s.chip chip
  let others := (c.retw.filter (fun q => q.1 ≠ (vf, n))).foldl (fun a q => a + q.2) 0
  let w := min (min (v % 16) 8) (8 - others)
  s.updChip chip (fun c => { c with retw := c.retw.set (vf, n) w,
                                    l2 := c.l2.map (fun q => (q.1, unpinSurplus (vf, n) w q.2 0)) })
/-- Window stores of a context to a window that are outstanding. -/
def State.windowOwed (s : State) (w : Who) (n : Nat) : Nat := (s.flights.filter (fun p => p.who = w ∧ p.win = some n)).length
/-- A write of WIN_ALLOWn.MAX (R297). -/
def setAllow (s : State) (w : Who) (n v : Nat) : State :=
  let m := max 1 (min 1024 (natFld v 16 16))
  let out := s.windowOwed w n
  s.updCtx w (fun c => { c with csr := { c.csr with
    winMax := c.csr.winMax.mapIdx (fun i x => if i = n then BitVec.ofNat 16 m else x),
    winAvail := c.csr.winAvail.mapIdx (fun i x => if i = n then BitVec.ofNat 16 (m - out) else x) } })
/-- A write of ANC_POOL.SLOTS (R264). -/
def setAncSlots (s : State) (chip v : Nat) : State :=
  s.updRgang chip (fun g => { g with ancSlots := max (natFld v 32 32) g.used })
/-- A write of ANC_BASE.ADDR (R264). -/
def setAncBase (s : State) (chip v : Nat) : State :=
  s.updRgang chip (fun g => if g.used = 0 then { g with ancBase := natFld v 8 32 * 256 } else g)

/-- What a window binding stores of a value: its reserved bits stay 0 (R3, R242). -/
def winBindStore (v : BitVec 64) : BitVec 64 := v &&& 0x800000000003FFFF#64

/-- The registers of a context as a landed write leaves them, under their access codes. DESIGN CHOICE (log 4): a csrw of a register
of the trap record that is in flight as a trap writes the record lands after it, on the record. -/
def Ctx.csrStore (c : Ctx) (n : Nat) (v : BitVec 64) : Ctx :=
  let k := c.csr
  match n with
  | 0x000 => { c with csr := { k with flags := k.flags &&& ~~~(v.setWidth 7) } }
  | 0x002 => { c with csr := { k with slackDef := v.setWidth 12 } }
  | 0x003 => { c with csr := { k with aliasDef := v.setWidth 4 } }
  | 0x004 => { c with csr := { k with pmode := v.getLsbD 1 } }
  | 0x005 => { c with trap := { c.trap with pc := v } }
  | 0x006 => { c with trap := { c.trap with valid := c.trap.valid && !v.getLsbD 31 } }
  | 0x007 => { c with trap := { c.trap with info := v } }
  | 0x008 => { c with csr := { k with tvec := v &&& ~~~2#64 } }
  | 0x043 => { c with csr := { k with engStat := k.engStat &&& ~~~(v.setWidth 3) } }
  | 0x044 => { c with csr := { k with ctxHdl := v } }
  | 0x045 => { c with csr := { k with ovfBase := v &&& ~~~0x3F#64 } }
  | 0x046 => { c with csr := { k with ovfQuota := v.setWidth 16 } }
  | 0x048 => { c with csr := { k with occLimit := (v >>> 32).setWidth 32 } }
  | 0x04B => { c with csr := { k with scopeClamp := k.scopeClamp && !v.getLsbD 0 } }
  | 0x078 => { c with csr := { k with slackCtl := v.setWidth 9 } }
  | 0x07A => { c with csr := { k with flowCur := v.setWidth 8 } }
  | 0x091 => { c with csr := { k with eagerOvrel := k.eagerOvrel && !v.getLsbD 32 } }
  | 0x092 => { c with csr := { k with segRabt := k.segRabt && !v.getLsbD 4 } }
  | _ => c

/-- A write of a register lands: those of a window, a retention register and the ancestor pool reach beyond it. -/
def csrLand (s : State) (w : Who) (n : BitVec 12) (v : BitVec 64) : State :=
  let k := n.toNat
  if 0x070 ≤ k ∧ k < 0x078 then setWays s w.chip (s.vf w.chip) (k - 0x070) v.toNat
  else if 0x080 ≤ k ∧ k < 0x090 then setAllow s w (k - 0x080) v.toNat
  else if k = 0x04D then setAncSlots s w.chip v.toNat
  else if k = 0x04E then setAncBase s w.chip v.toNat
  else s.updCtx w (fun c => c.csrStore k v)

end Sys2Proof.Machine
end

