-- ==== Sys2Proof/Machine/L2.lean ====
section
/-! DEFINITION. Sys2Proof/Machine/L2.lean: the home slices and their ways, the stack map, and the bytes of this chip's memory
as a home slice holds them (spec/10 R243 to R247, spec/21 R399 to R409). -/

namespace Sys2Proof.Machine

/-! ## The home slice and the stack map (R243, R399 to R401) -/

/-- The home slice of a DPA (R243). -/
def sliceOf (a : Nat) : Nat := natFld a 7 7 ^^^ natFld a 14 7 ^^^ natFld a 21 7 ^^^ natFld a 28 7 ^^^ natFld a 35 5
/-- The set of a DPA (R243). -/
def setOf (a : Nat) : Nat := natFld a 14 10
/-- The period of a DPA (R399). -/
def periodOf (a : Nat) : Nat := a / 4096 / 3960
/-- The stacks of a mask, lowest first. -/
def stacksOf (mask : BitVec 12) : List Nat := (upTo 12).filter (fun i => mask.getLsbD i)
/-- The stack of a DPA under a mask (R400). -/
def stackOf (mask : BitVec 12) (a : Nat) : Nat :=
  let l := stacksOf mask
  l.getD (a / 4096 % 3960 % l.length) 0
/-- Where a mask places a DPA within its stack (R400): the granule's index there, its channel of 16, its row, and the byte within the
channel. -/
def granuleOf (mask : BitVec 12) (a : Nat) : Nat :=
  let n := (stacksOf mask).length
  periodOf a * (3960 / n) + a / 4096 % 3960 / n
def channelOf (mask : BitVec 12) (a : Nat) : Nat := granuleOf mask a % 16
def rowOf (mask : BitVec 12) (a : Nat) : Nat := granuleOf mask a / 16
def channelByte (mask : BitVec 12) (a : Nat) : Nat := rowOf mask a * 4096 + a % 4096
/-- Bytes of a period. -/
def periodBytes : Nat := 3960 * 4096
/-- The mask without the stack being retired. -/
def Mig.newMask (m : Mig) : BitVec 12 := m.mask &&& ~~~(1#12 <<< m.stack)
/-- A period is placed under the new map (R409). -/
def Mig.placedNew (m : Mig) (per : Nat) : Bool := m.active && m.wm < per
/-- The map of a DPA as the current state gives it. -/
def Mig.maskAt (m : Mig) (a : Nat) : BitVec 12 := if m.placedNew (periodOf a) then m.newMask else m.mask

/-! ## Ways (R244 to R247) -/

/-- An empty way. -/
def Way.empty : Way := { line := none, stale := false, dirty := false, pin := none, ef := false, filler := none, used := 0 }
/-- The way holds a line with its data. -/
def Way.valid (w : Way) : Bool := w.line.isSome && !w.stale
/-- The ways of a set. -/
def Chip.setWays (c : Chip) (a : Nat) : List Way := c.l2.get (sliceOf a, setOf a) (List.replicate 16 Way.empty)
/-- The ways of a set replaced. -/
def Chip.putWays (c : Chip) (a : Nat) (l : List Way) : Chip := { c with l2 := c.l2.set (sliceOf a, setOf a) l }
/-- The way that holds a line. -/
def Chip.hit (c : Chip) (a : Nat) : Option Nat := firstIdx (fun w => w.valid && w.line = some (a / 128)) (c.setWays a)
/-- The least recently used of the ways that meet a test; way 15 stages while a retirement is active (R407). -/
def lruWay (l : List Way) (staging : Bool) (p : Way → Bool) : Option Nat :=
  ((l.zipIdx).foldl (fun (b : Option (Nat × Nat)) q =>
    if p q.1 && !(staging && q.2 = 15) then
      (match b with | some (u, _) => if q.1.used < u then some (q.1.used, q.2) else b | none => some (q.1.used, q.2))
    else b) none).map (·.2)
/-- The way to fill on a miss: the pinned way that l2inv left for the line (R185), else by R247. -/
def State.victim (s : State) (n : Nat) (a : Nat) (w : Who) : Option Nat :=
  let c := s.chip n
  let l := c.setWays a
  let st := c.mig.active
  let past := decide ((s.ctx w).csr.occLimit.toNat < s.occCount w)
  match firstIdx (fun w => w.stale && w.pin.isSome && w.line = some (a / 128)) l with
  | some i => some i
  | none =>
    match firstIdx (fun (q : Way × Nat) => !q.1.valid && q.1.pin.isNone && !(st && q.2 = 15)) l.zipIdx with
    | some i => some i
    | none =>
      match lruWay l st (fun y => y.pin.isNone && y.ef) with
      | some i => some i
      | none =>
        match (if past then lruWay l st (fun y => y.pin.isNone && y.filler = some (s.gctxOf n, w)) else none) with
        | some i => some i
        | none => lruWay l st (fun y => y.pin.isNone)
/-- A line touched or filled at its home slice (R246, R247): whether it was there. A way that l2inv emptied keeps its pin as
it refills (R185). -/
def touchLine (s : State) (n a : Nat) (w : Who) (ef wr : Bool) : State × Bool :=
  let c := s.chip n
  let l := c.setWays a
  let t := c.l2tick + 1
  match c.hit a with
  | some i =>
    let y := l.getD i Way.empty
    (s.updChip n (fun c => { c.putWays a (l.set i { y with used := t, ef := y.ef && ef, dirty := y.dirty || wr,
                                                           filler := if y.filler.isNone then some (s.gctxOf n, w) else y.filler }) with l2tick := t }), true)
  | none =>
    match s.victim n a w with
    | some i =>
      let y := l.getD i Way.empty
      (s.updChip n (fun c => { c.putWays a (l.set i { line := some (a / 128), stale := false, dirty := wr, pin := if y.stale then y.pin else none,
                                                      ef := ef, filler := some (s.gctxOf n, w), used := t }) with l2tick := t }), false)
    | none => (s, false)
/-- A 32-bit counter that saturates, incremented. -/
def inc32 (v : BitVec 32) : BitVec 32 := if v = 0xFFFFFFFF then v else v + 1

/-! ## Requests to the memory controllers (R409, R410) -/

/-- The stage at which a request leaves the slice for memory (R409): held for the period being moved, else sent with its
tags. -/
def mcStage (m : Mig) (a : Nat) : Stage :=
  if m.active ∧ m.wmValid ∧ m.wm = periodOf a then .wmHold else .mc (m.phase.toNat % 256) (m.maskAt a)
/-- A request that is held at its slice for the watermark is counted (R409). -/
def countHeld (s : State) (n : Nat) (st : Stage) : State :=
  if st = .wmHold then s.updChip n (fun c => { c with mig := { c.mig with stalls := inc32 c.mig.stalls } }) else s
/-- The dirty line of a way, and the gang context that filled it; 256 for none. -/
def Way.dirtyLine (w : Way) : Option (Nat × Nat) :=
  if w.valid && w.dirty then w.line.map (fun l => (l * 128, ((w.filler.map (·.1)).getD 256))) else none
/-- The dirty victim of a fill (R247). -/
def State.dirtyOut (s : State) (n a : Nat) (w : Who) : Option (Nat × Nat) :=
  if ((s.chip n).hit a).isSome then none else (s.victim n a w).bind (fun i => (((s.chip n).setWays a).getD i Way.empty).dirtyLine)
/-- A request of a chip's own: SLACK 4,095, SUB 0, CRIT 0 (R410; for the units' fills DESIGN CHOICE, log 45). -/
def ownPkt (n : Nat) : Pkt :=
  { id := 0, who := ⟨n, 32, 0, 0⟩, gctx := 256, slot := 10, op := .writeBack 256, va := 0, ea := 0, target := .unit, dst := n, po := 0,
    ac := 0, ord := 0, scope := 0, ef := false, reach := 5, flow := 0, seq := 0, ordf := false, ords := false, crit := false,
    slack := 4095, sub := 0, exh := false, exq := false, evcc := 0, rallow := 0, stage := .router, since := 0, born := 0, port := 0,
    via := none, resv := false, inst := 0, rev := 0, result := [], rflags := 0, poison := false, fault := 0, performed := false,
    pieces := [], told := 0, win := none, xfer := 0, dropLanding := false, again := false }
/-- The writeback of a line, with the extension of the fill whose victim it is (R410). -/
def Pkt.backOf (x : Pkt) (id n now g a : Nat) (st : Stage) : Pkt :=
  { ownPkt n with id := id, op := .writeBack g, va := a, ea := a, target := .dpa a, crit := x.crit, slack := x.slack, sub := x.sub, exh := x.exh,
                  stage := st, since := now }
/-- A line goes to the writeback buffer of its slice and from there to memory (R247, R409, R410). -/
def writeBack (s : State) (n : Nat) (x : Pkt) (o : Option (Nat × Nat)) : State :=
  match o with
  | none => s
  | some (a, g) =>
    let st := mcStage (s.chip n).mig a
    countHeld { s.fresh with pkts := s.pkts ++ [x.backOf s.nextId n s.now g a st] } n st
/-- A writeback. -/
def Pkt.isWriteBack (p : Pkt) : Bool := match p.op with | .writeBack _ => true | _ => false
/-- A line is in the writeback buffer of its slice and not in the L2 (R410). -/
def State.buffers (s : State) (n a : Nat) : Bool :=
  ((s.chip n).hit a).isNone && s.pkts.any (fun q => q.isWriteBack && q.dst = n && q.va / 128 = a / 128)
/-- A line touched or filled at its home slice, with the writeback of its victim. -/
def fillIn (s : State) (n a : Nat) (w : Who) (ef wr : Bool) (x : Pkt) : State × Bool :=
  let q := touchLine s n a w ef wr
  (writeBack q.1 n x (s.dirtyOut n a w), q.2)
/-- A line that cannot be corrected is delivered poisoned and counted in its stack's UE count, and one that memory holds
poisoned is delivered so (R244, R408). -/
def fillLine (s : State) (n a : Nat) : State :=
  let k := hbmKey n (a / 128 * 128)
  if s.uncorr.contains k then
    let st := stackOf ((s.chip n).mig.maskAt a) a
    (s.setPoison k 128).updChip n (fun c => { c with mig := { c.mig with ue := c.mig.ue.set st (inc32 (c.mig.ue.get st 0)) } })
  else if s.sunk.contains k then { s.setPoison k 128 with sunk := s.sunk.filter (fun u => u ≠ k) }
  else s
/-- A line of memory can no longer be corrected. -/
def State.lineFails (s : State) (n a : Nat) : State :=
  let k := hbmKey n (a / 128 * 128)
  if s.uncorr.contains k then s else { s with uncorr := k :: s.uncorr, sunk := s.sunk.filter (fun u => u ≠ k) }
/-- The lines of 128 bytes that a range overlaps, by address. -/
def linesOver (a n : Nat) : List Nat :=
  if n = 0 then [] else (upTo ((a + n - 1) / 128 + 1 - a / 128)).map (fun i => (a / 128 + i) * 128)
/-- A line that a unit of the chip reads or writes at its home slice for a gang context: served from the writeback buffer, or
touched, and filled when it was not there (R244, R410). -/
def homeLine (n g : Nat) (w : Who) (wr : Bool) (s : State) (a : Nat) : State :=
  if s.buffers n a then s
  else
    let q := fillIn s n a w false wr (ownPkt n)
    if q.2 then q.1
    else fillLine (q.1.updGang n g (fun k => { k with hbmBytes := k.hbmBytes + 128 })) n a
/-- A range of a chip's memory is delivered with poison: a byte is poisoned, or a line that is not in the L2 cannot be corrected or
is poisoned in memory (R244). -/
def State.badAt (s : State) (n a len : Nat) : Bool :=
  s.poisoned (hbmKey n a) len ||
    (linesOver a len).any (fun d => ((s.chip n).hit d).isNone && !s.buffers n d && (s.uncorr.contains (hbmKey n d) || s.sunk.contains (hbmKey n d)))
/-- The period of a DPA is at the watermark of a retirement: a slice holds a request for it (R409). -/
def Mig.holds (m : Mig) (a : Nat) : Bool := m.active && m.wmValid && m.wm = periodOf a
/-- Lines of a range of DPAs in the period at the watermark of a retirement. -/
def Mig.linesIn (m : Mig) (a len : Nat) : List Nat :=
  let lo := max a (m.wm * periodBytes)
  if m.active && m.wmValid then linesOver lo (min (a + len) ((m.wm + 1) * periodBytes) - lo) else []
/-- Lines, by chip and DPA, whose requests to memory a slice would hold: not in the L2 and not in the writeback buffer. -/
def State.unitHeld (s : State) (l : List (Nat × Nat)) : List (Nat × Nat) :=
  l.filter (fun q => (s.chip q.1).mig.holds q.2 && ((s.chip q.1).hit q.2).isNone && !s.buffers q.1 q.2)
/-- A line whose request is held is counted once (R409). -/
def noteHeld (s : State) (q : Nat × Nat) : State :=
  s.updChip q.1 (fun c =>
    if c.mig.held.contains (q.2 / 128) then c
    else { c with mig := { c.mig with held := q.2 / 128 :: c.mig.held, stalls := inc32 c.mig.stalls } })
/-- What a unit of the chip does at lines: it waits while one of them has to come from, or go to, the period at the watermark;
else its requests are placed, sent and accepted within its step, under the map as it stands then (R409; DESIGN CHOICE, log
45). -/
def unitGate (s : State) (l : List (Nat × Nat)) (go : Out) : Out :=
  let h := s.unitHeld l
  if h.isEmpty then go
  else if h.all (fun q => (s.chip q.1).mig.held.contains (q.2 / 128)) then .fault .notEnabled
  else .next (h.foldl noteHeld s)
/-- Every line of a range read or written at its home slice. -/
def State.homeLines (s : State) (n g : Nat) (w : Who) (wr : Bool) (a len : Nat) : State :=
  (linesOver a len).foldl (homeLine n g w wr) s

/-! ## Bytes and their poison (R244) -/

/-- Bytes written to a chip's memory: a line stays poisoned until a write covers all of it. -/
def hbmWrite (s : State) (k : Nat) (b : List Byte) : State :=
  let covered := fun (p : Nat) => decide (k ≤ p / 128 * 128) && decide (p / 128 * 128 + 128 ≤ k + b.length)
  { s.poke k b with poison := s.poison.filter (fun p => !covered p), uncorr := s.uncorr.filter (fun u => !covered u),
                    sunk := s.sunk.filter (fun u => !covered u) }
/-- Poison over the marked bytes from a key. -/
def State.poisonAt (s : State) (k : Nat) (m : List Bool) : State :=
  (m.zipIdx).foldl (fun s q => if q.1 then s.setPoison (k + q.2) 1 else s) s
/-- Which of n bytes from a key are poisoned. -/
def State.poisonOf (s : State) (k n : Nat) : List Bool := (upTo n).map (fun i => s.poison.contains (k + i))

end Sys2Proof.Machine
end

