-- ==== Sys2Proof/Machine/Fetch.lean ====
section
/-! DEFINITION. Sys2Proof/Machine/Fetch.lean: where a byte of the kernel space lies (spec/11 R262, R263, spec/18 R362), and
the fetch of a bundle (spec/01 R21, R22, spec/18 R363). -/

namespace Sys2Proof.Machine

/-! ## Where a virtual byte lies -/

/-- The slot that holds a revision's own copy of a granule (R263). -/
def Gang.ownSlot (g : Gang) (rev gran : Nat) : Option SlotUse :=
  g.slots.find? (fun u => u.gran = gran && u.rev = rev && u.serves.isEmpty)
/-- The slot that preserves a granule as it was when a child was forked. -/
def Gang.ancSlot (g : Gang) (rev gran : Nat) : Option SlotUse :=
  g.slots.find? (fun u => u.gran = gran && u.serves.contains rev)
/-- The parent of a live child. -/
def Gang.parentOf (g : Gang) (rev : Nat) : Nat := ((g.revs.find? (fun v => v.num = rev)).map (·.parent)).getD 0
/-- The virtual address at which a revision's current contents of a byte lie: its own slot, the copy that preserves its
ancestor, or the parent's current contents; depth is at most 8 (R260, R262). -/
def Gang.revVa (g : Gang) : Nat → Nat → Nat → Nat
  | 0, _, va => va
  | f + 1, rev, va =>
    if rev = 0 then va
    else
      match g.ownSlot rev (va / 256) with
      | some u => g.ancBase + u.slot * 256 + va % 256
      | none =>
        match g.ancSlot rev (va / 256) with
        | some u => g.ancBase + u.slot * 256 + va % 256
        | none => g.revVa f (g.parentOf rev) va

/-- The DPA of a virtual byte whose entry is of local or revision kind, in a revision. -/
def State.dpaOf (s : State) (n g rev va : Nat) : Nat :=
  let e := s.xentry n g (va / 2 ^ 28 % 4096)
  let va' := if e.kind = 4 then (s.gang n g).revVa 10 rev va else va
  (s.xentry n g (va' / 2 ^ 28 % 4096)).base + va' % 2 ^ 28
/-- The key of a virtual byte, through a peer's table where the entry names one. -/
def State.vaKey (s : State) (n g rev va : Nat) : Nat :=
  match s.lookup n g va false false false with
  | .dpa _ _ => hbmKey n (s.dpaOf n g rev va)
  | .host p a => hostKey n p a
  | .peer m va' => let t := s.memberChip n g m; hbmKey t (s.dpaOf t g 0 va')
  | _ => hbmKey n 0

/-! ## Fetch -/

/-- A lookup at the target of a peer-chip request: its entry must be of local or revision kind (R362). -/
def State.peerLookup (s : State) (t g va : Nat) (r w x : Bool) : XRes :=
  let e := s.xentry t g (va / 2 ^ 28 % 4096)
  if e.kind = 1 ∨ e.kind = 4 then s.lookup t g va r w x else .range
/-- The fault of fetching at an address (R113, R363): SLOT 11. A fetch is no form that reaches a revision region (R259). -/
def State.fetchFault (s : State) (va : Nat) : Option TrapArgs :=
  match s.xlatFault 11 va false false true with
  | some f => some f
  | none =>
    let n := s.sel.who.chip
    let g := s.gctxOf n
    match s.lookup n g va false false true with
    | .dpa _ true => some (s.rangeTrap 11 0 va)
    | .peer m va' =>
      let t := s.memberChip n g m
      (match s.peerLookup t g va' false false true with
       | .dpa _ false => none
       | .absent e p => some (s.issueTrap 0x08 (memInfo 11 0 va) (.absent t e p))
       | .cap => some (s.issueTrap 0x0C (memInfo 11 0 va) .none)
       | _ => some (s.rangeTrap 11 0 va))
    | _ => none
/-- The syllable at an address. -/
def State.sylAt (s : State) (w : Who) (va : Nat) : Syl :=
  BitVec.ofNat 32 (ofBytes (s.peek (s.vaKey w.chip (s.gctxOf w.chip) (s.ctx w).rev (va % 2 ^ 40)) 4))

/-- A slot's syllable group. -/
structure Group where
  slot : Slot
  w : Syl
  x : Option Syl
  deriving DecidableEq, Repr

/-- A bundle as fetched: header, SIGV, rendezvous syllable, groups, and its length in syllables. -/
structure Raw where
  hdr : Syl
  sigv : Option Syl
  rdv : Option Syl
  groups : List Group
  len : Nat
  deriving DecidableEq, Repr

/-- The slots in index order. -/
def allSlots : List Slot := [.s0, .s1, .v0, .v1, .v2, .f, .d0, .d1, .m, .k, .e]
/-- PRESENT of a header. -/
def presentBit (h : Syl) (sl : Slot) : Bool := h.getLsbD sl.index
/-- HOLD of a header. -/
def holdBit (h : Syl) (sl : Slot) : Bool := h.getLsbD (11 + sl.index)

/-- Read the groups of the present slots, from a syllable position on; F never takes a second syllable (R22). -/
def readGroups (rd : Nat → Syl) (h : Syl) : List Slot → Nat → List Group × Nat
  | [], i => ([], i)
  | sl :: r, i =>
    if presentBit h sl then
      let two := lBit (rd i) && sl ≠ .f
      let q := readGroups rd h r (if two then i + 2 else i + 1)
      (⟨sl, rd i, if two then some (rd (i + 1)) else none⟩ :: q.1, q.2)
    else readGroups rd h r i

/-- Read a bundle (R21, R22). -/
def readRaw (rd : Nat → Syl) : Raw :=
  let h := rd 0
  let sg := h.getLsbD 28
  let i1 := if sg then 2 else 1
  let rv := h.getLsbD 30
  let i2 := if rv then i1 + 1 else i1
  let q := readGroups rd h allSlots i2
  { hdr := h, sigv := if sg then some (rd 1) else none, rdv := if rv then some (rd i1) else none, groups := q.1, len := q.2 }

/-- The bundle of a context at an address. -/
def State.rawAt (s : State) (w : Who) (pc : Nat) : Raw := readRaw (fun i => s.sylAt w (pc + 4 * i))
/-- Where the lines of a bundle lie: chip and DPA. -/
def State.fetchAt (s : State) (pc len : Nat) : List (Nat × Nat) :=
  let w := s.sel.who
  let n := w.chip
  let g := s.gctxOf n
  (linesOver pc (4 * len)).filterMap (fun a =>
    match s.lookup n g a false false true with
    | .dpa _ _ => some (n, s.dpaOf n g (s.ctx w).rev a)
    | .peer m va' => some (s.memberChip n g m, s.dpaOf (s.memberChip n g m) g 0 va')
    | _ => none)
/-- The lines of a bundle are read at their home slices, of this chip or of a peer (R244). -/
def State.fetchLines (s : State) (pc len : Nat) : State :=
  (s.fetchAt pc len).foldl (fun t q => homeLine q.1 (s.gctxOf s.sel.who.chip) s.sel.who false t q.2) s
/-- A bundle of which a byte is poisoned: no data of a line is delivered without its poison, and its fetch raises POISON, as a
fault found at the bundle (R244; DESIGN CHOICE, log 43: SLOT 11, KIND 0). -/
def State.fetchPoison (s : State) (pc len : Nat) : Option TrapArgs :=
  (((upTo len).map (fun i => pc + 4 * i)).find? (fun va =>
    s.poisoned (s.vaKey s.sel.who.chip (s.gctxOf s.sel.who.chip) (s.ctx s.sel.who).rev (va % 2 ^ 40)) 4)).map
    (fun va => s.issueTrap 0x05 (memInfo 11 0 va) .none)
/-- The first fault of fetching a bundle. -/
def State.bundleFault (s : State) (pc : Nat) : Option TrapArgs :=
  (upTo (s.rawAt s.sel.who pc).len).findSome? (fun i => s.fetchFault (pc + 4 * i))

end Sys2Proof.Machine
end

