-- ==== Sys2Proof/Machine/Control.lean ====
section
/-! DEFINITION. Sys2Proof/Machine/Control.lean: the control, loop, stop, trap and system forms of S0 and S1 (spec/05 R112
to R135). -/

namespace Sys2Proof.Machine

/-! ## Control transfers (R113 to R115) -/

/-- The target of an offset in 4-byte units from the bundle's own address. -/
def State.offTarget (s : State) (off : Int) : BitVec 64 := s.cur.pc + BitVec.ofInt 64 (off * 4)
/-- A sign-extended offset field. -/
def offOf {n : Nat} (i : Imm n) : Int := match i with | .short v => v.toInt | .long v => v.toInt
/-- The next bundle is a target, by a taken transfer (R27, R28). -/
def jump (t : BitVec 64) (s : State) : State := s.upd (fun c => { c with next := some (t, false) })
/-- A register target ignores its low two bits. -/
def regTarget (v : BitVec 64) : BitVec 64 := (v >>> 2) <<< 2

/-- BR (R114). -/
def execBr (o : SB) (s : State) : Out :=
  guarded o.slot.slot o.g s (fun s => jump (s.offTarget (offOf o.off)) s)
/-- BC (R114): taken when the named predicate xor PINV is 1. -/
def execBc (o : SBC) (s : State) : Out :=
  guarded o.slot.slot o.g s (fun s =>
    if (s.rd o.slot.slot 0 (sPred o.slot o.p)).getLsbD 0 != o.pinv then jump (s.offTarget (offOf o.off)) s else s)
/-- Earlier results of a register that are in flight land by a cycle: a31 is defined at the target of a call (R30, R114). -/
def landBy (d : Dest) (t : Nat) (c : Ctx) : Ctx :=
  { c with flight := c.flight.map (fun l => if l.dest = d then { l with bound := min l.bound t } else l) }
/-- CALL (R114): a31 holds the address of the bundle that follows. -/
def execCall (o : SB) (s : State) : Out :=
  guarded o.slot.slot o.g s (fun s =>
    jump (s.offTarget (offOf o.off)) ((s.upd (landBy (.a 31) (s.t + 1))).land64 (.a 31) s.cur.fall 1 0))
/-- RET (R115). -/
def execRet (o : SN) (s : State) : Out :=
  guarded o.slot.slot o.g s (fun s => jump (regTarget (s.rd64 o.slot.slot 0 (.a 31))) s)
/-- JR (R115). -/
def execJr (o : SJ) (s : State) : Out :=
  guarded o.slot.slot o.g s (fun s => jump (regTarget (s.rd64 o.slot.slot 0 (.a o.a))) s)

/-! ## Loops and rotating bases (R116 to R120) -/

/-- The files ROT names. -/
def rotFiles (r : BitVec 3) : List (BitVec 2) :=
  (if r.getLsbD 0 then [0] else []) ++ (if r.getLsbD 1 then [1] else []) ++ (if r.getLsbD 2 then [2] else [])
/-- A base written. -/
def setBase (lat : Nat) (v : BitVec 4) (s : State) (f : BitVec 2) : State := s.landAll (.rb f) (v.setWidth 4096) lat 0
/-- LOOP (R117). -/
def execLoop (o : SLP) (s : State) : Out :=
  guarded o.slot.slot o.g s (fun s =>
    let n := s.lc o.lc
    let n' := if n = 0 then 0 else n - 1
    let s1 := (rotFiles o.rot).foldl (fun a f => setBase 1 (s.rb f + 1) a f) s
    let s2 := s1.landAll (.lc o.lc) (n'.setWidth 4096) 1 0
    if n' = 0 then s2 else jump (s.offTarget o.off.toInt) s2)
/-- LBRK (R118). -/
def execLbrk (o : SLP) (s : State) : Out :=
  guarded o.slot.slot o.g s (fun s => jump (s.offTarget o.off.toInt) (s.landAll (.lc o.lc) 0 1 0))
/-- RRB_SET (R119). -/
def execRrbSet (o : SRRB) (s : State) : Out :=
  guarded o.slot.slot o.g s (fun s => (rotFiles o.rot).foldl (fun a f => setBase 2 o.v a f) s)
/-- RRB_CLR (R119). -/
def execRrbClr (o : SRRB) (s : State) : Out :=
  guarded o.slot.slot o.g s (fun s => (rotFiles o.rot).foldl (fun a f => setBase 2 0 a f) s)

/-! ## Stopping, waiting and yielding (R122 to R124, R226) -/

/-- NOP (R122). -/
def execNop (_ : SN) (s : State) : Out := .next s

/-- CTX_HDL once every write of it issued before a cycle has landed (R226). -/
def hdlAfter (t : Nat) : List Landing → BitVec 64 → BitVec 64
  | [], v => v
  | l :: r, v => hdlAfter t r (if l.dest = .csr 0x044 ∧ l.issued < t then l.val.setWidth 64 else v)

/-- The context commits its halt: Dormant or Halted by CTX_HDL, and a child's task ends (R122, R226, R260). -/
def enterHalt (s : State) (w : Who) : State :=
  let t := s.clkOf w
  (leaveCore (endTask s w) w).updCtx w (fun c =>
    let h := hdlAfter t c.flight c.csr.ctxHdl
    let st := if h.getLsbD 0 || h.getLsbD 1 then CtxState.dormant else CtxState.halted
    { c with st := st, from_ := st, halting := false,
             flight := c.flight.filter (fun l => !(l.dest = .csr 0x044 ∧ l.issued < t)),
             csr := { c.csr with ctxHdl := h, revCur := 0x8000000000000000 } })

/-- HALT (R226): inside a segment it waits for the commit (R329). -/
def execHalt (o : SN) (s : State) : Out :=
  guarded o.slot.slot o.g s (fun s =>
    if s.cur.inSeg then s.upd (fun c => { c with halting := true }) else enterHalt s s.sel.who)

/-- A completion counter. -/
def Ctx.cc (c : Ctx) (n : Nat) : BitVec 32 := c.csr.ccnt.toList.getD n 0
/-- The wait of a counter below its threshold, none when it is reached (R19, R123). -/
def State.waitBlock (s : State) (cc : Nat) (thr : BitVec 32) : Option BlockCause :=
  if (s.cur.cc cc).toNat < thr.toNat then some (.counter cc thr.toNat) else none
/-- wait: block, or subtract the threshold (R123). -/
def waitOn (cc : Nat) (thr : BitVec 32) (s : State) : State :=
  match s.waitBlock cc thr with
  | some b => blockOn s b
  | none => s.upd (fun c => c.setCC cc (fun v => v - thr))
/-- The threshold of wait with MODE 1. -/
def State.waitThr (s : State) (o : SWR) : BitVec 32 := (s.rd64 o.slot.slot 0 (sReg o.slot o.a)).setWidth 32
/-- WAIT (R123). -/
def execWait (o : SWT) (s : State) : Out :=
  guarded o.slot.slot o.g s (waitOn o.cc.toNat (o.thr.setWidth 32))
/-- WAIT_REG (R123). -/
def execWaitReg (o : SWR) (s : State) : Out :=
  guarded o.slot.slot o.g s (fun s => waitOn o.cc.toNat (s.waitThr o) s)

/-- The other contexts of the core that are ready. -/
def State.readyOthers (s : State) (w : Who) : List Nat :=
  (upTo 4).filter (fun i => i ≠ w.ctx && (s.ctx { w with ctx := i }).st = .ready)
/-- YIELD (R124). -/
def execYield (o : SN) (s : State) : Out :=
  guarded o.slot.slot o.g s (fun s =>
    let l := s.readyOthers s.sel.who
    if l.isEmpty then s
    else (leaveCore s s.sel.who).upd (fun c => { c with st := .blocked, block := .yield, yieldFor := l }))

/-! ## Traps and return (R125 to R127) -/

/-- TRAP (R125): the issue counts as made for the repeat count, then the trap is taken; one that goes to TVEC from inside
a segment waits for the commit (R329). -/
def execTrap (o : STR) (s : State) : Out :=
  guarded o.slot.slot o.g s (fun s =>
    raiseTrap (s.upd (fun c => { c with rep := c.rep - 1, repOn := decide (0 < c.rep) }))
      (s.issueTrap 0x06 (o.code.setWidth 64) .none))

/-- TRAP_PC as an operation sees it: old or new while a write is in flight (R133). -/
def State.trapPc (s : State) : BitVec 64 := s.csrPick 0x005 s.cur.trap.pc
/-- STATUS.PMODE as an operation sees it. -/
def State.trapMode (s : State) : Bool := (s.csrPick 0x004 (if s.cur.csr.pmode then 2 else 0)).getLsbD 1
/-- The bundle at an address read at its home slices as a fetch does (R127). -/
def State.skipRead (s : State) (pc : Nat) : State := s.fetchLines (pc % 2 ^ 40) (s.rawAt s.sel.who pc).len
/-- The fault of that read: of its translation, or POISON (R127, R244; log 43). -/
def State.skipFault (s : State) (pc : Nat) : Option TrapArgs :=
  match s.bundleFault pc with
  | some a => some a
  | none => (s.skipRead pc).fetchPoison pc (s.rawAt s.sel.who pc).len
/-- Faults of rfe: user mode, and the fetch of the bundle at TRAP_PC for rfe.skip (R55, R127). -/
def rfeFault (o : SRF) (s : State) : Option TrapArgs :=
  if !s.cur.csr.mode then some (s.privTrap o.slot.slot.index 0x4E)
  else if o.skip then s.skipFault s.trapPc.toNat else none
/-- RFE (R127): TRAP_PC and PMODE are old or new while a write of them is in flight (R133). DESIGN CHOICE (log 50): rfe.skip
adds the bundle's length to TRAP_PC as it stands, low bits included. -/
def execRfe (o : SRF) (s : State) : Out :=
  guardedFault o.slot.slot o.g s (rfeFault o s) (fun s =>
    let t := s.cur.trap
    let pc := s.trapPc
    let s1 := (if o.skip then s.skipRead pc.toNat else s).upd (fun c =>
      { c with csr := { c.csr with mode := s.trapMode }, trap := { c.trap with valid := false } })
    if o.skip then
      (jump (pc + BitVec.ofNat 64 (4 * (s.rawAt s.sel.who pc.toNat).len)) s1).upd
        (fun c => { c with rep := 0, repOn := false })
    else if pc = t.recorded then
      s1.upd (fun c => { c with next := some (pc, true), sig := t.sig, rep := t.rep, repOn := t.repOn,
                                resume := if t.repOn then some t.held else none })
    else jump (regTarget pc) s1)

/-! ## Identifiers, registers, copies and the overflow table (R130 to R135) -/

/-- The identifier a code selects (R130). -/
def Idents.sel (i : Idents) (fn : Nat) : BitVec 64 :=
  match fn with
  | 0 => i.core | 1 => i.clus | 2 => i.chip | 3 => i.stage | 4 => i.ctx | 5 => i.gang | 6 => i.nchips | 7 => i.nstages
  | _ => i.ncores
/-- IDR (R130). -/
def execIdr (o : SR) (s : State) : Out :=
  guarded o.slot.slot o.g s (fun s => s.land64 (sReg o.slot o.d) (s.cur.ids.sel o.fn.toNat) 2 0)

/-- PRIV of a register access in user mode (R55, R132). -/
def csrFault (o : SRX) (op : Nat) (rd wr : Bool) (s : State) : Option TrapArgs :=
  if !s.cur.csr.mode && ((rd && csrSuperRead o.x) || (wr && csrSuperWrite o.x)) then some (s.privTrap o.slot.slot.index op)
  else none
/-- A write of a register, landing within 3 cycles (R133); rotating bases ignore it. -/
def csrWrite (o : SRX) (s : State) : State :=
  match csrDest o.x with
  | .rb _ => s
  | d => s.landAll d ((s.rd64 o.slot.slot 0 (sReg o.slot o.a)).setWidth 4096) 3 0
/-- CSRR (R132). -/
def execCsrr (o : SRX) (s : State) : Out :=
  guardedFault o.slot.slot o.g s (csrFault o 0x51 true false s) (fun s => s.land64 (sReg o.slot o.d) (s.csrRead o.x) 3 0)
/-- CSRW (R132). -/
def execCsrw (o : SRX) (s : State) : Out :=
  guardedFault o.slot.slot o.g s (csrFault o 0x52 false true s) (csrWrite o)
/-- CSRX (R132). -/
def execCsrx (o : SRX) (s : State) : Out :=
  guardedFault o.slot.slot o.g s (csrFault o 0x53 true true s) (fun s =>
    let v := s.csrRead o.x
    (csrWrite o s).land64 (sReg o.slot o.d) v 3 0)

/-- CP (R134): all 64 bits, one 64-bit lane, or every lane. -/
def execCp (o : SR) (s : State) : Out :=
  guarded o.slot.slot o.g s (fun s =>
    let v := s.rd64 o.slot.slot 0 (sReg o.slot o.a)
    let fc : BitVec 4 := o.fn.extractLsb' 0 4
    let d := s.fileReg fc o.d
    if 2 ≤ fc.toNat ∧ fc.toNat ≤ 5 then
      if o.fn.getLsbD 4 then s.landAll d (BitVec.ofNat 4096 (packElems 64 (List.replicate 16 v.toNat))) 3 0
      else
        let l := 64 * (o.b.toNat % 16)
        s.land d (BitVec.ofNat 4096 (v.toNat * 2 ^ l)) (BitVec.ofNat 4096 ((2 ^ 64 - 1) * 2 ^ l)) 3 0
    else s.land64 d v 3 0)

/-- OVT as a write stores it: code 3 of a float entry, and codes 2 and 3 of OVT_I8, become 0 (R77). -/
def ovtStore (v : BitVec 64) : BitVec 10 :=
  let e := fun (i : Nat) => let c := natFld v.toNat (2 * i) 2; if c = 3 ∨ (i = 4 ∧ c = 2) then 0 else c
  BitVec.ofNat 10 (e 0 + 4 * e 1 + 16 * e 2 + 64 * e 3 + 256 * e 4)
/-- PRIV of ovt.ld (R55). -/
def ovtFault (o : SR) (s : State) : Option TrapArgs :=
  if !s.cur.csr.mode then some (s.privTrap o.slot.slot.index 0x55) else none
/-- OVT_LD (R135): it runs after every other slot of its bundle, so the table governs later bundles alone. -/
def execOvtLd (o : SR) (s : State) : Out :=
  guardedFault o.slot.slot o.g s (ovtFault o s) (fun s =>
    let v := ovtStore (s.rd64 o.slot.slot 0 (sReg o.slot o.a))
    s.upd (fun c => { c with csr := { c.csr with ovt := v } }))

end Sys2Proof.Machine
end

