-- ==== Sys2Proof/Machine/Segment.lean ====
section
/-! DEFINITION. Sys2Proof/Machine/Segment.lean: commit, failure and rewind of a segment instance (spec/14 R328 to R341), and
the writes that reach a context from outside its bundles, which an open instance's shadow keeps. -/

namespace Sys2Proof.Machine

/-! ## What reaches a context from before its entry stays after a rewind (R332, R336) -/

/-- Bits of a register written by something of an instance: the shadow of a later instance takes them too. -/
def Ctx.putReg (c : Ctx) (inst : Nat) (d : Dest) (v en : BitVec 4096) : Ctx :=
  let put := fun (r : Regs) => r.set d (merge (r.get d) v en)
  { c with regs := put c.regs,
           shadow := if c.inSeg ∧ inst ≠ c.segInst then c.shadow.map (fun h => { h with regs := put h.regs }) else c.shadow }
/-- Sticky flags set by something of an instance (R81). -/
def Ctx.putFlags (c : Ctx) (inst : Nat) (f : Flags) : Ctx :=
  { c with csr := { c.csr with flags := c.csr.flags ||| f },
           shadow := if c.inSeg ∧ inst ≠ c.segInst then c.shadow.map (fun h => { h with flags := h.flags ||| f }) else c.shadow }
/-- A write of ARITH_FLAGS is in flight. -/
def Ctx.clearing (c : Ctx) : Bool := c.flight.any (fun l => l.dest = .csr 0x000)
/-- Flags set by a completion at a cycle: kept apart while a clear is in flight, so that the later of the two counts (R81). -/
def Ctx.setFlags (c : Ctx) (clk inst : Nat) (f : Flags) : Ctx :=
  let c1 := c.putFlags inst f
  { c1 with sets := if c.clearing then c.sets ++ [(clk, inst, f)] else c.sets }
/-- A completion counter incremented for a command of an instance (R213, R336). -/
def Ctx.incCC (c : Ctx) (n inst k : Nat) : Ctx :=
  let add := fun (v : Vector (BitVec 32) 16) => v.mapIdx (fun i x => if i = n then x + BitVec.ofNat 32 k else x)
  { c with csr := { c.csr with ccnt := add c.csr.ccnt },
           shadow := if c.inSeg ∧ inst ≠ c.segInst then c.shadow.map (fun h => { h with ccnt := add h.ccnt }) else c.shadow }
/-- The result of a command: its destination holds it from the increment on (R207). -/
def Ctx.putResult (c : Ctx) (id now : Nat) (v : BitVec 4096) : Ctx :=
  { c with flight := updWhere (fun l => l.id = id) (fun l => { l with val := v, bound := now, id := 0 }) c.flight }
/-- A command completes: its result, then its counter (R207). -/
def finishCmd (s : State) (w : Who) (id inst cc : Nat) (v : BitVec 64) : State :=
  let now := s.clkOf w
  s.updCtx w (fun c => (c.putResult id now (v.setWidth 4096)).incCC cc inst 1)

/-! ## Commit (R329, R333) -/

/-- Accesses of an instance whose value the commit waits for. -/
def Pkt.waited (p : Pkt) (w : Who) (inst : Nat) : Bool :=
  p.who = w && p.inst = inst && !p.dropLanding && (match p.op with | .load .. | .row .. => true | _ => false)
/-- The instance's mkat, mchk, ldg and ldt are done, and every fault found so far has been raised (R333). -/
def State.commitReady (s : State) (w : Who) : Bool :=
  let c := s.ctx w
  c.late.isEmpty && !s.pkts.any (fun p => p.waited w c.segInst) &&
  !s.xfers.any (fun x => x.who = w && x.inst = c.segInst && !x.out) &&
  !(s.core w.coreId).mq.any (fun m => m.who = w && m.inst = c.segInst && (match m.op with | .mkat _ | .mchk _ => true | _ => false))

/-- One buffered access handed to memory: a pool store is performed as its order allows (R333), others leave their core by the
ordering rules. DESIGN CHOICE (log 52): a pool store that R179, R181 or R182 holds back, behind an older pool store, as a
release, or after a fence.rel, is performed when they let it go, though R333 has it performed as it is handed over. -/
def handOver (s : State) (p : Pkt) : State :=
  let q := { p with stage := .core }
  let r := if p.isPool then (s, q) else numberPkt s q
  let s1 := { r.1 with pkts := updWhere (fun q => q.id = p.id) (fun _ => r.2) r.1.pkts }
  if p.isPool && s1.mayLeave q then performPool s1 q else s1
/-- The collective of a command that is sent at a commit stands behind those sent before it. -/
def listLast (s : State) (w : Who) (id : Nat) : State :=
  s.updChip w.chip (fun h => { h with colls := h.colls.filter (fun k => k.id ≠ id) ++ h.colls.filter (fun k => k.id = id) })

/-- The open instance of a context commits: its buffer in program order, its closing commands, then RETRY is cleared (R333). -/
def segCommit (s : State) (w : Who) : State :=
  let mine := s.pkts.filter (fun p => p.who = w ∧ p.stage = Stage.buffered)
  let s1 := mine.foldl handOver s
  let s2 := { s1 with xfers := updWhere (fun x => x.who = w && x.buffered) (fun x => { x with buffered := false }) s1.xfers }
  let s3 := (s2.ctx w).closing.foldl (fun s k => let q := numberCmd (listLast s w k.id) w k; q.1.updCtx w (fun c => c.enter (.e q.2))) s2
  (s3.updCtx w (fun c =>
    { c with closing := [], closeDue := false, entryNext := false, inSeg := false, segRetry := false, shadow := none, segLast := c.segInst })).settle

/-- What follows a commit: a halt, or a trap that waited for it (R329). -/
def afterCommit (s : State) (w : Who) : State :=
  let c := s.ctx w
  match c.pend with
  | some a => takeTrap (s.updCtx w (fun c => { c with pend := none })) w a.args
  | none => if c.halting then enterHalt s w else s

/-! ## Rewind (R335, R336) -/

/-- Remaining claims of a context's forms on a FIFO. -/
def owed (l : List MForm) (w : Who) (b : Bool) : Nat :=
  ((l.filter (fun m => m.who = w)).map (fun m =>
    if (if b then (claims m.op).2 else (claims m.op).1) = 0 then 0 else m.need - m.got.length)).foldl (· + ·) 0
/-- The latch or accumulator that a stopped form leaves undefined: free bytes, log 3. -/
def stopForm (s : State) (m : MForm) : State :=
  match m.op with
  | .mlat o => s.updCtx m.who (fun c => { c with latDef := c.latDef &&& ~~~(1#4 <<< o.lat.toNat) })
  | i =>
    match formTag i with
    | some (n, _) =>
      (s.poke (poolKey m.who.coreId ((s.ctx m.who).accAt n)) ((upTo 65536).map (fun i => Config.undefByte s.free i))).updCore m.who.coreId
        (fun k => { k with accTag := k.accTag.mapIdx (fun i x => if i = n then 3 else x) })
    | none => s

/-- The logical cores of a rewinder's group, without its own (R339). -/
def State.partners (s : State) (w : Who) : List Who :=
  let g := (s.ctx w).csr.segGroup
  ((upTo 8).filter (fun k => g.getLsbD k && k ≠ w.core && s.isLogical w.chip w.clus k)).map (fun k => { w with core := k })

/-- The shadowed state restored (R332). -/
def Ctx.restoreShadow (c : Ctx) (h : Shadow) : Ctx :=
  { c with regs := h.regs, held := h.held, rep := h.rep, repOn := h.repOn, arrive := h.arrive, sig := h.sig, pc := h.pc,
           csr := { c.csr with flags := h.flags, slackDef := h.slackDef, slackCtl := h.slackCtl, flowCur := h.flowCur,
                               aliasDef := h.aliasDef, ctxHdl := h.ctxHdl, engStat := h.engStat, ccnt := h.ccnt } }

/-- A load of global memory into a register. -/
def Pkt.isLdg (p : Pkt) : Bool := match p.op with | .load .. => true | _ => false
/-- A command on its way to a unit of its chip, or back. -/
def Pkt.isCmd (p : Pkt) : Bool := match p.op with | .cmd _ => true | _ => false
/-- Rewind the open instance: for a failure with its LCAUSE, or for a pre-emption (R335). -/
def rewind (s : State) (w : Who) (lcause : Nat) (failure : Bool) : State :=
  let c := s.ctx w
  let i := c.segInst
  -- buffered accesses are discarded and their busy bits clear; loads in flight are dropped
  let gone := (s.pkts.filter (fun p => p.who = w ∧ (p.stage = Stage.buffered ∨ (p.inst = i ∧ p.isLdg)))).map (·.id) ++
    (s.xfers.filter (fun x => x.who = w ∧ x.buffered)).map (·.id)
  let s1 := dropBuffered s w
  let s2 := { s1 with pkts := updWhere (fun p => p.who = w && p.inst = i && p.isLdg)
                                 (fun p => { p with dropLanding := true }) (s1.pkts.filter (fun p => !(p.who = w ∧ p.inst = i ∧ p.isCmd))),
                      reqs := s1.reqs.filter (fun q => !(q.who = w ∧ q.cmd.inst = i)) }
  -- matrix forms
  let mine := fun (m : MForm) => m.who = w && m.inst = i
  let stop := fun (m : MForm) => mine m && (!m.started || m.got.length < m.need)
  let mq := (s2.core w.coreId).mq
  let s3 := (mq.filter (fun m => stop m && m.started)).foldl stopForm s2
  let left := mq.filter (fun m => !stop m)
  let s4 := s3.updCore w.coreId (fun k =>
    { k with mq := left,
             cur0 := k.cur0.filter (fun r => !(r.cmd.who = w ∧ r.cmd.inst = i)),
             cur1 := k.cur1.filter (fun r => !(r.cmd.who = w ∧ r.cmd.inst = i)) })
  let cmds := ((c.cq0 ++ c.cq1).filter (fun k => k.inst = i)).map (·.id) ++
    ((s3.core w.coreId).cur0.toList ++ (s3.core w.coreId).cur1.toList).filterMap (fun r =>
      if r.cmd.who = w ∧ r.cmd.inst = i then some r.cmd.id else none) ++
    (c.ring ++ c.ovfWait).filterMap (fun r => match r with | .copy _ k => if k.inst = i then some k.id else none | _ => none)
  let keepR := fun (r : RingEntry) => match r with | .e k => decide (k.inst ≠ i) | .copy _ k => decide (k.inst ≠ i) | .rcv _ => true
  let dead := gone ++ cmds ++ (mq.filter stop).map (·.id)
  let keepE := fun (k : ECmd) => decide (k.inst ≠ i)
  let s5 := (dropClosing s4 w).updCtx w (fun c =>
    let c1 := match c.shadow with | some h => c.restoreShadow h | none => c
    { c1 with flight := c.flight.filter (fun l => l.inst ≠ i),
              busy := c.busy.filter (fun b => !dead.contains b.id),
              eq := c.eq.filter keepE, eHead := c.eHead.filter keepE, cq0 := c.cq0.filter (fun k => k.inst ≠ i),
              cq1 := c.cq1.filter (fun k => k.inst ≠ i),
              ring := c.ring.filter keepR, ovfWait := c.ovfWait.filter keepR,
              flowWait := c.flowWait.filter (fun f => f.inst ≠ i), fences := c.fences, late := c.late.filter (fun l => l.inst ≠ i),
              sets := c.sets.filter (fun q => q.2.1 ≠ i), resume := none, closing := [], closeDue := false, halting := false, pend := c.pend.filter (fun p => p.inst ≠ i), next := none, fifoA := [], fifoB := [],
              owedA := owed left w false, owedB := owed left w true, retry := none, freeze := .none, block := .none,
              st := if c.st = .running then .running else .ready, entryNext := true, segIssues := 0,
              segSafe := true, segRetry := c.segRetry || failure,
              csr := { c1.csr with
                segRewinds := if failure && c.csr.segRewinds ≠ 0xFFFF then c.csr.segRewinds + 1 else c.csr.segRewinds,
                segPrewinds := if !failure && c.csr.segPrewinds ≠ 0xFF then c.csr.segPrewinds + 1 else c.csr.segPrewinds,
                segLcause := BitVec.ofNat 4 lcause } })
  if failure then
    (s5.partners w).foldl (fun s p => s.updCtx p (fun q =>
      { q with holds := if q.holds.contains w.core then q.holds else q.holds ++ [w.core] })) s5
  else s5

/-! ## Failure causes (R334, R338, R436) -/

/-- A failure that may not rewind: terminal whatever TVEC holds, its record written (R338). -/
def segTerminal (s : State) (w : Who) (a : TrapArgs) : State :=
  let s1 := trapTerminal s w a
  if (s.ctx w).st = .halted then s1 else s1.updCtx w (fun c => { c with trap := a.toTrap (s.ctx w) })
/-- LCAUSE of a cause that rewinds (R342). -/
def lcauseOf (code : BitVec 8) : Option Nat :=
  match code.toNat with | 2 => some 2 | 3 => some 3 | 4 => some 4 | 5 => some 5 | _ => none
/-- A cause raised in a context: a rewind inside a segment for the failure causes, a trap otherwise. `stale` marks poison
of an access that another instance made, and `inst` is the instance the cause belongs to. -/
def raiseCause (s : State) (w : Who) (a : TrapArgs) (stale : Bool) (inst : Nat) : State :=
  let c := s.ctx w
  if c.st = .halted then (if retryable a.code then trapFreeze s w a else trapTerminal s w a)
  else if stale then segTerminal s w a
  else
    match lcauseOf a.code with
    | some l => if c.inSeg then (if c.segRetry || !c.segSafe then segTerminal s w a else rewind s w l true)
                else takeTrap s w a
    | none =>
      if c.inSeg && !retryable a.code && s.vectored w then s.updCtx w (fun c => { c with pend := some ⟨a, inst⟩ })
      else takeTrap s w a

/-- FROM of R166 and R436. -/
def fromCode (st : CtxState) : Nat :=
  match st with | .running => 0 | .ready => 1 | .blocked => 2 | .dormant => 3 | .halted => 4 | .frozen => 5
/-- The state a context counts as for a late fault: a frozen one, the state it froze from. -/
def Ctx.lateState (c : Ctx) : CtxState := if c.st = .frozen then c.from_ else c.st
/-- The address a context would issue next (R436): for a parked or halted one, the bundle that parked it. -/
def Ctx.issueNext (c : Ctx) : BitVec 64 := if c.lateState = .dormant ∨ c.lateState = .halted then c.lastPc else c.pc
/-- TRAP_INFO with LATE and FROM (R166). -/
def lateInfo (info : BitVec 64) (st : CtxState) : BitVec 64 :=
  info ||| BitVec.ofNat 64 (2 ^ 51 + fromCode st * 2 ^ 48)
/-- A fault found after its bundle has issued (R436). -/
def LateFault.args (l : LateFault) (c : Ctx) : TrapArgs :=
  { code := l.code, info := lateInfo l.info c.lateState, pc := c.issueNext, reason := 0, slots := 0, freeze := l.freeze }

end Sys2Proof.Machine
end

