-- ==== Sys2Proof/Machine/Transcend.lean ====
section
/-! DEFINITION. Sys2Proof/Machine/Transcend.lean: the function values of the special-function forms (spec/06 R159 to
R161), as exact values or as fixed-point values of 640 fraction bits with a sticky lowest bit, and their rounding.
DEDUCED (log 12): 640 bits decide every rounding of the 32-bit and 16-bit formats; unsafe where they would not. -/

namespace Sys2Proof.Machine

/-- Fraction bits of the fixed-point values. -/
def fxP : Nat := 640
/-- 1.0 in fixed point. -/
def fxOne : Nat := 1 <<< 640
/-- Fixed-point product, truncated. -/
def fxMul (a b : Nat) : Nat := (a * b) >>> fxP
/-- Fixed-point quotient, truncated. -/
def fxDiv (a b : Nat) : Nat := (a <<< fxP) / b

/-- Sum of z^(2n+1)/(2n+1) from a power and an odd number on: the series of the inverse hyperbolic tangent. -/
def atanhGo (z2 : Nat) : Nat → Nat → Nat → Nat
  | 0, _, _ => 0
  | fuel + 1, pw, k => pw / k + atanhGo z2 fuel (fxMul pw z2) (k + 2)
/-- The inverse hyperbolic tangent of z below 1/3. -/
def fxAtanh (z : Nat) : Nat := atanhGo (fxMul z z) 230 z 1

/-- The alternating series of the inverse tangent: (positive terms, negative terms). -/
def atanGo (z2 : Nat) : Nat → Nat → Nat → Bool → Int
  | 0, _, _, _ => 0
  | fuel + 1, pw, k, neg =>
    (if neg then -((pw / k : Nat) : Int) else ((pw / k : Nat) : Int)) + atanGo z2 fuel (fxMul pw z2) (k + 2) (!neg)
/-- The inverse tangent of 1/n. -/
def fxAtanInv (n : Nat) : Int := atanGo (fxMul (fxOne / n) (fxOne / n)) 150 (fxOne / n) 1 false

/-- The natural logarithm of 2. -/
def fxLn2 : Nat := 2 * fxAtanh (fxOne / 3)
/-- Pi, by Machin's formula. -/
def fxPi : Nat := (16 * fxAtanInv 5 - 4 * fxAtanInv 239).toNat

/-- Sum of r^n/n! from a term on. -/
def expGo (r : Nat) : Nat → Nat → Nat → Nat
  | 0, _, _ => 0
  | fuel + 1, term, n => term + expGo r fuel (fxMul term r / (n + 1)) (n + 1)
/-- e^r for r below 1. -/
def fxExpSmall (r : Nat) : Nat := expGo r 170 fxOne 0
/-- e^x for a fixed-point x of 0 or more. -/
def fxExp (x : Nat) : Nat := (fxExpSmall (x % fxLn2)) <<< (x / fxLn2)
/-- The natural logarithm of m in [1, 2). -/
def fxLn (m : Nat) : Nat := 2 * fxAtanh (fxDiv (m - fxOne) (m + fxOne))

/-- Alternating Taylor series of sine (k = 1, term x) and cosine (k = 0, term 1). -/
def trigGo (x2 : Nat) : Nat → Nat → Nat → Bool → Int
  | 0, _, _, _ => 0
  | fuel + 1, term, k, neg =>
    (if neg then -(term : Int) else (term : Int)) + trigGo x2 fuel (fxMul term x2 / ((k + 1) * (k + 2))) (k + 2) (!neg)
/-- sin x for x below 1. -/
def fxSin (x : Nat) : Nat := (trigGo (fxMul x x) 90 x 1 false).toNat
/-- cos x for x below 1. -/
def fxCos (x : Nat) : Nat := (trigGo (fxMul x x) 90 fxOne 0 false).toNat

/-- Sum of 2^n x^(2n+1) / (1·3···(2n+1)) from a term on. -/
def erfGo (x2 : Nat) : Nat → Nat → Nat → Nat
  | 0, _, _ => 0
  | fuel + 1, term, k => term + erfGo x2 fuel (2 * fxMul term x2 / (k + 2)) (k + 2)

/-- A magnitude m * 2^e in fixed point (e at least -640). -/
def toFx (m : Nat) (e : Int) : Nat := m <<< (e + 640).toNat

/-- A fixed-point value known to be inexact, with its sticky bit. -/
def ofFx (neg : Bool) (v : Nat) : FVal := .fin neg (2 * v + 1) (-641)
/-- The integer n. -/
def ofNatF (neg : Bool) (n : Nat) : FVal := .fin neg n 0
/-- A value above 0 below every rounding boundary, and 1 less such a value. -/
def tinyF (neg : Bool) : FVal := .fin neg 1 (-1000)
def nearOneF (neg : Bool) : FVal := .fin neg (2 ^ 64 - 1) (-64)

/-- The exponent of the leading bit of a magnitude. -/
def topExp (m : Nat) (e : Int) : Int := (bitLen m : Int) - 1 + e

/-- 2^a for a finite non-zero a. -/
def fnExp2 (neg : Bool) (m : Nat) (e : Int) : FVal :=
  if 9 < topExp m e then (if neg then tinyF false else .fin false 1 1000)
  else
    let x := toFx m e
    let k := x / fxOne
    let r := x % fxOne
    if r = 0 then .fin false 1 (if neg then -(k : Int) else k)
    else if neg then .fin false (2 * fxExpSmall (fxMul (fxOne - r) fxLn2) + 1) (-(k : Int) - 1 - 641)
    else .fin false (2 * fxExpSmall (fxMul r fxLn2) + 1) ((k : Int) - 641)

/-- log2 a for a finite positive a. -/
def fnLog2 (m : Nat) (e : Int) : FVal :=
  let ex := topExp m e
  let mant := if bitLen m ≤ 641 then m <<< (641 - bitLen m) else m >>> (bitLen m - 641)
  if mant = fxOne then .fin (ex < 0) ex.natAbs 0
  else
    let l := fxDiv (fxLn mant) fxLn2
    if 0 ≤ ex then ofFx false ((ex.toNat <<< fxP) + l) else ofFx true (((-ex).toNat <<< fxP) - l - 1)

/-- sin(pi u) and cos(pi u) for u in (0, 1/2), in fixed point. -/
def sinPiQ (u : Nat) : Nat :=
  if 4 * u ≤ fxOne then fxSin (fxMul fxPi u) else fxCos (fxMul fxPi (fxOne / 2 - u))
def cosPiQ (u : Nat) : Nat :=
  if 4 * u ≤ fxOne then fxCos (fxMul fxPi u) else fxSin (fxMul fxPi (fxOne / 2 - u))

/-- sin(pi a): an integer a gives a zero with the sign of a (R161). -/
def fnSin (neg : Bool) (m : Nat) (e : Int) : FVal :=
  let t := if 1 ≤ e then 0 else toFx m e % (2 * fxOne)
  let u := t % fxOne
  if u = 0 then .fin neg 0 0
  else
    let s := neg != decide (fxOne < t)
    if 2 * u = fxOne then ofNatF s 1
    else ofFx s (sinPiQ (if 2 * u < fxOne then u else fxOne - u))

/-- cos(pi a): an odd multiple of one half gives +0 (R161). -/
def fnCos (m : Nat) (e : Int) : FVal :=
  let t := if 1 ≤ e then 0 else toFx m e % (2 * fxOne)
  let u := if fxOne < t then 2 * fxOne - t else t
  if u = 0 then ofNatF false 1
  else if u = fxOne then ofNatF true 1
  else if 2 * u = fxOne then .fin false 0 0
  else if 2 * u < fxOne then ofFx false (cosPiQ u)
  else ofFx true (cosPiQ (fxOne - u))

/-- tanh of a finite non-zero a. -/
def fnTanh (neg : Bool) (m : Nat) (e : Int) : FVal :=
  if 5 ≤ topExp m e then nearOneF neg
  else
    let t := fxExp (2 * toFx m e)
    ofFx neg (fxDiv (t - fxOne) (t + fxOne))

/-- 1/(1 + e^(-a)) of a finite non-zero a. -/
def fnSigm (neg : Bool) (m : Nat) (e : Int) : FVal :=
  if 7 ≤ topExp m e then (if neg then tinyF false else nearOneF false)
  else
    let t := fxExp (toFx m e)
    ofFx false (if neg then fxDiv fxOne (fxOne + t) else fxDiv t (fxOne + t))

/-- erf of a finite non-zero a. -/
def fnErf (neg : Bool) (m : Nat) (e : Int) : FVal :=
  if 3 ≤ topExp m e then nearOneF neg
  else
    let x := toFx m e
    let x2 := fxMul x x
    let s := erfGo x2 700 x 1
    ofFx neg (fxDiv (2 * fxDiv s (fxExp x2)) (isqrt (fxPi <<< fxP)))

/-- A NaN result that is an invalid operation (R161). -/
def invalid : FVal × Flags := (.nan, fIV)

/-- The transcendental forms and sfsqrt, by opcode (R161), with the special inputs of their table. -/
def fnUnary (op : Nat) (x : FVal) : FVal × Flags :=
  match x with
  | .nan => (.nan, 0)
  | .inf neg =>
    match op with
    | 0x04 => (if neg then .fin false 0 0 else .inf false, 0)
    | 0x05 => if neg then invalid else (.inf false, 0)
    | 0x06 => invalid
    | 0x07 => invalid
    | 0x08 => (ofNatF neg 1, 0)
    | 0x09 => (if neg then .fin false 0 0 else ofNatF false 1, 0)
    | 0x0A => (ofNatF neg 1, 0)
    | _ => if neg then invalid else (.inf false, 0)
  | .fin neg m e =>
    if m = 0 then
      match op with
      | 0x04 => (ofNatF false 1, 0)
      | 0x05 => (.inf true, fDZ)
      | 0x07 => (ofNatF false 1, 0)
      | 0x09 => (.fin false 1 (-1), 0)
      | _ => (.fin neg 0 0, 0)
    else
      match op with
      | 0x04 => (fnExp2 neg m e, 0)
      | 0x05 => if neg then invalid else (fnLog2 m e, 0)
      | 0x06 => (fnSin neg m e, 0)
      | 0x07 => (fnCos m e, 0)
      | 0x08 => (fnTanh neg m e, 0)
      | 0x09 => (fnSigm neg m e, 0)
      | 0x0A => (fnErf neg m e, 0)
      | _ => if neg then invalid else (let q := sqrtMag m e; (.fin false q.1 q.2, 0))

/-- One element of a form of R161: the function value rounded once, its overflow under R74. -/
def sfElem (ovt : BitVec 10) (op : Nat) (f : BitVec 4) (rm : BitVec 2) (v : Nat) : Nat × Flags :=
  let r := fnUnary op (decodeF f v)
  let q := roundF ovt f rm r.1
  (q.1, q.2 ||| r.2)

/-- sfdiv (R161). -/
def sfDivElem (ovt : BitVec 10) (f : BitVec 4) (rm : BitVec 2) (a b : Nat) : Nat × Flags :=
  match decodeF f a, decodeF f b with
  | .nan, _ => (qnan f, 0)
  | _, .nan => (qnan f, 0)
  | .inf _, .inf _ => (qnan f, fIV)
  | .inf n, .fin n' _ _ => (infBits f (n != n'), 0)
  | .fin n _ _, .inf n' => (signBit f (n != n'), 0)
  | .fin n m e, .fin n' m' e' =>
    if m' = 0 then (if m = 0 then (qnan f, fIV) else (infBits f (n != n'), fDZ))
    else if m = 0 then (signBit f (n != n'), 0)
    else let q := divMag m e m' e'; roundF ovt f rm (.fin (n != n') q.1 q.2)

/-- A magnitude rounded with RNE to 12 significant bits, with unbounded exponent (R159). -/
def round12 (m : Nat) (e : Int) : Nat × Int :=
  if bitLen m ≤ 12 then (m, e)
  else (dropBits 0 false m (bitLen m - 12), e + (bitLen m - 12 : Nat))

/-- The result of sfrcp and sfrsq from the exact value (R159): in f32 first 12 bits, then the f32 grid. -/
def approxRound (ovt : BitVec 10) (f : BitVec 4) (neg : Bool) (m : Nat) (e : Int) : Nat × Flags :=
  if f = 0 then
    let q := round12 m e
    roundF ovt f 0 (.fin neg q.1 q.2)
  else roundF ovt f 0 (.fin neg m e)

/-- sfrcp (R159). -/
def sfRcpElem (ovt : BitVec 10) (f : BitVec 4) (v : Nat) : Nat × Flags :=
  match decodeF f v with
  | .nan => (qnan f, 0)
  | .inf n => (signBit f n, 0)
  | .fin n m e =>
    if m = 0 then (infBits f n, fDZ) else let q := divMag 1 0 m e; approxRound ovt f n q.1 q.2

/-- sfrsq (R159). -/
def sfRsqElem (ovt : BitVec 10) (f : BitVec 4) (v : Nat) : Nat × Flags :=
  match decodeF f v with
  | .nan => (qnan f, 0)
  | .inf n => if n then (qnan f, fIV) else (0, 0)
  | .fin n m e =>
    if m = 0 then (infBits f n, fDZ)
    else if n then (qnan f, fIV)
    else
      -- 1/sqrt(m 2^e) = sqrt(2^(-e)/m): the quotient carries a sticky bit, far below the root's sticky bit
      let q := divMag (1 <<< 400) (-400 - e) m 0
      let r := sqrtMag q.1 q.2
      approxRound ovt f false r.1 r.2

/-- sfrcpr and sfrsqr (R160): y refines toward the reciprocal or reciprocal root of x; exact inside, one rounding. -/
def sfRefineElem (ovt : BitVec 10) (f : BitVec 4) (rm : BitVec 2) (sq : Bool) (yv xv : Nat) : Nat × Flags :=
  let y := decodeF f yv
  let x := decodeF f xv
  let unchanged := match y with | .nan => true | .inf _ => true | .fin _ m _ => decide (m = 0)
  if unchanged then (yv, 0)
  else
    let xy := mulF x y
    let t := if sq then mulF xy.1 y else xy
    let s := sumF rm [ofNatF false (if sq then 3 else 2), t.1.negate]
    let p := mulF y s.1
    let h := match p.1 with | .fin n m e => .fin n m (if sq then e - 1 else e) | v => v
    let r := roundF ovt f rm h
    (r.1, r.2 ||| ivIf (xy.2 || t.2 || s.2 || p.2))

end Sys2Proof.Machine
end

