-- ==== Sys2Proof/Machine/Special.lean ====
section
/-! DEFINITION. Sys2Proof/Machine/Special.lean: the forms of slot F (spec/06 R158 to R162). -/

namespace Sys2Proof.Machine

/-- SFRCP (R159). -/
def execSfrcp (o : FA) (s : State) : Out := fElemwise o s 6 (fun _ a _ => sfRcpElem s.ovt o.fmt a)
/-- SFRSQ (R159). -/
def execSfrsq (o : FA) (s : State) : Out := fElemwise o s 6 (fun _ a _ => sfRsqElem s.ovt o.fmt a)
/-- SFRCPR (R160). -/
def execSfrcpr (o : FA) (s : State) : Out := fElemwise o s 8 (fun d a _ => sfRefineElem s.ovt o.fmt o.rm false d a)
/-- SFRSQR (R160). -/
def execSfrsqr (o : FA) (s : State) : Out := fElemwise o s 8 (fun d a _ => sfRefineElem s.ovt o.fmt o.rm true d a)
/-- SFEXP2 (R161). -/
def execSfexp2 (o : FA) (s : State) : Out := fElemwise o s 10 (fun _ a _ => sfElem s.ovt 4 o.fmt o.rm a)
/-- SFLOG2 (R161). -/
def execSflog2 (o : FA) (s : State) : Out := fElemwise o s 10 (fun _ a _ => sfElem s.ovt 5 o.fmt o.rm a)
/-- SFSIN (R161). -/
def execSfsin (o : FA) (s : State) : Out := fElemwise o s 14 (fun _ a _ => sfElem s.ovt 6 o.fmt o.rm a)
/-- SFCOS (R161). -/
def execSfcos (o : FA) (s : State) : Out := fElemwise o s 14 (fun _ a _ => sfElem s.ovt 7 o.fmt o.rm a)
/-- SFTANH (R161). -/
def execSftanh (o : FA) (s : State) : Out := fElemwise o s 14 (fun _ a _ => sfElem s.ovt 8 o.fmt o.rm a)
/-- SFSIGM (R161). -/
def execSfsigm (o : FA) (s : State) : Out := fElemwise o s 14 (fun _ a _ => sfElem s.ovt 9 o.fmt o.rm a)
/-- SFERF (R161). -/
def execSferf (o : FA) (s : State) : Out := fElemwise o s 14 (fun _ a _ => sfElem s.ovt 10 o.fmt o.rm a)
/-- SFSQRT (R161). -/
def execSfsqrt (o : FA) (s : State) : Out := fElemwise o s 20 (fun _ a _ => sfElem s.ovt 11 o.fmt o.rm a)
/-- SFDIV (R161). -/
def execSfdiv (o : FA) (s : State) : Out := fElemwise o s 20 (fun _ a b => sfDivElem s.ovt o.fmt o.rm a b)
/-- SFCP (R162): the low W bits of a w register into x, y or z. -/
def execSfcp (o : FCp) (s : State) : Out :=
  guarded .f o.g s (fun s =>
    s.land (s.fileReg o.fc o.d) (s.rd .f 0 (.w o.a)) (BitVec.ofNat 4096 (2 ^ wBits o.w - 1)) (fLat o.w 4) 0)

end Sys2Proof.Machine
end

