-- ==== Sys2Proof/Machine/Vector.lean ====
section
/-! DEFINITION. Sys2Proof/Machine/Vector.lean: the forms of V0, V1 and V2 (spec/06 R137 to R157). -/

namespace Sys2Proof.Machine

/-! ## Elementwise arithmetic (R141 to R144) -/

/-- An arithmetic form that rounds: exact operands in float formats, wrapped integers otherwise. -/
def vArith (o : VOp) (s : State) (lat : Nat) (ff : FVal → FVal → FVal → Nat × Flags) (fi : Int → Int → Int → Int) : Out :=
  let f := o.ext.fmt
  vElemwise o s lat (fun a b c _ =>
    if isFloatFmt f then ff (decodeF f a) (decodeF f b) (decodeF f c)
    else (wrapI f (fi (decodeI f a) (decodeI f b) (decodeI f c)), 0))

/-- VADD (R141). -/
def execVadd (o : VOp) (s : State) : Out :=
  vArith o s (vLat o 2 4) (fun a b _ => sumRound s.ovt o.ext.fmt o.ext.rm [a, b]) (fun a b _ => a + b)
/-- VSUB (R141). -/
def execVsub (o : VOp) (s : State) : Out :=
  vArith o s (vLat o 2 4) (fun a b _ => sumRound s.ovt o.ext.fmt o.ext.rm [a, b.negate]) (fun a b _ => a - b)
/-- VMUL (R141). -/
def execVmul (o : VOp) (s : State) : Out :=
  vArith o s 4 (fun a b _ => mulRound s.ovt o.ext.fmt o.ext.rm a b) (fun a b _ => a * b)
/-- VFMA (R141). -/
def execVfma (o : VOp) (s : State) : Out :=
  vArith o s 5 (fun a b c => fmaRound s.ovt o.ext.fmt o.ext.rm a b c) (fun a b c => a * b + c)
/-- VFMS (R141). -/
def execVfms (o : VOp) (s : State) : Out :=
  vArith o s 5 (fun a b c => fmaRound s.ovt o.ext.fmt o.ext.rm a b c.negate) (fun a b c => a * b - c)
/-- VFNMA (R141). -/
def execVfnma (o : VOp) (s : State) : Out :=
  vArith o s 5 (fun a b c => fmaRound s.ovt o.ext.fmt o.ext.rm a.negate b c) (fun a b c => c - a * b)

/-- The smaller of two elements of a format (R142). -/
def minElem (f : BitVec 4) (a b : Nat) : Nat :=
  if isFloatFmt f then minBits f a b else if decodeI f a ≤ decodeI f b then a else b
/-- The larger of two elements of a format (R142). -/
def maxElem (f : BitVec 4) (a b : Nat) : Nat :=
  if isFloatFmt f then maxBits f a b else if decodeI f a ≤ decodeI f b then b else a

/-- VMIN (R141). -/
def execVmin (o : VOp) (s : State) : Out :=
  vElemwise o s (vLat o 2 4) (fun a b _ _ => (minElem o.ext.fmt a b, 0))
/-- VMAX (R141). -/
def execVmax (o : VOp) (s : State) : Out :=
  vElemwise o s (vLat o 2 4) (fun a b _ _ => (maxElem o.ext.fmt a b, 0))

/-- A float element with its sign bit replaced; a NaN gives the canonical NaN (R142). -/
def signTo (f : BitVec 4) (a : Nat) (sign : Bool → Bool) : Nat :=
  if decodeF f a = .nan then qnan f
  else signBit f (sign (a.testBit (fmtBits f - 1))) + a % 2 ^ (fmtBits f - 1)
/-- VABS (R141, R143). -/
def execVabs (o : VOp) (s : State) : Out :=
  let f := o.ext.fmt
  vElemwise o s (vLat o 2 4) (fun a _ _ _ =>
    (if isFloatFmt f then signTo f a (fun _ => false) else wrapI f (decodeI f a).natAbs, 0))
/-- VNEG (R141, R143). -/
def execVneg (o : VOp) (s : State) : Out :=
  let f := o.ext.fmt
  vElemwise o s (vLat o 2 4) (fun a _ _ _ =>
    (if isFloatFmt f then signTo f a (fun n => !n) else wrapI f (-decodeI f a), 0))
/-- VSATADD (R141). -/
def execVsatadd (o : VOp) (s : State) : Out :=
  vElemwise o s 2 (fun a b _ _ => (satI o.ext.fmt (decodeI o.ext.fmt a + decodeI o.ext.fmt b), 0))
/-- VSATSUB (R141). -/
def execVsatsub (o : VOp) (s : State) : Out :=
  vElemwise o s 2 (fun a b _ _ => (satI o.ext.fmt (decodeI o.ext.fmt a - decodeI o.ext.fmt b), 0))
/-- VCLAMP (R141, R142). -/
def execVclamp (o : VOp) (s : State) : Out :=
  vElemwise o s (vLat o 2 4) (fun a b c _ => (minElem o.ext.fmt (maxElem o.ext.fmt a b) c, 0))

/-- One element of vdot4: four products added to d (R144). -/
def dot4Elem (ovt : BitVec 10) (f f2 : BitVec 4) (rm : BitVec 2) (ab : List (Nat × Nat)) (d : Nat) : Nat × Flags :=
  if f2 = 5 then
    (wrapI 5 (decodeI 5 d + (ab.map (fun p => decodeI f p.1 * decodeI f p.2)).foldl (· + ·) 0), 0)
  else
    let g := groupProducts (ab.map (fun p => (decodeF f p.1, decodeF f p.2)))
    let r := sumRound ovt 0 rm (decodeF 0 d :: g.1)
    (r.1, r.2 ||| g.2)
/-- VDOT4 (R144). -/
def execVdot4 (o : VOp) (s : State) : Out :=
  guarded o.slot.slot o.g s (fun s =>
    let w := fmtBits o.ext.fmt
    let n := lanesOf o.w o.ext.fmt2
    let a := s.vElems o.slot 0 o.a (4 * n) w
    let b := s.vElems o.slot 1 o.b (4 * n) w
    let d := s.vElems o.slot 3 o.d n 32
    let r := (upTo n).map (fun j =>
      dot4Elem s.ovt o.ext.fmt o.ext.fmt2 o.ext.rm
        ((upTo 4).map (fun k => (a.getD (4 * j + k) 0, b.getD (4 * j + k) 0))) (d.getD j 0))
    landElems s (s.vReg o.slot o.d) 32 (s.vMaskBits o n) r 5)

/-! ## Logic and shifts (R145) -/

/-- VAND (R145). -/
def execVand (o : VOp) (s : State) : Out := vElemwise o s 2 (fun a b _ _ => (a &&& b, 0))
/-- VOR (R145). -/
def execVor (o : VOp) (s : State) : Out := vElemwise o s 2 (fun a b _ _ => (a ||| b, 0))
/-- VXOR (R145). -/
def execVxor (o : VOp) (s : State) : Out := vElemwise o s 2 (fun a b _ _ => (a ^^^ b, 0))
/-- The complement of an element. -/
def notElem (f : BitVec 4) (a : Nat) : Nat := 2 ^ fmtBits f - 1 - a % 2 ^ fmtBits f
/-- VANDN (R145). -/
def execVandn (o : VOp) (s : State) : Out := vElemwise o s 2 (fun a b _ _ => (a &&& notElem o.ext.fmt b, 0))
/-- VNOT (R145). -/
def execVnot (o : VOp) (s : State) : Out := vElemwise o s 2 (fun a _ _ _ => (notElem o.ext.fmt a, 0))
/-- The shift count of an element (R145): IMM16[5:0], or element i of SB modulo the element width. -/
def shiftCount (o : VOp) (b : Nat) : Nat :=
  if o.ext.imm16.getLsbD 15 then natFld o.ext.imm16.toNat 0 6 else b % fmtBits o.ext.fmt
/-- VSHL (R145). -/
def execVshl (o : VOp) (s : State) : Out :=
  vElemwise o s 2 (fun a b _ _ => (a <<< shiftCount o b % 2 ^ fmtBits o.ext.fmt, 0))
/-- VSHR (R145). -/
def execVshr (o : VOp) (s : State) : Out := vElemwise o s 2 (fun a b _ _ => (a >>> shiftCount o b, 0))
/-- VSAR (R145). -/
def execVsar (o : VOp) (s : State) : Out :=
  let w := fmtBits o.ext.fmt
  vElemwise o s 2 (fun a b _ _ => (wrapN (sInt a w / 2 ^ shiftCount o b) w, 0))

/-! ## Compare, select and move (R146, R147) -/

/-- The conditions of vcmp on two elements. -/
def vcond (f : BitVec 4) (c a b : Nat) : Bool :=
  if isFloatFmt f then fcond c (decodeF f a) (decodeF f b)
  else
    match c with
    | 0 => decodeI f a = decodeI f b
    | 1 => decodeI f a ≠ decodeI f b
    | 2 => decodeI f a < decodeI f b
    | _ => decodeI f a ≤ decodeI f b
/-- VCMP (R146): masked-off bits keep their value, bits from n on are written 0. -/
def execVcmp (o : VOp) (s : State) : Out :=
  guarded o.slot.slot o.g s (fun s =>
    let f := o.ext.fmt
    let n := lanesOf o.w f
    let a := s.vElems o.slot 0 o.a n (fmtBits f)
    let b := s.vElems o.slot 1 o.b n (fmtBits f)
    let bits := (upTo n).map (fun i => if vcond f (natFld o.ext.imm16.toNat 0 3) (a.getD i 0) (b.getD i 0) then 1 else 0)
    s.land (vMask o.slot (o.d.setWidth 3)) (BitVec.ofNat 4096 (packElems 1 bits))
      (BitVec.ofNat 4096 (packMask 1 (s.vMaskBits o n ++ List.replicate (128 - n) true))) 2 0)
/-- VSEL (R147): the mask is an operand and every element is written. -/
def execVsel (o : VOp) (s : State) : Out :=
  guarded o.slot.slot o.g s (fun s =>
    let w := fmtBits o.ext.fmt
    let n := lanesOf o.w o.ext.fmt
    let a := s.vElems o.slot 0 o.a n w
    let b := s.vElems o.slot 1 o.b n w
    let m := s.vMaskBits o n
    let r := (upTo n).map (fun i => (if m.getD i false then a.getD i 0 else b.getD i 0, (0 : Flags)))
    landElems s (s.vReg o.slot o.d) w (List.replicate n true) r 2)
/-- VMOV (R147). -/
def execVmov (o : VOp) (s : State) : Out := vElemwise o s 2 (fun a _ _ _ => (a, 0))
/-- VBCAST (R147). -/
def execVbcast (o : VOp) (s : State) : Out :=
  vWhole o s 2 (fun n a _ => List.replicate n (a.getD (natFld o.ext.imm16.toNat 0 7) 0))
/-- Number of 1 bits among the low n. -/
def countBelow (v n : Nat) : Nat := ((upTo n).filter (fun i => v.testBit i)).length
/-- VIOTA (R147): prefix counts of the mask SA[2:0] names. -/
def execViota (o : VOp) (s : State) : Out :=
  let m := (s.rd o.slot.slot 5 (vMask o.slot (o.a.setWidth 3))).toNat
  vWhole o s 2 (fun n _ _ => (upTo n).map (fun i => wrapI o.ext.fmt ((countBelow m i : Nat))))

/-! ## Conversion and packing (R148 to R150) -/

/-- The lane count of vcvt: by the wider format, t2 counted from the i8 side (R148, R149). -/
def cvtLanes (o : VOp) : Nat := wBits o.w / max (fmtBits o.ext.fmt) (fmtBits o.ext.fmt2)
/-- A conversion of a list of source elements under the write role of MASK. -/
def vConvert (o : VOp) (s : State) (n : Nat) (src : List Nat) : State :=
  let m := s.vMaskBits o n
  let r := src.map (convertElem s.ovt o.ext.fmt o.ext.fmt2 o.ext.rm)
  landElems s (s.vReg o.slot o.d) (fmtBits o.ext.fmt2) m r 3
/-- VCVT (R148, R149). -/
def execVcvt (o : VOp) (s : State) : Out :=
  guarded o.slot.slot o.g s (fun s =>
    vConvert o s (cvtLanes o) (s.vElems o.slot 0 o.a (cvtLanes o) (fmtBits o.ext.fmt)))
/-- VPACK (R150). -/
def execVpack (o : VOp) (s : State) : Out :=
  guarded o.slot.slot o.g s (fun s =>
    let n := lanesOf o.w o.ext.fmt
    let w := fmtBits o.ext.fmt
    vConvert o s (2 * n) (s.vElems o.slot 0 o.a n w ++ s.vElems o.slot 1 o.b n w))
/-- VUNPACK (R150). -/
def execVunpack (o : VOp) (s : State) : Out :=
  guarded o.slot.slot o.g s (fun s =>
    let n := lanesOf o.w o.ext.fmt2
    let h := natFld o.ext.imm16.toNat 0 1
    vConvert o s n ((s.vElems o.slot 0 o.a (2 * n) (fmtBits o.ext.fmt)).drop (h * n) |>.take n))

/-! ## Permutation and compaction (R151, R152) -/

/-- VPERM (R151). -/
def execVperm (o : VOp) (s : State) : Out :=
  vWhole o s 3 (fun n a b => (upTo n).map (fun i => a.getD (b.getD i 0 % n) 0))
/-- The patterns of vshuf (R151). -/
def shufElem (p n : Nat) (a b : List Nat) (i : Nat) : Nat :=
  let h := n / 2
  match p with
  | 0 => if i % 2 = 0 then a.getD (i / 2) 0 else b.getD (i / 2) 0
  | 1 => if i % 2 = 0 then a.getD (h + i / 2) 0 else b.getD (h + i / 2) 0
  | 2 => if i < h then a.getD (2 * i) 0 else b.getD (2 * (i - h)) 0
  | _ => if i < h then a.getD (2 * i + 1) 0 else b.getD (2 * (i - h) + 1) 0
/-- VSHUF (R151). -/
def execVshuf (o : VOp) (s : State) : Out :=
  vWhole o s 3 (fun n a b => (upTo n).map (shufElem (natFld o.ext.imm16.toNat 0 2) n a b))
/-- VSLIDE (R151). -/
def execVslide (o : VOp) (s : State) : Out :=
  vWhole o s 3 (fun n a b =>
    let k := natFld o.ext.imm16.toNat 0 8
    (upTo n).map (fun i => if i + k < n then a.getD (i + k) 0 else b.getD (i + k - n) 0))

/-- The elements a mask selects, in ascending order. -/
def selected (m : List Bool) (a : List Nat) : List Nat := (a.zip m).filterMap (fun p => if p.2 then some p.1 else none)
/-- VCOMPRESS (R152): all n elements are written. -/
def execVcompress (o : VOp) (s : State) : Out :=
  guarded o.slot.slot o.g s (fun s =>
    let w := fmtBits o.ext.fmt
    let n := lanesOf o.w o.ext.fmt
    let k := selected (s.vMaskBits o n) (s.vElems o.slot 0 o.a n w)
    landElems s (s.vReg o.slot o.d) w (List.replicate n true)
      ((upTo n).map (fun i => (k.getD i 0, (0 : Flags)))) 6)
/-- VEXPAND (R152): an element with mask bit 0 is unchanged. -/
def execVexpand (o : VOp) (s : State) : Out :=
  guarded o.slot.slot o.g s (fun s =>
    let w := fmtBits o.ext.fmt
    let n := lanesOf o.w o.ext.fmt
    let m := s.vMaskBits o n
    let a := s.vElems o.slot 0 o.a n w
    landElems s (s.vReg o.slot o.d) w m
      ((upTo n).map (fun i => (a.getD ((m.take i).filter id).length 0, (0 : Flags)))) 6)

/-! ## Reductions and scans (R153 to R155) -/

/-- The sum of elements of a format: exact, then wrapped or rounded once (R153). -/
def sumElems (ovt : BitVec 10) (f : BitVec 4) (rm : BitVec 2) (l : List Nat) : Nat × Flags :=
  if isFloatFmt f then sumRound ovt f rm (l.map (decodeF f))
  else (wrapI f ((l.map (decodeI f)).foldl (· + ·) 0), 0)
/-- The identity of a maximum: the format's minimum, or -∞. -/
def lowest (f : BitVec 4) : Nat := if isFloatFmt f then infBits f true else wrapI f (minI f)
/-- The identity of a minimum: the format's maximum, or +∞. -/
def highest (f : BitVec 4) : Nat := if isFloatFmt f then infBits f false else wrapI f (maxI f)
/-- The largest of elements. -/
def maxElems (f : BitVec 4) (l : List Nat) : Nat := l.foldl (maxElem f) (lowest f)
/-- The smallest of elements. -/
def minElems (f : BitVec 4) (l : List Nat) : Nat := l.foldl (minElem f) (highest f)

/-- A reduction writes element 0 alone (R153). -/
def vReduce (o : VOp) (s : State) (f : List Nat → Nat × Flags) : Out :=
  guarded o.slot.slot o.g s (fun s =>
    let w := fmtBits o.ext.fmt
    let n := lanesOf o.w o.ext.fmt
    let r := f (selected (s.vMaskBits o n) (s.vElems o.slot 0 o.a n w))
    landElems s (s.vReg o.slot o.d) w [true] [r] 6)
/-- VREDADD (R153). -/
def execVredadd (o : VOp) (s : State) : Out := vReduce o s (sumElems s.ovt o.ext.fmt o.ext.rm)
/-- VREDMAX (R153). -/
def execVredmax (o : VOp) (s : State) : Out := vReduce o s (fun l => (maxElems o.ext.fmt l, 0))
/-- VREDMIN (R153). -/
def execVredmin (o : VOp) (s : State) : Out := vReduce o s (fun l => (minElems o.ext.fmt l, 0))

/-- An inclusive prefix over the selected elements (R154). -/
def vScan (o : VOp) (s : State) (f : List Nat → Nat × Flags) : Out :=
  guarded o.slot.slot o.g s (fun s =>
    let w := fmtBits o.ext.fmt
    let n := lanesOf o.w o.ext.fmt
    let m := s.vMaskBits o n
    let a := s.vElems o.slot 0 o.a n w
    let r := (upTo n).map (fun i => f (selected (m.take (i + 1)) (a.take (i + 1))))
    landElems s (s.vReg o.slot o.d) w m r 8)
/-- VSCAN_ADD (R154). -/
def execVscanAdd (o : VOp) (s : State) : Out := vScan o s (sumElems s.ovt o.ext.fmt o.ext.rm)
/-- VSCAN_MAX (R154). -/
def execVscanMax (o : VOp) (s : State) : Out := vScan o s (fun l => (maxElems o.ext.fmt l, 0))

/-- The start of the segment that holds element i: the largest head at or below it, or 0 (R155). -/
def segStart (m : List Bool) : Nat → Nat
  | 0 => 0
  | i + 1 => if m.getD (i + 1) false then i + 1 else segStart m i
/-- VSEGSCAN (R155). -/
def execVsegscan (o : VOp) (s : State) : Out :=
  guarded o.slot.slot o.g s (fun s =>
    let w := fmtBits o.ext.fmt
    let n := lanesOf o.w o.ext.fmt
    let m := s.vMaskBits o n
    let a := s.vElems o.slot 0 o.a n w
    let carry := (s.vElems o.slot 1 o.b 1 w).getD 0 0
    let r := (upTo n).map (fun i =>
      let s0 := segStart m i
      let l := (a.take (i + 1)).drop s0
      sumElems s.ovt o.ext.fmt o.ext.rm (if m.getD s0 false then l else l ++ [carry]))
    landElems s (s.vReg o.slot o.d) w (List.replicate n true) r 8)

/-! ## Lane masks and copies (R156, R157) -/

/-- A lane-mask form: all 128 bits. -/
def vMaskOp (o : VOp) (s : State) (f : BitVec 128 → BitVec 128 → BitVec 128) : Out :=
  guarded o.slot.slot o.g s (fun s =>
    let a := (s.rd o.slot.slot 0 (vMask o.slot (o.a.setWidth 3))).setWidth 128
    let b := (s.rd o.slot.slot 1 (vMask o.slot (o.b.setWidth 3))).setWidth 128
    s.landAll (vMask o.slot (o.d.setWidth 3)) ((f a b).setWidth 4096) 2 0)
/-- MAND (R156). -/
def execMand (o : VOp) (s : State) : Out := vMaskOp o s (fun a b => a &&& b)
/-- MOR (R156). -/
def execMor (o : VOp) (s : State) : Out := vMaskOp o s (fun a b => a ||| b)
/-- MNOT (R156). -/
def execMnot (o : VOp) (s : State) : Out := vMaskOp o s (fun a _ => ~~~a)
/-- MPOPC (R156). -/
def execMpopc (o : VOp) (s : State) : Out :=
  guarded o.slot.slot o.g s (fun s =>
    let m := s.rd o.slot.slot 0 (vMask o.slot (o.a.setWidth 3))
    let k := ((upTo (lanesOf o.w o.ext.fmt)).filter (fun i => m.getLsbD i)).length
    s.land (s.vReg o.slot o.d) (BitVec.ofNat 4096 k) 0xFFFFFFFFFFFFFFFF#4096 3 0)
/-- VCP (R157). -/
def execVcp (o : VOp) (s : State) : Out :=
  guarded o.slot.slot o.g s (fun s =>
    let fc := o.ext.imm16.extractLsb' 0 4
    if isVecFile fc then
      let w := fmtBits o.ext.fmt
      let n := lanesOf o.w o.ext.fmt
      landElems s (s.fileReg fc o.d) w (s.vMaskBits o n) ((s.vElems o.slot 0 o.a n w).map (fun v => (v, (0 : Flags)))) 3
    else
      s.land64 (s.fileReg fc o.d)
        (BitVec.ofNat 64 (elemN (s.rd o.slot.slot 0 (s.vReg o.slot o.a)).toNat (natFld o.ext.imm16.toNat 4 4) 64)) 3 0)

end Sys2Proof.Machine
end

