-- ==== Sys2Proof/Machine/Slots.lean ====
section
/-! DEFINITION. Sys2Proof/Machine/Slots.lean: what the bundle needs to know of each slot operation: its slot and guard, the
registers and elements it names, its faults and waits, its step, and its meaning (spec/01 R11, R19, R24 to R37). -/

namespace Sys2Proof.Machine

/-- The slot and guard of a slot operation; none for a step or event of the device. -/
def slotGuard (i : Instr) : Option (Slot × Guard) :=
  match i with
  | .add o => some (o.slot.slot, o.g)
  | .sub o => some (o.slot.slot, o.g)
  | .mul o => some (o.slot.slot, o.g)
  | .mulh o => some (o.slot.slot, o.g)
  | .mulhn o => some (o.slot.slot, o.g)
  | .div o => some (o.slot.slot, o.g)
  | .divn o => some (o.slot.slot, o.g)
  | .rem o => some (o.slot.slot, o.g)
  | .remn o => some (o.slot.slot, o.g)
  | .and o => some (o.slot.slot, o.g)
  | .or o => some (o.slot.slot, o.g)
  | .xor o => some (o.slot.slot, o.g)
  | .andn o => some (o.slot.slot, o.g)
  | .shl o => some (o.slot.slot, o.g)
  | .shr o => some (o.slot.slot, o.g)
  | .sar o => some (o.slot.slot, o.g)
  | .rotl o => some (o.slot.slot, o.g)
  | .min o => some (o.slot.slot, o.g)
  | .max o => some (o.slot.slot, o.g)
  | .minn o => some (o.slot.slot, o.g)
  | .maxn o => some (o.slot.slot, o.g)
  | .clz o => some (o.slot.slot, o.g)
  | .ctz o => some (o.slot.slot, o.g)
  | .popc o => some (o.slot.slot, o.g)
  | .sext o => some (o.slot.slot, o.g)
  | .zext o => some (o.slot.slot, o.g)
  | .bfx o => some (o.slot.slot, o.g)
  | .bfi o => some (o.slot.slot, o.g)
  | .lea o => some (o.slot.slot, o.g)
  | .sel o => some (o.slot.slot, o.g)
  | .addi o => some (o.slot.slot, o.g)
  | .andi o => some (o.slot.slot, o.g)
  | .ori o => some (o.slot.slot, o.g)
  | .xori o => some (o.slot.slot, o.g)
  | .shli o => some (o.slot.slot, o.g)
  | .shri o => some (o.slot.slot, o.g)
  | .sari o => some (o.slot.slot, o.g)
  | .li o => some (o.slot.slot, o.g)
  | .lih o => some (o.slot.slot, o.g)
  | .cmp o => some (o.slot.slot, o.g)
  | .pset o => some (o.slot.slot, o.g)
  | .pand o => some (o.slot.slot, o.g)
  | .por o => some (o.slot.slot, o.g)
  | .pnot o => some (o.slot.slot, o.g)
  | .fadd o => some (o.slot.slot, o.g)
  | .fsub o => some (o.slot.slot, o.g)
  | .fmul o => some (o.slot.slot, o.g)
  | .fma o => some (o.slot.slot, o.g)
  | .fmin o => some (o.slot.slot, o.g)
  | .fmax o => some (o.slot.slot, o.g)
  | .fcmp o => some (o.slot.slot, o.g)
  | .fcvt o => some (o.slot.slot, o.g)
  | .br o => some (o.slot.slot, o.g)
  | .bc o => some (o.slot.slot, o.g)
  | .call o => some (o.slot.slot, o.g)
  | .ret o => some (o.slot.slot, o.g)
  | .jr o => some (o.slot.slot, o.g)
  | .loop o => some (o.slot.slot, o.g)
  | .lbrk o => some (o.slot.slot, o.g)
  | .rrbSet o => some (o.slot.slot, o.g)
  | .rrbClr o => some (o.slot.slot, o.g)
  | .nop o => some (o.slot.slot, o.g)
  | .halt o => some (o.slot.slot, o.g)
  | .wait o => some (o.slot.slot, o.g)
  | .waitReg o => some (o.slot.slot, o.g)
  | .yield o => some (o.slot.slot, o.g)
  | .trap o => some (o.slot.slot, o.g)
  | .rfe o => some (o.slot.slot, o.g)
  | .idr o => some (o.slot.slot, o.g)
  | .csrr o => some (o.slot.slot, o.g)
  | .csrw o => some (o.slot.slot, o.g)
  | .csrx o => some (o.slot.slot, o.g)
  | .cp o => some (o.slot.slot, o.g)
  | .ovtLd o => some (o.slot.slot, o.g)
  | .vadd o => some (o.slot.slot, o.g)
  | .vsub o => some (o.slot.slot, o.g)
  | .vmul o => some (o.slot.slot, o.g)
  | .vfma o => some (o.slot.slot, o.g)
  | .vfms o => some (o.slot.slot, o.g)
  | .vfnma o => some (o.slot.slot, o.g)
  | .vmin o => some (o.slot.slot, o.g)
  | .vmax o => some (o.slot.slot, o.g)
  | .vabs o => some (o.slot.slot, o.g)
  | .vneg o => some (o.slot.slot, o.g)
  | .vsatadd o => some (o.slot.slot, o.g)
  | .vsatsub o => some (o.slot.slot, o.g)
  | .vclamp o => some (o.slot.slot, o.g)
  | .vdot4 o => some (o.slot.slot, o.g)
  | .vand o => some (o.slot.slot, o.g)
  | .vor o => some (o.slot.slot, o.g)
  | .vxor o => some (o.slot.slot, o.g)
  | .vandn o => some (o.slot.slot, o.g)
  | .vnot o => some (o.slot.slot, o.g)
  | .vshl o => some (o.slot.slot, o.g)
  | .vshr o => some (o.slot.slot, o.g)
  | .vsar o => some (o.slot.slot, o.g)
  | .vcmp o => some (o.slot.slot, o.g)
  | .vsel o => some (o.slot.slot, o.g)
  | .vmov o => some (o.slot.slot, o.g)
  | .vbcast o => some (o.slot.slot, o.g)
  | .viota o => some (o.slot.slot, o.g)
  | .vcvt o => some (o.slot.slot, o.g)
  | .vpack o => some (o.slot.slot, o.g)
  | .vunpack o => some (o.slot.slot, o.g)
  | .vperm o => some (o.slot.slot, o.g)
  | .vshuf o => some (o.slot.slot, o.g)
  | .vslide o => some (o.slot.slot, o.g)
  | .vcompress o => some (o.slot.slot, o.g)
  | .vexpand o => some (o.slot.slot, o.g)
  | .vredadd o => some (o.slot.slot, o.g)
  | .vredmax o => some (o.slot.slot, o.g)
  | .vredmin o => some (o.slot.slot, o.g)
  | .vscanAdd o => some (o.slot.slot, o.g)
  | .vscanMax o => some (o.slot.slot, o.g)
  | .vsegscan o => some (o.slot.slot, o.g)
  | .vcp o => some (o.slot.slot, o.g)
  | .mand o => some (o.slot.slot, o.g)
  | .mor o => some (o.slot.slot, o.g)
  | .mnot o => some (o.slot.slot, o.g)
  | .mpopc o => some (o.slot.slot, o.g)
  | .sfrcp o => some (.f, o.g)
  | .sfrsq o => some (.f, o.g)
  | .sfrcpr o => some (.f, o.g)
  | .sfrsqr o => some (.f, o.g)
  | .sfexp2 o => some (.f, o.g)
  | .sflog2 o => some (.f, o.g)
  | .sfsin o => some (.f, o.g)
  | .sfcos o => some (.f, o.g)
  | .sftanh o => some (.f, o.g)
  | .sfsigm o => some (.f, o.g)
  | .sferf o => some (.f, o.g)
  | .sfsqrt o => some (.f, o.g)
  | .sfdiv o => some (.f, o.g)
  | .sfcp o => some (.f, o.g)
  | .ldv o => some (o.slot.slot, o.g)
  | .stv o => some (o.slot.slot, o.g)
  | .lds o => some (o.slot.slot, o.g)
  | .sts o => some (o.slot.slot, o.g)
  | .ldb o => some (o.slot.slot, o.g)
  | .gth o => some (o.slot.slot, o.g)
  | .sct o => some (o.slot.slot, o.g)
  | .ldt o => some (o.slot.slot, o.g)
  | .stt o => some (o.slot.slot, o.g)
  | .ldtp o => some (o.slot.slot, o.g)
  | .ldg o => some (o.slot.slot, o.g)
  | .stg o => some (o.slot.slot, o.g)
  | .aadd o => some (o.slot.slot, o.g)
  | .amin o => some (o.slot.slot, o.g)
  | .amax o => some (o.slot.slot, o.g)
  | .aminn o => some (o.slot.slot, o.g)
  | .amaxn o => some (o.slot.slot, o.g)
  | .aand o => some (o.slot.slot, o.g)
  | .aor o => some (o.slot.slot, o.g)
  | .axor o => some (o.slot.slot, o.g)
  | .aswp o => some (o.slot.slot, o.g)
  | .acas o => some (o.slot.slot, o.g)
  | .afadd o => some (o.slot.slot, o.g)
  | .afmax o => some (o.slot.slot, o.g)
  | .fence o => some (o.slot.slot, o.g)
  | .l2pin o => some (o.slot.slot, o.g)
  | .l2unpin o => some (o.slot.slot, o.g)
  | .l2inv o => some (o.slot.slot, o.g)
  | .wwait o => some (o.slot.slot, o.g)
  | .mzero o => some (.m, o.g)
  | .mlat o => some (.m, o.g)
  | .mma o => some (.m, o.g)
  | .mter o => some (.m, o.g)
  | .mdrain o => some (.m, o.g)
  | .maccLd o => some (.m, o.g)
  | .mkat o => some (.m, o.g)
  | .mchk o => some (.m, o.g)
  | .kld o => some (.k, o.g)
  | .kset o => some (.k, o.g)
  | .kmov o => some (.k, o.g)
  | .cpy o => some (.e, o.g)
  | .amsg o => some (.e, o.g)
  | .taskPost o => some (.e, o.g)
  | .taskDec o => some (.e, o.g)
  | .ecntAdd o => some (.e, o.g)
  | .ecntSet o => some (.e, o.g)
  | .clbar o => some (.e, o.g)
  | .chbar o => some (.e, o.g)
  | .fork o => some (.e, o.g)
  | .spawn o => some (.e, o.g)
  | .join o => some (.e, o.g)
  | .revSt o => some (.e, o.g)
  | .flowMode o => some (.e, o.g)
  | .slk o => some (.e, o.g)
  | .coll o => some (.e, o.g)
  | .esend o => some (.e, o.g)
  | .erel o => some (.e, o.g)
  | .eprobe o => some (.e, o.g)
  | .xtloadFull o => some (.e, o.g)
  | .xtloadEntry o => some (.e, o.g)
  | .xtloadPage o => some (.e, o.g)
  | .gbar o => some (.e, o.g)
  | .almw o => some (.e, o.g)
  | .almwLen o => some (.e, o.g)
  | .migCtlStart o => some (.e, o.g)
  | .migCtlDone o => some (.e, o.g)
  | _ => none

/-- The register of a file code by the number in the syllable (R37 [19]). -/
def rawReg (fc : BitVec 4) (n : BitVec 5) : Dest :=
  match fc.toNat with
  | 0 => .a n | 1 => .b n | 2 => .x n | 3 => .y n | 4 => .z n
  | 5 => .w (n.setWidth 4) | 6 => .g (n.setWidth 4) | 7 => .h (n.setWidth 4) | 8 => .e (n.setWidth 3) | _ => .none
/-- What a number written for a register of a file has above that file's registers: a reserved number names none of them. -/
def rawOver (fc : BitVec 4) (n : BitVec 5) : Nat :=
  match fc.toNat with | 5 | 6 | 7 => n.toNat / 16 | 8 => n.toNat / 8 | _ => 0
/-- A vector register of a slot by the number in the syllable. -/
def rawV (sl : VSlot) (n : BitVec 5) : Dest := match sl with | .v0 => .x n | .v1 => .y n | .v2 => .z n

/-- Registers an operation names as destination, by the numbers written in the syllable (R37 [19]). -/
def destRegs (i : Instr) : List Dest :=
  match i with
  | .add o => [sReg o.slot o.d]
  | .sub o => [sReg o.slot o.d]
  | .mul o => [sReg o.slot o.d]
  | .mulh o => [sReg o.slot o.d]
  | .mulhn o => [sReg o.slot o.d]
  | .div o => [sReg o.slot o.d]
  | .divn o => [sReg o.slot o.d]
  | .rem o => [sReg o.slot o.d]
  | .remn o => [sReg o.slot o.d]
  | .and o => [sReg o.slot o.d]
  | .or o => [sReg o.slot o.d]
  | .xor o => [sReg o.slot o.d]
  | .andn o => [sReg o.slot o.d]
  | .shl o => [sReg o.slot o.d]
  | .shr o => [sReg o.slot o.d]
  | .sar o => [sReg o.slot o.d]
  | .rotl o => [sReg o.slot o.d]
  | .min o => [sReg o.slot o.d]
  | .max o => [sReg o.slot o.d]
  | .minn o => [sReg o.slot o.d]
  | .maxn o => [sReg o.slot o.d]
  | .clz o => [sReg o.slot o.d]
  | .ctz o => [sReg o.slot o.d]
  | .popc o => [sReg o.slot o.d]
  | .sext o => [sReg o.slot o.d]
  | .zext o => [sReg o.slot o.d]
  | .bfx o => [sReg o.slot o.d]
  | .bfi o => [sReg o.slot o.d]
  | .lea o => [sReg o.slot o.d]
  | .sel o => [sReg o.slot o.d]
  | .addi o => [sReg o.slot o.d]
  | .andi o => [sReg o.slot o.d]
  | .ori o => [sReg o.slot o.d]
  | .xori o => [sReg o.slot o.d]
  | .shli o => [sReg o.slot o.d]
  | .shri o => [sReg o.slot o.d]
  | .sari o => [sReg o.slot o.d]
  | .li o => [sReg o.slot o.d]
  | .lih o => [sReg o.slot o.d]
  | .cmp o => [sPred o.slot o.pd]
  | .pset o => [sPred o.slot o.pd]
  | .pand o => [sPred o.slot o.pd]
  | .por o => [sPred o.slot o.pd]
  | .pnot o => [sPred o.slot o.pd]
  | .fadd o => [sReg o.slot o.d]
  | .fsub o => [sReg o.slot o.d]
  | .fmul o => [sReg o.slot o.d]
  | .fma o => [sReg o.slot o.d]
  | .fmin o => [sReg o.slot o.d]
  | .fmax o => [sReg o.slot o.d]
  | .fcmp o => [sPred o.slot o.pd]
  | .fcvt o => [sReg o.slot o.d]
  | .call _ => [.a 31]
  | .loop o => .lc o.lc :: (rotFiles o.rot).map Dest.rb
  | .lbrk o => [.lc o.lc]
  | .rrbSet o => (rotFiles o.rot).map Dest.rb
  | .rrbClr o => (rotFiles o.rot).map Dest.rb
  | .idr o => [sReg o.slot o.d]
  | .csrr o => [sReg o.slot o.d]
  | .csrw o => [csrDest o.x]
  | .csrx o => [sReg o.slot o.d, csrDest o.x]
  | .ovtLd _ => [.csr 0x001]
  | .cp o => [rawReg (o.fn.extractLsb' 0 4) o.d]
  | .vadd o => [rawV o.slot o.d]
  | .vsub o => [rawV o.slot o.d]
  | .vmul o => [rawV o.slot o.d]
  | .vfma o => [rawV o.slot o.d]
  | .vfms o => [rawV o.slot o.d]
  | .vfnma o => [rawV o.slot o.d]
  | .vmin o => [rawV o.slot o.d]
  | .vmax o => [rawV o.slot o.d]
  | .vabs o => [rawV o.slot o.d]
  | .vneg o => [rawV o.slot o.d]
  | .vsatadd o => [rawV o.slot o.d]
  | .vsatsub o => [rawV o.slot o.d]
  | .vclamp o => [rawV o.slot o.d]
  | .vdot4 o => [rawV o.slot o.d]
  | .vand o => [rawV o.slot o.d]
  | .vor o => [rawV o.slot o.d]
  | .vxor o => [rawV o.slot o.d]
  | .vandn o => [rawV o.slot o.d]
  | .vnot o => [rawV o.slot o.d]
  | .vshl o => [rawV o.slot o.d]
  | .vshr o => [rawV o.slot o.d]
  | .vsar o => [rawV o.slot o.d]
  | .vcmp o => [vMask o.slot (o.d.setWidth 3)]
  | .vsel o => [rawV o.slot o.d]
  | .vmov o => [rawV o.slot o.d]
  | .vbcast o => [rawV o.slot o.d]
  | .viota o => [rawV o.slot o.d]
  | .vcvt o => [rawV o.slot o.d]
  | .vpack o => [rawV o.slot o.d]
  | .vunpack o => [rawV o.slot o.d]
  | .vperm o => [rawV o.slot o.d]
  | .vshuf o => [rawV o.slot o.d]
  | .vslide o => [rawV o.slot o.d]
  | .vcompress o => [rawV o.slot o.d]
  | .vexpand o => [rawV o.slot o.d]
  | .vredadd o => [rawV o.slot o.d]
  | .vredmax o => [rawV o.slot o.d]
  | .vredmin o => [rawV o.slot o.d]
  | .vscanAdd o => [rawV o.slot o.d]
  | .vscanMax o => [rawV o.slot o.d]
  | .vsegscan o => [rawV o.slot o.d]
  | .vcp o => [rawReg (o.ext.imm16.extractLsb' 0 4) o.d]
  | .mand o => [vMask o.slot (o.d.setWidth 3)]
  | .mor o => [vMask o.slot (o.d.setWidth 3)]
  | .mnot o => [vMask o.slot (o.d.setWidth 3)]
  | .mpopc o => [rawV o.slot o.d]
  | .sfrcp o => [.w o.d]
  | .sfrsq o => [.w o.d]
  | .sfrcpr o => [.w o.d]
  | .sfrsqr o => [.w o.d]
  | .sfexp2 o => [.w o.d]
  | .sflog2 o => [.w o.d]
  | .sfsin o => [.w o.d]
  | .sfcos o => [.w o.d]
  | .sftanh o => [.w o.d]
  | .sfsigm o => [.w o.d]
  | .sferf o => [.w o.d]
  | .sfsqrt o => [.w o.d]
  | .sfdiv o => [.w o.d]
  | .sfcp o => [rawReg o.fc o.d]
  | .ldv o => [rawReg o.fc o.dreg]
  | .lds o => [rawReg o.fc o.dreg]
  | .ldb o => [rawReg o.fc o.dreg]
  | .gth o => [rawReg o.fc o.dreg]
  | .ldg o => [rawReg o.fc o.dreg]
  | .aadd o => [rawReg o.fc o.dreg]
  | .amin o => [rawReg o.fc o.dreg]
  | .amax o => [rawReg o.fc o.dreg]
  | .aminn o => [rawReg o.fc o.dreg]
  | .amaxn o => [rawReg o.fc o.dreg]
  | .aand o => [rawReg o.fc o.dreg]
  | .aor o => [rawReg o.fc o.dreg]
  | .axor o => [rawReg o.fc o.dreg]
  | .aswp o => [rawReg o.fc o.dreg]
  | .acas o => [rawReg o.fc o.dreg]
  | .afadd o => [rawReg o.fc o.dreg]
  | .afmax o => [rawReg o.fc o.dreg]
  | .kld o => [.c o.c]
  | .kset o => [.c o.c]
  | .kmov o => [.c o.c]
  | .fork o => [.e o.ed]
  | .spawn o => [.e o.ed]
  | .join o => [.e o.ed]
  | .revSt o => [.e o.ed]
  | .coll o => [.e o.ed]
  | .esend o => [esendDest o]
  | .eprobe o => [.e o.ed]
  | .xtloadFull o => [.e o.ed]
  | .xtloadEntry o => [.e o.ed]
  | .xtloadPage o => [.e o.ed]
  | .almw o => [.e o.ed]
  | .almwLen o => [.e o.ed]
  | .migCtlStart o => [.e o.ed]
  | .migCtlDone o => [.e o.ed]
  | _ => []

/-- What the destination's written number has above its file's registers, 0 for a number that names one of them (R37 [19]). -/
def destOver (i : Instr) : Nat :=
  match i with
  | .cp o => rawOver (o.fn.extractLsb' 0 4) o.d
  | .vcp o => rawOver (o.ext.imm16.extractLsb' 0 4) o.d
  | .sfcp o => rawOver o.fc o.d
  | .vcmp o | .mand o | .mor o | .mnot o => o.d.toNat / 8
  | .ldv o | .lds o | .ldb o | .gth o | .ldg o => rawOver o.fc o.dreg
  | .aadd o | .amin o | .amax o | .aminn o | .amaxn o | .aand o | .aor o | .axor o | .aswp o | .acas o | .afadd o | .afmax o =>
    rawOver o.fc o.dreg
  | _ => 0

/-- Scalar registers an operation reads; only those can be busy (R32). -/
def srcRegs (i : Instr) : List Dest :=
  match i with
  | .add o => [sReg o.slot o.a, sReg o.slot o.b]
  | .sub o => [sReg o.slot o.a, sReg o.slot o.b]
  | .mul o => [sReg o.slot o.a, sReg o.slot o.b]
  | .mulh o => [sReg o.slot o.a, sReg o.slot o.b]
  | .mulhn o => [sReg o.slot o.a, sReg o.slot o.b]
  | .div o => [sReg o.slot o.a, sReg o.slot o.b]
  | .divn o => [sReg o.slot o.a, sReg o.slot o.b]
  | .rem o => [sReg o.slot o.a, sReg o.slot o.b]
  | .remn o => [sReg o.slot o.a, sReg o.slot o.b]
  | .and o => [sReg o.slot o.a, sReg o.slot o.b]
  | .or o => [sReg o.slot o.a, sReg o.slot o.b]
  | .xor o => [sReg o.slot o.a, sReg o.slot o.b]
  | .andn o => [sReg o.slot o.a, sReg o.slot o.b]
  | .shl o => [sReg o.slot o.a, sReg o.slot o.b]
  | .shr o => [sReg o.slot o.a, sReg o.slot o.b]
  | .sar o => [sReg o.slot o.a, sReg o.slot o.b]
  | .rotl o => [sReg o.slot o.a, sReg o.slot o.b]
  | .min o => [sReg o.slot o.a, sReg o.slot o.b]
  | .max o => [sReg o.slot o.a, sReg o.slot o.b]
  | .minn o => [sReg o.slot o.a, sReg o.slot o.b]
  | .maxn o => [sReg o.slot o.a, sReg o.slot o.b]
  | .clz o => [sReg o.slot o.a]
  | .ctz o => [sReg o.slot o.a]
  | .popc o => [sReg o.slot o.a]
  | .sext o => [sReg o.slot o.a]
  | .zext o => [sReg o.slot o.a]
  | .bfx o => [sReg o.slot o.a]
  | .bfi o => [sReg o.slot o.a]
  | .lea o => [sReg o.slot o.a, sReg o.slot o.b]
  | .sel o => [sReg o.slot o.a, sReg o.slot o.b]
  | .addi o => [sReg o.slot o.a]
  | .andi o => [sReg o.slot o.a]
  | .ori o => [sReg o.slot o.a]
  | .xori o => [sReg o.slot o.a]
  | .shli o => [sReg o.slot o.a]
  | .shri o => [sReg o.slot o.a]
  | .sari o => [sReg o.slot o.a]
  | .cmp o => sReg o.slot o.a :: (match o.rhs with | .reg r => [sReg o.slot r] | .imm _ => [])
  | .fadd o => [sReg o.slot o.a, sReg o.slot o.b]
  | .fsub o => [sReg o.slot o.a, sReg o.slot o.b]
  | .fmul o => [sReg o.slot o.a, sReg o.slot o.b]
  | .fma o => [sReg o.slot o.a, sReg o.slot o.b]
  | .fmin o => [sReg o.slot o.a, sReg o.slot o.b]
  | .fmax o => [sReg o.slot o.a, sReg o.slot o.b]
  | .fcmp o => sReg o.slot o.a :: (match o.rhs with | .reg r => [sReg o.slot r] | .imm _ => [])
  | .fcvt o => [sReg o.slot o.a]
  | .ret _ => [.a 31]
  | .jr o => [.a o.a]
  | .waitReg o => [sReg o.slot o.a]
  | .csrw o => [sReg o.slot o.a]
  | .csrx o => [sReg o.slot o.a]
  | .cp o => [sReg o.slot o.a]
  | .ovtLd o => [sReg o.slot o.a]
  | .ldv o => [dBase o.slot o.base]
  | .stv o => [dBase o.slot o.base]
  | .lds o => [dBase o.slot o.base]
  | .sts o => [dBase o.slot o.base, rawReg o.fc o.dreg]
  | .ldb o => [dBase o.slot o.base]
  | .gth o => [dBase o.slot o.base]
  | .sct o => [dBase o.slot o.base]
  | .ldt o => [dBase o.slot o.base, dBase o.slot o.desc]
  | .stt o => [dBase o.slot o.base, dBase o.slot o.desc]
  | .ldtp o => [dBase o.slot o.base, dBase o.slot o.desc]
  | .ldg o => [dBase o.slot o.base]
  | .stg o => [dBase o.slot o.base, rawReg o.fc o.dreg]
  | .aadd o => [dBase o.slot o.base, rawReg o.fc o.vreg]
  | .amin o => [dBase o.slot o.base, rawReg o.fc o.vreg]
  | .amax o => [dBase o.slot o.base, rawReg o.fc o.vreg]
  | .aminn o => [dBase o.slot o.base, rawReg o.fc o.vreg]
  | .amaxn o => [dBase o.slot o.base, rawReg o.fc o.vreg]
  | .aand o => [dBase o.slot o.base, rawReg o.fc o.vreg]
  | .aor o => [dBase o.slot o.base, rawReg o.fc o.vreg]
  | .axor o => [dBase o.slot o.base, rawReg o.fc o.vreg]
  | .aswp o => [dBase o.slot o.base, rawReg o.fc o.vreg]
  | .acas o => [dBase o.slot o.base, rawReg o.fc o.vreg, rawReg o.fc ((o.x.getD ⟨0, 0, 0, false, false, 0, 0⟩).step.extractLsb' 4 5)]
  | .afadd o => [dBase o.slot o.base, rawReg o.fc o.vreg]
  | .afmax o => [dBase o.slot o.base, rawReg o.fc o.vreg]
  | .l2pin o => [dBase o.slot o.base, dBase o.slot o.len]
  | .l2unpin o => [dBase o.slot o.base, dBase o.slot o.len]
  | .l2inv o => [dBase o.slot o.base, dBase o.slot o.len]
  | .cpy o => [.e o.ea]
  | .amsg o => [.e o.ea, .e o.eb]
  | .taskPost o => [.e o.ea, .e o.eb]
  | .taskDec o => [.e o.ea]
  | .ecntAdd o => if o.opt.getLsbD 1 then [] else [.e o.ea]
  | .ecntSet o => if o.opt.getLsbD 1 then [] else [.e o.ea]
  | .fork o => [.e o.ea, .e o.eb]
  | .spawn o => [.e o.ea, .e o.eb]
  | .join o => [.e o.ea]
  | .revSt o => [.e o.ea]
  | .coll o => [.e o.ea]
  | .esend o => [.e o.ea]
  | .xtloadFull o => [.e o.ea, .e o.eb]
  | .xtloadEntry o => [.e o.ea, .e o.eb]
  | .xtloadPage o => [.e o.eb]
  | .almw o => [.e o.ea]
  | .almwLen o => [.e o.ea]
  | _ => []

/-- Tile registers, accumulators and latches an operation writes. -/
def destElems (i : Instr) : List Elem :=
  match i with
  | .ldt o => [.tile o.tile.toNat]
  | .mzero o => [.acc o.acc.toNat]
  | .mlat o => [.lat o.lat.toNat]
  | .mma o => [.acc o.acc.toNat]
  | .mter o => [.acc o.acc.toNat]
  | .mdrain o => drainTiles o.fmt o.tile
  | .maccLd o => [.acc o.acc.toNat]
  | _ => []

/-- Tile registers, accumulators and latches an operation reads; those of a cpy come from its descriptor (R212). -/
def srcElems (i : Instr) (s : State) : List Elem :=
  match i with
  | .stt o => [.tile o.tile.toNat]
  | .mma o => [.lat o.lat.toNat]
  | .mter o => [.lat o.lat.toNat]
  | .mdrain o => [.acc o.acc.toNat]
  | .maccLd o => drainTiles 0 o.tile
  | .mchk o => [.acc o.acc.toNat]
  | .cpy o =>
    let b := scratchRead s s.sel.who (s.cpyAt o) 96
    if s.cur.limit < s.cpyAt o + 96 || cpyBad s.cur b then [] else (readCpy b 0 s.sel.who 0 0).elems
  | _ => []

/-- Control transfers (R25). -/
def isControl (i : Instr) : Bool :=
  match i with
  | .br _ | .bc _ | .call _ | .ret _ | .jr _ | .loop _ | .lbrk _ | .rfe _ => true
  | _ => false
/-- Block-ending operations (R57). -/
def endsBlock (i : Instr) : Bool :=
  match i with
  | .trap _ | .halt _ => true
  | i => isControl i
/-- Operations only S0 may hold (R44). -/
def onlyS0 (i : Instr) : Bool :=
  match i with
  | .halt _ | .wait _ | .waitReg _ | .yield _ | .trap _ => true
  | i => isControl i
/-- The class of an operation, from its slot. -/
def slotOf (i : Instr) : Option Slot := (slotGuard i).map (·.1)
/-- Operations that cannot be held (R25). -/
def noHold (i : Instr) : Bool := onlyS0 i || slotOf i = some .e
/-- Memory-class operations. -/
def isMemClass (i : Instr) : Bool := slotOf i = some .d0 || slotOf i = some .d1
/-- M-class forms. -/
def isMClass (i : Instr) : Bool := slotOf i = some .m
/-- The width code of a vector operation (R15). -/
def vecWidth (i : Instr) : Nat :=
  match i with
  | .vadd o => wBits o.w
  | .vsub o => wBits o.w
  | .vmul o => wBits o.w
  | .vfma o => wBits o.w
  | .vfms o => wBits o.w
  | .vfnma o => wBits o.w
  | .vmin o => wBits o.w
  | .vmax o => wBits o.w
  | .vabs o => wBits o.w
  | .vneg o => wBits o.w
  | .vsatadd o => wBits o.w
  | .vsatsub o => wBits o.w
  | .vclamp o => wBits o.w
  | .vdot4 o => wBits o.w
  | .vand o => wBits o.w
  | .vor o => wBits o.w
  | .vxor o => wBits o.w
  | .vandn o => wBits o.w
  | .vnot o => wBits o.w
  | .vshl o => wBits o.w
  | .vshr o => wBits o.w
  | .vsar o => wBits o.w
  | .vcmp o => wBits o.w
  | .vsel o => wBits o.w
  | .vmov o => wBits o.w
  | .vbcast o => wBits o.w
  | .viota o => wBits o.w
  | .vcvt o => wBits o.w
  | .vpack o => wBits o.w
  | .vunpack o => wBits o.w
  | .vperm o => wBits o.w
  | .vshuf o => wBits o.w
  | .vslide o => wBits o.w
  | .vcompress o => wBits o.w
  | .vexpand o => wBits o.w
  | .vredadd o => wBits o.w
  | .vredmax o => wBits o.w
  | .vredmin o => wBits o.w
  | .vscanAdd o => wBits o.w
  | .vscanMax o => wBits o.w
  | .vsegscan o => wBits o.w
  | .vcp o => wBits o.w
  | .mand o => wBits o.w
  | .mor o => wBits o.w
  | .mnot o => wBits o.w
  | .mpopc o => wBits o.w
  | _ => 0
/-- A 1,024-bit F operation (R16). -/
def wideF (i : Instr) : Bool :=
  match i with
  | .sfrcp o => o.w = 2
  | .sfrsq o => o.w = 2
  | .sfrcpr o => o.w = 2
  | .sfrsqr o => o.w = 2
  | .sfexp2 o => o.w = 2
  | .sflog2 o => o.w = 2
  | .sfsin o => o.w = 2
  | .sfcos o => o.w = 2
  | .sftanh o => o.w = 2
  | .sfsigm o => o.w = 2
  | .sferf o => o.w = 2
  | .sfsqrt o => o.w = 2
  | .sfdiv o => o.w = 2
  | .sfcp o => o.w = 2
  | _ => false

/-- The unit of OFF5 and STEP (R48, R49). -/
def stepUnit (i : Instr) : Nat :=
  match i with
  | .ldv o | .stv o => wBits o.sz / 8
  | .lds o | .sts o | .ldb o | .gth o | .sct o | .ldg o | .stg o => szBytes o.sz
  | .ldt _ | .stt _ | .ldtp _ => 128
  | _ => 0
/-- The held offset of a fresh operation (R49). -/
def offInit (i : Instr) : BitVec 32 :=
  match i with
  | .ldv o | .stv o | .lds o | .sts o | .ldb o | .gth o | .sct o | .ldg o | .stg o =>
    BitVec.ofInt 32 (o.off.toInt * (stepUnit i : Int))
  | _ => 0
/-- What one step adds to the held offset: gth and sct have none (R169). -/
def offStep (i : Instr) : BitVec 32 :=
  match i with
  | .ldv o | .stv o | .lds o | .sts o | .ldb o | .ldg o | .stg o =>
    (match o.x with | some e => BitVec.ofInt 32 (e.step.toInt * (stepUnit i : Int)) | none => 0)
  | .ldt o | .stt o | .ldtp o => (match o.x with | some e => BitVec.ofInt 32 (e.step.toInt * 128) | none => 0)
  | _ => 0

/-- The fault an operation with a true guard raises at issue (R55, R126, R166). -/
def slotFault (i : Instr) (s : State) : Option TrapArgs :=
  match i with
  | .rfe o => rfeFault o s
  | .csrr o => csrFault o 0x51 true false s
  | .csrw o => csrFault o 0x52 false true s
  | .csrx o => csrFault o 0x53 true true s
  | .ovtLd o => ovtFault o s
  | .ldv o => daLocalFault o s (daW o)
  | .stv o => stvFault o s
  | .lds o => daLocalFault o s (szBytes o.sz)
  | .sts o => daLocalFault o s (szBytes o.sz)
  | .ldb o => daLocalFault o s (szBytes o.sz)
  | .gth o => idxFault o s
  | .sct o => idxFault o s
  | .ldt o => dtFault o s true false
  | .stt o => dtFault o s false true
  | .ldtp o => dtFault o s false false
  | .ldg o => globalFault o s true false
  | .stg o => globalFault o s false true
  | .aadd o => atomicFault o s
  | .amin o => atomicFault o s
  | .amax o => atomicFault o s
  | .aminn o => atomicFault o s
  | .amaxn o => atomicFault o s
  | .aand o => atomicFault o s
  | .aor o => atomicFault o s
  | .axor o => atomicFault o s
  | .aswp o => atomicFault o s
  | .acas o => atomicFault o s
  | .afadd o => atomicFault o s
  | .afmax o => atomicFault o s
  | .l2pin o => dlFault o s
  | .l2unpin o => dlFault o s
  | .l2inv o => dlFault o s
  | .kld o => kldFault o s
  | .cpy o => eFault false 0 (1 + o.opt.toNat % 2) (cpyFault o s) s
  | .amsg o => eFault false 0 0 (amsgFault o s) s
  | .taskPost _ => eFault false 0 0 none s
  | .taskDec o => eFault false 0 0 (taskDecFault o s) s
  | .clbar _ => eFault false 0 0 none s
  | .chbar _ => eFault false 0 0 none s
  | .fork _ => eFault false 0 0 none s
  | .spawn _ => eFault false 0 0 none s
  | .join _ => eFault false 0 0 none s
  | .revSt _ => eFault false 0 0 none s
  | .flowMode o => eFault false 0 0 (fmFault o s) s
  | .slk _ => eFault false 0 0 none s
  | .coll o => eFault false 0 0 (collFault o s) s
  | .esend o => eFault false 0 0 (esendFault o s) s
  | .erel o => eFault false 0 0 (ringFault o true s) s
  | .eprobe o => eFault false 0 0 (ringFault o (o.opt.getLsbD 0) s) s
  | .xtloadFull _ => eFault true 0x20 0 none s
  | .xtloadEntry _ => eFault true 0x20 0 none s
  | .xtloadPage _ => eFault true 0x20 0 none s
  | .gbar _ => eFault false 0 0 none s
  | .almw _ => eFault true 0x22 0 none s
  | .almwLen _ => eFault true 0x22 0 none s
  | .migCtlStart _ => eFault true 0x23 0 none s
  | .migCtlDone _ => eFault true 0x23 0 none s
  | _ => none

/-- The queue an E form enters: none for ecnt (R213). -/
def eQueue (i : Instr) : Option Nat :=
  match i with
  | .ecntAdd _ | .ecntSet _ => none
  | .cpy o => some (1 + o.opt.toNat % 2)
  | i => if slotOf i = some .e then some 0 else none
/-- What an operation with a true guard blocks on (R19). -/
def slotBlock (i : Instr) (s : State) : Option BlockCause :=
  match i with
  | .wait o => s.waitBlock o.cc.toNat (o.thr.setWidth 32)
  | .waitReg o => s.waitBlock o.cc.toNat (s.waitThr o)
  | .stv o => (stvWindow o s).bind (fun n => if s.cur.csr.winAvail.toList.getD n 0 = 0 then some (.window n) else none)
  | i =>
    match eQueue i with
    | some q => if s.cur.room q = .block then some (.queue q) else none
    | none => fifoBlock i s
/-- Scratchpad bytes an operation with a true guard accesses at issue, for the first-touch test (R389). -/
def poolTouch (i : Instr) (s : State) : List (Nat × Nat) :=
  match i with
  | .ldv o => [(s.eaDA o (daW o), daW o)]
  | .stv o => if isWindow (s.eaDA o (daW o)) then [] else [(s.eaDA o (daW o), daW o)]
  | .lds o | .sts o | .ldb o => [(s.eaDA o (szBytes o.sz), szBytes o.sz)]
  | .gth o | .sct o => (s.eaIdx o).map (fun a => (a, szBytes o.sz))
  | .ldt o | .stt o | .ldtp o => [(s.descAt o, 16)]
  | .kld o => [(o.addr.toNat * 512, kldBytes o)]
  | .cpy o => [(s.cpyAt o, 96)]
  | .coll o => [(s.collAt o, 64)]
  | _ => []
/-- Requests an operation with a true guard adds to the core's outstanding ones (R291). -/
def newRequests (i : Instr) (s : State) : Nat :=
  match i with
  | .ldt o | .stt o | .ldtp o => (s.dtLines o).length
  | .stv o => if isWindow (s.eaDA o (daW o)) then 1 else 0
  | .ldg _ | .stg _ | .l2pin _ | .l2unpin _ | .l2inv _ => 1
  | .aadd _ | .amin _ | .amax _ | .aminn _ | .amaxn _ | .aand _ | .aor _ | .axor _ | .aswp _ | .acas _ | .afadd _ | .afmax _ => 1
  | _ => 0
/-- Entries of the segment store buffer an operation with a true guard takes (R333). -/
def bufferNeed (i : Instr) (s : State) : Nat :=
  match i with
  | .sts _ | .stv _ | .sct _ | .stt _ => 1
  | .ldt _ | .ldtp _ | .ldg _ => 0
  | i => newRequests i s
/-- ORD and SCOPE of an operation, 0 where it has none (R167). -/
def ordScope (i : Instr) : Nat × BitVec 3 :=
  let of := fun (x : Option MExt) => match x with | some e => (e.ord.toNat, e.scope) | none => (0, 0)
  match i with
  | .ldv o | .stv o | .lds o | .sts o | .ldb o | .gth o | .sct o | .ldg o | .stg o => of o.x
  | .ldt o | .stt o | .ldtp o => of o.x
  | .aadd o | .amin o | .amax o | .aminn o | .amaxn o | .aand o | .aor o | .axor o | .aswp o | .acas o | .afadd o | .afmax o => of o.x
  | _ => (0, 0)
/-- A store to the own scratchpad. -/
def isLocalStore (i : Instr) (s : State) : Bool :=
  match i with
  | .sts _ | .sct _ => true
  | .stv o => !isWindow (s.eaDA o (daW o))
  | _ => false

/-- The meaning of a slot operation: the same call as its arm of exec. -/
def slotMeaning (i : Instr) (s : State) : Out :=
  match i with
  | .add o => Sys2Proof.Machine.execAdd o s
  | .sub o => Sys2Proof.Machine.execSub o s
  | .mul o => Sys2Proof.Machine.execMul o s
  | .mulh o => Sys2Proof.Machine.execMulh o s
  | .mulhn o => Sys2Proof.Machine.execMulhn o s
  | .div o => Sys2Proof.Machine.execDiv o s
  | .divn o => Sys2Proof.Machine.execDivn o s
  | .rem o => Sys2Proof.Machine.execRem o s
  | .remn o => Sys2Proof.Machine.execRemn o s
  | .and o => Sys2Proof.Machine.execAnd o s
  | .or o => Sys2Proof.Machine.execOr o s
  | .xor o => Sys2Proof.Machine.execXor o s
  | .andn o => Sys2Proof.Machine.execAndn o s
  | .shl o => Sys2Proof.Machine.execShl o s
  | .shr o => Sys2Proof.Machine.execShr o s
  | .sar o => Sys2Proof.Machine.execSar o s
  | .rotl o => Sys2Proof.Machine.execRotl o s
  | .min o => Sys2Proof.Machine.execMin o s
  | .max o => Sys2Proof.Machine.execMax o s
  | .minn o => Sys2Proof.Machine.execMinn o s
  | .maxn o => Sys2Proof.Machine.execMaxn o s
  | .clz o => Sys2Proof.Machine.execClz o s
  | .ctz o => Sys2Proof.Machine.execCtz o s
  | .popc o => Sys2Proof.Machine.execPopc o s
  | .sext o => Sys2Proof.Machine.execSext o s
  | .zext o => Sys2Proof.Machine.execZext o s
  | .bfx o => Sys2Proof.Machine.execBfx o s
  | .bfi o => Sys2Proof.Machine.execBfi o s
  | .lea o => Sys2Proof.Machine.execLea o s
  | .sel o => Sys2Proof.Machine.execSel o s
  | .addi o => Sys2Proof.Machine.execAddi o s
  | .andi o => Sys2Proof.Machine.execAndi o s
  | .ori o => Sys2Proof.Machine.execOri o s
  | .xori o => Sys2Proof.Machine.execXori o s
  | .shli o => Sys2Proof.Machine.execShli o s
  | .shri o => Sys2Proof.Machine.execShri o s
  | .sari o => Sys2Proof.Machine.execSari o s
  | .li o => Sys2Proof.Machine.execLi o s
  | .lih o => Sys2Proof.Machine.execLih o s
  | .cmp o => Sys2Proof.Machine.execCmp o s
  | .pset o => Sys2Proof.Machine.execPset o s
  | .pand o => Sys2Proof.Machine.execPand o s
  | .por o => Sys2Proof.Machine.execPor o s
  | .pnot o => Sys2Proof.Machine.execPnot o s
  | .fadd o => Sys2Proof.Machine.execFadd o s
  | .fsub o => Sys2Proof.Machine.execFsub o s
  | .fmul o => Sys2Proof.Machine.execFmul o s
  | .fma o => Sys2Proof.Machine.execFma o s
  | .fmin o => Sys2Proof.Machine.execFmin o s
  | .fmax o => Sys2Proof.Machine.execFmax o s
  | .fcmp o => Sys2Proof.Machine.execFcmp o s
  | .fcvt o => Sys2Proof.Machine.execFcvt o s
  | .br o => Sys2Proof.Machine.execBr o s
  | .bc o => Sys2Proof.Machine.execBc o s
  | .call o => Sys2Proof.Machine.execCall o s
  | .ret o => Sys2Proof.Machine.execRet o s
  | .jr o => Sys2Proof.Machine.execJr o s
  | .loop o => Sys2Proof.Machine.execLoop o s
  | .lbrk o => Sys2Proof.Machine.execLbrk o s
  | .rrbSet o => Sys2Proof.Machine.execRrbSet o s
  | .rrbClr o => Sys2Proof.Machine.execRrbClr o s
  | .nop o => Sys2Proof.Machine.execNop o s
  | .halt o => Sys2Proof.Machine.execHalt o s
  | .wait o => Sys2Proof.Machine.execWait o s
  | .waitReg o => Sys2Proof.Machine.execWaitReg o s
  | .yield o => Sys2Proof.Machine.execYield o s
  | .trap o => Sys2Proof.Machine.execTrap o s
  | .rfe o => Sys2Proof.Machine.execRfe o s
  | .idr o => Sys2Proof.Machine.execIdr o s
  | .csrr o => Sys2Proof.Machine.execCsrr o s
  | .csrw o => Sys2Proof.Machine.execCsrw o s
  | .csrx o => Sys2Proof.Machine.execCsrx o s
  | .cp o => Sys2Proof.Machine.execCp o s
  | .ovtLd o => Sys2Proof.Machine.execOvtLd o s
  | .vadd o => Sys2Proof.Machine.execVadd o s
  | .vsub o => Sys2Proof.Machine.execVsub o s
  | .vmul o => Sys2Proof.Machine.execVmul o s
  | .vfma o => Sys2Proof.Machine.execVfma o s
  | .vfms o => Sys2Proof.Machine.execVfms o s
  | .vfnma o => Sys2Proof.Machine.execVfnma o s
  | .vmin o => Sys2Proof.Machine.execVmin o s
  | .vmax o => Sys2Proof.Machine.execVmax o s
  | .vabs o => Sys2Proof.Machine.execVabs o s
  | .vneg o => Sys2Proof.Machine.execVneg o s
  | .vsatadd o => Sys2Proof.Machine.execVsatadd o s
  | .vsatsub o => Sys2Proof.Machine.execVsatsub o s
  | .vclamp o => Sys2Proof.Machine.execVclamp o s
  | .vdot4 o => Sys2Proof.Machine.execVdot4 o s
  | .vand o => Sys2Proof.Machine.execVand o s
  | .vor o => Sys2Proof.Machine.execVor o s
  | .vxor o => Sys2Proof.Machine.execVxor o s
  | .vandn o => Sys2Proof.Machine.execVandn o s
  | .vnot o => Sys2Proof.Machine.execVnot o s
  | .vshl o => Sys2Proof.Machine.execVshl o s
  | .vshr o => Sys2Proof.Machine.execVshr o s
  | .vsar o => Sys2Proof.Machine.execVsar o s
  | .vcmp o => Sys2Proof.Machine.execVcmp o s
  | .vsel o => Sys2Proof.Machine.execVsel o s
  | .vmov o => Sys2Proof.Machine.execVmov o s
  | .vbcast o => Sys2Proof.Machine.execVbcast o s
  | .viota o => Sys2Proof.Machine.execViota o s
  | .vcvt o => Sys2Proof.Machine.execVcvt o s
  | .vpack o => Sys2Proof.Machine.execVpack o s
  | .vunpack o => Sys2Proof.Machine.execVunpack o s
  | .vperm o => Sys2Proof.Machine.execVperm o s
  | .vshuf o => Sys2Proof.Machine.execVshuf o s
  | .vslide o => Sys2Proof.Machine.execVslide o s
  | .vcompress o => Sys2Proof.Machine.execVcompress o s
  | .vexpand o => Sys2Proof.Machine.execVexpand o s
  | .vredadd o => Sys2Proof.Machine.execVredadd o s
  | .vredmax o => Sys2Proof.Machine.execVredmax o s
  | .vredmin o => Sys2Proof.Machine.execVredmin o s
  | .vscanAdd o => Sys2Proof.Machine.execVscanAdd o s
  | .vscanMax o => Sys2Proof.Machine.execVscanMax o s
  | .vsegscan o => Sys2Proof.Machine.execVsegscan o s
  | .vcp o => Sys2Proof.Machine.execVcp o s
  | .mand o => Sys2Proof.Machine.execMand o s
  | .mor o => Sys2Proof.Machine.execMor o s
  | .mnot o => Sys2Proof.Machine.execMnot o s
  | .mpopc o => Sys2Proof.Machine.execMpopc o s
  | .sfrcp o => Sys2Proof.Machine.execSfrcp o s
  | .sfrsq o => Sys2Proof.Machine.execSfrsq o s
  | .sfrcpr o => Sys2Proof.Machine.execSfrcpr o s
  | .sfrsqr o => Sys2Proof.Machine.execSfrsqr o s
  | .sfexp2 o => Sys2Proof.Machine.execSfexp2 o s
  | .sflog2 o => Sys2Proof.Machine.execSflog2 o s
  | .sfsin o => Sys2Proof.Machine.execSfsin o s
  | .sfcos o => Sys2Proof.Machine.execSfcos o s
  | .sftanh o => Sys2Proof.Machine.execSftanh o s
  | .sfsigm o => Sys2Proof.Machine.execSfsigm o s
  | .sferf o => Sys2Proof.Machine.execSferf o s
  | .sfsqrt o => Sys2Proof.Machine.execSfsqrt o s
  | .sfdiv o => Sys2Proof.Machine.execSfdiv o s
  | .sfcp o => Sys2Proof.Machine.execSfcp o s
  | .ldv o => Sys2Proof.Machine.execLdv o s
  | .stv o => Sys2Proof.Machine.execStv o s
  | .lds o => Sys2Proof.Machine.execLds o s
  | .sts o => Sys2Proof.Machine.execSts o s
  | .ldb o => Sys2Proof.Machine.execLdb o s
  | .gth o => Sys2Proof.Machine.execGth o s
  | .sct o => Sys2Proof.Machine.execSct o s
  | .ldt o => Sys2Proof.Machine.execLdt o s
  | .stt o => Sys2Proof.Machine.execStt o s
  | .ldtp o => Sys2Proof.Machine.execLdtp o s
  | .ldg o => Sys2Proof.Machine.execLdg o s
  | .stg o => Sys2Proof.Machine.execStg o s
  | .aadd o => Sys2Proof.Machine.execAadd o s
  | .amin o => Sys2Proof.Machine.execAmin o s
  | .amax o => Sys2Proof.Machine.execAmax o s
  | .aminn o => Sys2Proof.Machine.execAminn o s
  | .amaxn o => Sys2Proof.Machine.execAmaxn o s
  | .aand o => Sys2Proof.Machine.execAand o s
  | .aor o => Sys2Proof.Machine.execAor o s
  | .axor o => Sys2Proof.Machine.execAxor o s
  | .aswp o => Sys2Proof.Machine.execAswp o s
  | .acas o => Sys2Proof.Machine.execAcas o s
  | .afadd o => Sys2Proof.Machine.execAfadd o s
  | .afmax o => Sys2Proof.Machine.execAfmax o s
  | .fence o => Sys2Proof.Machine.execFence o s
  | .l2pin o => Sys2Proof.Machine.execL2pin o s
  | .l2unpin o => Sys2Proof.Machine.execL2unpin o s
  | .l2inv o => Sys2Proof.Machine.execL2inv o s
  | .wwait o => Sys2Proof.Machine.execWwait o s
  | .mzero o => Sys2Proof.Machine.execMzero o s
  | .mlat o => Sys2Proof.Machine.execMlat o s
  | .mma o => Sys2Proof.Machine.execMma o s
  | .mter o => Sys2Proof.Machine.execMter o s
  | .mdrain o => Sys2Proof.Machine.execMdrain o s
  | .maccLd o => Sys2Proof.Machine.execMaccLd o s
  | .mkat o => Sys2Proof.Machine.execMkat o s
  | .mchk o => Sys2Proof.Machine.execMchk o s
  | .kld o => Sys2Proof.Machine.execKld o s
  | .kset o => Sys2Proof.Machine.execKset o s
  | .kmov o => Sys2Proof.Machine.execKmov o s
  | .cpy o => Sys2Proof.Machine.execCpy o s
  | .amsg o => Sys2Proof.Machine.execAmsg o s
  | .taskPost o => Sys2Proof.Machine.execTaskPost o s
  | .taskDec o => Sys2Proof.Machine.execTaskDec o s
  | .ecntAdd o => Sys2Proof.Machine.execEcntAdd o s
  | .ecntSet o => Sys2Proof.Machine.execEcntSet o s
  | .clbar o => Sys2Proof.Machine.execClbar o s
  | .chbar o => Sys2Proof.Machine.execChbar o s
  | .fork o => Sys2Proof.Machine.execFork o s
  | .spawn o => Sys2Proof.Machine.execSpawn o s
  | .join o => Sys2Proof.Machine.execJoin o s
  | .revSt o => Sys2Proof.Machine.execRevSt o s
  | .flowMode o => Sys2Proof.Machine.execFlowMode o s
  | .slk o => Sys2Proof.Machine.execSlk o s
  | .coll o => Sys2Proof.Machine.execColl o s
  | .esend o => Sys2Proof.Machine.execEsend o s
  | .erel o => Sys2Proof.Machine.execErel o s
  | .eprobe o => Sys2Proof.Machine.execEprobe o s
  | .xtloadFull o => Sys2Proof.Machine.execXtloadFull o s
  | .xtloadEntry o => Sys2Proof.Machine.execXtloadEntry o s
  | .xtloadPage o => Sys2Proof.Machine.execXtloadPage o s
  | .gbar o => Sys2Proof.Machine.execGbar o s
  | .almw o => Sys2Proof.Machine.execAlmw o s
  | .almwLen o => Sys2Proof.Machine.execAlmwLen o s
  | .migCtlStart o => Sys2Proof.Machine.execMigCtlStart o s
  | .migCtlDone o => Sys2Proof.Machine.execMigCtlDone o s
  | _ => .refused .notASlotOperation

end Sys2Proof.Machine
end

