-- ==== Sys2Proof/Machine/Bundle.lean ====
section
/-! DEFINITION. Sys2Proof/Machine/Bundle.lean: the issue of a bundle: fetch, signature, legality, scoreboard, blocks, faults
and issue (spec/01 R20 to R37, spec/02 R56 to R60, spec/14 R328 to R340), and the commit of a segment. -/

namespace Sys2Proof.Machine

/-! ## The operations of a bundle (R22 to R25) -/

/-- A slot of a bundle: what its syllables or its memory hold, whether it is held, and what decoding says. -/
structure BundleSlot where
  slot : Slot
  op : Option Instr
  held : Bool
  err : Option DecodeErr
  deriving DecidableEq, Repr

/-- A slot's held-operation memory. -/
def Ctx.heldOp (c : Ctx) (sl : Slot) : Held := c.held.toList.getD sl.index Held.none

/-- Tile registers and accumulators a matrix or tile form names that the kernel does not have (R60 reserved values). -/
def beyondPool (c : Ctx) (i : Instr) (s : State) : Bool :=
  (isMClass i || (match i with | .ldt _ | .stt _ => true | _ => false)) &&
    (destElems i ++ srcElems i s).any (fun e =>
      match e with
      | .tile n => c.csr.poolTiles.toNat ≤ n
      | .acc n => c.csr.poolAccs.toNat ≤ n
      | _ => false)

/-- A present slot read. -/
def State.presentUse (s : State) (g : Group) : BundleSlot :=
  if s.cur.noMatrix && g.slot = .m then ⟨g.slot, none, false, some .unassigned⟩
  else
    match decodeSlot g.slot g.w g.x with
    | .ok i => ⟨g.slot, some i, false, if beyondPool s.cur i s then some .reserved else none⟩
    | .error e => ⟨g.slot, parse g.slot g.w g.x, false, some e⟩
/-- The slots of a bundle that are present or held. -/
def State.uses (s : State) (r : Raw) : List BundleSlot :=
  allSlots.filterMap (fun sl =>
    match r.groups.find? (fun g => g.slot = sl) with
    | some g => some (s.presentUse g)
    | none =>
      if holdBit r.hdr sl then
        let h := s.cur.heldOp sl
        some ⟨sl, h.op, true, none⟩
      else none)
/-- The operations of a bundle, in slot order. -/
def opsOf (u : List BundleSlot) : List (Slot × Instr) := u.filterMap (fun q => q.op.map (fun i => (q.slot, i)))

/-! ## Legality (R36, R37) -/

/-- The register file of a destination: its owner's slot; none for what is no register file (R9, R11). -/
def fileOf (d : Dest) : Option Slot :=
  match d with
  | .a _ | .pa _ => some .s0
  | .b _ | .pb _ => some .s1
  | .x _ | .mx _ => some .v0
  | .y _ | .my _ => some .v1
  | .z _ | .mz _ => some .v2
  | .w _ => some .f
  | .g _ => some .d0
  | .h _ => some .d1
  | .c _ => some .k
  | .e _ => some .e
  | _ => none

/-- The destinations rule [19] compares, each with what its written number has above its file's registers. -/
def destsOf (i : Instr) : List (Elem × Nat) :=
  (destRegs i).filterMap (fun d => if d = .none then none else some (.reg d, destOver i)) ++ (destElems i).map (fun e => (e, 0))
/-- The width a vector slot takes: of the syllable, whatever its opcode, or of the held operation (R15, R45). -/
def slotWidth (r : Raw) (q : BundleSlot) : Nat :=
  match r.groups.find? (fun g => g.slot = q.slot) with
  | some g => wBits (g.w.extractLsb' 18 2)
  | none => (q.op.map vecWidth).getD 0

/-- A set of slots as bits. -/
def slotBits (l : List Slot) : BitVec 11 := l.foldl (fun a sl => a ||| (1#11 <<< sl.index)) 0

/-- REASON bit of a rule [19] to [28]. -/
def reasonBit (rule : Nat) : BitVec 10 := 1#10 <<< (rule - 19)

/-- One rule: its REASON bit when it marks a slot. -/
def marks (rule : Nat) (l : List Slot) : BitVec 10 × BitVec 11 := if l.isEmpty then (0, 0) else (reasonBit rule, slotBits l)

/-- Slots that name a destination another slot names too (R37 [19]), or an M form that writes a tile a D slot reads. -/
def clashSlots (ops : List (Slot × Instr)) (s : State) : List Slot :=
  (ops.filter (fun p => ops.any (fun q => q.1 ≠ p.1 && (destsOf p.2).any (fun d => (destsOf q.2).contains d)))).map (·.1) ++
  (ops.filter (fun p => ops.any (fun q =>
    (p.1 = .m && isMemClass q.2 && (destElems p.2).any (fun e => (srcElems q.2 s).contains e)) ||
    (isMemClass p.2 && q.1 = .m && (destElems q.2).any (fun e => (srcElems p.2 s).contains e))))).map (·.1)

/-- The files an operation writes. -/
def filesOf (i : Instr) : List Slot := (destRegs i).filterMap fileOf
/-- Files that would receive more than two foreign writes (R12). -/
def crowded (ops : List (Slot × Instr)) : List Slot :=
  allSlots.filter (fun file =>
    2 < (ops.flatMap (fun p => if p.1 = file then [] else (filesOf p.2).filter (fun q => q = file))).length)

/-- Every violated rule of legality, and the slots it marks (R37). -/
def State.illegal (s : State) (r : Raw) : BitVec 10 × BitVec 11 :=
  let u := s.uses r
  let ops := opsOf u
  let who := fun (p : BundleSlot → Bool) => (u.filter p).map (fun q => q.slot)
  let vec := u.filter (fun q => q.slot = .v0 || q.slot = .v1 || q.slot = .v2)
  let seg := r.hdr.getLsbD 29
  let rept := natFld r.hdr.toNat 22 6 ≠ 0
  let s0ctl := ops.any (fun p => p.1 = .s0 && isControl p.2)
  let rules : List (BitVec 10 × BitVec 11) :=
    [ marks 19 (clashSlots ops s),
      marks 20 ((ops.filter (fun p => (crowded ops).any (fun file => (filesOf p.2).contains file))).map (·.1)),
      marks 21 (if 2048 < (vec.map (slotWidth r)).foldl (· + ·) 0 then vec.map (fun q => q.slot) else []),
      marks 22 (allSlots.filter (fun sl => presentBit r.hdr sl && holdBit r.hdr sl)),
      marks 23 (who (fun q => q.held && !q.op.any (fun i => !noHold i))),
      marks 24 (who (fun q => q.err = some .unassigned)),
      marks 25 (who (fun q => q.err = some .reserved)),
      marks 26 (if rept && s0ctl then [.s0] else []),
      marks 27 ((ops.filter (fun p => p.1 = .s1 && onlyS0 p.2)).map (·.1)),
      marks 28 (if (s.cur.inSeg || seg) && ops.any (fun p => external p.2) && (seg || rept || s0ctl) then [.e] else []),
      (if r.hdr.getLsbD 31 || (seg && !r.hdr.getLsbD 28) ||
          (match r.rdv with | some v => natFld v.toNat 0 8 ≠ 0 || natFld v.toNat 8 8 = 0 | none => false)
       then reasonBit 25 else 0, 0) ]
  rules.foldl (fun a q => (a.1 ||| q.1, a.2 ||| q.2)) (0, 0)

/-! ## The block signature (R28, R56 to R59) -/

/-- The bundle holds a block-ending operation in S0 (R57). -/
def Raw.ends (r : Raw) : Bool :=
  (r.groups.find? (fun g => g.slot = .s0)).any (fun g => (parse .s0 g.w g.x).any endsBlock)
/-- The syllables of a bundle as they are fed: the signature syllable as 0 (R56). -/
def State.fed (s : State) (r : Raw) : List Syl :=
  (upTo r.len).map (fun i => if i = 1 ∧ r.sigv.isSome then 0 else s.sylAt s.sel.who (s.cur.pc.toNat + 4 * i))
/-- A CF_SIG of the bundle at an address. -/
def cfSig (pc info : BitVec 64) : TrapArgs := { code := 0x02, info := info, pc := pc, reason := 0, slots := 0, freeze := .none }

/-- The first decode of a bundle: its syllables enter the running signature, and what it raises (R58, R59). -/
def State.firstDecode (s : State) (r : Raw) : State × Option TrapArgs :=
  let c := s.cur
  let s0 := s.upd (fun c => { c with sig0 := c.sig, arrive0 := c.arrive })
  let fallCrc := crcFinal c.sig.crc
  if r.sigv.isNone && (c.arrive = .taken || c.arrive = .afterEnd) then
    (s0.upd (fun c => { c with arrive := .again }), some (cfSig c.pc 0))
  else if r.sigv.isSome && c.arrive = .plain && c.sig.live && fallCrc ≠ c.sig.sigv then
    (s, some (cfSig c.lastPc (fallCrc.setWidth 64)))
  else
    let fedSig : Sig :=
      match r.sigv with
      | some v => { crc := (s.fed r).foldl crcSyl crcInit, sigv := v, live := true }
      | none => if c.sig.live then { c.sig with crc := (s.fed r).foldl crcSyl c.sig.crc } else c.sig
    let s1 := s0.upd (fun c => { c with sig := fedSig, arrive := .again })
    if r.ends && fedSig.live then
      let crc := crcFinal fedSig.crc
      if crc = fedSig.sigv then (s1.upd (fun c => { c with sig := { c.sig with live := false } }), none)
      else (s1, some (cfSig c.pc (crc.setWidth 64)))
    else (s1, none)

/-! ## What holds a bundle back -/

/-- The guard of an operation of a slot, at this issue cycle. -/
def State.active (s : State) (i : Instr) : Bool := (slotGuard i).any (fun q => s.guard q.1 q.2)

/-- Elements and scalar registers an operation touches (R33). -/
def touches (i : Instr) (s : State) : List Elem :=
  (destRegs i ++ srcRegs i).map Elem.reg ++ destElems i ++ srcElems i s
/-- The busy bits a bundle waits for: those of M-class forms do not hold back M-class forms (R192). -/
def State.busyHits (s : State) (ops : List (Slot × Instr)) : List Busy :=
  ops.flatMap (fun p => s.cur.busy.filter (fun b => (touches p.2 s).contains b.elem && !(b.core && isMClass p.2)))
/-- The buffered accesses of the context. -/
def State.held (s : State) (w : Who) : List Pkt := s.pkts.filter (fun p => p.who = w ∧ p.stage = Stage.buffered)
/-- An acquire access. -/
def Pkt.acquires (p : Pkt) : Bool := p.isLoad && (p.ord = 1 || p.ord = 3)
/-- An operation that stores with release to the own scratchpad, and its scope (R181). In a segment it waits in the store
buffer like every other store (R183), and its bundle for the accesses from before the segment alone. -/
def relScope (i : Instr) (s : State) : Option Nat :=
  if isLocalStore i s && (ordScope i).1 = 2 then some (s.scopeAs (ordScope i).2) else none
/-- A fence that stalls later memory bundles is satisfied (R182): `p` picks the accesses that may still hold it. -/
def State.fenceWaits (s : State) (f : FenceRec) (p : Pkt → Bool) : Bool :=
  (f.kind = 1 || f.kind = 3) &&
    s.flights.any (fun q => q.who = s.sel.who && q.po < f.po && p q &&
      ((q.isLoad && !q.dropLanding) || (f.kind = 3 && !q.done && q.covered f.scope)))

/-- The bundle would wait on an access of the segment store buffer, or fill it: it commits the instance first (R184). -/
def State.waitsOnBuffer (s : State) (ops : List (Slot × Instr)) : Bool :=
  let buf := s.held s.sel.who
  let ids := buf.map (·.id) ++ buf.map (·.xfer)
  let act := (ops.map (·.2)).filter s.active
  !buf.isEmpty && (
    (s.busyHits ops).any (fun b => ids.contains b.id) ||
    act.any (fun i => match i with | .fence o => o.kind = 1 || o.kind = 3 | .wwait _ => true | _ => false) ||
    (act.any isMemClass && (buf.any Pkt.acquires || s.cur.fences.any (fun f => s.fenceWaits f (fun q => q.stage = .buffered)))) ||
    (let need := (act.map (fun i => bufferNeed i s)).foldl (· + ·) 0
     0 < need && 256 < s.bufferUse s.sel.who + need))
/-- An open instance must commit before the bundle issues (R329). -/
def State.entryWanted (s : State) (r : Raw) (ops : List (Slot × Instr)) : Bool :=
  s.cur.inSeg && !s.cur.entryNext &&
    ((r.hdr.getLsbD 29 && !s.cur.repOn) || 4096 ≤ s.cur.segIssues || s.waitsOnBuffer ops)

/-- Stalls of R33: busy elements, ordering, a full M queue, the outstanding-request limit. DESIGN CHOICE (log 52): a release
store of slot D1 does not stall its bundle for the access of slot D0, which has not issued; it is performed after it. -/
def State.stalls (s : State) (ops : List (Slot × Instr)) : Bool :=
  let c := s.cur
  let act := (ops.map (·.2)).filter s.active
  let mem := act.any isMemClass
  let news := (act.map (fun i => if c.inSeg && bufferNeed i s ≠ 0 then 0 else newRequests i s)).foldl (· + ·) 0
  !(s.busyHits ops).isEmpty ||
  (act.any isMClass && s.mqFull) ||
  act.any (fun i => match i with | .wwait o => s.windowOut s.sel.who o.win.toNat c.po | _ => false) ||
  (mem && (s.t < c.acqUntil || s.flights.any (fun q => q.who = s.sel.who && q.acquires && !q.dropLanding))) ||
  (mem && c.fences.any (fun f => s.fenceWaits f (fun _ => true) || ((f.kind = 1 || f.kind = 3) && s.t < c.loadUntil))) ||
  (news ≠ 0 && 1024 < s.outstanding s.coreId + news) ||
  act.any (fun i => (relScope i s).any (fun k =>
    (s.earlier s.sel.who (s.poOf ((slotOf i).getD .d0))).any (fun q => q.covered k)))

/-- The first block of the bundle, by slot order; two stores through one window need two units (R19, R170). -/
def State.blocks (s : State) (ops : List (Slot × Instr)) : Option BlockCause :=
  let act := (ops.map (·.2)).filter s.active
  match act.findSome? (fun i => slotBlock i s) with
  | some b => some b
  | none =>
    let ws := act.filterMap (fun i => match i with | .stv o => stvWindow o s | _ => none)
    (ws.find? (fun n => (s.cur.csr.winAvail.toList.getD n 0).toNat < (ws.filter (fun k => k = n)).length)).map BlockCause.window
/-- A WANTED pool unit that the bundle's accesses at issue touch first (R389). -/
def State.firstTouch (s : State) (ops : List (Slot × Instr)) : Option Nat :=
  let act := (ops.map (·.2)).filter s.active
  let us := (s.core s.coreId).units
  (act.flatMap (fun i => poolTouch i s)).findSome? (fun q =>
    (us.map (·.1)).find? (fun u => (us.get u ⟨none, false, false⟩).wanted &&
      decide (u * 65536 < q.1 + q.2 ∧ q.1 < (u + 1) * 65536)))
/-- The state a later slot's fault looks at: a local store before it in the bundle is in the pool (R172, R179). -/
def afterStore (i : Instr) (s : State) : State :=
  if isLocalStore i s then (match slotMeaning i s with | .next s' => s' | _ => s) else s
/-- The faults of operations in slot order, each over the local stores before it. -/
def faultsFrom : List Instr → State → List TrapArgs
  | [], _ => []
  | i :: r, s =>
    match slotFault i s with
    | some a => a :: faultsFrom r s
    | none => faultsFrom r (afterStore i s)
/-- The faults of the bundle, in slot order: the first is taken (log 9). -/
def State.faults (s : State) (ops : List (Slot × Instr)) : List TrapArgs := faultsFrom ((ops.map (·.2)).filter s.active) s

/-! ## Issue -/

/-- A new instance opens at the bundle about to issue, and its shadow is taken (R328, R332). -/
def openInstance (s : State) : State :=
  let id := s.nextId
  s.fresh.upd (fun c =>
    { c with inSeg := true, entryNext := false, segInst := id, segRetry := c.segRetry && c.inSeg, segSafe := true,
             segIssues := 0, closing := [], closeDue := false,
             shadow := some { regs := c.regs, held := c.held, rep := c.rep, repOn := c.repOn, arrive := c.arrive0,
                              sig := c.sig0, flags := c.csr.flags, slackDef := c.csr.slackDef, slackCtl := c.csr.slackCtl,
                              flowCur := c.csr.flowCur, aliasDef := c.csr.aliasDef, ctxHdl := c.csr.ctxHdl,
                              engStat := c.csr.engStat, ccnt := c.csr.ccnt, pc := c.pc },
             csr := { c.csr with segEntry := (c.pc - c.imageBase).setWidth 32 } })

/-- The held-operation memories as an issue finds them: a held operation is advanced, a present one recorded or, in a
repeated bundle, stepped from where its last issue left it: in `k`, which is the memory itself but after an rfe (R24, R26,
R49). -/
def stepHeld (u : List BundleSlot) (again : Bool) (k h : Vector Held 11) : Vector Held 11 :=
  h.mapIdx (fun i m =>
    match u.find? (fun q => q.slot.index = i) with
    | some q =>
      (match q.op with
       | some op =>
         if q.held then { m with off := m.off + offStep op }
         else if again then { op := some op, off := (k.toList.getD i m).off + offStep op }
         else { op := some op, off := offInit op }
       | none => m)
    | none => m)
/-- A context's held-operation memories as the issue of a bundle finds them. -/
def Ctx.stepped (c : Ctx) (u : List BundleSlot) : Vector Held 11 := stepHeld u c.repOn (c.resume.getD c.held) c.held

/-- The state a bundle's checks look at: its held-operation memories as its issue would find them. -/
def State.look (s : State) (u : List BundleSlot) : State := s.upd (fun c => { c with held := c.stepped u })

/-- Operations that act after every other slot of their bundle. -/
def isLate (i : Instr) : Bool :=
  match i with
  | .ovtLd _ | .trap _ | .halt _ | .yield _ | .wait _ | .waitReg _ => true
  | i => isControl i
/-- Run operations in order; a fault or refusal of one is the bundle's. -/
def runOps : List Instr → State → Out
  | [], s => .next s
  | i :: r, s =>
    match slotMeaning i s with
    | .next s' => runOps r s'
    | o => o
/-- The order in which a bundle's operations act: D0 before D1 and both before K and E; ovt.ld, then what ends the issue. A
wait takes from its counter after the bundle's csrr has read it (R29). -/
def runOrder (ops : List (Slot × Instr)) : List Instr :=
  let l := ops.map (·.2)
  l.filter (fun i => !isLate i) ++ l.filter (fun i => isLate i && !onlyS0 i) ++ l.filter (fun i => isLate i && onlyS0 i)

/-- Fences that no access can hold any more are dropped. -/
def State.liveFences (s : State) (c : Ctx) : List FenceRec :=
  c.fences.filter (fun f => s.flights.any (fun q => q.who = s.sel.who && q.po < f.po) || s.formsPending s.sel.who f.po || s.t < c.loadUntil)

/-- Before the operations run: the instance, its count, the current group, the repeat count, the held memories. -/
def beginIssue (r : Raw) (u : List BundleSlot) (s : State) : State :=
  let c := s.cur
  let first := !c.repOn
  let s1 := if c.entryNext || (r.hdr.getLsbD 29 && first) then openInstance s else s
  s1.upd (fun c =>
    { c with segIssues := if c.inSeg then c.segIssues + 1 else c.segIssues,
             csr := { c.csr with segGroup := match r.rdv with
                        | some v => if first then (v >>> 8).setWidth 8 else c.csr.segGroup
                        | none => c.csr.segGroup },
             rep := if first then natFld r.hdr.toNat 22 6 else c.rep,
             fences := s.liveFences c,
             flight := c.snaps.map (fun l => { l with issued := s.t - 1, bound := s.t + l.bound }) ++ c.fixLoads.flight, snaps := [], held := c.stepped u, resume := none, fall := c.pc + BitVec.ofNat 64 (4 * r.len), next := none, moved := false,
             lastPc := c.pc })
/-- After them: the clock, the place in program order, the yields that waited for this issue, and the next bundle. -/
def endIssue (r : Raw) (ops : List (Slot × Instr)) (s : State) : State :=
  let w := s.sel.who
  let n := if ops.any (fun p => wideF p.2) then 2 else 1
  let s1 := (s.updCore w.coreId (fun k => { k with clk := k.clk + n })).updRgang w.chip (fun g => { g with issues := g.issues + 1 })
  let s2 := { s1 with ctxs := s1.ctxs.map (fun (p : Who × Ctx) =>
    if p.1.chip = w.chip ∧ p.1.clus = w.clus ∧ p.1.core = w.core then
      (p.1, { p.2 with yieldFor := p.2.yieldFor.filter (fun k => k ≠ w.ctx) }) else p) }
  s2.upd (fun c =>
    let c := { c with po := c.po + 4, closeDue := c.inSeg && (c.closeDue || ops.any (fun p => external p.2)) }
    if c.moved then c
    else
      match c.next with
      | some (t, again) =>
        if again then
          { c with pc := t, next := none, arrive := c.trap.arrive, arrive0 := c.trap.arrive0, lastPc := c.trap.last, sig0 := c.trap.sig0 }
        else
          { c with pc := t, next := none, rep := 0, repOn := false, arrive := .taken, sig := { c.sig with live := false } }
      | none =>
        if 0 < c.rep then { c with rep := c.rep - 1, repOn := true, arrive := .again }
        else { c with pc := c.fall, rep := 0, repOn := false, arrive := if r.ends then .afterEnd else .plain })

/-- A trap in place of the bundle's issue; an implicit entry it would have been is gone, since a handler and its rfe run
outside segments (R329). -/
def State.failWith (s : State) (a : TrapArgs) : State :=
  (raiseTrap s a).upd (fun c => if retryable a.code then c else { c with entryNext := c.entryNext && c.inSeg })
/-- Further faults of the bundle with the cause and page of the one taken count in its record (R365). -/
def State.coalesce (s : State) (a : TrapArgs) (l : List TrapArgs) (rec : Bool) : State :=
  let w := s.sel.who
  let term := !retryable a.code
  let q := a.toRec w (s.gctxOf w.chip) term
  if rec then
    ((l.map (fun b => b.toRec w (s.gctxOf w.chip) term)).filter (fun b => b.sameAs q)).foldl (fun s b => s.fileFault w.chip (s.vf w.chip) b) s
  else s
/-- A cycle passes on the core of the step. -/
def State.tick (s : State) : State := s.updCore s.coreId (fun k => { k with clk := k.clk + 1 })

/-- A first touch: the context freezes with its bundle unissued, and the unit starts to move (R389). -/
def freezeTouch (s : State) (u : Nat) : State :=
  let s1 := (leaveCore s s.sel.who).upd (fun c =>
    { c with st := .frozen, from_ := .ready, freeze := .touch u, fcycFrom := s.t })
  s1.updCore s.coreId (fun k => { k with units := k.units.set u { k.units.get u ⟨none, true, false⟩ with moving := true } })

/-- The bundle of the running context from its legality on (R34). -/
def issueFrom (r : Raw) (s : State) : Out :=
  let c := s.cur
  let u := s.uses r
  let ops := opsOf u
  let bad := s.illegal r
  if bad.1 ≠ 0 then .next (s.failWith { code := 0x01, info := 0, pc := c.pc, reason := bad.1, slots := bad.2, freeze := .none }).tick
  else if (s.look u).entryWanted r ops || (s.look u).stalls ops then .next (stallCycle s)
  else if r.rdv.isSome && !c.holds.isEmpty then
    .next ((stallCycle s).upd (fun c => { c with csr := { c.csr with segWrid := ((r.rdv.getD 0) >>> 16).setWidth 16 } }))
  else
    match (s.look u).blocks ops with
    | some b => .next (blockOn s b).tick
    | none =>
      match (s.look u).firstTouch ops with
      | some n => .next (freezeTouch s n).tick
      | none =>
        match (s.look u).faults ops with
        | a :: l => .next ((s.failWith a).coalesce a l (retryable a.code || !s.vectored s.sel.who)).tick
        | [] =>
          match runOps (runOrder ops) (beginIssue r u s) with
          | .next s' => .next (endIssue r ops s')
          | o => o

/-- The instance must commit before anything else of the context: after a closing bundle or a halt, or for a trap to TVEC,
which may also meet an instance that has been rewound and not entered again (R329). -/
def Ctx.mustCommit (c : Ctx) : Bool := c.inSeg && (c.pend.isSome || (!c.entryNext && (c.closeDue || c.halting)))
/-- The next bundle of the running context: what waits for a commit, fetch, first decode, and the rest. -/
def examine (s : State) : Out :=
  let c := s.cur
  if c.mustCommit then .next (stallCycle s)
  else
    match s.bundleFault c.pc.toNat with
    | some a => .next (s.failWith a).tick
    | none =>
      let r := s.rawAt s.sel.who c.pc.toNat
      if c.arrive = .again then issueFrom r s
      else
        let s0 := s.fetchLines (c.pc.toNat % 2 ^ 40) r.len
        unitGate s (s.fetchAt (c.pc.toNat % 2 ^ 40) r.len)
          (match s0.fetchPoison c.pc.toNat r.len with
           | some a => .next (raiseCause s0 s.sel.who a false s0.cur.inst).tick
           | none =>
             match s0.firstDecode r with
             | (s1, some a) => .next (raiseCause s1 s.sel.who a false s1.cur.inst).tick
             | (s1, none) => issueFrom r s1)

/-! ## BUNDLE_ISSUE -/

/-- Contexts of a chip may issue: a gang runs there, and the chip is neither frozen nor pre-empting (R374, R390, R431). -/
def State.mayIssue (s : State) (n : Nat) : Bool :=
  (s.chip n).running.isSome && !(s.chip n).frozen && (s.chip n).vote.member.isNone
/-- The next ready context of a core in round-robin order (R19, R224). -/
def State.nextReady (s : State) (c : CoreId) : Option Nat :=
  ((upTo 4).map (fun i => ((s.core c).last + 1 + i) % 4)).find? (fun x => (s.ctx ⟨c.chip, c.clus, c.core, x⟩).st = .ready)
/-- The context that issues next on a core. -/
def State.issuer (s : State) (c : CoreId) : Option Nat :=
  match (s.core c).run with | some x => some x | none => s.nextReady c
/-- The context runs on its core. -/
def takeCore (s : State) (w : Who) : State :=
  if (s.core w.coreId).run = some w.ctx then s
  else (s.updCore w.coreId (fun k => { k with run := some w.ctx })).updCtx w (fun c => { c with st := .running })
/-- BUNDLE_ISSUE (R34): the context that the step acts for decodes, checks and issues its next bundle; its results whose
bounds have passed have landed (R30), and the faults found for it have been raised (R436). -/
def execBundleIssue (s : State) : Out :=
  let w := s.sel.who
  if s.mayIssue w.chip && s.issuer w.coreId = some w.ctx && (s.ctx w).late.isEmpty && (splitDue (s.clkOf w) (s.ctx w).flight []).1.isEmpty then examine (takeCore s w) else .fault .notEnabled

/-! ## SEGMENT_COMMIT, SEGMENT_ISSUE_LIMIT, HOLD_RELEASE -/

/-- The running context stands before a bundle that makes its instance commit (R329). -/
def State.entryDue (s : State) : Bool :=
  let c := s.cur
  c.st = .running && c.inSeg && !c.entryNext && c.arrive = .again && (s.bundleFault c.pc.toNat).isNone &&
    (let r := s.rawAt s.sel.who c.pc.toNat
     (s.illegal r).1 = 0 && (s.look (s.uses r)).entryWanted r (opsOf (s.uses r)))
/-- A boundary that ends the instance has been reached. -/
def Ctx.endDue (c : Ctx) : Bool :=
  c.mustCommit && (c.st = .running || c.st = .ready || c.st = .blocked || c.st = .dormant)
/-- A commit at a boundary. An entry follows when a bundle waits to become one. -/
def commitNow (s : State) : State :=
  let w := s.sel.who
  let fin := s.cur.endDue
  let s1 := segCommit s w
  if fin then afterCommit s1 w else s1.upd (fun c => { c with entryNext := true })
/-- SEGMENT_COMMIT (R333). -/
def execSegmentCommit (s : State) : Out :=
  if (s.cur.endDue || (s.entryDue && s.cur.segIssues < 4096)) && s.commitReady s.sel.who then .next (commitNow s)
  else .fault .notEnabled
/-- SEGMENT_ISSUE_LIMIT (R329): the issue that would be the instance's 4,097th becomes an entry. -/
def execSegmentIssueLimit (s : State) : Out :=
  if !s.cur.endDue && s.entryDue && 4096 ≤ s.cur.segIssues && s.commitReady s.sel.who then .next (commitNow s)
  else .fault .notEnabled
/-- The rewinders whose hold on a context has ended: their rewound instance has committed (R340). A terminal one releases
its holds itself. -/
def State.endedHolds (s : State) (w : Who) : List Nat :=
  (s.ctx w).holds.filter (fun k => !(s.ctx { w with core := k }).segRetry)
/-- HOLD_RELEASE (R340). -/
def execHoldRelease (s : State) : Out :=
  let l := s.endedHolds s.sel.who
  if l.isEmpty then .fault .notEnabled else .next (s.upd (fun c => { c with holds := c.holds.filter (fun k => !l.contains k) }))

end Sys2Proof.Machine
end

