-- ==== Sys2Proof/Machine/EvCore.lean ====
section
/-! DEFINITION. Sys2Proof/Machine/EvCore.lean: the events of a context and its core: results, late faults, blocks, queues,
matrix forms and copies (spec/01 R19, R30, spec/08 R188 to R212, spec/09 R233 to R236, spec/18 R436). -/

namespace Sys2Proof.Machine

/-- An event under its condition (log 16). -/
def when_ (b : Bool) (s : State) : Out := if b then .next s else .fault .notEnabled

/-! ## RESULT_LAND (R17, R30, R31, R81, R133) -/

/-- The order in which status effects of results take place: by bound, register writes before flags. -/
def statusKey (l : Landing) : Nat := 2 * l.bound + (match l.dest with | .csr _ => 0 | _ => 1)
/-- Insert by key, after entries of the same key. -/
def insertBy (l : Landing) : List Landing → List Landing
  | [] => [l]
  | x :: r => if statusKey x ≤ statusKey l then x :: insertBy l r else l :: x :: r
/-- Results by status order. -/
def byStatus : List Landing → List Landing
  | [] => []
  | l :: r => insertBy l (byStatus r)
/-- A register write that a segment's shadow keeps when it was issued before the entry (R332). -/
def shadowCsr (h : Shadow) (n : BitVec 12) (v : BitVec 64) : Shadow :=
  match n.toNat with
  | 0x000 => { h with flags := h.flags &&& ~~~(v.setWidth 7) }
  | 0x002 => { h with slackDef := v.setWidth 12 }
  | 0x003 => { h with aliasDef := v.setWidth 4 }
  | 0x043 => { h with engStat := h.engStat &&& ~~~(v.setWidth 3) }
  | 0x044 => { h with ctxHdl := v }
  | 0x078 => { h with slackCtl := v.setWidth 9 }
  | 0x07A => { h with flowCur := v.setWidth 8 }
  | _ => h
/-- Flags that completions have set in the cycle of a clear of ARITH_FLAGS or later: they stand after it (R81). -/
def Ctx.keepSets (c : Ctx) (n : BitVec 12) (bound : Nat) : Ctx :=
  if n = 0 then (c.sets.filter (fun q => bound ≤ q.1)).foldl (fun c q => c.putFlags q.2.1 q.2.2) c else c
/-- The status effect of one result: a register write, or its flags. -/
def landStatus (w : Who) (s : State) (l : Landing) : State :=
  match l.dest with
  | .csr n =>
    let s1 := csrLand s w n (l.val.setWidth 64)
    s1.updCtx w (fun c =>
      { c with shadow := if c.inSeg ∧ l.inst ≠ c.segInst then c.shadow.map (fun h => shadowCsr h n (l.val.setWidth 64)) else c.shadow }.keepSets n l.bound)
  | _ => s.updCtx w (fun c => c.putFlags l.inst l.flags)
/-- The results of a context whose bounds have passed land. -/
def landDue (s : State) (w : Who) : State :=
  let q := splitDue (s.clkOf w) (s.ctx w).flight []
  let s1 := s.updCtx w (fun c => q.1.foldl (fun c l => c.putReg l.inst l.dest l.val l.en) { c with flight := q.2 })
  ((byStatus q.1.reverse).foldl (landStatus w) s1).updCtx w (fun c => { c with sets := if c.clearing then c.sets else [] })
/-- Bits of a value replaced by what a piece of the pool holds now (R254). -/
def PoolSrc.read (q : PoolSrc) (s : State) (w : Who) (v : BitVec 4096) : BitVec 4096 :=
  let b := ofBytes (scratchRead s w q.off q.n)
  let (x, n) := if q.fmt = 0 then (b, 8 * q.n) else ((convert 0 q.fmt 0 0 b).1, 32)
  merge v (BitVec.ofNat 4096 (x * 2 ^ q.bit)) (BitVec.ofNat 4096 ((2 ^ n - 1) * 2 ^ q.bit))
/-- A piece of a scratchpad load that is read after the others: every part of it the load named, with its poison (R254, R334). -/
def readAgain (s : State) (w : Who) (i piece : Nat) : Out :=
  match (s.ctx w).flight[i]? with
  | none => .fault .notEnabled
  | some l =>
    let qs := l.pool.filter (fun q => q.off / 64 = piece)
    let v := qs.foldl (fun v q => q.read s w v) l.val
    let bad := qs.find? (fun q => scratchPoisoned s w q.off q.n)
    if qs.isEmpty then .fault .notEnabled
    else .next (s.updCtx w (fun c =>
      { c with flight := c.flight.set i { l with val := v, pool := l.pool.filter (fun q => q.off / 64 ≠ piece) },
               late := c.late ++ bad.toList.map (fun q => c.found 0x05 (memInfo q.slot 3 q.at_) l.inst .none) }))
/-- RESULT_LAND (R30). With operand value i + 1, piece i of the pool, as the load in place `reg` of those in flight reads it,
is read after the load's other pieces. -/
def execResultLand (s : State) : Out :=
  let w := s.sel.who
  if s.sel.val ≠ 0 then readAgain s w s.sel.reg (s.sel.val.toNat - 1)
  else when_ (!(splitDue (s.clkOf w) (s.ctx w).flight []).1.isEmpty) (landDue s w)

/-! ## LATE_FAULT (R334, R436) -/

/-- LATE_FAULT: the oldest late fault of a context that is not Frozen (log 24). -/
def execLateFault (s : State) : Out :=
  let w := s.sel.who
  let c := s.ctx w
  match c.late with
  | [] => .fault .notEnabled
  | l :: r =>
    if c.st = .frozen then .fault .notEnabled
    else
      let s1 := s.updCtx w (fun c => { c with late := r })
      .next (raiseCause s1 w (l.args c) l.stale l.inst)

/-! ## BLOCK_RELEASE (R19, R20, R123, R124) -/

/-- The condition a Blocked context waits for holds. -/
def State.unblocked (s : State) (w : Who) : Bool :=
  let c := s.ctx w
  c.st = .blocked &&
    (match c.block with
     | .none => true
     | .fifo b => c.unclaimed b ≠ 0
     | .queue q => c.room q ≠ .block
     | .window n => c.csr.winAvail.toList.getD n 0 ≠ 0
     | .counter n thr => decide (thr ≤ (c.cc n).toNat)
     | .yield => c.yieldFor.all (fun k => (s.ctx { w with ctx := k }).st = .halted))
/-- BLOCK_RELEASE. -/
def execBlockRelease (s : State) : Out :=
  let w := s.sel.who
  when_ (s.unblocked w) (s.updCtx w (fun c => { c with st := .ready, block := .none, yieldFor := [] }))

/-! ## QUEUE_SPILL and refill (R234) -/

/-- The entries of a queue, as the ring holds them. -/
def Ctx.queueOf (c : Ctx) (q : Nat) : List RingEntry :=
  match q with
  | 0 => c.eq.map RingEntry.e
  | 1 => c.cq0.map (RingEntry.copy 0)
  | 2 => c.cq1.map (RingEntry.copy 1)
  | _ => c.rq.map RingEntry.rcv
/-- A queue replaced. -/
def Ctx.setQueue (c : Ctx) (q : Nat) (l : List RingEntry) : Ctx :=
  match q with
  | 0 => { c with eq := l.filterMap (fun r => match r with | .e k => some k | _ => none) }
  | 1 => { c with cq0 := l.filterMap (fun r => match r with | .copy _ k => some k | _ => none) }
  | 2 => { c with cq1 := l.filterMap (fun r => match r with | .copy _ k => some k | _ => none) }
  | _ => { c with rq := l.filterMap (fun r => match r with | .rcv k => some k | _ => none) }
/-- An arrival waits for room in a context's receive queue (R235). -/
def State.arrivalWaits (s : State) (w : Who) : Bool :=
  s.pkts.any (fun p => (p.stage = .ingress || p.stage = .target) && p.dst = w.chip &&
    (match p.op, p.target with | .amsg _ x _ _ _ _ _, .pool cl co _ => cl = w.clus && co = w.core && x = w.ctx | _, _ => false))
/-- The 32 youngest entries of a full queue move to the ring, and a bundle that was blocked on the queue may go on (R235). -/
def Ctx.spill (c : Ctx) (q : Nat) : Ctx :=
  let l := c.queueOf q
  let c1 := (c.setQueue q (l.take (l.length - 32))).toRing (l.drop (l.length - 32))
  { c1 with block := if c1.block = .queue q then .none else c1.block, csr := { c1.csr with ovfSpills := if c1.csr.ovfSpills = 0xFFFF then 0xFFFF else c1.csr.ovfSpills + 1 } }
/-- Entries of a queue return from the ring, oldest first, up to n. -/
def pullRing (q : Nat) : Nat → List RingEntry → List RingEntry × List RingEntry
  | _, [] => ([], [])
  | 0, l => ([], l)
  | n + 1, r :: l =>
    if r.queue = q then let p := pullRing q n l; (r :: p.1, p.2) else let p := pullRing q (n + 1) l; (p.1, r :: p.2)
/-- A queue that has fallen to 16 entries is refilled until it is full or its ring entries are gone. -/
def Ctx.refill (c : Ctx) (q : Nat) : Ctx :=
  if c.queueLen q ≤ 16 ∧ c.inRing q then
    let p := pullRing q (64 - c.queueLen q) c.ring
    { c.setQueue q (c.queueOf q ++ p.1) with ring := p.2 }
  else c

/-! ## E_QUEUE_HEAD (R207) -/

/-- Commands that go to a unit of the chip. -/
def toUnit (i : Instr) : Bool :=
  match i with
  | .taskPost _ | .clbar _ | .chbar _ | .fork _ | .spawn _ | .join _ | .revSt _ => true
  | _ => false
/-- Commands that send a packet as they come to the head. -/
def sendsAtHead (i : Instr) : Bool := match i with | .taskDec _ | .gbar _ => true | _ => false
/-- The flow of the gang barriers, outside the 256 of a context: ordered and not critical (R394). -/
def barFlow : Nat := 256
/-- The flows of eager rings, ordered and not critical (R320), and of release notices, critical (R293). -/
def ringFlow (ring : Nat) : Nat := 257 + ring
def noticeFlow (ring : Nat) : Nat := 512 + ring
/-- The flow of commands to the chip's own units other than task commands, of the messages between controllers of chips, of
the flits and of the chunks of sequencer contexts, and of a tree's packets: outside the 256 of a context (R293, R311; log 53). -/
def unitFlow : Nat := 768
def voteFlow : Nat := 769
def flitFlow : Nat := 770
def chunkFlow : Nat := 771
def treeFlow : Nat := 772
/-- The mode of a flow: fixed outside the 256 of a context. -/
def State.modeOf (s : State) (w : Who) (dst flow : Nat) : BitVec 2 :=
  if flow < 256 then s.flowMode w dst flow else if flow < 512 then 1
  else if flow < 768 ∨ flow = voteFlow ∨ flow = flitFlow then 2 else 0
/-- The packet a command sends, with the extension its entry carries; a release at a scope (R281, R290). -/
def cmdPkt (s : State) (w : Who) (k : ECmd) (dst : Nat) (tg : Target) (op : AccOp) (flow scope : Nat) : Pkt :=
  let m : BitVec 2 := if flow < 256 then k.mode else s.modeOf w dst flow
  { id := k.id, who := w, gctx := s.gctxOf w.chip, slot := 10, op := op, va := 0, ea := 0, target := tg, dst := dst, po := k.po,
    ac := 0, ord := 2, scope := scope, ef := false, reach := 4, flow := flow, seq := k.seq, ordf := m.getLsbD 0, ords := k.ords,
    crit := m.getLsbD 1, slack := k.slack.toNat, sub := 0, exh := false, exq := k.exq, evcc := k.evcc, rallow := k.rallow.toNat,
    stage := .core, since := s.now, born := s.clkOf w, port := 0, via := none, resv := false, inst := k.inst, rev := k.rev.toNat,
    result := [], rflags := 0, poison := false, fault := 0, performed := false, pieces := [], told := 0, win := none, xfer := 0, dropLanding := false, again := false }
/-- A command's packet leaves for the network: numbered as its command issued, or in a flow of its own kind now (R291). -/
def sendCmd (s : State) (p : Pkt) : State :=
  if p.flow < 256 then { s with pkts := s.pkts ++ [p] }.settle
  else
    let r := numberPkt s p
    { r.1 with pkts := r.1.pkts ++ [r.2] }.settle
/-- The core may have one more request outstanding for a packet of its E queue (R291). -/
def State.mayRequest (s : State) (c : CoreId) (n : Nat) : Bool := decide (s.outstanding c + n ≤ 1024)
/-- The chip of a member of a context's gang. -/
def State.memberOfWho (s : State) (w : Who) (m : Nat) : Nat := s.memberChip w.chip (s.gctxOf w.chip) m
/-- The head of a context's queue leaves it: to a unit, to the network, to the waiting flow changes, or to be carried out. -/
def headGo (s : State) (w : Who) (k : ECmd) : State :=
  if toUnit k.op then
    let flow := match k.op with | .taskPost _ => 255 | _ => unitFlow
    sendCmd s { cmdPkt s w k w.chip .unit (.cmd k) flow 0 with ord := 0, reach := 0 }
  else
    match k.op with
    | .taskDec o =>
      sendCmd s (cmdPkt s w k (s.memberOfWho w (natFld k.ea.toNat 12 10)) .unit (.taskDec (natFld k.ea.toNat 0 12) (o.opt.toNat % 128) o.cc.toNat) 255 4)
    | .gbar o =>
      sendCmd s (cmdPkt s w k (s.memberOfWho w 0) .unit (.gbar (o.opt.toNat % 16) (natFld o.ext.imm.toNat 0 16) o.cc.toNat) barFlow 4)
    | .flowMode _ => s.updCtx w (fun c => { c with flowWait := updWhere (fun f => f.id = k.id) (fun f => { f with atHead := true }) c.flowWait })
    | _ => s.updCtx w (fun c => { c with eHead := some k })
/-- E_QUEUE_HEAD. -/
def execEQueueHead (s : State) : Out :=
  let w := s.sel.who
  let c := s.ctx w
  match c.eq, c.eHead with
  | k :: r, none => if (toUnit k.op || sendsAtHead k.op) && !s.mayRequest w.coreId 1 then .fault .notEnabled else .next (headGo (s.updCtx w (fun c => { c with eq := r })) w k)
  | _, _ => .fault .notEnabled

/-- A command at a context's head is done. -/
def clearHead (s : State) (w : Who) : State := s.updCtx w (fun c => { c with eHead := none })
/-! ## Pool units that an engine touches first (R389) -/

/-- A WANTED unit overlaps a range of a core's pool. -/
def State.wantedIn (s : State) (c : CoreId) (a n : Nat) : Option Nat :=
  (s.core c).units.findSome? (fun q =>
    if q.2.wanted ∧ q.1 * 65536 < a + n ∧ a < (q.1 + 1) * 65536 then some q.1 else none)
/-- Pool ranges an M form touches. -/
def formRanges (c : Ctx) (i : Instr) : List (Nat × Nat) :=
  (destElems i).filterMap (fun e =>
    match e with | .tile n => some (c.tileAt n, 32768) | .acc n => some (c.accAt n, 65536) | _ => none) ++
  (match i with
   | .mdrain o => [(c.accAt o.acc.toNat, 65536)]
   | .mchk o => [(c.accAt o.acc.toNat, 65536)]
   | .maccLd o => [(c.tileAt o.tile.toNat, 65536)]
   | _ => [])
/-- Pool ranges a copy touches. -/
def copyRanges (c : Ctx) (k : CopyCmd) : List (Nat × Nat) :=
  let side := fun (dst : Bool) (kind tileK scrK : Nat) =>
    let e := k.extent dst
    if kind = scrK then [(e.1.toNat, (e.2 - e.1).toNat)]
    else if kind = tileK then [(c.limit + e.1.toNat, (e.2 - e.1).toNat)] else []
  side false k.sk 1 0 ++ (if k.toFifo then [] else side true k.dk 1 0)
/-- No WANTED unit stands in the way of ranges. -/
def State.unitsReady (s : State) (c : CoreId) (l : List (Nat × Nat)) : Bool :=
  l.all (fun q => (s.wantedIn c q.1 q.2).isNone)

/-! ## Matrix forms (R188 to R203) -/

/-- The pipe of a form (R192): 0 fill, 1 array. -/
def pipeOf (i : Instr) : Nat := match i with | .mlat _ => 0 | _ => 1
/-- The latch a form fills or reads, and the accumulators it reads and writes. -/
def latOf (i : Instr) : Option Nat := match i with | .mlat o => some o.lat.toNat | .mma o | .mter o => some o.lat.toNat | _ => none
/-- Every entry a form needs has been taken. -/
def MForm.full (m : MForm) : Bool := m.need ≤ m.got.length
/-- A form may start behind the forms before it in the M queue (R192). -/
def mayStart (before : List MForm) (m : MForm) : Bool :=
  before.all (fun q => pipeOf q.op ≠ pipeOf m.op || (q.started && q.full)) &&
  before.all (fun q =>
    match q.op, m.op with
    | .mlat _, .mlat _ => true
    | .mlat a, .mma b => !(q.who = m.who && a.lat = b.lat)
    | .mlat a, .mter b => !(q.who = m.who && a.lat = b.lat)
    | .mma a, .mlat b => !(q.who = m.who && a.lat = b.lat && !(q.started && q.full))
    | .mter a, .mlat b => !(q.who = m.who && a.lat = b.lat && !(q.started && q.full))
    | .mma _, .mma _ => true | .mma _, .mter _ => true | .mter _, .mma _ => true | .mter _, .mter _ => true
    | a, .mma b => (formTag a).map (·.1) ≠ some b.acc.toNat
    | a, .mter b => (formTag a).map (·.1) ≠ some b.acc.toNat
    | a, .mdrain b => (formTag a).map (·.1) ≠ some b.acc.toNat
    | a, .mchk b => (formTag a).map (·.1) ≠ some b.acc.toNat
    | _, _ => true)
/-- The forms before one in the M queue. -/
def formsBefore (l : List MForm) (id : Nat) : List MForm := l.takeWhile (fun m => m.id ≠ id)

/-- A started form takes entries from its queue as they are there (R189); a poisoned one raises POISON, and one of a
copy issued before the entry ends rewind-safety (R334, R336). -/
def takeEntries (s : State) (m : MForm) : State :=
  let w := m.who
  let c := s.ctx w
  let b := pipeOf m.op = 0
  let q := if b then c.fifoB else c.fifoA
  let n := min (m.need - m.got.length) q.length
  let got := q.take n
  let bad := got.any (fun e => e.poison)
  let alien := c.inSeg && m.inst = c.segInst && got.any (fun e => e.inst ≠ c.segInst)
  let s1 := s.updCtx w (fun c =>
    let c1 := if b then { c with fifoB := q.drop n, owedB := c.owedB - n } else { c with fifoA := q.drop n, owedA := c.owedA - n }
    { c1 with segSafe := c1.segSafe && !alien, late := if bad then c1.late ++ [c1.found 0x05 (memInfo 8 2 0) m.inst .none] else c1.late })
  s1.updCore w.coreId (fun k => { k with mq := updWhere (fun f => f.id = m.id) (fun f => { f with got := f.got ++ got }) k.mq })
/-- Every started form of a core that lacks entries takes what is there. -/
def feedForms (s : State) (c : CoreId) : State :=
  ((s.core c).mq.filter (fun m => m.started && !m.full)).foldl takeEntries s

/-- MATRIX_OP_START (R192): the form with number `id`. -/
def execMatrixOpStart (s : State) : Out :=
  let c := s.sel.who.coreId
  let mq := (s.core c).mq
  match mq.find? (fun m => m.id = s.sel.id) with
  | none => .fault .notEnabled
  | some m =>
    if !m.started && mayStart (formsBefore mq m.id) m && s.unitsReady c (formRanges (s.ctx m.who) m.op) then
      .next (feedForms (s.updCore c (fun k => { k with mq := updWhere (fun f => f.id = m.id) (fun f => { f with started := true }) k.mq })) c)
    else .fault .notEnabled

/-- The tag of an accumulator. -/
def State.tag (s : State) (c : CoreId) (n : Nat) : BitVec 2 := (s.core c).accTag.toList.getD n 3
/-- The tag set. -/
def setTag (s : State) (c : CoreId) (n : Nat) (v : BitVec 2) : State :=
  s.updCore c (fun k => { k with accTag := k.accTag.mapIdx (fun i x => if i = n then v else x) })
/-- The image of a latch; undefined at kernel start or after a stopped fill (R191). -/
def State.latImage (s : State) (w : Who) (n : Nat) : List Byte :=
  if (s.ctx w).latDef.getLsbD n then s.peek (latKey w n 0) 32768 else (upTo 32768).map (fun i => Config.undefByte s.free (65536 * (n + 1) + i))
/-- bsum of a latch; of an undefined one it is free (R191, R195; log 3). -/
def State.latBsum (s : State) (w : Who) (n : Nat) : List FVal :=
  if (s.ctx w).latDef.getLsbD n then (s.ctx w).bsum.get n []
  else (upTo 1024).map (fun k => let q := Config.bsumRead (Config.undefNat s.free (1024 * n + k)); .fin q.1 q.2.1 q.2.2)
/-- What a form reads of a latch: its image and bsum (R191, R195). -/
def State.latSeen (s : State) (w : Who) (n : Nat) : FormRead := ⟨s.latImage w n, s.latBsum w n, 0⟩
/-- Pool bytes that a form reads: offset and length (R199 to R203). -/
def formSrc (c : Ctx) (i : Instr) : Nat × Nat :=
  match i with
  | .mma o => (c.accAt o.acc.toNat, 512 * nrowOf o.nrow)
  | .mter o => (c.accAt o.acc.toNat, 512 * nrowOf o.nrow)
  | .mdrain o => (c.accAt o.acc.toNat, 65536)
  | .mchk o => (c.accAt o.acc.toNat, 65536)
  | .maccLd o => (c.tileAt o.tile.toNat, 65536)
  | _ => (0, 0)
/-- Those bytes as the form reads them: the pool's, with the bytes that it has read ahead of the others (R241, R254). -/
def State.formSees (s : State) (m : MForm) : List Byte :=
  let q := formSrc (s.ctx m.who) m.op
  let l := s.peek (poolKey m.who.coreId q.1) q.2
  if m.early.isEmpty then l else l.mapIdx (fun i b => ((m.early.find? (fun e => e.1 = i)).map (fun e => e.2.1)).getD b)
/-- What a drain reads of an accumulator: its contents and its tag (R194, R200). -/
def State.accSeen (s : State) (m : MForm) (acc : Nat) : FormRead := ⟨s.formSees m, [], s.tag m.who.coreId acc⟩
/-- What macc.ld reads of its tiles (R201). -/
def State.tilesSeen (s : State) (m : MForm) : FormRead := ⟨s.formSees m, [], 0⟩
/-- A row's checksum and row flag. -/
def ckOf (k : Core) (acc r : Nat) : FVal × Bool := ((k.ck.get acc []).getD r (.fin false 0 0), (k.uf.get acc 0).getLsbD r)
/-- A row's checksum and flag set. -/
def setCk (acc r : Nat) (v : FVal) (u : Bool) (k : Core) : Core :=
  let l := k.ck.get acc []
  { k with ck := k.ck.set acc ((upTo 128).map (fun i => if i = r then v else l.getD i (.fin false 0 0))),
           uf := k.uf.set acc ((k.uf.get acc 0 &&& ~~~(1#128 <<< r)) ||| (if u then 1#128 <<< r else 0)) }

/-- Row i of 512 bytes of an image, as patterns. -/
def row512 (b : List Byte) (i : Nat) : List Nat := elemsOf (ofBytes ((b.drop (512 * i)).take 512)) 128 32
/-- What mma and mter compute of a row of the accumulator: elements, checksum, row flag and flags (R199); `per` entries an A
row, `f` its format, `lf` the format the latch is read in. -/
def State.mmaRow (s : State) (m : MForm) (acc lat : Nat) (f lf : BitVec 4) (per r : Nat) : List Nat × FVal × Bool × Flags :=
  let seen := m.read.getD (s.latSeen m.who lat)
  let a := elemsOf (ofBytes ((upTo per).flatMap (fun i => (m.got.getD (r * per + i) ⟨[], false, 0, 0⟩).bytes))) (latDepth lf) (fmtBits f)
  let k := ckOf (s.core m.who.coreId) acc r
  rowMma f lf a (ofBytes seen.bytes) seen.bsum (row512 (m.old.getD (s.formSees m)) r) k.1 k.2
/-- The rows of mma and mter, in order. -/
def State.mmaRows (s : State) (m : MForm) : List (List Nat × FVal × Bool × Flags) :=
  match m.op with
  | .mma o => (upTo (nrowOf o.nrow)).map (s.mmaRow m o.acc.toNat o.lat.toNat o.fmt o.fmt 1)
  | .mter o => (upTo (nrowOf o.nrow)).map (s.mmaRow m o.acc.toNat o.lat.toNat 7 13 4)
  | _ => []

/-- Tile byte at which row i of a drain or a load lies (R200). -/
def drainRowAt (fmt : BitVec 4) (tile i : Nat) : Nat :=
  match fmtBits fmt with
  | 32 => (tile + i / 64) * 32768 + i % 64 * 512
  | 16 => tile * 32768 + i * 256
  | _ => tile * 32768 + i * 128
/-- Row i of a drain: its elements, each with its flags (R86, R200). -/
def State.drainRow (s : State) (m : MForm) (o : MDrain) (i : Nat) : List (Nat × Flags) :=
  let seen := m.read.getD (s.accSeen m o.acc.toNat)
  let scaled := (o.x.getD ⟨0, 0, false⟩).scl
  (row512 seen.bytes i).mapIdx (fun j v =>
    drainElem m.ovt seen.tag o.fmt o.rm
      (if scaled then some (elemN m.ka.toNat i 32, elemN m.kb.toNat j 32) else none)
      (Config.undef m.id (0x90000 + 128 * i + j)) v)
/-- Pool bytes that a form writes: offset and length (R197 to R201). -/
def formDst (c : Ctx) (i : Instr) : Nat × Nat :=
  match i with
  | .mzero o => (c.accAt o.acc.toNat, 65536)
  | .mma o => (c.accAt o.acc.toNat, 512 * nrowOf o.nrow)
  | .mter o => (c.accAt o.acc.toNat, 512 * nrowOf o.nrow)
  | .mdrain o => (c.limit + drainRowAt o.fmt o.tile.toNat 0, 2048 * fmtBits o.fmt)
  | .maccLd o => (c.accAt o.acc.toNat, 65536)
  | _ => (0, 0)
/-- The bytes that a form writes there. -/
def State.formOut (s : State) (m : MForm) : List Byte :=
  match m.op with
  | .mzero _ => List.replicate 65536 0
  | .mma _ | .mter _ => (s.mmaRows m).flatMap (fun q => bytesOf (packElems 32 q.1) 512)
  | .mdrain o => (upTo 128).flatMap (fun i => bytesOf (packElems (fmtBits o.fmt) ((s.drainRow m o i).map (·.1))) (16 * fmtBits o.fmt))
  | .maccLd _ => (m.read.getD (s.tilesSeen m)).bytes
  | _ => []
/-- They are written, but those written ahead of the others. -/
def writeOut (s : State) (m : MForm) : State :=
  s.pokeRest (poolKey m.who.coreId (formDst (s.ctx m.who) m.op).1) (s.formOut m) m.moved
/-- mma and mter at completion: NROW rows (R199). -/
def doMma (s : State) (m : MForm) (acc : Nat) (f : BitVec 4) : State :=
  let rows := s.mmaRows m
  let s1 := (writeOut s m).updCore m.who.coreId (fun k => rows.zipIdx.foldl (fun k q => setCk acc q.2 q.1.2.1 q.1.2.2.1 k) k)
  setTag (s1.updCtx m.who (fun c => c.setFlags (s.clkOf m.who) m.inst (rows.foldl (fun a q => a ||| q.2.2.2) 0)))
    m.who.coreId acc (if isFloatFmt f then 1 else 2)
/-- mdrain at completion (R200). -/
def doDrain (s : State) (m : MForm) (o : MDrain) : State :=
  (writeOut s m).updCtx m.who (fun c => c.setFlags (s.clkOf m.who) m.inst (orFlags ((upTo 128).flatMap (s.drainRow m o))))
/-- ck and uf of a row that macc.ld brings in: f32 patterns, or integers (R201). -/
def loadCk (fmt : BitVec 4) (v : List Nat) : FVal × Bool :=
  let sum : FVal := if fmt = 0 then decodeF 0 (sumRound 0 0 0 (v.map (decodeF 0))).1 else intF ((v.map (decodeI 5)).foldl (· + ·) 0)
  (sum, fmt = 0 && (v.any notFinite || sum = .inf true || sum = .inf false))
/-- macc.ld at completion (R201). -/
def doLoad (s : State) (m : MForm) (o : MLd) : State :=
  let acc := o.acc.toNat
  let seen := m.read.getD (s.tilesSeen m)
  setTag ((writeOut s m).updCore m.who.coreId (fun k => (upTo 128).foldl (fun k i =>
    let q := loadCk o.fmt (row512 seen.bytes i); setCk acc i q.1 q.2 k) k)) m.who.coreId acc (if o.fmt = 0 then 1 else 2)
/-- mlat at completion (R198). -/
def doLat (s : State) (m : MForm) (o : MRow) : State :=
  let w := m.who
  let lat := o.lat.toNat
  let b := (m.got.flatMap (fun e => e.bytes)).take 32768
  let img := ofBytes b
  let bad := o.fmt = 13 && (upTo 131072).any (fun i => elemN img i 2 = 2)
  (s.poke (latKey w lat 0) b).updCtx w (fun c =>
    { c.setFlags (s.clkOf w) m.inst (if bad then fTERN_BAD else 0) with
        latFmt := c.latFmt.mapIdx (fun i x => if i = lat then o.fmt else x), latDef := c.latDef ||| (1#4 <<< lat),
        bsum := c.bsum.set lat (latSums o.fmt img) })
/-- mzero at completion (R197). -/
def doZero (s : State) (m : MForm) (acc : Nat) : State :=
  let w := m.who
  setTag ((writeOut s m).updCore w.coreId (fun k => { k with ck := k.ck.set acc [], uf := k.uf.set acc 0 })) w.coreId acc 0
/-- A failure of mkat or mchk, raised at completion (R202, R203). -/
def failForm (s : State) (m : MForm) (code : BitVec 8) (info : BitVec 64) : State :=
  raiseCause s m.who { code := code, info := info, pc := (s.ctx m.who).issueNext, reason := 0, slots := 0, freeze := .none } false m.inst
/-- mchk at completion: counts, and the lowest failing row (R203, R204). -/
def doCheck (s : State) (m : MForm) (o : MChk) : State :=
  let w := m.who
  let acc := o.acc.toNat
  let k := s.core w.coreId
  let seen := m.old.getD (s.formSees m)
  let res := (upTo 128).map (fun i =>
    let q := ckOf k acc i
    rowCheck (s.tag w.coreId acc) (row512 seen i) q.1 q.2 o.tol.toNat)
  let unch := (res.filter (fun r => r.isNone)).length
  let bad := firstIdx (fun r => r = some true) res
  let s1 := s.updCtx w (fun c => { c with csr := { c.csr with
    mchkUnchk := BitVec.ofNat 16 (satN (c.csr.mchkUnchk.toNat + unch) 16), mchkN := BitVec.ofNat 16 (satN (c.csr.mchkN.toNat + 1) 16),
    mchkFrow := match bad with | some r => BitVec.ofNat 8 r | none => c.csr.mchkFrow } })
  match bad with
  | some r => failForm s1 m 0x04 (BitVec.ofNat 64 (acc + 16 * r))
  | none => s1
/-- The effect of a form at completion. -/
def formEffect (s : State) (m : MForm) : State :=
  match m.op with
  | .mzero o => doZero s m o.acc.toNat
  | .mlat o => doLat s m o
  | .mma o => doMma s m o.acc.toNat o.fmt
  | .mter o => doMma s m o.acc.toNat 7
  | .mdrain o => doDrain s m o
  | .maccLd o => doLoad s m o
  | .mkat o => let h := katHash o.seed.toNat; if h = o.hash then s else failForm s m 0x03 (h.setWidth 64)
  | .mchk o => doCheck s m o
  | _ => s
/-- A form may complete: it has every entry, forms before it in its pipe have completed, no earlier form still reads the
latch it fills, and the pool units it touches are the gang's (R192, R389). -/
def mayComplete (before : List MForm) (m : MForm) : Bool :=
  m.started && m.full && before.all (fun q => pipeOf q.op ≠ pipeOf m.op) &&
    (pipeOf m.op ≠ 0 || before.all (fun q => !(q.who = m.who && latOf q.op = latOf m.op && q.read.isNone)))
/-- The elements whose busy bits a form clears at its last row read (R193). -/
def readFirst (i : Instr) : List Elem :=
  match i with
  | .mma o => [.lat o.lat.toNat]
  | .mter o => [.lat o.lat.toNat]
  | .mdrain o => [.acc o.acc.toNat]
  | .maccLd o => drainTiles 0 o.tile
  | _ => []
/-- The last row of a form has been read: what it reads is kept for its completion, poisoned tile bytes on their way to an
accumulator raise POISON (R334; DESIGN CHOICE, log 52: KIND 3 with the tile's pool offset), and the busy bits of what it only
reads clear (R193). -/
def readRows (s : State) (m : MForm) : State :=
  let w := m.who
  let seen : FormRead :=
    match m.op with
    | .mma o => s.latSeen w o.lat.toNat
    | .mter o => s.latSeen w o.lat.toNat
    | .mdrain o => s.accSeen m o.acc.toNat
    | .maccLd _ => s.tilesSeen m
    | _ => ⟨[], [], 0⟩
  let at0 := poolKey w.coreId (formSrc (s.ctx w) m.op).1
  let bad := match m.op with
    | .maccLd _ => m.early.any (fun e => e.2.2) ||
        s.poison.any (fun p => at0 ≤ p && decide (p < at0 + 65536) && !m.early.any (fun e => e.1 = p - at0))
    | _ => false
  (s.updCore w.coreId (fun k => { k with mq := updWhere (fun f => f.id = m.id) (fun f => { f with read := some seen }) k.mq })).updCtx w (fun c =>
    { c with busy := c.busy.filter (fun b => !(b.id = m.id && (readFirst m.op).contains b.elem)),
             late := if bad then c.late ++ [c.found 0x05 (memInfo 8 3 (c.tileAt (match m.op with | .maccLd o => o.tile.toNat | _ => 0))) m.inst .none]
                     else c.late })
/-- Byte i of what a form reads of the pool, read ahead of the others (R241, R254). -/
def earlyByte (s : State) (m : MForm) (i : Nat) : Out :=
  let q := formSrc (s.ctx m.who) m.op
  let k := poolKey m.who.coreId q.1 + i
  let done := match m.op with | .mdrain _ | .maccLd _ => m.read.isSome | _ => m.old.isSome
  if done || q.2 ≤ i || m.early.any (fun e => e.1 = i) then .fault .notEnabled
  else .next (s.updCore m.who.coreId (fun c =>
    { c with mq := updWhere (fun f => f.id = m.id) (fun f => { f with early := (i, memGet s.mem k, s.poisoned k 1) :: f.early }) c.mq }))
/-- The accumulator that a form adds into or checks has been read. -/
def keepOld (s : State) (m : MForm) : Out :=
  match m.op with
  | .mma _ | .mter _ | .mchk _ =>
    if m.old.isSome then .fault .notEnabled
    else .next (s.updCore m.who.coreId (fun c => { c with mq := updWhere (fun f => f.id = m.id) (fun f => { f with old := some (s.formSees m) }) c.mq }))
  | _ => .fault .notEnabled
/-- Byte i of what a form writes, written ahead of the others, once it has read what it computes it from. -/
def aheadByte (s : State) (m : MForm) (i : Nat) : Out :=
  let q := formDst (s.ctx m.who) m.op
  let ready := match m.op with | .mma _ | .mter _ => m.read.isSome && m.old.isSome | .mdrain _ | .maccLd _ => m.read.isSome | _ => true
  if !ready || q.2 ≤ i || m.moved.contains i then .fault .notEnabled
  else .next ((s.poke (poolKey m.who.coreId q.1 + i) [(s.formOut m).getD i 0]).updCore m.who.coreId
    (fun c => { c with mq := updWhere (fun f => f.id = m.id) (fun f => { f with moved := i :: f.moved }) c.mq }))
/-- MATRIX_OP_COMPLETE (R193): the form with number `id`. With operand value 1 its last row is read, which a form does at the
latest as it completes. With 2 the accumulator that it adds into or checks has been read; with 2 i + 3 and 2 i + 4, byte i of
what it reads or writes of the pool moves ahead of the others (R241). Accesses that a release held back for the form may go on
(R251). -/
def execMatrixOpComplete (s : State) : Out :=
  let c := s.sel.who.coreId
  let mq := (s.core c).mq
  match mq.find? (fun m => m.id = s.sel.id) with
  | none => .fault .notEnabled
  | some m =>
    if mayComplete (formsBefore mq m.id) m && s.unitsReady c (formRanges (s.ctx m.who) m.op) then
      match s.sel.val.toNat with
      | 0 =>
        let s1 := if m.read.isNone && readFirst m.op ≠ [] then readRows s m else s
        .next (formEffect (clearBusy (s1.updCore c (fun k => { k with mq := k.mq.filter (fun f => f.id ≠ m.id) })) m.who m.id)
          (((s1.core c).mq.find? (fun f => f.id = m.id)).getD m)).settle
      | 1 => if m.read.isNone && readFirst m.op ≠ [] then .next (readRows s m) else .fault .notEnabled
      | 2 => keepOld s m
      | v => if v % 2 = 1 then earlyByte s m ((v - 3) / 2) else aheadByte s m ((v - 4) / 2)
    else .fault .notEnabled

/-! ## Copies (R209 to R212) -/

/-- The copy in an engine. -/
def Core.engine (k : Core) (e : Nat) : Option CopyRun := if e = 0 then k.cur0 else k.cur1
/-- The copy in an engine replaced. -/
def Core.setEngine (k : Core) (e : Nat) (r : Option CopyRun) : Core := if e = 0 then { k with cur0 := r } else { k with cur1 := r }
/-- A store to the context's scratchpad from before a command is still held back (R179, R182). -/
def State.storesBefore (s : State) (w : Who) (id : Nat) : Bool := s.pkts.any (fun p => p.who = w && p.isPool && p.id < id)
/-- COPY_START (R210): the head of a context's queue for engine `id`. -/
def execCopyStart (s : State) : Out :=
  let w := s.sel.who
  let e := s.sel.id
  let c := s.ctx w
  match (if e = 0 then c.cq0 else c.cq1) with
  | [] => .fault .notEnabled
  | k :: r =>
    if e < 2 && ((s.core w.coreId).engine e).isNone && !(s.core w.coreId).mq.any (fun m => some m.id = k.after) && !s.storesBefore w k.id &&
       s.unitsReady w.coreId (copyRanges c k) then
      .next ((s.updCtx w (fun c => if e = 0 then { c with cq0 := r } else { c with cq1 := r })).updCore w.coreId
        (fun q => q.setEngine e (some { cmd := k, pos := 0, part := [], poison := false, moved := [] })))
    else .fault .notEnabled

/-- The offset of element p along one side (R210). -/
def CopyCmd.offsetOf (k : CopyCmd) (dst : Bool) (p : Nat) : Nat :=
  (k.dims.foldl (fun (a : Int × Nat) q => (a.1 + (((p / a.2) % q.1 : Nat) : Int) * (if dst then q.2.2 else q.2.1), a.2 * q.1))
    (((if dst then k.dbase else k.sbase) : Nat), 1)).1.toNat
/-- The key of an offset in a copy's space (R209). -/
def copyKey (w : Who) (c : Ctx) (kind off : Nat) : Nat :=
  match kind with
  | 0 => poolKey w.coreId off
  | 1 => poolKey w.coreId (c.limit + off)
  | _ => latKey w 0 off
/-- One element read, with its poison; an undefined latch reads free bytes. -/
def copyRead (s : State) (k : CopyCmd) (p : Nat) : List Byte × Bool :=
  let c := s.ctx k.who
  let off := k.offsetOf false p
  let key := copyKey k.who c k.sk off
  if k.sk = 2 ∧ !c.latDef.getLsbD (off / 32768) then
    ((upTo k.esz).map (fun i => Config.undefByte s.free (65536 * (off / 32768 + 1) + (off + i) % 32768)), false)
  else (s.peek key k.esz, s.poisoned key k.esz)
/-- Byte i of a copy as it is read: its value and poison. -/
def copySees (s : State) (k : CopyCmd) (i : Nat) : Byte × Bool :=
  let p := i / k.esz
  let r := copyRead s k p
  (r.1.getD (i % k.esz) 0, r.2 && s.poisoned (copyKey k.who (s.ctx k.who) k.sk (k.offsetOf false p) + i % k.esz) 1)
/-- Bytes of element p written; poisoned ones that reach a tile register raise POISON (R334). -/
def copyPut (k : CopyCmd) (p : Nat) (l : List (Nat × Byte × Bool)) (s : State) : State :=
  let key := copyKey k.who (s.ctx k.who) k.dk (k.offsetOf true p)
  let s1 := l.foldl (fun s b => let s1 := s.poke (key + b.1) [b.2.1]; if b.2.2 then s1.setPoison (key + b.1) 1 else s1) s
  if k.dk = 1 && l.any (fun b => b.2.2) then
    s1.updCtx k.who (fun c => { c with late := c.late ++ [c.found 0x05 (memInfo 10 3 (k.offsetOf false p)) k.inst .none] })
  else s1
/-- Element p moved, but its bytes that have moved before: it is read whole, then written (R210). -/
def copyElem (k : CopyCmd) (own : List Nat) (s : State) (p : Nat) : State :=
  let l := (upTo k.esz).map (fun j => (j, copySees s k (p * k.esz + j)))
  copyPut k p (l.filter (fun b => !own.contains (p * k.esz + b.1))) s
/-- Where byte i of a copy between spaces is read or written: kind of space and offset. -/
def CopyCmd.spot (k : CopyCmd) (dst : Bool) (i : Nat) : Nat × Nat := ((if dst then k.dk else k.sk), k.offsetOf dst (i / k.esz) + i % k.esz)
/-- Byte i of a copy may move ahead of the others: no byte before it that is still to move is read where it is written, or
written where it is read or written (R210). -/
def CopyCmd.mayAhead (k : CopyCmd) (gone : List Nat) (i : Nat) : Bool :=
  let src := k.spot false i
  let dst := k.spot true i
  (upTo ((i / k.esz + 1) * k.esz)).all (fun j => j = i || gone.contains j ||
    (k.spot false j ≠ dst && (j / k.esz = i / k.esz || (k.spot true j ≠ dst && k.spot true j ≠ src))))
/-- What is left of a copy between spaces. -/
def copyRest (r : CopyRun) (s : State) : State := (upTo r.cmd.total).foldl (copyElem r.cmd (r.moved.map (·.1))) s
/-- Byte i of a copy moved ahead of the others: it is read and written, or kept for its FIFO entry (R212, R241, R254). -/
def copyAhead (s : State) (c : CoreId) (e : Nat) (r : CopyRun) (i : Nat) : Out :=
  let k := r.cmd
  let b := copySees s k i
  let note := fun (s : State) => s.updCore c (fun q => q.setEngine e (some { r with moved := (i, b) :: r.moved }))
  if k.total * k.esz ≤ i || r.moved.any (fun q => q.1 = i) then .fault .notEnabled
  else if k.toFifo then (if r.pos * k.esz ≤ i && decide (i < r.pos * k.esz + 256) then .next (note s) else .fault .notEnabled)
  else if k.mayAhead (r.moved.map (·.1)) i then .next (note (copyPut k (i / k.esz) [(i % k.esz, b)] s))
  else .fault .notEnabled
/-- Byte i of a copy to a FIFO, read now or ahead. -/
def CopyRun.fifoByte (r : CopyRun) (s : State) (i : Nat) : Byte × Bool :=
  match r.moved.find? (fun q => q.1 = i) with | some q => q.2 | none => copySees s r.cmd i
/-- FIFO_ENTRY_PUSH (R188, R210): engine `id` of a core pushes one entry of 256 bytes; with `val` 1, from outside, an uncorrectable soft
error has struck it, and it is poisoned (R244, R399; log 17). -/
def execFifoEntryPush (s : State) : Out :=
  let cid := s.sel.who.coreId
  match (s.core cid).engine s.sel.id with
  | none => .fault .notEnabled
  | some r =>
    let k := r.cmd
    let c := s.ctx k.who
    let q := if k.dk = 3 then c.fifoB else c.fifoA
    if k.toFifo && r.pos < k.total && q.length < 64 && s.unitsReady cid (copyRanges c k) then
      let n := 256 / k.esz
      let l := (upTo 256).map (fun i => r.fifoByte s (r.pos * k.esz + i))
      let e : FifoEntry := { bytes := l.map (·.1), poison := l.any (·.2) || s.sel.val = 1, copy := k.id, inst := k.inst }
      let s1 := s.updCtx k.who (fun c => if k.dk = 3 then { c with fifoB := c.fifoB ++ [e] } else { c with fifoA := c.fifoA ++ [e] })
      .next (feedForms (s1.updCore cid (fun q => q.setEngine s.sel.id (some { r with pos := r.pos + n, moved := if k.toFifo then [] else r.moved }))) cid)
    else .fault .notEnabled
/-- COPY_COMPLETE (R210, R212): the copy of engine `id` of a core. With operand value i + 1 byte i of the copy is moved ahead
of the others. The pool units it touches are the gang's (R389). -/
def execCopyComplete (s : State) : Out :=
  let cid := s.sel.who.coreId
  match (s.core cid).engine s.sel.id with
  | none => .fault .notEnabled
  | some r =>
    let k := r.cmd
    if !s.unitsReady cid (copyRanges (s.ctx k.who) k) then .fault .notEnabled
    else if s.sel.val ≠ 0 then copyAhead s cid s.sel.id r (s.sel.val.toNat - 1)
    else if k.toFifo && r.pos < k.total then .fault .notEnabled
    else
      let s1 := if k.toFifo then s else copyRest r s
      .next (((clearBusy s1 k.who k.id).updCtx k.who (fun c => c.incCC k.cc k.inst 1)).updCore cid (fun q => q.setEngine s.sel.id none))

end Sys2Proof.Machine
end

