-- ==== Sys2Proof/Machine/Fabric.lean ====
section
/-! DEFINITION. Sys2Proof/Machine/Fabric.lean: slack, ports, the path of a packet and its arbiters, dirty pages and the
granules of revisions, as the events of accesses use them (spec/11 R262 to R265, spec/12 R279 to R294, spec/18 R369). -/

namespace Sys2Proof.Machine

/-! ## Slack (R282, R285) -/

/-- A packet's slack after waiting until now: SLACK, SUB, EXH (R282). -/
def Pkt.charged (p : Pkt) (now : Nat) : Nat × Nat × Bool :=
  let t := p.sub + (now - p.since)
  let c := t / 16
  (p.slack - c, t % 16, p.exh || (decide (p.slack ≤ c) && decide (0 < p.slack)) || (decide (0 < c) && decide (p.slack = 0)))
/-- A packet granted: charged, at its next stage. -/
def Pkt.grant (p : Pkt) (now : Nat) (st : Stage) : Pkt :=
  let q := p.charged now
  { p with slack := q.1, sub := q.2.1, exh := q.2.2, since := now, stage := st, again := false }
/-- The fresh start of a reply (R285). -/
def Pkt.toReply (p : Pkt) (now : Nat) : Pkt :=
  { p with slack := min 4095 (p.slack + 16 * p.rallow), sub := 0, rallow := 0, since := now, stage := .replyRouter }

/-! ## Ports (R280, R294) -/

/-- Port k of a chip is live toward another chip (R280). -/
def State.portLive (s : State) (n k d : Nat) : Bool :=
  ((s.chip n).ports.get k Port.reset).up && (s.chip n).notices.get (d, k) false
/-- The ports a packet leaves through, one or a critical one's pair; none when no port is live (R280, R294). A chunk of a
collective leaves through the port that its member took and keeps (R315, R316); DESIGN CHOICE (log 27): it waits while that one is not
live toward its destination. -/
def State.portsFor (s : State) (n d fl seq : Nat) (crit : Bool) (via : Option Nat) : List Nat :=
  let flow := if fl = barFlow then 0 else fl
  let live := fun k => s.portLive n k d
  match via with
  | some v => if live v then [v] else []
  | none =>
    if crit then
      match ((upTo 24).map (fun i => ((d + flow) % 24 + i) % 24)).find? (fun k => live k && live (k + 24)) with
      | some k => [k, k + 24]
      | none => ((upTo 48).find? live).toList
    else (((upTo 48).map (fun i => ((d + flow + seq) % 48 + i) % 48)).find? live).toList
/-- A reply of a packet, on its way to the issuer. -/
def Pkt.isBack (p : Pkt) : Bool :=
  match p.stage with
  | .replyRouter | .replyEgress | .replyLink | .replyIngress | .replyOut | .home => true
  | .bridge k => 2 ≤ k
  | _ => false
/-- The chip a packet leaves from: its issuer's, or the target's for a reply. -/
def Pkt.leaves (p : Pkt) : Nat := if p.isBack then p.dst else p.who.chip
/-- The chip a packet goes to. -/
def Pkt.goes (p : Pkt) : Nat := if p.isBack then p.who.chip else p.dst
/-- A packet's ports as things stand. -/
def State.pktPorts (s : State) (p : Pkt) : List Nat := s.portsFor p.leaves p.goes p.flow p.seq p.crit p.via

/-- A message between the controllers of chips, which belongs to no gang context (R379). -/
def Pkt.isVote (p : Pkt) : Bool := match p.op with | .vote _ => true | _ => false
/-- A vote of a gang stands open at a member: its egress injects nothing of the gang (R380). -/
def State.voteOpen (s : State) (n g : Nat) : Bool := (s.chip n).vote.member = some g
/-- Payload bytes a packet carries. -/
def Pkt.payload (p : Pkt) : List Byte :=
  if p.performed then p.result
  else
    match p.op with
    | .store b => b
    | .amsg b .. => b
    | .slot _ _ b .. => b
    | .atomic _ n v c _ => bytesOf v.toNat n ++ bytesOf c.toNat n
    | .chunk _ _ b => b
    | _ => []
/-- A packet granted onto a link counts in S of the chip it leaves toward the other member, and in its payload bytes (R381,
R428). -/
def countS (s : State) (p : Pkt) : State :=
  if p.isVote then s
  else
    s.updGang p.leaves p.gctx (fun g =>
      let m := s.gcMember p.goes p.gctx
      { g with sCnt := g.sCnt.set m ((g.sCnt.get m 0 + 1) % 2 ^ 32), fabBytes := g.fabBytes + p.payload.length })
/-- A packet accepted counts in R of the chip it reaches, from the other member (R381). -/
def countR (s : State) (p : Pkt) : State :=
  if p.dst = p.who.chip || p.isVote then s
  else
    let m := s.gcMember p.leaves p.gctx
    s.updGang p.goes p.gctx (fun g => { g with rCnt := g.rCnt.set m ((g.rCnt.get m 0 + 1) % 2 ^ 32) })
/-- A request of another member is held where it stands: an open vote has sent its ACK (R380). -/
def State.voteStops (s : State) (p : Pkt) : Bool :=
  p.dst ≠ p.who.chip && !p.isVote && s.voteOpen p.dst p.gctx && (s.chip p.dst).vote.acked

/-! ## The path of a packet (R243, R282) -/

/-- The DPA an access to this chip's memory names, without revisions' copies. -/
def State.pktDpa (s : State) (p : Pkt) : Nat :=
  match p.target with
  | .dpa _ => if p.isWriteBack then p.va else s.dpaOf p.dst p.gctx (if p.dst = p.who.chip then p.rev % 128 else 0) p.va
  | .peer va => s.dpaOf p.dst p.gctx 0 va
  | _ => 0
/-- Where a packet is performed on its chip, as an output of the router: a slice, a core, a host port, a unit. -/
def State.place (s : State) (p : Pkt) : Nat :=
  match p.target with
  | .pool cl co _ => 1000 + cl * 8 + co
  | .dpa _ | .peer _ => sliceOf (s.pktDpa p)
  | .host q _ => 1300 + q
  | .unit => 1400
/-- The die of that place (R243; log 53 for all but the slices). -/
def State.placeDie (s : State) (p : Pkt) : Bool :=
  match p.target with
  | .pool cl _ _ => Config.dieOf 0 cl
  | .dpa _ | .peer _ => decide (64 ≤ sliceOf (s.pktDpa p))
  | .host q _ => Config.dieOf 2 q
  | .unit => Config.dieOf 3 0
/-- The die of a packet's issuer: its cluster, or the chip's controller of votes. -/
def Pkt.homeDie (p : Pkt) : Bool := if p.who.clus < 32 then Config.dieOf 0 p.who.clus else Config.dieOf 3 1
/-- The port a packet would leave through. -/
def State.portNow (s : State) (p : Pkt) : Nat := (s.pktPorts p).headD 48
/-- The legs of a path over a chip: 0 of a request over its own chip, 1 over its target's, 2 and 3 the same of its reply. -/
def Stage.leg (st : Stage) : Nat :=
  match st with | .inRouter => 1 | .replyRouter => 2 | .replyOut => 3 | .bridge k => k | _ => 0
/-- The dies at which a leg begins and ends. -/
def State.legDies (s : State) (p : Pkt) (k : Nat) : Bool × Bool :=
  let own := p.dst = p.who.chip
  match k with
  | 0 => (p.homeDie, if own then s.placeDie p else Config.dieOf 1 (s.portNow p))
  | 1 => (Config.dieOf 1 p.port, s.placeDie p)
  | 2 => (s.placeDie p, if own then p.homeDie else Config.dieOf 1 (s.portNow p))
  | _ => (Config.dieOf 1 p.port, p.homeDie)
/-- A leg crosses the die bridge (R244). -/
def State.crosses (s : State) (p : Pkt) (k : Nat) : Bool := (s.legDies p k).1 != (s.legDies p k).2
/-- Where a packet is taken on the chip that performs it. -/
def Pkt.taken (p : Pkt) : Stage :=
  match p.target, p.op with
  | .dpa _, .l2 .. => .ready
  | .dpa _, _ => .slice
  | .host _ _, _ => .ready
  | _, _ => .target
/-- Where a leg ends. -/
def Pkt.legEnd (p : Pkt) (k : Nat) : Stage :=
  match k with
  | 0 => if p.dst = p.who.chip then p.taken else .egress
  | 1 => p.taken
  | 2 => if p.dst = p.who.chip then .home else .replyEgress
  | _ => .home
/-- The stage after a grant of a router or of the die bridge. -/
def State.nextStage (s : State) (p : Pkt) : Stage :=
  match p.stage with
  | .bridge k => p.legEnd k
  | st => if s.crosses p st.leg then .bridge st.leg else p.legEnd st.leg

/-! ## Arbiters (R283) -/

/-- The output of the router that a leg takes: the die bridge, a place of the chip, a fabric port, or the issuer's core. -/
def State.output (s : State) (p : Pkt) (k : Nat) : Nat :=
  let own := p.dst = p.who.chip
  let core := if p.who.clus < 32 then 1000 + p.who.clus * 8 + p.who.core else 1401
  if s.crosses p k then 1500
  else
    match k with
    | 0 => if own then s.place p else 2000 + s.portNow p
    | 1 => s.place p
    | 2 => if own then core else 2000 + s.portNow p
    | _ => core
/-- The chip over which a leg leads. -/
def Pkt.legChip (p : Pkt) (k : Nat) : Nat := if k = 0 ∨ k = 3 then p.who.chip else p.dst
/-- The arbiter a packet waits at: its chip and a number. None outside the queues of R283. -/
def State.arbiterOf (s : State) (p : Pkt) : Option (Nat × Nat) :=
  match p.stage with
  | .router | .inRouter | .replyRouter | .replyOut => some (p.legChip p.stage.leg, s.output p p.stage.leg)
  | .bridge k => some (p.legChip k, 7000 + bit (s.legDies p k).1)
  | .egress | .replyEgress => some (p.leaves, 3000 + s.portNow p)
  | .ingress | .replyIngress => some (p.goes, 4000 + p.port)
  | .slice => some (p.dst, 5000 + sliceOf (s.pktDpa p))
  | .mc _ _ => some (p.dst, 6000 + stackOf ((s.chip p.dst).mig.maskAt (s.pktDpa p)) (s.pktDpa p))
  | _ => none
/-- The input of its arbiter at which a packet stands: a core of the chip, a port, or a place that replies (log 53). -/
def State.inputOf (s : State) (p : Pkt) : Nat :=
  match p.stage with
  | .replyRouter | .bridge 2 | .replyEgress => 512 + s.place p
  | .ingress | .inRouter | .bridge 1 | .replyIngress | .replyOut | .bridge 3 => 257 + p.port
  | .slice | .mc _ _ => if p.dst = p.who.chip then p.who.clus * 8 + p.who.core else 257 + p.port
  | _ => p.who.clus * 8 + p.who.core
/-- The packet goes to a member whose reset its chip has been told of (R393). -/
def State.toReset (s : State) (p : Pkt) : Bool :=
  p.dst ≠ p.who.chip && !p.isVote && (s.gang p.who.chip p.gctx).peersReset.contains (s.gcMember p.dst p.gctx)
/-- An ordered flow's packet is the next its destination expects (R291). -/
def State.inTurn (s : State) (p : Pkt) : Bool :=
  !p.ordf || p.ords || (s.gang p.dst p.gctx).expect.get (p.who, p.flow) 0 = p.seq
/-- Requests held through a vote that was aborted are performed in the order in which they arrived: none that is in turn
stands before this one (R383). -/
def State.heldFirst (s : State) (p : Pkt) : Bool :=
  let l := (s.chip p.dst).vote.held
  !l.contains p.id || !s.pkts.any (fun q => (l.takeWhile (fun i => i ≠ p.id)).contains q.id && (q.stage = .ingress || q.stage = .reorder) && s.inTurn q)
/-- The reorder buffer of a chip has an entry free (R291). -/
def State.reorderRoom (s : State) (n : Nat) : Bool := decide ((s.pkts.filter (fun p => p.stage = Stage.reorder ∧ p.dst = n)).length < 4096)
/-- Messages for a context that have left their ingress and have not landed. -/
def State.landingFor (s : State) (w : Who) : Nat :=
  (s.pkts.filter (fun q => q.dst = w.chip && (q.stage = .inRouter || q.stage = .bridge 1 || q.stage = .target) &&
    (match q.op, q.target with | .amsg _ x _ _ _ _ _, .pool cl co _ => cl = w.clus && co = w.core && x = w.ctx | _, _ => false))).length
/-- An arriving message's context has no room for its record behind those that are landing, which keeps the message at ingress
(R235, R236). -/
def State.noRoom (s : State) (p : Pkt) : Bool :=
  match p.op, p.target with
  | .amsg _ x _ _ _ _ _, .pool cl co _ =>
    let w : Who := ⟨p.dst, cl, co, x⟩
    let c := s.ctx w
    let k := s.landingFor w
    if c.inRing 3 then decide (c.csr.ovfQuota.toNat ≤ c.ringUsed + k) else decide (64 ≤ c.queueLen 3 + k)
  | _, _ => false
/-- The flow of a packet. -/
def Pkt.flowKey (p : Pkt) : Who × Nat × Nat := (p.who, p.dst, p.flow)
/-- The line of an access is under way from memory for another one (R410). -/
def State.filling (s : State) (p : Pkt) : Bool :=
  s.pkts.any (fun q => q.id ≠ p.id && q.dst = p.dst && !q.isWriteBack && (match q.stage with | .mc _ _ | .wmHold => true | _ => false) &&
    s.pktDpa q / 128 = s.pktDpa p / 128)
/-- A captured packet of the flow that stands there again goes first (R386). -/
def State.behind (s : State) (p : Pkt) : Bool :=
  !p.again && s.pkts.any (fun q => q.again && q.stage = p.stage && q.flowKey = p.flowKey && q.gctx = p.gctx)
/-- The packet may leave where it stands: at an egress a port is live, no vote is open and a critical packet is within 64 of the
oldest unacknowledged one, a wait that is charged (R294); at an ingress its gang runs, and
it is in turn or the reorder buffer has room; no vote holds it where it is performed, its line is not being filled for another,
and none that was captured goes before it (R280, R283, R291, R380, R386, R410). -/
def State.eligible (s : State) (p : Pkt) : Bool :=
  !s.behind p &&
  match p.stage with
  | .egress => s.toReset p || (!(s.pktPorts p).isEmpty && (p.isVote || !s.voteOpen p.leaves p.gctx) && s.critNear p)
  | .replyEgress => !(s.pktPorts p).isEmpty && !s.voteOpen p.leaves p.gctx
  | .ingress =>
    p.isVote || ((s.chip p.dst).running = some p.gctx && !s.voteStops p && s.heldFirst p && !s.noRoom p && (s.inTurn p || s.reorderRoom p.dst))
  | .replyIngress => (s.chip p.who.chip).running = some p.gctx
  | .reorder => (s.chip p.dst).running = some p.gctx && s.inTurn p && !s.voteStops p && s.heldFirst p
  | .slice => !s.voteStops p && !s.filling p
  | .mc _ _ => !s.voteStops p
  | _ => true
/-- A list of numbers stands before another one. -/
def lexLt : List Nat → List Nat → Bool
  | a :: l, b :: r => decide (a < b) || (decide (a = b) && lexLt l r)
  | _, _ => false
/-- The place of an input after the one an arbiter last granted. -/
def State.turnOf (s : State) (a : Nat × Nat) (input : Nat) : Nat := (input + 4096 - (s.chip a.1).rrArb.get a.2 4095 - 1) % 4096
/-- What an arbiter compares within a class: slack, eligibility cycle, the input's place after the last one granted, then the
packet's number (R283). -/
def State.rank (s : State) (a : Nat × Nat) (p : Pkt) : List Nat := [(p.charged s.now).1, p.since, s.turnOf a (s.inputOf p), p.id]
/-- The chip a copy on a link leaves, and the one it goes to. -/
def Wire.leaves (w : Wire) : Nat := if w.back then w.dst else w.who.chip
def Wire.goes (w : Wire) : Nat := if w.back then w.who.chip else w.dst
/-- The port through which a copy is sent again (R299). -/
def State.againPort (s : State) (w : Wire) : Option Nat :=
  ((upTo 48).map (fun i => (w.port + i) % 48)).find? (fun k => s.portLive w.leaves k w.goes)
/-- A copy with a bad tag waits at its sender's egress: the arbiter at which it does. -/
def State.wireArbiter (s : State) (w : Wire) : Option (Nat × Nat) :=
  if w.out then none else (s.againPort w).map (fun k => (w.leaves, 3000 + k))
/-- It may be sent: no vote has stopped injection there (R380). -/
def State.wireEligible (s : State) (w : Wire) : Bool := w.unit || !s.voteOpen w.leaves w.gctx
/-- A copy charged for its wait until now: SLACK, SUB, EXH (R282). -/
def Wire.charged (w : Wire) (now : Nat) : Nat × Nat × Bool :=
  let t := w.sub + (now - w.since)
  let c := t / 16
  (w.slack - c, t % 16, w.exh || (decide (w.slack ≤ c) && decide (0 < w.slack)) || (decide (0 < c) && decide (w.slack = 0)))
/-- The input of the arbiter at which a copy stands: the port that sends it again (log 53). -/
def Wire.input (w : Wire) : Nat := 2048 + w.port
/-- What the arbiter compares of a copy. -/
def State.wireRank (s : State) (a : Nat × Nat) (w : Wire) : List Nat := [(w.charged s.now).1, w.since, s.turnOf a w.input, w.pkt, w.port]
/-- What an arbiter chooses among: the class, and what it compares. -/
structure Rival where
  crit : Bool
  rank : List Nat
  deriving DecidableEq, Repr
/-- The oldest of two. -/
def Rival.older (x y : Rival) : Bool := lexLt ((x.rank.drop 1).take 1 ++ x.rank.drop 3) ((y.rank.drop 1).take 1 ++ y.rank.drop 3)
/-- The eligible packets and copies at an arbiter. -/
def State.atArbiter (s : State) (a : Nat × Nat) : List Rival :=
  (s.pkts.filter (fun q => s.arbiterOf q = some a && s.eligible q)).map (fun q => ⟨q.crit, s.rank a q⟩) ++
  (s.wires.filter (fun w => s.wireArbiter w = some a && s.wireEligible w)).map (fun w => ⟨w.crit, s.wireRank a w⟩)
/-- The depth of an arbiter (R283): 32 at an output of the router, 64 elsewhere. -/
def arbDepth (a : Nat × Nat) : Nat := if a.2 < 3000 then 32 else 64
/-- Its queue: the oldest of them, up to its depth; the others stand behind. -/
def State.rivals (s : State) (a : Nat × Nat) : List Rival :=
  let l := s.atArbiter a
  l.filter (fun x => decide ((l.filter (fun y => y.older x)).length < arbDepth a))
/-- The arbiter's choice among its queue: class, then least slack, then oldest, then round-robin over the inputs (R283). -/
def State.chosen (s : State) (a : Nat × Nat) (x : Rival) : Bool :=
  let l := s.rivals a
  let turn := (s.chip a.1).grants.get a.2 0 % 8 = 7
  let cls := if turn && l.any (fun q => !q.crit) then false else l.any (fun q => q.crit)
  l.contains x && x.crit = cls && l.all (fun q => q.crit ≠ cls || q = x || lexLt x.rank q.rank)
/-- The packet is its arbiter's choice. -/
def State.wins (s : State) (p : Pkt) : Bool :=
  match s.arbiterOf p with
  | none => true
  | some a => s.chosen a ⟨p.crit, s.rank a p⟩
/-- Count a grant at an arbiter, and the input it went to. -/
def State.grantAt (s : State) (a : Nat × Nat) (input : Nat) : State :=
  s.updChip a.1 (fun c => { c with grants := c.grants.set a.2 (c.grants.get a.2 0 + 1), rrArb := c.rrArb.set a.2 input })
/-- Count a grant at a packet's arbiter. -/
def State.countGrant (s : State) (p : Pkt) : State :=
  match s.arbiterOf p with
  | none => s
  | some a => s.grantAt a (s.inputOf p)
/-- A packet replaced. -/
def State.putPkt (s : State) (p : Pkt) : State := { s with pkts := updWhere (fun q => q.id = p.id) (fun _ => p) s.pkts }
/-- A packet gone. -/
def State.dropPkt (s : State) (id : Nat) : State := { s with pkts := s.pkts.filter (fun q => q.id ≠ id) }
/-- The packet a step names. -/
def State.thePkt (s : State) : Option Pkt := s.pkts.find? (fun p => p.id = s.sel.id)
/-- A packet that has been served goes back with its reply or acknowledgement (R285). -/
def sendBack (s : State) (p : Pkt) : State := s.putPkt ({ p with performed := true }.toReply s.now)
/-- The packet of a command at a unit goes back with the command's result (R207). -/
def replyCmd (s : State) (id : Nat) (v : BitVec 64) : State :=
  match s.pkts.find? (fun p => p.id = id) with
  | some p => sendBack s { p with result := bytesOf v.toNat 8 }
  | none => s

/-! ## Dirty pages (R369) -/

/-- A page whose dirty bit a write must set first: extent and page. -/
def State.pageClean (s : State) (n g va : Nat) : Option (Nat × Nat) :=
  let ext := va / 2 ^ 28 % 4096
  let page := natFld va 21 7
  let e := s.xentry n g ext
  if (e.kind = 1 || e.kind = 4) && e.dlog && !(s.gang n g).dirty.contains (ext, page) then some (ext, page) else none
/-- A record is asked for, unless one of the page waits already. -/
def askDirty (s : State) (n g : Nat) (w : Who) (ext page : Nat) : State :=
  let r : DlogReq := { id := s.nextId, who := w, gctx := g, ext := ext, page := page,
                       gpa := (s.xentry n g ext).gbase + page * 2 ^ 21, vf := s.gcVf n g, told := false }
  if (s.chip n).dlogWait.any (fun q => q.gctx = g && q.ext = ext && q.page = page) then s
  else s.fresh.updChip n (fun c => { c with dlogWait := c.dlogWait ++ [r] })
/-- The record of a page is asked for already. -/
def State.dirtyAsked (s : State) (n g ext page : Nat) : Bool :=
  (s.chip n).dlogWait.any (fun q => q.gctx = g && q.ext = ext && q.page = page)

/-! ## Granules of revisions (R262 to R265) -/

/-- The children whose ancestor a write in a revision would lose (R263). -/
def Gang.exposed (g : Gang) (rev gran : Nat) : List Nat :=
  ((g.revs.filter (fun v => v.parent = rev && (g.ancSlot v.num gran).isNone)).map (·.num))
/-- The slots a write in a revision needs: children to preserve, and whether it needs a copy of its own. -/
def Gang.needs (g : Gang) (rev gran : Nat) : List Nat × Bool := (g.exposed rev gran, rev ≠ 0 && (g.ownSlot rev gran).isNone)
/-- Slots a write in a revision needs. -/
def Gang.needCount (g : Gang) (rev gran : Nat) : Nat :=
  let q := g.needs rev gran
  (if q.1.isEmpty then 0 else 1) + (if q.2 then 1 else 0)
/-- The pool has no slot for as many as are needed: USED would pass SLOTS (R265). DESIGN CHOICE (log 35): a write that needs two
slots with one left takes neither and waits, like one that finds USED equal to SLOTS. -/
def Gang.poolFull (g : Gang) (need : Nat) : Bool := need ≠ 0 && decide (g.ancSlots < g.used + need)
/-- The next k free slots, lowest first. -/
def Gang.nextSlots (g : Gang) (k : Nat) : List Nat := ((upTo g.ancSlots).filter (fun i => !g.slots.any (fun u => u.slot = i))).take k
/-- Take a slot and write a granule's bytes and their poison into it (R244, R263). -/
def takeSlot (s : State) (n g rev gran : Nat) (w : Who) (serves : List Nat) (b : List Byte) (m : List Bool) : Option State :=
  let k := s.gang n g
  ((k.nextSlots 1).head?).map (fun i =>
    let d := s.dpaOf n g 0 (k.ancBase + i * 256)
    let s1 := s.updGang n g (fun k => { k with slots := k.slots ++ [⟨i, gran, rev, serves⟩], ancHwm := max k.ancHwm (k.slots.length + 1) })
    (hbmWrite (s1.homeLines n g w true d 256) (hbmKey n d) b).poisonAt (hbmKey n d) m)
/-- Make the copies a write in a revision to a granule needs; none when the pool has no slot (R263, R265). -/
def prepareWrite (s : State) (n g rev gran : Nat) (w : Who) : Option State :=
  let q := (s.gang n g).needs rev gran
  if (s.gang n g).poolFull ((s.gang n g).needCount rev gran) then none
  else if (s.gang n g).needCount rev gran = 0 then some s
  else
    let d := s.dpaOf n g rev (gran * 256)
    let s0 := s.homeLines n g w false d 256
    let b := s0.peek (hbmKey n d) 256
    let m := s0.poisonOf (hbmKey n d) 256
    let s1 := if q.1.isEmpty then some s0 else takeSlot s0 n g rev gran w q.1 b m
    if q.2 then s1.bind (fun s1 => takeSlot s1 n g rev gran w [] b m) else s1
/-- The pool address of the copy that holds a granule's contents in a revision, if there is one. -/
def Gang.copyAddr (g : Gang) (rev gran : Nat) : List Nat := let a := g.revVa 10 rev (gran * 256); if a = gran * 256 then [] else [a]
/-- Pool addresses that an access of a granule in a revision touches, and whether it writes there: the copy that holds its
contents there, and the slots it is to take. -/
def Gang.poolAddrs (g : Gang) (rev gran need : Nat) (wr : Bool) : List (Nat × Bool) :=
  let own := wr && (g.ownSlot rev gran).isSome
  (g.copyAddr rev gran).map (fun a => (a, own)) ++ (g.nextSlots need).map (fun i => (g.ancBase + i * 256, true))
/-- What the first of some pool addresses whose page cannot be used meets: the address, cause, and what a freeze waits for. Pool
pages fall under translation as ordinary accesses do: entry, permission, absence, the capacity limit (R264, R411). -/
def State.poolFault (s : State) (n g : Nat) (l : List (Nat × Bool)) : Option (Nat × BitVec 8 × FreezeCause) :=
  l.findSome? (fun q =>
    match s.lookup n g q.1 (!q.2) q.2 false with
    | .absent e p => some (q.1, 0x08, .absent n e p)
    | .cap => some (q.1, 0x0C, .none)
    | .dpa _ _ => none
    | _ => some (q.1, 0x09, .none))
/-- Lines of granules, as DPAs, in order: 256 bytes at each kernel-space address. -/
def State.granLines (s : State) (n g rev : Nat) (l : List Nat) : List (Nat × Nat) :=
  l.flatMap (fun a => (linesOver (s.dpaOf n g rev a) 256).map (fun d => (n, d)))
/-- The first of some pool addresses whose page needs its dirty record first (R369). -/
def State.poolClean (s : State) (n g : Nat) (l : List Nat) : Option (Nat × Nat) := l.findSome? (fun a => s.pageClean n g a)
/-- The mark of a fault of a page that cannot be used. -/
def badMark (code : BitVec 8) : Nat := 2 ^ 20 + code.toNat
/-- The mark of a page that a waiting request has raised. -/
def pageMark (ext page : Nat) : Nat := 2 + ext * 128 + page

end Sys2Proof.Machine
end

