-- ==== Sys2Proof/Machine/EvAccess.lean ====
section
/-! DEFINITION. Sys2Proof/Machine/EvAccess.lean: the events of an access from its core to its point of coherence and back
(spec/07 R173 to R186, spec/10 R244, spec/12 R279 to R300, spec/18 R362, R369, spec/21 R409 to R411). -/

namespace Sys2Proof.Machine

/-! ## Late faults of an access -/

/-- A fault found after issue is queued in the access's context (R436); whether poison is stale is settled as it is found
(R334). -/
def lateFor (s : State) (w : Who) (code : BitVec 8) (info : BitVec 64) (inst : Nat) (fr : FreezeCause) : State :=
  s.updCtx w (fun c => { c with late := c.late ++ [c.found code info inst fr] })
/-- A fault of a packet with the issuer's address; a load that a rewind has dropped raises nothing (R335). -/
def pktFault (s : State) (p : Pkt) (code : BitVec 8) (fr : FreezeCause) : State :=
  if p.dropLanding then s else lateFor s p.who code (memInfo p.slot 0 p.ea) p.inst fr
/-- A packet ends without a value: its busy bits clear. -/
def endPkt (s : State) (p : Pkt) : State := (clearBusy (s.dropPkt p.id) p.who p.id).settle


/-! ## Copies on links (R294, R299) -/

/-- A copy of a packet that leaves through a port. -/
def Pkt.wire (p : Pkt) (now port : Nat) : Wire :=
  { pkt := p.id, who := p.who, gctx := p.gctx, flow := p.flow, dst := p.dst, seq := p.seq, crit := p.crit, back := p.isBack,
    unit := p.isVote, port := port, slack := p.slack, sub := p.sub, exh := p.exh, since := now, tried := false, out := true }
/-- The accepted packets of a flow with one more: the SEQ below which every packet has been accepted, and those above it that
have (R294). -/
def acceptSeq (m : Nat × List Nat) (seq : Nat) : Nat × List Nat :=
  let l := if m.2.contains seq then m.2 else seq :: m.2
  l.foldl (fun a _ => if a.2.contains a.1 then ((a.1 + 1) % 4096, a.2.filter (fun x => x ≠ a.1)) else a) (m.1, l)
/-- The key of a copy's flow among the accepted packets of its receiver: requests, and replies by the chip they come from. -/
def Wire.key (w : Wire) : Who × Nat := (w.who, w.flow + (if w.back then 4096 * (1 + w.dst) else 0))
/-- The accepted packets of a copy's flow. -/
def State.acceptedOf (s : State) (w : Wire) : Nat × List Nat :=
  if w.unit then (s.chip w.goes).uaccepted.get w.who.chip (0, []) else (s.gang w.goes w.gctx).accepted.get w.key (0, [])
/-- The receiver has accepted a good copy of the critical packet before (R294). -/
def State.wireSeen (s : State) (w : Wire) : Bool :=
  let m := s.acceptedOf w
  w.crit && (2048 ≤ (w.seq + 4096 - m.1) % 4096 || m.2.contains w.seq)
/-- After the packets of a flow that is not critical: the SEQ after the highest accepted, at which the flow goes on when it
becomes critical, since every earlier packet has been acknowledged then (R301; log 53). -/
def passSeq (m : Nat × List Nat) (seq : Nat) : Nat × List Nat :=
  if (seq + 4096 - m.1) % 4096 < 2048 then ((seq + 1) % 4096, []) else (m.1, [])
/-- A copy is accepted. -/
def acceptWire (s : State) (w : Wire) : State :=
  let m := if w.crit then acceptSeq (s.acceptedOf w) w.seq else passSeq (s.acceptedOf w) w.seq
  if w.unit then s.updChip w.goes (fun c => { c with uaccepted := c.uaccepted.set w.who.chip m })
  else s.updGang w.goes w.gctx (fun g => { g with accepted := g.accepted.set w.key m })
/-- The wire a step names: a packet's number and a port. -/
def State.theWire (s : State) (out : Bool) : Option Wire := s.wires.find? (fun w => w.pkt = s.sel.id && w.port = s.sel.reg && w.out = out)
/-- A wire gone. -/
def State.dropWire (s : State) (w : Wire) : State := { s with wires := s.wires.filter (fun x => x ≠ w) }

/-! ## ARBITER_GRANT (R282, R283) -/

/-- A packet at its next stage. A command that has reached its unit is a request there, and a message between controllers is
delivered (R207, R379). -/
def arriveAtStage (s : State) (p : Pkt) : State :=
  match p.stage, p.op with
  | .target, .cmd k => { s.putPkt p with reqs := s.reqs ++ [⟨p.id, p.who, k⟩] }
  | .target, .vote m => { s.dropPkt p.id with votes := s.votes ++ [(p.dst, m)] }
  | _, _ => s.putPkt p
/-- A packet leaves through its ports: one copy, or two for a critical one (R294). -/
def sendOut (s : State) (p : Pkt) (ports : List Nat) : State :=
  { s.putPkt p with wires := s.wires ++ ports.map (p.wire s.now) }
/-- A packet for a member that has been reset is answered at its own chip: a write acknowledged and discarded, a read or
atomic answered with poisoned data, whose bytes are free (R393, log 3). -/
def answerReset (s : State) (p : Pkt) : State :=
  let n := match p.op with | .load n _ | .row n _ | .atomic _ n _ _ _ => n | _ => 0
  let q := { p with performed := true, poison := decide (0 < n) || p.poison,
                    result := (upTo n).map (fun i => Config.undefByte s.free (0x70000 + p.id * 128 + i)) }
  s.putPkt { q.toReply s.now with stage := .home }
/-- A copy with a bad tag is sent again, under its packet's slack, when its egress chooses it (R282, R283, R299). -/
def resend (s : State) : Out :=
  match s.theWire false with
  | none => .fault .notEnabled
  | some w =>
    match s.wireArbiter w, s.againPort w with
    | some a, some k =>
      if !s.wireEligible w || !s.chosen a ⟨w.crit, s.wireRank a w⟩ then .fault .notEnabled
      else
        let c := w.charged s.now
        let s1 := (s.dropWire w).grantAt a w.input
        .next { s1 with wires := s1.wires ++ [{ w with out := true, port := k, since := s.now, slack := c.1, sub := c.2.1, exh := c.2.2 }] }
    | _, _ => .fault .notEnabled
/-- A packet granted where it stands; `p` has been chosen by its arbiter. -/
def grantPkt (s : State) (p : Pkt) : Out :=
  let s1 := s.countGrant p
  match p.stage with
  | .router | .inRouter | .replyRouter | .replyOut | .bridge _ => .next (arriveAtStage s1 (p.grant s.now (s.nextStage p)))
  | .egress =>
    if s.toReset p then .next (answerReset s1 (p.grant s.now .egress))
    else .next (sendOut (countS s1 p) (p.grant s.now .link) (s.pktPorts p))
  | .replyEgress => .next (sendOut (countS s1 p) (p.grant s.now .replyLink) (s.pktPorts p))
  | .ingress => .next (s1.putPkt (p.grant s.now (if s.inTurn p then .inRouter else .reorder)))
  | .reorder => .next (s1.putPkt (p.grant s.now .inRouter))
  | .replyIngress => .next (s1.putPkt (p.grant s.now .replyOut))
  | _ => .fault .notEnabled
/-- ARBITER_GRANT: packet `id` is granted at a router, the die bridge, a port's egress or ingress, or leaves the reorder
buffer; with operand value 1, the copy for port `reg` is sent again. -/
def execArbiterGrant (s : State) : Out :=
  if s.sel.val = 1 then resend s
  else
    match s.thePkt with
    | none => .fault .notEnabled
    | some p => if s.eligible p && s.wins p then grantPkt s p else .fault .notEnabled

/-! ## PACKET_ARRIVAL (R279, R291, R294, R299, R387) -/

/-- Count at a port of a chip. -/
def countPort (s : State) (n k : Nat) (f : Port → Port) : State :=
  s.updChip n (fun c => { c with ports := c.ports.set k (f (c.ports.get k Port.reset)) })
/-- A saturating increment of a 16-bit counter. -/
def inc16 (v : BitVec 16) : BitVec 16 := if v = 0xFFFF then v else v + 1
/-- The extension a packet carries (R279). -/
def Pkt.ext (p : Pkt) : Nat :=
  let hoff := match p.op with | .amsg _ _ h .. => if p.isBack then 0 else h | _ => 0
  p.slack + p.sub * 2 ^ 12 + p.rallow * 2 ^ 16 + bit p.crit * 2 ^ 20 + bit p.ordf * 2 ^ 21 + bit p.exq * 2 ^ 22 + bit p.exh * 2 ^ 23 +
    bit p.isBack * 2 ^ 24 + bit p.ords * 2 ^ 31 + p.flow % 256 * 2 ^ 32 + p.seq * 2 ^ 40 + p.who.clus * 2 ^ 52 + p.who.core * 2 ^ 57 +
    p.who.ctx * 2 ^ 60 + hoff * 2 ^ 64
/-- TYPE of a save-area record (R386). -/
def Pkt.saveType (p : Pkt) : Nat :=
  if p.isBack then 4
  else match p.op with | .load .. | .row .. | .prefetch _ => 0 | .store _ | .sttRow .. => 1 | .atomic .. => 2 | _ => 3
/-- The address a packet carries: a virtual address at its target, a pool offset, or a host address (R386). -/
def Pkt.carried (p : Pkt) : Nat :=
  match p.target with | .peer va => va | .pool _ _ off => off | .host _ a => a | _ => p.va
/-- The record of a captured packet, its payload padded to 32 bytes (R386); `port` is 0xFF for one that had no port. -/
def nsaRecord (s : State) (n : Nat) (p : Pkt) (out : Bool) (port : Nat) : List Byte :=
  let peer := s.gcMember (if p.leaves = n then p.goes else p.leaves) p.gctx
  let b := p.payload
  bytesOf p.ext 12 ++ bytesOf peer 2 ++ bytesOf (if out then 0 else 1) 1 ++ bytesOf p.saveType 1 ++ bytesOf p.carried 8 ++
    bytesOf b.length 2 ++ bytesOf port 1 ++ bytesOf 0 5 ++ b ++ List.replicate ((32 - b.length % 32) % 32) 0
/-- A packet of a gang context that does not run is captured, or lost when its record would pass the area (R386, R387). It
stands as it will be presented again: a request or reply on its way out at egress, one on its way in at ingress. -/
def capture (s : State) (n g : Nat) (p : Pkt) (out : Bool) : State :=
  let k := s.gang n g
  let port := if out then (match p.stage with | .egress | .replyEgress => (s.pktPorts p).headD 0xFF | _ => 0xFF) else p.port
  let r := nsaRecord s n p out port
  let s1 := s.dropPkt p.id
  let st : Stage := match out, p.isBack with | true, false => .egress | true, true => .replyEgress | false, false => .ingress | false, true => .replyIngress
  if k.nsaBytes + r.length ≤ s.barN n 0 (gcBlock g + 0x18) * 4096 then
    (hbmWrite s1 (hbmKey n (s.barN n 0 (gcBlock g + 0x10) + k.nsaBytes)) r).updGang n g (fun k =>
      { k with nsa := k.nsa ++ [{ p with stage := st }], nsaBytes := k.nsaBytes + r.length })
  else s1.updGang n g (fun k => { k with ovf := true })
/-- Where a packet that arrived at a chip belongs: in its ingress, held since PREPARE, or captured (R380, R387); a request to
a member whose gang context has been reset stands unperformed until its issuer hears of the reset (R393). -/
def intoIngress (s : State) (n : Nat) (p : Pkt) : State :=
  if p.isVote then s.putPkt { p with stage := .ingress }
  else if p.isBack then
    (if (s.chip n).running = some p.gctx then s.putPkt { p with stage := .replyIngress } else capture s n p.gctx p false)
  else if (s.gang n p.gctx).resetDone then s.putPkt { p with stage := .voteHold }
  else if (s.chip n).running ≠ some p.gctx then capture s n p.gctx p false
  else if s.voteOpen n p.gctx then
    (s.putPkt { p with stage := .voteHold }).updChip n (fun c => { c with vote := { c.vote with held := c.vote.held ++ [p.id] } })
  else s.putPkt { p with stage := .ingress }
/-- A good or a poisoned copy is taken from the link: discarded when its packet has been accepted before, else its packet is
accepted (R294). -/
def takeWire (s : State) (w : Wire) (bad : Bool) : State :=
  let n := w.goes
  if s.wireSeen w then countPort s n w.port (fun q => { q with dup := inc16 q.dup })
  else
    match s.pkts.find? (fun p => p.id = w.pkt) with
    | none => s
    | some p =>
      let q := { p with port := w.port, slack := w.slack, sub := w.sub, exh := w.exh, since := s.now, poison := p.poison || bad }
      intoIngress (countR (acceptWire s w) q) n q
/-- PACKET_ARRIVAL: the copy of packet `id` on port `reg` arrives. Operand values are inputs from outside (log 17): 1, its tag
is bad, so that it is sent again, or, the second time, delivered poisoned (R299); 2, a reserved field is not zero, so that it
is discarded (R279). -/
def execPacketArrival (s : State) : Out :=
  match s.theWire true with
  | none => .fault .notEnabled
  | some w =>
    let n := w.goes
    let s0 := s.dropWire w
    let s1 := countPort s0 n w.port (fun q => { q with tag := inc16 q.tag })
    if s.sel.val = 2 || s.pkts.any (fun p => p.id = w.pkt && p.resv) then .next (countPort s0 n w.port (fun q => { q with resv := inc16 q.resv }))
    else if s.sel.val = 1 && !w.tried then .next { s1 with wires := s1.wires ++ [{ w with tried := true, out := false, since := s.now }] }
    else if s.sel.val = 1 then .next (takeWire s1 w true)
    else .next (takeWire s0 w false)

/-! ## REQUEST_PERFORM (R291, R295, R298, R362) -/

/-- The destination expects the packet after one it has performed. -/
def bumpExpect (s : State) (p : Pkt) : State :=
  if p.ordf then s.updGang p.dst p.gctx (fun g => { g with expect := g.expect.set (p.who, p.flow) ((p.seq + 1) % 4096) }) else s
/-- A request that has been served goes back. -/
def answer (s : State) (p : Pkt) : State := (bumpExpect (sendBack s p) p).settle
/-- The permissions an access needs. -/
def Pkt.perms (p : Pkt) : Bool × Bool :=
  match p.op with
  | .store _ => (false, true) | .atomic .. => (true, true) | _ => (true, false)
/-- A row of ldtp. -/
def Pkt.isPrefetch (p : Pkt) : Bool := match p.op with | .prefetch _ => true | _ => false
/-- The packet may be performed at the unit, pool or table it has reached: in turn, its gang runs, and no vote holds it. -/
def State.mayPerform (s : State) (p : Pkt) : Bool :=
  p.stage = .target && (s.chip p.dst).running = some p.gctx && s.inTurn p && !s.voteStops p && s.heldFirst p
/-- Bytes of a payload written to a pool, but those already written (R254), with the poison of a delivery. -/
def putPayload (s : State) (k : Nat) (b : List Byte) (gone : List Nat) (bad : Bool) : State :=
  let s1 := s.pokeRest k b gone
  if bad then s1.setPoison k b.length else s1
/-- Byte i of a packet's payload written to a pool ahead of the others (R254). -/
def putByte (s : State) (p : Pkt) (k : Nat) (b : List Byte) (i : Nat) : Out :=
  if i < b.length && !p.pieces.contains i then
    .next ((let s1 := s.poke (k + i) [b.getD i 0]; if p.poison then s1.setPoison (k + i) 1 else s1).putPkt { p with pieces := i :: p.pieces })
  else .fault .notEnabled
/-- Bytes i to i + n of a packet's payload written to a pool ahead of the others. -/
def putRun (s : State) (p : Pkt) (k : Nat) (b : List Byte) (i n : Nat) : Out :=
  let l := ((upTo n).map (fun j => i + j)).filter (fun j => !p.pieces.contains j)
  if n = 0 || l.isEmpty then .fault .notEnabled
  else
    .next ((l.foldl (fun s j => let s1 := s.poke (k + j) [b.getD j 0]; if p.poison then s1.setPoison (k + j) 1 else s1) s).putPkt
      { p with pieces := l ++ p.pieces })
/-- A window store that is still to be performed, in a core's pool: offset and bytes left there. -/
def Pkt.winRange (p : Pkt) : Option (CoreId × Nat × Nat) :=
  match p.op, p.target with
  | .store b, .pool cl co off => if p.performed then none else some (⟨p.dst, cl, co⟩, off, b.length)
  | _, _ => none
/-- A window store of another flow to a range that overlaps: the two write per byte (R254). -/
def State.torn (s : State) (p : Pkt) : Bool :=
  p.winRange.any (fun a => s.flights.any (fun q => q.id ≠ p.id && q.flowKey ≠ p.flowKey &&
    q.winRange.any (fun b => b.1 = a.1 && decide (a.2.1 < b.2.1 + b.2.2 ∧ b.2.1 < a.2.1 + a.2.2))))
/-- Part of a window store ahead of the rest, by operand value: i + 1, byte i, of one that overlaps a store of another flow; 4097 +
j, its aligned 64-byte piece j (R253, R254). -/
def windowAhead (s : State) (p : Pkt) (off k : Nat) (b : List Byte) (v : Nat) : Out :=
  if 4096 < v then
    (match (piecesOf off b.length)[v - 4097]? with | some q => putRun s p k b q.1 q.2 | none => .fault .notEnabled)
  else if s.torn p then putByte s p k b (v - 1)
  else .fault .notEnabled
/-- A lookup at the target of a peer-chip request (R259, R362): its entry must be of local or revision kind, with the
permissions, and a byte of revision kind must lie in a region. -/
def State.targetLookup (s : State) (p : Pkt) (va : Nat) : XRes :=
  match s.peerLookup p.dst p.gctx va p.perms.1 p.perms.2 false with
  | .dpa a true => if (regionAt (s.gang p.dst p.gctx).regions va).isNone then .range else .dpa a true
  | r => r
/-- REQUEST_PERFORM: a window store or an access of peer-chip kind is taken at its target; an operand value names a part of a
window store that is written ahead of the rest (R254). -/
def execRequestPerform (s : State) : Out :=
  match s.thePkt with
  | none => .fault .notEnabled
  | some p =>
    if !s.mayPerform p then .fault .notEnabled
    else
      match p.target, p.op with
      | .pool cl co off, .store b =>
        let c : CoreId := ⟨p.dst, cl, co⟩
        if (s.wantedIn c off b.length).isSome then .fault .notEnabled
        else if s.sel.val ≠ 0 then windowAhead s p off (poolKey c off) b s.sel.val.toNat
        else .next (answer (putPayload s (poolKey c off) b p.pieces p.poison) p)
      | .peer va, _ =>
        if s.sel.val ≠ 0 then .fault .notEnabled
        else
          (match s.targetLookup p va with
           | .dpa _ _ =>
             let atom := match p.op with | .atomic .. => true | _ => false
             if p.poison && atom then .next (answer s p) else .next (s.putPkt { p with stage := .slice, since := s.now })
           | .absent e q =>
             if p.isPrefetch then .next (answer s p)
             else .next ((pktFault s p 0x08 (.absent p.dst e q)).putPkt { p with stage := .absent })
           | .cap => .next (answer s (if p.isPrefetch then p else { p with fault := 0x0C }))
           | _ => .next (answer s (if p.isPrefetch then p else { p with fault := 0x09 })))
      | _, _ => .fault .notEnabled

/-! ## HOME_SLICE_ACCESS and MC_REQUEST_ACCEPT (R244, R247, R409) -/

/-- HOME_SLICE_ACCESS: the access of packet `id` at its home slice; a line of the writeback buffer is served from there
(R410). -/
def execHomeSliceAccess (s : State) : Out :=
  match s.thePkt with
  | none => .fault .notEnabled
  | some p0 =>
    if p0.stage ≠ .slice || !s.eligible p0 || !s.wins p0 then .fault .notEnabled
    else
      let a := s.pktDpa p0
      let s1 := s.countGrant p0
      let p := p0.grant s.now .slice
      let m := (s.chip p.dst).mig
      if s.capLimit p.dst ≤ a then
        if p.isPrefetch then .next (answer s1 p)
        else if p.dst = p.who.chip then .next (answer (pktFault s1 p 0x0C .none) p)
        else .next (answer s1 { p with fault := 0x0C })
      else
        if s.buffers p.dst a then .next (s1.putPkt { p with stage := .ready })
        else
          let q := touchLine s1 p.dst a p.who p.ef p.isWrite
          let s2 := q.1.updGang p.dst p.gctx (fun g => { g with hbmBytes := g.hbmBytes + (if q.2 then 0 else 128) })
          if q.2 then .next (s2.putPkt { p with stage := .ready })
          else .next (writeBack (countHeld (s2.putPkt { p with stage := mcStage m a }) p.dst (mcStage m a)) p.dst p (s1.dirtyOut p.dst a p.who))
/-- What the line's cells show as it is read: an outside `val` 1, a line that cannot be corrected; 2, one that is corrected
and counted (R425, log 17). -/
def cellsShow (s : State) (n a : Nat) : State :=
  let st := stackOf ((s.chip n).mig.maskAt a) a
  if s.sel.val = 1 then s.lineFails n a
  else if s.sel.val = 2 then s.updChip n (fun c => { c with mig := { c.mig with ce := c.mig.ce.set st (inc32 (c.mig.ce.get st 0)) } })
  else s
/-- MC_REQUEST_ACCEPT: packet `id` at its memory controller, performed, or stale and sent again (R409). A writeback ends there.
With `val` 3, from outside: the cells of the line at DPA `reg` can no longer be corrected, which its next fill finds (R244, log
17). -/
def execMcRequestAccept (s : State) : Out :=
  if s.sel.val = 3 then .next (s.lineFails s.sel.who.chip s.sel.reg) else
  match s.thePkt with
  | none => .fault .notEnabled
  | some p =>
    match p.stage with
    | .mc ph nw =>
      if !s.eligible p || !s.wins p then .fault .notEnabled
      else
        let a := s.pktDpa p
        let m := (s.chip p.dst).mig
        let s1 := s.countGrant p
        let marked := m.active && m.marked && m.wm = periodOf a
        if ph ≠ m.phase.toNat % 256 || nw ≠ m.maskAt a || marked then
          .next (countHeld ((s1.putPkt (p.grant s.now (mcStage m a))).updChip p.dst (fun c =>
            { c with mig := { c.mig with replays := inc32 c.mig.replays } })) p.dst (mcStage m a))
        else
          match p.op with
          | .writeBack g =>
            .next ({ s1.dropPkt p.id with uncorr := s1.uncorr.filter (fun u => u ≠ hbmKey p.dst (a / 128 * 128)),
                                          sunk := s1.sunk.filter (fun u => u ≠ hbmKey p.dst (a / 128 * 128)) }.updGang p.dst g (fun k =>
              { k with hbmBytes := k.hbmBytes + 128 }))
          | _ => .next ((fillLine (cellsShow s1 p.dst a) p.dst a).putPkt (p.grant s.now .ready))
    | _ => .fault .notEnabled

/-! ## ACCESS_PERFORMED (R176 to R186, R263, R369) -/

/-- The key of an access's first byte, in its issuer's revision for this chip's memory. -/
def State.pktKey (s : State) (p : Pkt) : Nat :=
  match p.target with
  | .host q a => hostKey p.dst q a
  | _ => hbmKey p.dst (s.pktDpa p)
/-- Bytes from a key with their poison. -/
def State.marked (s : State) (k n : Nat) : List (Byte × Bool) := (s.peek k n).zip (s.poisonOf k n)
/-- Bytes with their poison written over part of a range. -/
def overlayM (a : Nat) (base : List (Byte × Bool)) (at_ : Nat) (new : List Byte) (bad : Bool) : List (Byte × Bool) :=
  base.mapIdx (fun i b => if at_ ≤ a + i ∧ a + i < at_ + new.length then (new.getD (a + i - at_) 0, bad) else b)
/-- What a load of a context reads at a key: memory, under the stores of the context that its segment holds back, by location
(R183, R334), each where its issuer's revision has it now. DESIGN CHOICE (log 52): an atomic that is held back has no bytes yet, and a load of its address reads the memory
under it. -/
def overBuffered (s : State) (p : Pkt) (k n : Nat) : List (Byte × Bool) :=
  (s.pkts.filter (fun q => q.who = p.who ∧ q.stage = Stage.buffered ∧ q.po < p.po)).foldl
    (fun l q => match q.op, q.target with
      | .store _, .pool _ _ _ => l
      | .store d, _ => overlayM k l (s.pktKey q) d q.poison
      | _, _ => l) (s.marked k n)
/-- The virtual address at the chip that performs an access. -/
def Pkt.tva (p : Pkt) : Nat := match p.target with | .peer va => va | _ => p.va
/-- The access writes memory. -/
def Pkt.writes (p : Pkt) : Bool := match p.op with | .store _ | .atomic .. => true | _ => false
/-- The pieces of an access that are not performed yet, but those a test leaves out. -/
def Pkt.left (p : Pkt) (k : Nat) (keep : Nat → Bool) : List (Nat × Nat) :=
  ((piecesOf k p.op.bytes).zipIdx.filter (fun q => keep q.2 && !p.pieces.contains q.2)).map (·.1)
/-- A load of some pieces: their bytes, and poison among them. -/
def readPieces (s : State) (p : Pkt) (k n : Nat) (l : List (Nat × Nat)) : Pkt :=
  let v := overBuffered s p k n
  let own := fun (i : Nat) => l.any (fun q => q.1 ≤ i && i < q.1 + q.2)
  { p with result := v.mapIdx (fun i b => if own i then b.1 else p.result.getD i 0),
           poison := p.poison || (v.zipIdx).any (fun q => own q.2 && q.1.2) }
/-- A store of some pieces. -/
def writePieces (s : State) (p : Pkt) (k : Nat) (b : List Byte) (l : List (Nat × Nat)) : State :=
  l.foldl (fun s q => let s1 := hbmWrite s (k + q.1) ((b.drop q.1).take q.2); if p.poison then s1.setPoison (k + q.1) q.2 else s1) s
/-- Lines that a whole access covers are no longer poisoned (R244). -/
def coverLines (s : State) (p : Pkt) (k n : Nat) : State :=
  if p.poison then s
  else
    let covered := fun (x : Nat) => decide (k ≤ x / 128 * 128) && decide (x / 128 * 128 + 128 ≤ k + n)
    { s with poison := s.poison.filter (fun x => !covered x), uncorr := s.uncorr.filter (fun x => !covered x),
             sunk := s.sunk.filter (fun x => !covered x) }
/-- The effect of an access on memory, and what it returns. -/
def memEffect (s : State) (p : Pkt) : State × Pkt :=
  let k := s.pktKey p
  let l := p.left k (fun _ => true)
  match p.op with
  | .load n _ => (s, readPieces s p k n l)
  | .row n _ => (s, readPieces s p k n l)
  | .store b => (coverLines (writePieces s p k b l) p k b.length, p)
  | .atomic f n v c _ =>
    let old := s.peek k n
    let r := atomicNew f n (ofBytes old) v.toNat c.toNat
    (match r.1 with | some x => hbmWrite s k (bytesOf x n) | none => s,
     { p with result := old, rflags := r.2, poison := p.poison || s.poisoned k n })
  | _ => (s, p)

/-- Lines of an L2 control form's range that are in this chip's memory: their DPA, none for a line that is skipped (R185). Its
pages were looked up at issue and are not looked up again (R368). -/
def l2Lines (s : State) (p : Pkt) (len : Nat) : List (Option Nat) :=
  (linesOver p.va len).map (fun va =>
    let e := s.xentry p.dst p.gctx (va / 2 ^ 28 % 4096)
    if va < 2 ^ 40 ∧ (e.kind = 1 ∨ e.kind = 4) then some (s.dpaOf p.dst p.gctx (p.rev % 128) va) else none)
/-- The pool addresses of the copies on which an L2 control form acts (R263, R264). -/
def State.l2Copies (s : State) (p : Pkt) (len : Nat) : List (Nat × Bool) :=
  ((linesOver p.va len).filter (s.isRev p.dst p.gctx)).flatMap (fun va => ((s.gang p.dst p.gctx).copyAddr (p.rev % 128) (va / 256)).map (fun a => (a, false)))
/-- l2pin of one line (R185, R245): whether it counts as pinned. -/
def pinLine (s : State) (p : Pkt) (ret a : Nat) : State × Bool :=
  let n := p.dst
  let vf := s.gcVf n p.gctx
  let q := fillIn s n a p.who false false p
  let s1 := if q.2 then q.1 else fillLine (cellsShow q.1 n a) n a
  let c := s1.chip n
  let l := c.setWays a
  match c.hit a with
  | none => (s1, false)
  | some i =>
    let y := l.getD i Way.empty
    match y.pin with
    | some (v, _) => (s1, v = vf)
    | none =>
      if (l.filter (fun w => w.pin = some (vf, ret))).length < c.retw.get (vf, ret) 0 ∧ (l.filter (fun w => w.pin.isSome)).length < 8 then
        (s1.updChip n (fun c => c.putWays a (l.set i { y with pin := some (vf, ret) })), true)
      else (s1, false)
/-- One line of l2unpin or l2inv: a dirty line that l2inv invalidates is written back, and a pinned way that it empties stays
reserved and is refilled on the next access (R185). -/
def l2Line (s : State) (p : Pkt) (kind ret a : Nat) : State :=
  let vf := s.gcVf p.dst p.gctx
  let out := ((s.chip p.dst).setWays a).find? (fun w => kind ≠ 1 && w.line = some (a / 128))
  (writeBack s p.dst p (out.bind Way.dirtyLine)).updChip p.dst (fun c => c.putWays a ((c.setWays a).map (fun w =>
    if w.line = some (a / 128) then
      (if kind = 1 then (if w.pin = some (vf, ret) then { w with pin := none } else w)
       else if w.pin.isSome then { w with stale := true, dirty := false, filler := none } else Way.empty)
    else w)))
/-- An L2 control form performed (R185, R186). -/
def l2Effect (s : State) (p : Pkt) (kind len ret : Nat) : State :=
  let lines := l2Lines s p len
  if kind = 0 then
    let r := lines.foldl (fun (q : State × Nat) l =>
      match l with
      | some a => let t := pinLine q.1 p ret a; (t.1, if t.2 then q.2 else q.2 + 1)
      | none => (q.1, q.2 + 1)) (s, 0)
    r.1.updCtx p.who (fun c => { c with csr := { c.csr with pinShort := BitVec.ofNat 32 (satN r.2 32) } })
  else lines.foldl (fun s l => match l with | some a => l2Line s p kind ret a | none => s) s

/-- The revision in which an access acts on a chip's memory: its issuer's there, the root for another chip (R260). -/
def Pkt.revAt (p : Pkt) : Nat := if p.dst = p.who.chip then p.rev % 128 else 0
/-- A write whose page's first dirty record is not written yet (R369). -/
def State.needsLog (s : State) (p : Pkt) : Option (Nat × Nat) :=
  match p.target with
  | .host _ _ => none
  | _ =>
    let g := s.gang p.dst p.gctx
    let r := if s.isRev p.dst p.gctx p.tva then p.revAt else 0
    if !p.writes then none
    else if r = 0 then s.pageClean p.dst p.gctx p.tva
    else (g.ownSlot r (p.tva / 256)).bind (fun u => s.pageClean p.dst p.gctx (g.ancBase + u.slot * 256))
/-- A read or write of a granule of a revision: its revision and granule. -/
def State.revTouch (s : State) (p : Pkt) : Option (Nat × Nat) :=
  match p.target, p.op with
  | .host _ _, _ => none
  | _, .prefetch _ => none
  | _, .l2 .. => none
  | _, _ => if s.isRev p.dst p.gctx p.tva then some (p.revAt, p.tva / 256) else none
/-- The access is performed, once its copies exist: a reply or acknowledgement goes back. -/
def performNow (s : State) (p : Pkt) : State :=
  match p.op with
  | .l2 k len ret => answer (l2Effect s p k len ret) p
  | _ => let r := memEffect s p; answer r.1 r.2
/-- The information MERGE_LIMIT carries: slot and granule (R265). -/
def mergeInfo (slot gran : Nat) : BitVec 64 := BitVec.ofNat 64 (slot * 2 ^ 44 + gran * 256)
/-- MERGE_LIMIT in a context: it freezes, or, Halted or Frozen, only a record is filed (R265). -/
def mergeLimit (s : State) (w : Who) (slot gran : Nat) : State :=
  let c := s.ctx w
  let a : TrapArgs := ⟨0x0B, mergeInfo slot gran ||| BitVec.ofNat 64 (fromCode c.st * 2 ^ 48), c.issueNext, 0, 0, .merge⟩
  if c.st = .halted ∨ c.st = .frozen then
    s.fileFault w.chip (s.vf w.chip) { a.toRec w (s.gctxOf w.chip) false with pc := 0 }
  else takeTrap s w a
/-- What stands in the way of an access at Sorrel. -/
inductive SorrelWait where
  | no
  /-- USED would pass SLOTS (R265). -/
  | full
  /-- A pool page is absent: the address, its extent and page (R264). -/
  | absent (a ext page : Nat)
  /-- A pool page cannot be used: the address and the cause (R264, R362, R411). -/
  | bad (a : Nat) (code : BitVec 8)
  /-- A pool page needs its dirty record first (R369). -/
  | clean (ext page : Nat)
  deriving DecidableEq, Repr
/-- What pool addresses meet, as an access waits for it. -/
def State.poolMeets (s : State) (n g : Nat) (l : List (Nat × Bool)) : SorrelWait :=
  match s.poolFault n g l with
  | some (a, _, .absent _ e pg) => .absent a e pg
  | some (a, code, _) => .bad a code
  | none => .no
/-- What an access of a granule of a revision meets at Sorrel. -/
def State.sorrelMeets (s : State) (p : Pkt) (rev gran : Nat) : SorrelWait :=
  let g := s.gang p.dst p.gctx
  let need := if p.writes then g.needCount rev gran else 0
  if g.poolFull need then .full
  else
    match s.poolMeets p.dst p.gctx (g.poolAddrs rev gran need p.writes) with
    | .no =>
      (match s.poolClean p.dst p.gctx ((g.nextSlots need).map (fun i => g.ancBase + i * 256)) with
       | some (e, pg) => .clean e pg
       | none => .no)
    | w => w
/-- Lines that Sorrel reads and writes to make the copies that an access needs: the granule's, and the slots it takes. -/
def State.copyLines (s : State) (n g rev gran need : Nat) : List (Nat × Nat) :=
  if need = 0 then []
  else s.granLines n g rev [gran * 256] ++ s.granLines n g 0 (((s.gang n g).nextSlots need).map (fun i => (s.gang n g).ancBase + i * 256))
/-- An access with what it needs from Sorrel: performed, or waiting there; what it waits for is raised in its context once, and
again when it comes to wait for something else (R263 to R265). A pool page that cannot be used ends it, with the fault in its
context. -/
def sorrelPerform (s : State) (p : Pkt) : Out :=
  let wait := fun (m : Nat) (f : State → State) =>
    if p.stage = .sorrel && p.told = m then Host.Outcome.fault Fault.notEnabled
    else Host.Outcome.next (f (s.putPkt { p with stage := .sorrel, told := m }))
  let meet := fun (w : SorrelWait) (go : Out) (full : State → State) =>
    match w with
    | .full => wait 1 full
    | .absent a e pg => wait (pageMark e pg) (fun s =>
        if p.dropLanding then s else lateFor s p.who 0x08 (memInfo 10 0 a) p.inst (.absent p.dst e pg))
    | .bad a code => .next (answer s { p with slot := 10, ea := a, fault := code })
    | .clean e pg =>
      if p.stage = .sorrel && s.dirtyAsked p.dst p.gctx e pg then .fault .notEnabled
      else .next (askDirty (s.putPkt { p with stage := .sorrel, told := 0 }) p.dst p.gctx p.who e pg)
    | .no => go
  match p.op, s.revTouch p with
  | .l2 kind len _, _ =>
    let lines := (l2Lines s p len).filterMap (fun l => l.map (fun d => (p.dst, d)))
    meet (s.poolMeets p.dst p.gctx (s.l2Copies p len))
      (if kind = 0 then
         (if lines.any (fun q => s.buffers q.1 q.2) then .fault .notEnabled else unitGate s lines (.next (performNow s p)))
       else .next (performNow s p)) id
  | _, none => .next (performNow s p)
  | _, some (rev, gran) =>
    let need := if p.writes then (s.gang p.dst p.gctx).needCount rev gran else 0
    meet (s.sorrelMeets p rev gran)
      (unitGate s (s.copyLines p.dst p.gctx rev gran need)
        (match (if p.writes then prepareWrite s p.dst p.gctx rev gran p.who else some s) with
         | some s1 => .next (performNow s1 p)
         | none => .fault .notEnabled))
      (fun s => mergeLimit s p.who p.slot gran)
/-- The host link an access needs is down (log 17). -/
def State.hostDown (s : State) (p : Pkt) : Bool :=
  match p.target with | .host q _ => !(s.chip p.dst).hostUp.getLsbD q | _ => false
/-- One piece of an access performed ahead of the others (R253, R254), when nothing stands in its way. -/
def performPiece (s : State) (p : Pkt) (i : Nat) : Out :=
  let k := s.pktKey p
  let l := p.left k (fun j => j = i)
  let free := match s.revTouch p with
    | none => true
    | some (rev, gran) => s.sorrelMeets p rev gran = .no && !(p.writes && decide (0 < (s.gang p.dst p.gctx).needCount rev gran))
  if l.isEmpty || (piecesOf k p.op.bytes).length < 2 || !free then .fault .notEnabled
  else
    match p.op with
    | .load n _ => .next (s.putPkt { readPieces s p k n l with pieces := i :: p.pieces })
    | .row n _ => .next (s.putPkt { readPieces s p k n l with pieces := i :: p.pieces })
    | .store b => .next ((writePieces s p k b l).putPkt { p with pieces := i :: p.pieces })
    | _ => .fault .notEnabled
/-- What is left of a store to a scratchpad: all of it, or its write number i alone (R254). -/
def performLeft (s : State) (p : Pkt) (v : Nat) : Out :=
  match p.op with
  | .pool ws =>
    if p.told ≠ 1 then .fault .notEnabled
    else if v = 0 then .next ({ pokeAll s p.who.coreId ws with pkts := s.pkts.filter (fun q => q.id ≠ p.id) }).settle
    else
      match ws[v - 1]? with
      | some x =>
        if ws.length < 2 then .fault .notEnabled
        else .next ((pokeAll s p.who.coreId [x]).putPkt { p with op := .pool (ws.eraseIdx (v - 1)) })
      | none => .fault .notEnabled
  | _ => .fault .notEnabled
/-- ACCESS_PERFORMED: packet `id` reaches its point of coherence (R180); with operand value i + 1, its piece i alone. -/
def execAccessPerformed (s : State) : Out :=
  match s.thePkt with
  | none => .fault .notEnabled
  | some p =>
    if p.isPool then performLeft s p s.sel.val.toNat
    else if p.stage ≠ .ready || s.hostDown p || s.voteStops p || !s.inTurn p then .fault .notEnabled
    else
      match s.needsLog p with
      | some (ext, page) =>
        if s.sel.val ≠ 0 then .fault .notEnabled
        else .next (askDirty (s.putPkt { p with stage := .dlog }) p.dst p.gctx p.who ext page)
      | none => if s.sel.val ≠ 0 then performPiece s p (s.sel.val.toNat - 1) else sorrelPerform s p
/-- SORREL_SLOT_GRANT: packet `id` that waits at Sorrel gets its slots or its page (R264, R265). -/
def execSorrelSlotGrant (s : State) : Out :=
  match s.thePkt with
  | none => .fault .notEnabled
  | some p => if p.stage = .sorrel && !s.voteStops p then sorrelPerform s p else .fault .notEnabled

/-! ## REPLY_LAND, WINDOW_ACK, GLOBAL_LOAD_LAND, TILE_ROWS_DONE -/

/-- A reply with exhausted slack is counted, and may raise an event counter (R286). -/
def countExh (s : State) (p : Pkt) : State :=
  if p.exh then s.updCtx p.who (fun c =>
    let c1 := { c with csr := { c.csr with slackExh := inc32 c.csr.slackExh } }
    if p.exq then c1.incCC p.evcc p.inst 1 else c1) else s
/-- The value a packet carries back lands in its context, or is dropped by a rewind. -/
def isReply (p : Pkt) : Bool := p.win.isNone && (match p.op with | .gbar .. => false | _ => true)
/-- Bits of ENG_STAT set for a command of an instance (R216, R332). -/
def setEng (s : State) (w : Who) (inst : Nat) (b : BitVec 3) : State :=
  s.updCtx w (fun c =>
    { c with csr := { c.csr with engStat := c.csr.engStat ||| b },
             shadow := if c.inSeg ∧ inst ≠ c.segInst then c.shadow.map (fun h => { h with engStat := h.engStat ||| b }) else c.shadow })
/-- One more packet of a message is acknowledged: whether it was the last, and the context after it (R278). -/
def Ctx.ackPart (c : Ctx) (msg parts : Nat) : Bool × Ctx :=
  let n := c.acks.get msg 0 + 1
  if parts ≤ n then (true, { c with acks := c.acks.del msg }) else (false, { c with acks := c.acks.set msg n })
/-- Commands of a unit whose reply carries a result (R271). -/
def hasResult (i : Instr) : Bool := match i with | .fork _ | .spawn _ | .join _ | .revSt _ => true | _ => false
/-- The counter of a command. -/
def ccOf (i : Instr) : Nat :=
  match i with
  | .amsg o | .taskPost o | .taskDec o | .clbar o | .chbar o | .gbar o | .fork o | .spawn o | .join o | .revSt o | .slk o
  | .coll o | .esend o | .erel o | .eprobe o | .xtloadFull o | .xtloadEntry o | .xtloadPage o | .almw o | .almwLen o
  | .migCtlStart o | .migCtlDone o | .flowMode o | .cpy o => o.cc.toNat
  | _ => 0
/-- The acknowledgement of a command's packet: its counter and its result, after the last packet of a message; a barrier's
mismatch; a chunk of a collective (R207, R214, R215, R317, R322, R323, R394). -/
def ackCommand (s : State) (p : Pkt) : State :=
  let inc := fun (s : State) (cc : Nat) => s.updCtx p.who (fun c => c.incCC cc p.inst 1)
  let part := fun (msg parts : Nat) (f : State → State) =>
    let q := (s.ctx p.who).ackPart msg parts
    let s1 := s.updCtx p.who (fun _ => q.2)
    if q.1 then f s1 else s1
  match p.op with
  | .amsg _ _ _ cc msg _ parts => part msg parts (fun s => inc s cc)
  | .slot _ _ _ cc msg _ parts => part msg parts (fun s => finishCmd s p.who msg p.inst cc 1)
  | .taskDec _ _ cc => inc s cc
  | .notice _ _ cc => inc s cc
  | .gbarDone cc bad => inc (if bad then setEng s p.who p.inst 2 else s) cc
  | .cmd k =>
    if hasResult k.op then finishCmd s p.who k.id k.inst (ccOf k.op) (BitVec.ofNat 64 (ofBytes p.result)) else inc s (ccOf k.op)
  | .chunk tag _ _ =>
    s.updChip p.who.chip (fun c => { c with colls := updWhere (fun k => k.gctx = p.gctx && k.tag = tag && 0 < k.phase) (fun k => { k with owed := k.owed - 1 }) c.colls })
  | _ => s
/-- A reply that has reached its core: its chip runs its gang. -/
def State.atHome (s : State) (p : Pkt) : Bool := p.stage = .home && (s.chip p.who.chip).running = some p.gctx
/-- REPLY_LAND: the reply of packet `id` reaches its issuer (R285, R286, R362). -/
def execReplyLand (s : State) : Out :=
  match s.thePkt with
  | none => .fault .notEnabled
  | some p =>
    if !s.atHome p || !isReply p then .fault .notEnabled
    else
      let s1 := countExh s p
      if p.fault ≠ 0 then .next (pktFault (endPkt s1 p) p p.fault .none)
      else
        match p.op with
        | .load .. | .row .. | .atomic .. => .next (s1.putPkt { p with stage := .landing }).settle
        | _ => .next (ackCommand (endPkt s1 p) p)
/-- WINDOW_ACK: the acknowledgement of window store `id`; its unit returns, none above MAX (R295, R297). -/
def execWindowAck (s : State) : Out :=
  match s.thePkt with
  | none => .fault .notEnabled
  | some p =>
    match p.win with
    | none => .fault .notEnabled
    | some n =>
      if !s.atHome p then .fault .notEnabled
      else .next (endPkt ((countExh s p).updCtx p.who (fun c => { c with csr := { c.csr with
        winAvail := c.csr.winAvail.mapIdx (fun i v => if i = n then
          (if v.toNat < (c.csr.winMax.toList.getD n 0).toNat then v + 1 else v) else v) } })) p)
/-- What an access brings back lands, by its core's clock, at least two cycles after its issue (log 29). -/
def State.mayLand (s : State) (p : Pkt) : Bool := p.stage = .landing && p.born + 2 ≤ s.clkOf p.who
/-- GLOBAL_LOAD_LAND: the value of load or atomic `id` lands after every earlier result of its register (R31), zero-extended,
and its busy bit clears (R176, R177, R334). -/
def execGlobalLoadLand (s : State) : Out :=
  match s.thePkt with
  | none => .fault .notEnabled
  | some p =>
    let land := fun (d : Dest) =>
      if !s.mayLand p || (!p.dropLanding && (s.ctx p.who).flight.any (fun l => l.dest = d)) then Host.Outcome.fault Fault.notEnabled
      else
        let s1 := endPkt s p
        let s2 := if p.dropLanding then s1
          else s1.updCtx p.who (fun c => (c.putReg p.inst d (BitVec.ofNat 4096 (ofBytes p.result)) d.full).setFlags (s.clkOf p.who) p.inst p.rflags)
        Host.Outcome.next (if p.poison then pktFault s2 p 0x05 .none else s2)
    match p.op with
    | .load _ d => land d
    | .atomic _ _ _ _ d => land d
    | _ => .fault .notEnabled

/-- Lines of a transfer. -/
def State.linesOf (s : State) (x : Xfer) : List Pkt := s.pkts.filter (fun p => p.xfer = x.id)
/-- Bytes of a range but those that a transfer has moved before. -/
def Xfer.rest (x : Xfer) (off n : Nat) : List Nat := (upTo n).filter (fun i => !x.moved.any (fun q => q.1 = off + i))
/-- The lines of an ldt have all come back: they land in the tile (R173), and poisoned ones raise POISON. -/
def landTile (s : State) (x : Xfer) : State :=
  let at0 := (s.ctx x.who).tileAt x.tile
  let s1 := (s.linesOf x).foldl (fun s p =>
    match p.op with
    | .row n off =>
      let k := poolKey x.who.coreId (at0 + off)
      let s2 := if (x.rest off n).length = n then s.poke k p.result
        else (x.rest off n).foldl (fun s i => s.poke (k + i) [p.result.getD i 0]) s
      if p.poison then (lateFor s2 p.who 0x05 (memInfo p.slot 1 p.va) p.inst .none).setPoison k n else s2
    | _ => s) s
  { s1 with pkts := s1.pkts.filter (fun p => p.xfer ≠ x.id) }
/-- One byte of a tile ahead of the others: landed by an ldt, or read by an stt (R241, R254). -/
def tileByte (s : State) (x : Xfer) (i : Nat) : Out :=
  let k := poolKey x.who.coreId ((s.ctx x.who).tileAt x.tile) + i
  if 32768 ≤ i || x.moved.any (fun q => q.1 = i) then .fault .notEnabled
  else
    let put := fun (s : State) (v : Byte) (bad : Bool) =>
      Host.Outcome.next { s with xfers := updWhere (fun y => y.id = x.id) (fun y => { y with moved := (i, v, bad) :: y.moved }) s.xfers }
    if x.out then put s ((s.peek k 1).getD 0 0) (s.poisoned k 1)
    else
      match (s.linesOf x).findSome? (fun p => match p.op with
        | .row n off => if off ≤ i ∧ i < off + n then some (p.result.getD (i - off) 0, p.poison) else none | _ => none) with
      | some (v, bad) => put (let s1 := s.poke k [v]; if bad then s1.setPoison k 1 else s1) v bad
      | none => .fault .notEnabled
/-- The lines of an stt are read out of the tile, and leave as stores (R173). -/
def readTile (s : State) (x : Xfer) : State :=
  let k := poolKey x.who.coreId ((s.ctx x.who).tileAt x.tile)
  { s with pkts := s.pkts.map (fun p =>
      if p.xfer = x.id then (match p.op with
        | .sttRow n off =>
          let v := (s.marked (k + off) n).mapIdx (fun i b => ((x.moved.find? (fun q => q.1 = off + i)).map (·.2)).getD b)
          { p with op := .store (v.map (·.1)), stage := .core, poison := v.any (·.2) }
        | _ => p)
      else p) }
/-- TILE_ROWS_DONE: transfer `id` has landed in its tile, or its tile has been read out; the tile's busy bit clears. A
segment's stt clears it once its lines, read at issue, have been performed (R183). An ldt lands after an stt of its own bundle
has read the tile (R187). With operand value i + 1, byte i of the tile moves ahead of the others. -/
def execTileRowsDone (s : State) : Out :=
  match s.xfers.find? (fun x => x.id = s.sel.id) with
  | none => .fault .notEnabled
  | some x =>
    let c := x.who.coreId
    let l := s.linesOf x
    let fin := fun (s : State) => (clearBusy { s with xfers := s.xfers.filter (fun y => y.id ≠ x.id) } x.who x.id).settle
    let units := s.unitsReady c [((s.ctx x.who).tileAt x.tile, 32768)]
    let ready := if x.out then l.all (fun p => p.stage = .readout)
      else l.all s.mayLand && !s.xfers.any (fun y => y.out && !y.buffered && y.who = x.who && y.tile = x.tile) &&
        !(s.core c).mq.any (fun m => m.who = x.who && (formRanges (s.ctx x.who) m.op).any (fun q =>
          q.1 < (s.ctx x.who).tileAt x.tile + 32768 && (s.ctx x.who).tileAt x.tile < q.1 + q.2))
    if x.buffered || !units || !ready then .fault .notEnabled
    else if s.sel.val ≠ 0 then tileByte s x (s.sel.val.toNat - 1)
    else .next (fin (if x.out then readTile s x else landTile s x))

/-! ## Ports and flows (R280, R301) -/

/-- PORT_LINK_CHANGE: port `reg` of chip `who.chip` comes up or goes down (R280, log 17). -/
def execPortLinkChange (s : State) : Out :=
  .next (countPort s s.sel.who.chip s.sel.reg (fun q => { q with up := s.sel.val.getLsbD 0 }))
/-- LINK_STATE_NOTICE: the planes report which ports of chip `id` are up, bit k for port k (R280, log 17). -/
def execLinkStateNotice (s : State) : Out :=
  .next (s.updChip s.sel.who.chip (fun c => { c with notices := (upTo 48).foldl (fun m k => m.set (s.sel.id, k) (s.sel.val.getLsbD k)) c.notices }))
/-- FLOW_MODE_DRAINED: earlier packets of the flow are acknowledged, and the command at the head completes (R301). -/
def execFlowModeDrained (s : State) : Out :=
  let w := s.sel.who
  let open_ := fun (f : FlowWait) =>
    s.flights.any (fun q => q.who = w && q.flow = f.flow && f.dsts.contains q.dst && q.po < f.po && !q.acked && !q.isPool) ||
      (s.ctx w).cmds.any (fun k => k.po < f.po && k.lane.any (fun q => q.1 = f.flow && f.dsts.contains q.2))
  match (s.ctx w).flowWait.find? (fun f => f.atHead && !open_ f) with
  | none => .fault .notEnabled
  | some f =>
    .next ((s.updCtx w (fun c => { c.incCC f.cc f.inst 1 with flowWait := c.flowWait.filter (fun g => g.id ≠ f.id) })).settle)

/-! ## QUEUE_SPILL (R234 to R236) -/

/-- What the overflow engine meets at ring slots (R363, R369): a fault with its information and what a freeze waits for, or,
for slots it writes, a page to log. -/
def ovfMeets (s : State) (w : Who) (slots : List Nat) (write : Bool) : Option (BitVec 8 × BitVec 64 × FreezeCause) × Option (Nat × Nat) :=
  let c := s.ctx w
  let g := s.gctxOf w.chip
  let vas := slots.map (fun i => c.csr.ovfBase.toNat + i * 64)
  let one := fun (a : Nat) =>
    if 2 ^ 40 ≤ a then some ((0x09 : BitVec 8), memInfo 12 3 a, FreezeCause.none)
    else
      match s.lookup w.chip g a (!write) write false with
      | .range => some (0x09, memInfo 12 0 a, .none)
      | .absent e p => some (0x08, memInfo 12 0 a, .absent w.chip e p)
      | .cap => some (0x0C, memInfo 12 0 a, .none)
      | .dpa _ true => some (0x09, memInfo 12 0 a, .none)
      | _ => none
  (vas.findSome? one, if write then vas.findSome? (fun a => s.pageClean w.chip g a) else none)
/-- The mark of what the engine has met: it is raised once. -/
def ovfMark (f : FreezeCause) : Nat := match f with | .absent _ e p => pageMark e p | _ => 1
/-- A move of the overflow engine between a queue and the ring, once the slots' pages are present and logged. What its pages
meet is raised in the context, which may be Halted (R363, R369, R436). -/
def ovfMove (s : State) (w : Who) (slots : List Nat) (write : Bool) (f : Ctx → Ctx) : Out :=
  let c := s.ctx w
  let g := s.gctxOf w.chip
  match ovfMeets s w slots write with
  | (some f, _) =>
    if c.late.isEmpty && c.st ≠ .frozen && c.ovfTold ≠ ovfMark f.2.2 then
      .next ((lateFor s w f.1 f.2.1 0 f.2.2).updCtx w (fun c => { c with ovfTold := ovfMark f.2.2 }))
    else .fault .notEnabled
  | (none, some (e, p)) => if s.dirtyAsked w.chip g e p then .fault .notEnabled else .next (askDirty s w.chip g w e p)
  | (none, none) => .next (s.updCtx w (fun c => { f c with ovfTold := 0 }))
/-- A full queue must make room: for the bundle that blocks on it, or for an arrival (R234, R235). -/
def State.spillDue (s : State) (w : Who) (q : Nat) : Bool :=
  let c := s.ctx w
  decide (q < 4) && !c.inRing q && decide (64 ≤ c.queueLen q) && decide (c.ringUsed + 32 ≤ c.csr.ovfQuota.toNat) &&
    (c.block = .queue q || (q = 3 && s.arrivalWaits w))
/-- The slots of the ring that a refill of a queue empties. -/
def Ctx.refillSlots (c : Ctx) (q : Nat) : List Nat :=
  ((c.ring.zipIdx.filter (fun r => r.1.queue = q)).map (·.2)).take (64 - c.queueLen q)
/-- QUEUE_SPILL: queue `id` of a context, whose 32 youngest entries move to the ring. With operand value 1 the oldest entry on
its way to the ring enters it; with 2 queue `id`, fallen to 16 entries, is refilled (R234). -/
def execQueueSpill (s : State) : Out :=
  let w := s.sel.who
  let q := s.sel.id
  let c := s.ctx w
  match s.sel.val.toNat with
  | 0 => if s.spillDue w q then ovfMove s w ((upTo 32).map (fun i => c.ring.length + i)) true (fun c => c.spill q) else .fault .notEnabled
  | 1 =>
    if c.ovfWait.isEmpty then .fault .notEnabled
    else ovfMove s w [c.ring.length] true (fun c => { c with ring := c.ring ++ c.ovfWait.take 1, ovfWait := c.ovfWait.drop 1 })
  | 2 =>
    if q < 4 && c.queueLen q ≤ 16 && !(c.refillSlots q).isEmpty then ovfMove s w (c.refillSlots q) false (fun c => c.refill q)
    else .fault .notEnabled
  | _ => .fault .notEnabled

end Sys2Proof.Machine
end

