-- ==== Sys2Proof/Machine/EvTask.lean ====
section
/-! DEFINITION. Sys2Proof/Machine/EvTask.lean: active messages, tasks and barriers (spec/08 R214 to R217, spec/09 R225 to
R232, spec/19 R394). -/

namespace Sys2Proof.Machine

/-! ## Commands at their heads and at units -/

/-- The command at the head of a context, when it meets a test. -/
def State.headOf (s : State) (w : Who) (p : Instr → Bool) : Option ECmd := (s.ctx w).eHead.filter (fun k => p k.op)
/-- The unit request a step names, on the step's chip. -/
def State.theReq (s : State) : Option UnitReq := s.reqs.find? (fun q => q.id = s.sel.id && q.who.chip = s.sel.who.chip)
/-- A unit request taken. -/
def State.dropReq (s : State) (id : Nat) : State := { s with reqs := s.reqs.filter (fun q => q.id ≠ id) }
/-- The packet that carried a request to its unit. -/
def State.reqPkt (s : State) (q : UnitReq) : Option Pkt := s.pkts.find? (fun p => p.id = q.id)
/-- The request is in turn: its packet is the next of an ordered flow (R291). -/
def State.reqTurn (s : State) (q : UnitReq) : Bool := (s.reqPkt q).all s.inTurn
/-- A request is answered: its packet goes back with the command's result, if it has one (R207, R285). -/
def answerReq (s : State) (q : UnitReq) (v : BitVec 64) : State :=
  let s1 := replyCmd (s.dropReq q.id) q.id v
  match s.reqPkt q with
  | some p => bumpExpect s1 p
  | none => s1

/-! ## Payloads read from the pool (R214, R322) -/

/-- The payload of a queued command: scratchpad address and bytes. -/
def State.cmdPayload (s : State) (w : Who) (k : ECmd) : Nat × Nat :=
  (alignTo k.ea.toNat 64,
   match k.op with
   | .amsg o => amsgBytes o
   | .esend o => ((s.rings w.chip)[ringOf o]?.map (fun r => r.slotsz * 64)).getD 0
   | _ => 0)
/-- Byte i of the payload of a queued command is read ahead of the others: a store of the context issued after the command
may be performed before or after it (R214, R322). -/
def takeByte (s : State) (w : Who) (id i : Nat) : Out :=
  match (s.ctx w).cmds.find? (fun k => k.id = id) with
  | none => .fault .notEnabled
  | some k =>
    let q := s.cmdPayload w k
    if i < q.2 && !(s.ctx w).taken.any (fun t => t.1 = id && t.2.1 = i) && !s.storesBefore w id && (s.wantedIn w.coreId q.1 q.2).isNone then
      let a := poolKey w.coreId (q.1 + i)
      .next (s.updCtx w (fun c => { c with taken := (id, i, (s.peek a 1).getD 0 0, s.poisoned a 1) :: c.taken }))
    else .fault .notEnabled
/-- The payload of the command at the head, as it is read. -/
def State.readPayload (s : State) (w : Who) (k : ECmd) : List (Byte × Bool) :=
  let q := s.cmdPayload w k
  (s.marked (poolKey w.coreId q.1) q.2).mapIdx (fun i b =>
    (((s.ctx w).taken.find? (fun t => t.1 = k.id && t.2.1 = i)).map (·.2.2)).getD b)
/-- The payload of a command may be read: no store of the context from before it is held back, its pool units are the gang's,
and its core may have that many more requests outstanding (R183, R291, R389). -/
def State.mayRead (s : State) (w : Who) (k : ECmd) : Bool :=
  let q := s.cmdPayload w k
  !s.storesBefore w k.id && (s.wantedIn w.coreId q.1 q.2).isNone && s.mayRequest w.coreId (packetsOf q.2)
/-- Bytes of one packet of a payload. -/
def partOf (b : List (Byte × Bool)) (i : Nat) : List (Byte × Bool) := (b.drop (256 * i)).take 256
/-- The packets of a payload leave, 256 bytes each, as consecutive packets of one flow (R278): `p` is the first, and `f` gives
each its operation and target by its number and bytes. -/
def sendParts (p : Pkt) (b : List (Byte × Bool)) (f : Nat → List Byte → Pkt → Pkt) (s : State) : State :=
  (upTo (packetsOf b.length)).foldl (fun s i =>
    let d := partOf b i
    let q := f i (d.map (·.1)) { p with poison := d.any (·.2) }
    if i = 0 then sendCmd s q
    else sendCmd s.fresh { q with id := s.nextId, seq := (p.seq + i) % 4096, ords := false }) s
/-- The command's payload has been read. -/
def Ctx.forget (c : Ctx) (id : Nat) : Ctx := { c with taken := c.taken.filter (fun t => t.1 ≠ id) }

/-! ## AMSG_SEND, AMSG_LAND, HANDLER_START (R214, R227, R228) -/

/-- AMSG_SEND: the payload is read from the pool at the head of the queue, and the message leaves. With operand value i + 1,
byte i of the payload of command `id` is read ahead of the others. -/
def execAmsgSend (s : State) : Out :=
  let w := s.sel.who
  if s.sel.val ≠ 0 then takeByte s w s.sel.id (s.sel.val.toNat - 1)
  else
    match s.headOf w (fun i => match i with | .amsg _ => true | _ => false) with
    | none => .fault .notEnabled
    | some k =>
      match k.op with
      | .amsg o =>
        if !s.mayRead w k then .fault .notEnabled
        else
          let t := k.eb.toNat
          let b := s.readPayload w k
          let f := fun (i : Nat) (d : List Byte) (p : Pkt) =>
            { p with op := .amsg d (natFld t 18 2) o.ext.imm.toNat o.cc.toNat k.id i k.parts,
                     target := .pool (natFld t 10 5) (natFld t 15 3) (natFld t 22 16 * 64 + 256 * i) }
          let p := cmdPkt s w k k.dst .unit (.amsg [] 0 0 0 k.id 0 k.parts) k.flow 4
          .next (sendParts p b f ((clearHead s w).updCtx w (fun c => c.forget k.id)))
      | _ => .fault .notEnabled

/-- e1 of a handler: the source and OPT (R228). -/
def sourceWord (s : State) (p : Pkt) (units : Nat) : BitVec 64 :=
  BitVec.ofNat 64 (s.gcMember p.who.chip p.gctx + p.who.clus * 2 ^ 10 + p.who.core * 2 ^ 15 + p.who.ctx * 2 ^ 18 + (units - 1) * 2 ^ 20)
/-- The order of arrivals of one cycle: source member, cluster, core and context (R227). -/
def Arrival.source (r : Arrival) : Nat × Nat × Nat × Nat :=
  let v := r.e1.toNat
  (natFld v 0 10, natFld v 10 5, natFld v 15 3, natFld v 18 2)
/-- An arrival stands before another one of the same cycle. -/
def Arrival.before (r x : Arrival) : Bool :=
  let a := r.source
  let b := x.source
  decide (r.since = x.since) && lexLt [a.1, a.2.1, a.2.2.1, a.2.2.2] [b.1, b.2.1, b.2.2.1, b.2.2.2]
/-- An arrival in its place among the queued ones. -/
def putArrival (r : Arrival) : List Arrival → List Arrival
  | [] => [r]
  | x :: l => if r.before x then r :: x :: l else x :: putArrival r l
/-- The same in the ring, among the entries of the receive queue. -/
def putRing (r : Arrival) : List RingEntry → List RingEntry
  | [] => [.rcv r]
  | .rcv x :: l => if r.before x then .rcv r :: .rcv x :: l else .rcv x :: putRing r l
  | x :: l => x :: putRing r l
/-- An arrival enters the receive queue, or goes on its way to the ring, in the order of R227. -/
def Ctx.arrive_ (c : Ctx) (r : Arrival) : Ctx :=
  if c.inRing 3 then
    (if c.ring.any (fun e => match e with | .rcv x => r.before x | _ => false) then { c with ring := putRing r c.ring }.noteHwm
     else { c with ovfWait := putRing r c.ovfWait }.noteHwm)
  else { c with rq := putArrival r c.rq }
/-- A receive queue that has no room raises QUOTA in its context, which freezes (R236). DESIGN CHOICE (log 41): for a Halted
context, which R236 does not name, nothing is raised and the arrival waits at ingress. -/
def arrivalQuota (s : State) (w : Who) : Out :=
  let c := s.ctx w
  if c.st = .frozen ∨ c.st = .halted then .fault .notEnabled
  else .next (takeTrap s w { code := 0x0A, info := quotaInfo c 3 (fromCode c.st), pc := c.issueNext, reason := 0, slots := 0, freeze := .quota })
/-- The packets and bytes of a message that have landed with this one. -/
def Gang.landed (g : Gang) (w : Who) (msg n : Nat) : Nat × Nat :=
  let q := g.parts.get (w, msg) (0, 0)
  (q.1 + 1, q.2 + n)
/-- The same recorded, or forgotten with the last packet. -/
def Gang.putLanded (g : Gang) (w : Who) (msg parts : Nat) (q : Nat × Nat) : Gang :=
  { g with parts := if parts ≤ q.1 then g.parts.del (w, msg) else g.parts.set (w, msg) q }
/-- The last packet of an arriving message at ingress whose record needs a slot of the ring when none is free: its context
(R236). -/
def State.quotaOf (s : State) (p : Pkt) : Option Who :=
  match p.op, p.target with
  | .amsg b x _ _ msg _ parts, .pool cl co _ =>
    let w : Who := ⟨p.dst, cl, co, x⟩
    if p.stage = .ingress && (s.chip p.dst).running = some p.gctx && !s.voteStops p && s.inTurn p &&
        decide (parts ≤ ((s.gang p.dst p.gctx).landed p.who msg b.length).1) && (s.ctx w).room 3 = .quota then some w
    else none
  | _, _ => none
/-- AMSG_LAND: packet `id` of a message lands whole at its target, and with the last of them the message's record is queued
(R227, R228, R235, R278). With operand value i + 1, byte i is written ahead of the others (R254). -/
def execAmsgLand (s : State) : Out :=
  match s.thePkt with
  | none => .fault .notEnabled
  | some p =>
    if !s.mayPerform p then (match s.quotaOf p with | some w => arrivalQuota s w | none => .fault .notEnabled)
    else
      match p.op, p.target with
      | .amsg b x hoff _ msg part parts, .pool cl co off =>
        let w : Who := ⟨p.dst, cl, co, x⟩
        let key := poolKey w.coreId off
        let q := (s.gang p.dst p.gctx).landed p.who msg b.length
        let last := decide (parts ≤ q.1)
        if (s.wantedIn w.coreId off b.length).isSome then .fault .notEnabled
        else if s.sel.val ≠ 0 then putByte s p key b (s.sel.val.toNat - 1)
        else
          match (if last then (s.ctx w).room 3 else .ok) with
          | .block => .fault .notEnabled
          | .quota => arrivalQuota s w
          | .ok =>
            let s1 := (putPayload s key b p.pieces p.poison).updGang p.dst p.gctx (fun g => g.putLanded p.who msg parts q)
            let r : Arrival := { e0 := BitVec.ofNat 64 (off - 256 * part), e1 := sourceWord s p (q.2 / 64), hoff := hoff, since := s.now }
            .next (answer (if last then s1.updCtx w (fun c => c.arrive_ r) else s1) p)
      | _, _ => .fault .notEnabled

/-- A parked context starts at an address with e0 and e1 (R228, R231). -/
def startAt (s : State) (w : Who) (pc e0 e1 : BitVec 64) : State :=
  s.updCtx w (fun c =>
    let c1 := (c.putReg 0 (.e 0) (e0.setWidth 4096) (Dest.e 0).full).putReg 0 (.e 1) (e1.setWidth 4096) (Dest.e 1).full
    { c1 with st := .ready, block := .none, pc := regTarget pc, arrive := .taken, rep := 0, repOn := false, sig := { c.sig with live := false } })
/-- The context is parked and accepts messages (R225). -/
def Ctx.takesAm (c : Ctx) : Bool := c.st = .dormant && c.csr.ctxHdl.getLsbD 0
/-- HANDLER_START: the oldest arrival of a Dormant context starts its handler. -/
def execHandlerStart (s : State) : Out :=
  let w := s.sel.who
  let c := s.ctx w
  match c.rq with
  | [] => .fault .notEnabled
  | r :: l =>
    if c.takesAm && c.pend.isNone && !(s.rgang w.chip).picked.any (fun q => q.1 = w) then
      .next (startAt (s.updCtx w (fun c => { c with rq := l })) w
        (c.imageBase + (c.csr.ctxHdl >>> 2) * 4 + BitVec.ofNat 64 (4 * r.hoff)) r.e0 r.e1)
    else .fault .notEnabled

/-! ## Tasks (R215, R230, R231) -/

/-- A count saturated at 16 bits signed, and whether it saturated. -/
def satCount (v : Int) : Int × Bool :=
  if v < -32768 then (-32768, true) else if 32767 < v then (32767, true) else (v, false)
/-- A task of a gang context. -/
def Gang.task (g : Gang) (i : Nat) : Task := g.tasks.get i { posted := false, c := 0, entry := 0, arg := 0, rev := 0 }
/-- Of two tasks that became ready in one cycle, the one with the lower index stands first (R230). -/
def WTask.before (t x : WTask) : Bool :=
  decide (t.since = x.since) && (match t.idx, x.idx with | some i, some j => decide (i < j) | _, _ => false)
/-- A task in its place among the ready ones. -/
def putTask (t : WTask) : List WTask → List WTask
  | [] => [t]
  | x :: l => if t.before x then t :: x :: l else x :: putTask t l
/-- A ready task enters the window of 64, or waits behind it (R230). -/
def Gang.enterWindow (g : Gang) (t : WTask) : Gang :=
  let l := putTask t (g.window ++ g.waiting)
  { g with window := l.take 64, waiting := l.drop 64 }
/-- A task that has become ready enters the window once. -/
def Gang.noteReady (g : Gang) (i now : Nat) : Gang :=
  let t := g.task i
  if t.posted && decide (t.c ≤ 0) && !(g.window ++ g.waiting).any (fun q => q.idx = some i) then
    g.enterWindow { idx := some i, entry := t.entry, arg := t.arg, rev := t.rev, since := now }
  else g
/-- A post under a task index, and whether its count saturated. -/
def Gang.post (g : Gang) (i n : Nat) (entry arg : BitVec 64) (rev now : Nat) : Gang × Bool :=
  let v := satCount ((g.task i).c + n)
  (({ g with tasks := g.tasks.set i { posted := true, c := v.1, entry := entry, arg := arg, rev := rev } }).noteReady i now, v.2)
/-- TASK_POST_ACCEPT: request `id` is accepted, or dropped with TDUP (R215). -/
def execTaskPostAccept (s : State) : Out :=
  match s.theReq with
  | none => .fault .notEnabled
  | some q =>
    match q.cmd.op with
    | .taskPost o =>
      if !s.released q.who q.cmd.po 3 || !s.reqTurn q then .fault .notEnabled
      else
        let i := natFld o.ext.imm.toNat 0 12
        let g := s.rgang q.who.chip
        if (g.task i).posted then .next (answerReq (setEng s q.who q.cmd.inst 1) q 0)
        else
          let r := g.post i (natFld o.ext.imm.toNat 12 7) q.cmd.ea q.cmd.eb 0 s.now
          let s1 := s.updRgang q.who.chip (fun _ => r.1)
          .next (answerReq (if r.2 then setEng s1 q.who q.cmd.inst 4 else s1) q 0)
    | _ => .fault .notEnabled
/-- A context is free for tasks (R226). -/
def State.freeForTasks (s : State) (w : Who) : Bool :=
  let c := s.ctx w
  c.st = .dormant && c.csr.ctxHdl.getLsbD 1 && c.rq.isEmpty && !c.inRing 3 && !(s.rgang w.chip).picked.any (fun q => q.1 = w)
/-- The contexts of a chip in the order of the rotating pointer. -/
def rotated (n ptr : Nat) : List Who :=
  (upTo 1024).map (fun i => let k := (ptr + i) % 1024; ⟨n, k / 32, k / 4 % 8, k % 4⟩)
/-- The task that a dispatch decision of this cycle takes: the oldest of the window, while some context is free (R231). -/
def State.dispatchDue (s : State) (n i : Nat) : Bool :=
  (s.rgang n).window.head?.any (fun t => t.idx = some i) && ((rotated n (s.rgang n).ptr).find? s.freeForTasks).isSome
/-- TASK_DEC_APPLY: the decrement of packet `id` at its target chip (R215). A dispatch of the index in this cycle comes first
(R238). -/
def execTaskDecApply (s : State) : Out :=
  match s.thePkt with
  | none => .fault .notEnabled
  | some p =>
    match p.op with
    | .taskDec i n _ =>
      if !s.mayPerform p || s.dispatchDue p.dst i then .fault .notEnabled
      else
        let g := s.gang p.dst p.gctx
        let t := g.task i
        let v := satCount (t.c - n)
        let s1 := s.updGang p.dst p.gctx (fun _ => ({ g with tasks := g.tasks.set i { t with c := v.1 } }).noteReady i s.now)
        .next (answer (if v.2 then setEng s1 p.who p.inst 4 else s1) p)
    | _ => .fault .notEnabled
/-- DISPATCH_DECISION: the oldest task of the window of a chip, and the first free context (R231). -/
def execDispatchDecision (s : State) : Out :=
  let n := s.sel.who.chip
  let g := s.rgang n
  match g.window, (rotated n g.ptr).find? s.freeForTasks with
  | t :: r, some w =>
    .next (s.updRgang n (fun g =>
      { g with window := r ++ g.waiting.take 1, waiting := g.waiting.drop 1, ptr := (w.clus * 32 + w.core * 4 + w.ctx + 1) % 1024,
               picked := g.picked ++ [(w, t)],
               tasks := match t.idx with | some i => g.tasks.set i { posted := false, c := 0, entry := 0, arg := 0, rev := 0 } | none => g.tasks }))
  | _, _ => .fault .notEnabled
/-- The handle of a live revision (R261). -/
def Rev.handle (v : Rev) : BitVec 64 := BitVec.ofNat 64 (2 ^ 63 + v.serial * 2 ^ 16 + v.depth * 2 ^ 12 + v.num)
/-- A chosen context starts its task, in the child's revision when it is a child's, with e1 the child's handle (R231, R260,
R272, R273; DEDUCED, log 25: for a spawned task too, which R231 would give its index). -/
def startTask (s : State) (w : Who) (t : WTask) : State :=
  let g := s.rgang w.chip
  let child := g.revs.find? (fun v => v.num = t.rev && t.rev ≠ 0)
  let hdl := (child.map Rev.handle).getD 0x8000000000000000
  let e1 := match t.idx, child with | some i, none => BitVec.ofNat 64 i | _, _ => hdl
  let s1 := s.updRgang w.chip (fun g =>
    { g with picked := g.picked.filter (fun q => q.1 ≠ w), revs := updWhere (fun v => v.num = t.rev) (fun v => { v with task := 1 }) g.revs })
  (startAt s1 w t.entry t.arg e1).updCtx w (fun c => { c with csr := { c.csr with revCur := hdl } })
/-- TASK_START: the chosen context starts its task (R231). -/
def execTaskStart (s : State) : Out :=
  let w := s.sel.who
  match (s.rgang w.chip).picked.find? (fun q => q.1 = w) with
  | none => .fault .notEnabled
  | some (_, t) => if (s.ctx w).st ≠ .dormant then .fault .notEnabled else .next (startTask s w t)
/-- Every chosen context of a chip starts, as a switch of gangs saves it: Ready at its task's entry (R238). -/
def startPicked (s : State) (n : Nat) : State :=
  (s.rgang n).picked.foldl (fun s q => if (s.ctx q.1).st = .dormant then startTask s q.1 q.2 else s) s

/-! ## Barriers (R217, R394) -/

/-- The key of a barrier: of a cluster, of the chip, of the gang. -/
def barKey (i : Instr) (clus : Nat) : Nat :=
  match i with | .clbar o => clus * 16 + o.opt.toNat % 16 | .chbar o => 1000 + o.opt.toNat % 16 | _ => 2000
/-- An arrival counted: the barrier after it, and whether its n differs (R217). -/
def arriveAt (b : Option Barrier) (n : Nat) (w : Who) (cc : Nat) : Barrier × Bool :=
  match b with
  | none => ({ n := n, arrivals := [(w, cc)] }, false)
  | some b => ({ b with arrivals := b.arrivals ++ [(w, cc)] }, b.n ≠ n)
/-- The instance of a barrier that is open, if it has arrivals. -/
def Gang.bar (g : Gang) (key : Nat) : Option Barrier := (g.bars.get key { n := 0, arrivals := [] }) |> fun b => if b.arrivals.isEmpty then none else some b
/-- An instance whose arrivals have reached n. -/
def Barrier.full (b : Barrier) : Bool := b.n ≤ b.arrivals.length
/-- A packet waits for its barrier; `bad` goes back with its completion. -/
def parkAt (s : State) (p : Pkt) (key : Nat) (bad : Bool) : State :=
  let cc := match p.op with | .cmd k => ccOf k.op | .gbar _ _ cc => cc | _ => 0
  s.putPkt { p with stage := .parked, op := .gbarDone cc bad, performed := true, va := key }
/-- A barrier instance completes: every arrival hears of it, and the barrier is ready for its next instance (R217, R394). -/
def barrierDone (s : State) (n key : Nat) : State :=
  let g := s.gctxOf n
  let s1 := s.updRgang n (fun g => { g with bars := g.bars.del key })
  { s1 with pkts := updWhere (fun p => p.stage = .parked && p.dst = n && p.gctx = g && p.va = key) (fun p => p.toReply s.now) s1.pkts }
/-- BARRIER_ARRIVAL: request `id` arrives at its barrier; the arrival is a release (R217). -/
def execBarrierArrival (s : State) : Out :=
  match s.theReq with
  | none => .fault .notEnabled
  | some q =>
    let go := fun (o : EOp) (scope : Nat) =>
      let key := barKey q.cmd.op q.who.clus
      let g := s.rgang q.who.chip
      if !s.released q.who q.cmd.po scope || (g.bar key).any Barrier.full then Host.Outcome.fault Fault.notEnabled
      else
        let r := arriveAt (g.bar key) (natFld o.ext.imm.toNat 0 16) q.who (ccOf q.cmd.op)
        let s1 := (s.dropReq q.id).updRgang q.who.chip (fun g => { g with bars := g.bars.set key r.1 })
        let s2 := if r.2 then setEng s1 q.who q.cmd.inst 2 else s1
        Host.Outcome.next (match s.reqPkt q with | some p => parkAt s2 p key false | none => s2)
    match q.cmd.op with
    | .clbar o => go o 2
    | .chbar o => go o 3
    | _ => .fault .notEnabled
/-- BARRIER_COMPLETE: barrier `id` of a chip (R217). -/
def execBarrierComplete (s : State) : Out :=
  let n := s.sel.who.chip
  match (s.rgang n).bar s.sel.id with
  | none => .fault .notEnabled
  | some b =>
    if b.full && s.sel.id < 2000 then .next (barrierDone s n s.sel.id) else .fault .notEnabled
/-- GBAR_ARRIVAL: the arrival of packet `id` at the coordinator (R394). -/
def execGbarArrival (s : State) : Out :=
  match s.thePkt with
  | none => .fault .notEnabled
  | some p =>
    match p.op with
    | .gbar i n cc =>
      let key := 2000 + i
      let g := s.gang p.dst p.gctx
      if !s.mayPerform p || (g.bar key).any Barrier.full then .fault .notEnabled
      else
        let r := arriveAt (g.bar key) n p.who cc
        let s1 := s.updGang p.dst p.gctx (fun g => { g with bars := g.bars.set key r.1 })
        .next (bumpExpect (parkAt s1 p key r.2) p).settle
    | _ => .fault .notEnabled
/-- GBAR_COMPLETE: gang barrier with key `id` at its coordinator: a completion goes to every arrival (R394). -/
def execGbarComplete (s : State) : Out :=
  let n := s.sel.who.chip
  match (s.rgang n).bar s.sel.id with
  | none => .fault .notEnabled
  | some b =>
    if b.full && 2000 ≤ s.sel.id then .next (barrierDone s n s.sel.id) else .fault .notEnabled

end Sys2Proof.Machine
end

