-- ==== Sys2Proof/Machine/EvRev.lean ====
section
/-! DEFINITION. Sys2Proof/Machine/EvRev.lean: Sorrel performs fork, spawn, join and rev.st (spec/11 R260 to R277). -/

namespace Sys2Proof.Machine

/-! ## Revisions by handle (R260, R261) -/

/-- A status word: a failed request (R261, R274, R275). -/
def statusWord (st : Nat) : BitVec 64 := BitVec.ofNat 64 (st * 2 ^ 48)
/-- The live child a handle names; none when it is stale, or its VALID is 0 (log 25). -/
def Gang.byHandle (g : Gang) (h : BitVec 64) : Option Rev :=
  if h.getLsbD 63 then g.revs.find? (fun v => v.num = natFld h.toNat 0 7 && v.serial = natFld h.toNat 16 32) else none
/-- A handle names the root: VALID, with REV and SERIAL 0 (R261). -/
def isRoot (h : BitVec 64) : Bool := h.getLsbD 63 && natFld h.toNat 0 7 = 0 && natFld h.toNat 16 32 = 0
/-- The lowest free revision number. -/
def Gang.freeRev (g : Gang) : Nat := (((upTo 65).drop 1).find? (fun i => !g.revs.any (fun v => v.num = i))).getD 0
/-- Commands that Sorrel serves. -/
def revCmd (i : Instr) : Bool := match i with | .fork _ | .spawn _ | .join _ | .revSt _ => true | _ => false
/-- The first request of its context that Sorrel has not served, those on their way to it among them: a context's requests are
served in program order (R268). -/
def State.firstRevReq (s : State) (q : UnitReq) : Bool :=
  s.pkts.all (fun p => !(p.who = q.who && !p.performed && p.po < q.cmd.po && (match p.op with | .cmd k => revCmd k.op | _ => false)))

/-! ## FORK_PERFORM (R260, R261, R270, R272, R273) -/

/-- Why a fork of a revision creates nothing: NOREGION, LIMIT, DEPTH, and TDUP of a spawn. DESIGN CHOICE (log 35): of a spawn
that meets several of them the first is answered, and ENG_STAT.TDUP is set only where TDUP is. -/
def forkStatus (g : Gang) (depth : Nat) (idx : Option Nat) : Nat :=
  if g.regions.isEmpty then 3
  else if 64 ≤ g.revs.length then 1
  else if depth = 8 then 2
  else if idx.any (fun i => (g.task i).posted) then 4
  else 0
/-- A child of a revision with the lowest free number, and its task: ready at once, or posted under an index. The second
part is true when a posted count saturates. -/
def Gang.addChild (g : Gang) (rev : BitVec 64) (entry arg : BitVec 64) (post : Option (Nat × Nat)) (now : Nat) : Gang × Rev × Bool :=
  let v : Rev := { num := g.freeRev, serial := (g.serial + 1) % 2 ^ 32, parent := natFld rev.toNat 0 7,
                   depth := natFld rev.toNat 12 4 + 1, task := 0, joining := false }
  let g1 := { g with revs := g.revs ++ [v], serial := (g.serial + 1) % 2 ^ 32 }
  match post with
  | none => (g1.enterWindow { idx := none, entry := entry, arg := arg, rev := v.num, since := now }, v, false)
  | some (i, n) => let r := g1.post i n entry arg v.num now; (r.1, v, r.2)
/-- FORK_PERFORM: request `id`, once every earlier access that chip scope covers has been performed. -/
def execForkPerform (s : State) : Out :=
  match s.theReq with
  | none => .fault .notEnabled
  | some q =>
    let go := fun (post : Option (Nat × Nat)) =>
      if !s.firstRevReq q || !s.released q.who q.cmd.po 3 then Host.Outcome.fault Fault.notEnabled
      else
        let n := q.who.chip
        let st := forkStatus (s.rgang n) (natFld q.cmd.rev.toNat 12 4) (post.map (·.1))
        if st ≠ 0 then Host.Outcome.next (answerReq (if st = 4 then setEng s q.who q.cmd.inst 1 else s) q (statusWord st))
        else
          let r := (s.rgang n).addChild q.cmd.rev q.cmd.ea q.cmd.eb post s.now
          let s1 := s.updRgang n (fun _ => r.1)
          Host.Outcome.next (answerReq (if r.2.2 then setEng s1 q.who q.cmd.inst 4 else s1) q r.2.1.handle)
    match q.cmd.op with
    | .fork _ => go none
    | .spawn o => go (some (natFld o.ext.imm.toNat 0 12, natFld o.ext.imm.toNat 12 7))
    | _ => .fault .notEnabled

/-! ## The merge (R258, R266, R267) -/

/-- The value of an element that both sides changed: parent's, child's, ancestor's patterns (R258, R267). -/
def mergeElem (q : Region) (p c a : Nat) : Nat × Flags :=
  let f := q.fmt
  let w := 8 * 2 ^ q.esz
  let flt := fun (g : Nat → Nat → Nat) =>
    if anyNan [decodeF f p, decodeF f c, decodeF f a] then (qnan f, (0 : Flags)) else (g p c, 0)
  match q.merge with
  | 2 => (c, 0)
  | 3 => if isFloatFmt f then sumRound 0 f 0 [decodeF f p, decodeF f c, (decodeF f a).negate]
         else (wrapI f (decodeI f p + decodeI f c - decodeI f a), 0)
  | 4 => if isFloatFmt f then flt (maxBits f) else (wrapI f (max (decodeI f p) (decodeI f c)), 0)
  | 5 => if isFloatFmt f then flt (minBits f) else (wrapI f (min (decodeI f p) (decodeI f c)), 0)
  | 6 => ((p ^^^ c ^^^ a) % 2 ^ w, 0)
  | 7 => (satI f (decodeI f p + decodeI f c - decodeI f a), 0)
  | _ => (p, 0)
/-- One element merged: its value in the parent, whether it reached the merge type, flags (R266). -/
def mergeOne (q : Region) (p c a : Nat) : Nat × Bool × Flags :=
  if c = a then (p, false, 0)
  else if p = a then (c, false, 0)
  else let r := mergeElem q p c a; (r.1, true, r.2)
/-- Elements lo up to hi of a granule merged, in ascending address: for each that differs from the ancestor its number, its
value, whether it is a conflict, and flags. -/
def mergeGran (q : Region) (p c a lo hi : Nat) : List (Nat × Nat × Bool × Flags) :=
  let e := 8 * 2 ^ q.esz
  (upTo (min hi (2048 / e))).filterMap (fun i =>
    if i < lo ∨ elemN c i e = elemN a i e then none
    else let r := mergeOne q (elemN p i e) (elemN c i e) (elemN a i e); some (i, r))

/-- The contents of a granule in a revision. -/
def State.granNow (s : State) (n g rev gran : Nat) : List Byte := s.peek (hbmKey n (s.dpaOf n g rev (gran * 256))) 256
/-- The ancestor contents of a granule of a child (R262). -/
def State.granAnc (s : State) (n g : Nat) (v : Rev) (gran : Nat) : List Byte :=
  match (s.gang n g).ancSlot v.num gran with
  | some u => s.peek (hbmKey n (s.dpaOf n g 0 ((s.gang n g).ancBase + u.slot * 256))) 256
  | none => s.granNow n g v.parent gran
/-- A number put in its place in an ascending list. -/
def putNat (x : Nat) : List Nat → List Nat
  | [] => [x]
  | y :: r => if x ≤ y then x :: y :: r else y :: putNat x r
/-- Numbers in ascending order. -/
def sortNat (l : List Nat) : List Nat := l.foldl (fun a x => putNat x a) []
/-- The child's own granules, ascending. -/
def Gang.ownGrans (g : Gang) (rev : Nat) : List Nat :=
  sortNat ((g.slots.filter (fun u => u.rev = rev && u.serves.isEmpty)).map (·.gran))

/-- An access of a task in a revision has yet to be performed, or, for a row of ldt, to land in its tile (R251, R268). -/
def Pkt.ofTask (p : Pkt) (n g : Nat) (h : BitVec 64) : Bool :=
  p.who.chip = n && p.gctx = g && p.rev = h.toNat && (p.isMem || p.isPool) &&
    (!p.done || (match p.op with | .row .. => !p.dropLanding | _ => false))
/-- The child's task has finished: its halt has been committed, and every access it issued has been performed, what its M forms
do among them (R250, R251, R268). DESIGN CHOICE (log 35): so have the forks and spawns that it issued. -/
def State.childDone (s : State) (n g : Nat) (v : Rev) : Bool :=
  let h := v.handle
  let mine := fun (k : ECmd) => k.rev = h && (match k.op with | .fork _ | .spawn _ => true | _ => false)
  v.task = 2 && !s.flights.any (fun p => p.ofTask n g h) &&
    !s.pkts.any (fun p => p.who.chip = n && p.gctx = g && (match p.op with | .cmd k => mine k && !p.performed | _ => false)) &&
    !s.cores.any (fun k => k.1.chip = n && k.2.mq.any (fun m => m.rev = h.toNat)) &&
    (s.ctxsOf n).all (fun w => !(s.ctx w).cmds.any mine)

/-- A join changed. -/
def updJoin (s : State) (n : Nat) (id : Nat) (f : JoinRec → JoinRec) : State :=
  s.updRgang n (fun g => { g with joins := updWhere (fun j => j.id = id) f g.joins })
/-- Virtual addresses that a merge of a granule reads: the child's copy, the ancestor's, and the parent's. -/
def Gang.mergeReads (g : Gang) (v : Rev) (gran : Nat) : List Nat :=
  [g.revVa 10 v.num (gran * 256),
   match g.ancSlot v.num gran with | some u => g.ancBase + u.slot * 256 | none => g.revVa 10 v.parent (gran * 256),
   g.revVa 10 v.parent (gran * 256)]
/-- Virtual addresses that it writes: slots to take, and the parent's own copy. -/
def Gang.mergeWrites (g : Gang) (v : Rev) (gran need : Nat) : List Nat :=
  (g.nextSlots need).map (fun i => g.ancBase + i * 256) ++
    (if v.parent = 0 then [gran * 256] else ((g.ownSlot v.parent gran).map (fun u => g.ancBase + u.slot * 256)).toList)
/-- What one granule of a merge meets. -/
inductive GranRes where
  | done (s : State)
  | wait (s : State)
  deriving DecidableEq, Repr
/-- Elements written to a granule of 256 bytes at a key: a line of which every byte is written is poisoned no longer; an element
merged from poisoned bytes is poisoned (R244; DESIGN CHOICE, log 52). -/
def putElems (s : State) (k e : Nat) (l : List (Nat × Nat × Bool)) : State :=
  let s1 := (upTo 2).foldl (fun s i =>
    let own := l.filter (fun q => q.1 * e / 128 = i)
    if own.length * e = 128 then hbmWrite s (k + 128 * i) (own.flatMap (fun q => bytesOf q.2.1 e))
    else own.foldl (fun s q => s.poke (k + q.1 * e) (bytesOf q.2.1 e)) s) s
  l.foldl (fun s q => if q.2.2 then s.setPoison (k + q.1 * e) e else s) s1
/-- Elements up to `hi` of one granule merged into the parent: done, or waiting for a page or a slot, with MERGE_LIMIT or what the
page meets raised once in the issuer (R264 to R266, R411, R436). -/
def joinGran (s : State) (n g : Nat) (j : JoinRec) (v : Rev) (gran hi : Nat) : GranRes :=
  let k := s.gang n g
  let c := s.granNow n g v.num gran
  let a := s.granAnc n g v gran
  let p := s.granNow n g v.parent gran
  let q := (regionAt k.regions (gran * 256)).getD { base := 0, size := 0, fmt := 5, merge := 1, esz := 0 }
  let e := 2 ^ q.esz
  let r := mergeGran q (ofBytes p) (ofBytes c) (ofBytes a) j.pos hi
  let hold := fun (m : Nat) (f : State → State) => GranRes.wait (if j.told = m then s else f (updJoin s n j.id (fun j => { j with told := m })))
  let need := if r.isEmpty then 0 else k.needCount v.parent gran
  if k.poolFull need then hold 1 (fun s => mergeLimit s j.who 10 gran)
  else
    match s.poolMeets n g ((k.mergeReads v gran).map (fun x => (x, false)) ++ (k.mergeWrites v gran need).map (fun x => (x, true))),
          (if r.isEmpty then none else s.poolClean n g (k.mergeWrites v gran need)) with
    | .absent x ext pg, _ => hold (pageMark ext pg) (fun s => lateFor s j.who 0x08 (memInfo 10 0 x) 0 (.absent n ext pg))
    | .bad x code, _ => hold (badMark code) (fun s => lateFor s j.who code (memInfo 10 0 x) 0 .none)
    | _, some (ext, pg) => GranRes.wait (askDirty s n g j.who ext pg)
    | _, none =>
      let whole := decide (256 / e ≤ hi)
      let next := fun (s : State) => GranRes.done (updJoin s n j.id (fun j =>
        { j with done := if whole then j.done ++ [gran] else j.done, pos := if whole then 0 else hi, grans := j.grans + bit whole,
                 confs := j.confs + (r.filter (fun x => x.2.2.1)).length, flags := r.foldl (fun f x => f ||| x.2.2.2) j.flags, told := 0 }))
      let ds := (k.mergeReads v gran).map (fun x => s.dpaOf n g 0 x)
      let s0 := ds.foldl (fun s d => s.homeLines n g j.who false d 256) s
      let bad := ds.map (fun d => s0.poisonOf (hbmKey n d) 256)
      if r.isEmpty then next s0
      else
        match prepareWrite s0 n g v.parent gran j.who with
        | none => GranRes.wait s
        | some s1 =>
          let d := s1.dpaOf n g v.parent (gran * 256)
          next (putElems (s1.homeLines n g j.who true d 256) (hbmKey n d) e
            (r.map (fun x => (x.1, x.2.1, bad.any (fun m => ((m.drop (x.1 * e)).take e).any id)))))

/-- A child that is gone: its number is free, and so are the slots that no other live child needs (R263). -/
def Gang.dropChild (g : Gang) (num : Nat) : Gang :=
  { g with revs := g.revs.filter (fun v => v.num ≠ num),
           slots := g.slots.filterMap (fun u =>
             if u.serves.isEmpty then (if u.rev = num then none else some u)
             else if u.serves = [num] then none
             else some { u with serves := u.serves.filter (fun x => x ≠ num) }) }
/-- The report of a join (R274). -/
def joinReport (j : JoinRec) : BitVec 64 :=
  BitVec.ofNat 64 (2 ^ 63 + min j.grans (2 ^ 24 - 1) * 2 ^ 24 + min j.confs (2 ^ 24 - 1))
/-- A join has merged everything: its counts go to the join it was made for, or its report and flags to its issuer. -/
def joinEnd (s : State) (n : Nat) (id : Nat) : State :=
  match (s.rgang n).joins.find? (fun j => j.id = id) with
  | none => s
  | some j =>
    let s1 := s.updRgang n (fun g => { g.dropChild j.child with joins := g.joins.filter (fun k => k.id ≠ id) })
    match j.cmd with
    | none => updJoin s1 n j.outer (fun k => { k with grans := k.grans + j.grans, confs := k.confs + j.confs, flags := k.flags ||| j.flags })
    | some k => replyCmd (s1.updCtx j.who (fun c => c.setFlags (s1.clkOf j.who) k.inst j.flags)) j.id (joinReport j)
/-- The children of a revision, in the order of their forks. -/
def Gang.kids (g : Gang) (rev : Nat) : List Rev :=
  g.revs.filter (fun v => v.parent = rev && v.num ≠ rev)
/-- The implicit joins of the children of a child that is being joined (R268). -/
def addImplicit (s : State) (n : Nat) (j : JoinRec) (l : List Rev) : State :=
  l.foldl (fun s v =>
    let r : JoinRec := { id := s.nextId, who := j.who, cmd := none, outer := j.id, child := v.num, parent := j.child,
                         done := [], pos := 0, grans := 0, confs := 0, flags := 0, told := 0 }
    s.fresh.updRgang n (fun g => { g with
      joins := g.joins ++ [r],
      revs := updWhere (fun q => q.num = v.num) (fun q => { q with joining := true }) g.revs })) s
/-- A queued join that is first of its parent's queue and whose child has finished: its children are joined first, then it
merges, the elements of its next granule up to `hi` or all that are left (R266, R268). -/
def joinRun (s : State) (n : Nat) (j : JoinRec) (hi : Nat) : Out :=
  let g := s.rgang n
  match g.revs.find? (fun v => v.num = j.child) with
  | none => .fault .notEnabled
  | some v =>
    if (g.joins.find? (fun k => k.parent = j.parent)).map (·.id) ≠ some j.id || !s.childDone n (s.gctxOf n) v then .fault .notEnabled
    else
      let kids := g.kids v.num
      let todo := kids.filter (fun k => !k.joining)
      if !todo.isEmpty then .next (addImplicit s n j todo)
      else if !kids.isEmpty then .fault .notEnabled
      else
        match (g.ownGrans v.num).find? (fun x => !j.done.contains x) with
        | none => .next (joinEnd s n j.id)
        | some x =>
          if hi ≠ 0 && hi ≤ j.pos then .fault .notEnabled
          else unitGate s (s.granLines n (s.gctxOf n) 0 (g.mergeReads v x ++ g.mergeWrites v x (g.needCount v.parent x))) <|
            match joinGran s n (s.gctxOf n) j v x (if hi = 0 then 256 else hi) with
            | .done s1 => .next s1
            | .wait s1 => if (s1.rgang n).joins.find? (fun k => k.id = j.id) = some j && s1.nextId = s.nextId then .fault .notEnabled else .next s1
/-- A join reaches Sorrel: STALE, NOTPARENT and JOINING end it; else it enters its parent's queue (R268, R274). -/
def joinArrive (s : State) (q : UnitReq) : Out :=
  let n := q.who.chip
  let g := s.rgang n
  if !s.firstRevReq q then .fault .notEnabled
  else
    let root := isRoot q.cmd.ea
    match g.byHandle q.cmd.ea with
    | none => .next (answerReq s q (statusWord (if root then 6 else 5)))
    | some v =>
      if v.parent ≠ natFld q.cmd.rev.toNat 0 7 then .next (answerReq s q (statusWord 6))
      else if v.joining then .next (answerReq s q (statusWord 7))
      else
        let s1 := match s.reqPkt q with | some p => s.putPkt { p with stage := .parked, performed := true } | none => s
        .next ((s1.dropReq q.id).updRgang n (fun g =>
          { g with revs := updWhere (fun k => k.num = v.num) (fun k => { k with joining := true }) g.revs,
                   joins := g.joins ++ [{ id := q.id, who := q.who, cmd := some q.cmd, outer := 0, child := v.num, parent := v.parent,
                                          done := [], pos := 0, grans := 0, confs := 0, flags := 0, told := 0 }] }))
/-- JOIN_PERFORM: join `id` of a chip: it enters its queue, or, first there, merges its next granule or ends (R266, R268, R274).
With an operand value, it merges that granule's elements below it, each of which takes its own place among other accesses. -/
def execJoinPerform (s : State) : Out :=
  let n := s.sel.who.chip
  match s.theReq with
  | some q => (match q.cmd.op with | .join _ => joinArrive s q | _ => .fault .notEnabled)
  | none =>
    match (s.rgang n).joins.find? (fun j => j.id = s.sel.id) with
    | some j => joinRun s n j s.sel.val.toNat
    | none => .fault .notEnabled

/-! ## REV_ST_PERFORM (R275) -/

/-- What rev.st reports. -/
def revStatus (s : State) (n : Nat) (h : BitVec 64) : BitVec 64 :=
  let g := s.rgang n
  if isRoot h then BitVec.ofNat 64 (2 ^ 63)
  else
    match g.byHandle h with
    | none => statusWord 5
    | some v =>
      BitVec.ofNat 64 (2 ^ 63 + bit (s.childDone n (s.gctxOf n) v) * 2 ^ 62 + bit v.joining * 2 ^ 61 +
        min (g.ownGrans v.num).length (2 ^ 24 - 1) * 2 ^ 24 + v.depth * 2 ^ 12 + v.num)
/-- REV_ST_PERFORM: request `id` is reported. -/
def execRevStPerform (s : State) : Out :=
  match s.theReq with
  | none => .fault .notEnabled
  | some q =>
    match q.cmd.op with
    | .revSt _ => if s.firstRevReq q then .next (answerReq s q (revStatus s q.who.chip q.cmd.ea)) else .fault .notEnabled
    | _ => .fault .notEnabled

end Sys2Proof.Machine
end

