-- ==== Sys2Proof/Machine/EvEager.lean ====
section
/-! DEFINITION. Sys2Proof/Machine/EvEager.lean: eager slots, and slk at the head of its queue (spec/12 R302, spec/13 R320 to
R326). -/

namespace Sys2Proof.Machine

/-! ## Views of a ring (R321) -/

/-- A view at kernel start. -/
def EagerView.zero : EagerView := { sent := 0, tail := 0, head := 0, rel := 0 }
/-- A context's view of a ring. -/
def Ctx.view (c : Ctx) (ring : Nat) : EagerView := c.eager.get ring EagerView.zero
/-- A view changed. -/
def Ctx.setView (c : Ctx) (ring : Nat) (f : EagerView → EagerView) : Ctx := { c with eager := c.eager.set ring (f (c.view ring)) }
/-- Slots the sender may still write. -/
def EagerView.free (v : EagerView) (nslot : Nat) : BitVec 32 := BitVec.ofNat 32 nslot - (v.sent - v.tail)
/-- Slots the receiver has not released. -/
def EagerView.pending (v : EagerView) : BitVec 32 := v.head - v.rel

/-- The head of a context's queue and the operands of an eager command there. -/
def State.eagerHead (s : State) (w : Who) : Option (ECmd × EOp) :=
  (s.ctx w).eHead.bind (fun k => match k.op with | .esend o => some (k, o) | .erel o => some (k, o) | .eprobe o => some (k, o) | _ => none)
/-- The context and chip of a ring's receiver and of its sender, seen from a chip. -/
def State.ringRx (s : State) (n g : Nat) (r : Ring) : Who := ⟨s.memberChip n g r.rmem, r.rclus, r.rcore, r.rctx⟩
def State.ringTx (s : State) (n g : Nat) (r : Ring) : Who := ⟨s.memberChip n g r.smem, r.sclus, r.score, r.sctx⟩

/-! ## ESEND_SLOT, ESEND_SLOT_PERFORM (R322) -/

/-- esend at the head of its queue, in a ring: a slot is taken and its payload leaves, or the predicate is 0. -/
def esendGo (s : State) (w : Who) (k : ECmd) (o : EOp) (r : Ring) : Out :=
  let v := (s.ctx w).view (ringOf o)
  if v.free r.nslot = 0 then
    .next (finishCmd ((clearHead s w).updCtx w (fun c =>
      ({ c with csr := { c.csr with eagerNoslot := inc32 c.csr.eagerNoslot } } : Ctx).forget k.id))
      w k.id k.inst (ccOf k.op) 0)
  else
    let n := r.slotsz * 64
    if !s.mayRead w k then .fault .notEnabled
    else
      let idx := v.sent.toNat % r.nslot
      let f := fun (i : Nat) (d : List Byte) (p : Pkt) =>
        { p with op := .slot (ringOf o) idx d o.cc.toNat k.id i (packetsOf n), va := r.base + idx * n + 256 * i }
      let p := cmdPkt s w k (s.memberOfWho w r.rmem) .unit (.slot (ringOf o) idx [] 0 k.id 0 1) (ringFlow (ringOf o)) 4
      .next (sendParts p (s.readPayload w k) f ((clearHead s w).updCtx w (fun c =>
        (c.setView (ringOf o) (fun v => { v with sent := v.sent + 1 })).forget k.id)))
/-- ESEND_SLOT: the command at the head of a context's queue. With operand value i + 1, byte i of the payload of command `id` is
read ahead of the others. -/
def execEsendSlot (s : State) : Out :=
  let w := s.sel.who
  if s.sel.val ≠ 0 then takeByte s w s.sel.id (s.sel.val.toNat - 1)
  else
    match s.eagerHead w with
    | some (k, o) =>
      (match k.op, s.myRing w.chip w (ringOf o) false with
       | .esend _, some r => esendGo s w k o r
       | _, _ => .fault .notEnabled)
    | none => .fault .notEnabled

/-- What the pages of a slot write meet, its first byte's and its last byte's (R322, R369). A write already looked up, which has
waited for its dirty record or has written a piece, is not looked up again (R368). -/
def slotMeets (s : State) (p : Pkt) (n : Nat) : XRes :=
  let one := fun (a : Nat) => if 2 ^ 40 ≤ a then XRes.range else s.lookup p.dst p.gctx a false false false
  if p.told = 1 ∨ p.pieces ≠ [] then .dpa 0 false
  else
    match one p.va with
    | .dpa a r => (match one (p.va + n - 1) with | .dpa _ _ => .dpa a r | x => x)
    | x => x
/-- The key of byte i of a slot write's packet, by the receiver's table (R322). -/
def State.slotKey (s : State) (p : Pkt) (i : Nat) : Nat := hbmKey p.dst (s.dpaOf p.dst p.gctx 0 (p.va + i))
/-- Pieces of a slot write that are not written yet, but those a test leaves out; an aligned piece lies in one extent. -/
def slotLeft (p : Pkt) (n : Nat) (keep : Nat → Bool) : List (Nat × Nat) :=
  ((piecesOf p.va n).zipIdx.filter (fun q => keep q.2 && !p.pieces.contains q.2)).map (·.1)
/-- Pieces of a slot write written, each where the receiver's table has it. -/
def slotWrite (s : State) (p : Pkt) (b : List Byte) (l : List (Nat × Nat)) : State :=
  l.foldl (fun s q => writePieces s p (s.slotKey p q.1) ((b.drop q.1).take q.2) [(0, q.2)]) s
/-- The lines of a slot write, as chip and DPA. -/
def State.slotLines (s : State) (p : Pkt) (n : Nat) : List (Nat × Nat) :=
  (linesOver p.va n).map (fun a => (p.dst, s.dpaOf p.dst p.gctx 0 a))
/-- Lines that a slot write's packet covers are no longer poisoned (R244). -/
def slotCover (s : State) (p : Pkt) (n : Nat) : State :=
  ((linesOver p.va n).filter (fun a => decide (p.va ≤ a) && decide (a + 128 ≤ p.va + n))).foldl
    (fun s a => coverLines s p (s.slotKey p (a - p.va)) 128) s
/-- A packet of a slot write is performed: with the last one HEAD rises, and then the receiver's counter (R322). -/
def slotDone (s : State) (p : Pkt) (rx : Who) (ring hcc msg parts n : Nat) : State :=
  let q := (s.gang p.dst p.gctx).landed p.who msg n
  let s1 := s.updGang p.dst p.gctx (fun g => g.putLanded p.who msg parts q)
  answer (if parts ≤ q.1 then s1.updCtx rx (fun c => (c.setView ring (fun v => { v with head := v.head + 1 })).incCC hcc 0 1) else s1) p
/-- ESEND_SLOT_PERFORM: packet `id` at the receiver, in its ring's order; what its pages meet is raised in the receiver (R322,
R436). A write that cannot be performed is discarded and acknowledged, and its slot is never performed (DESIGN CHOICE, log 51).
With operand value i + 1, its 64-byte piece i is written ahead of the others (R254). -/
def execEsendSlotPerform (s : State) : Out :=
  match s.thePkt with
  | none => .fault .notEnabled
  | some p =>
    match p.op with
    | .slot ring _ b _ msg part parts =>
      if !s.mayPerform p then .fault .notEnabled
      else
        match (s.rings p.dst)[ring]? with
        | none => .fault .notEnabled
        | some r =>
          let rx := s.ringRx p.dst p.gctx r
          let bad := fun (s : State) (code : BitVec 8) (fr : FreezeCause) => lateFor s rx code (memInfo 10 0 (p.va - 256 * part)) 0 fr
          match slotMeets s p b.length with
          | .absent e q => .next ((bad s 0x08 (.absent p.dst e q)).putPkt { p with stage := .absent })
          | .dpa _ _ =>
             (match [p.va, p.va + b.length - 1].findSome? (fun a => s.pageClean p.dst p.gctx a) with
             | some (e, q) => .next (askDirty (s.putPkt { p with stage := .dlog, told := 1 }) p.dst p.gctx rx e q)
             | none =>
               let v := s.sel.val.toNat
               let l := slotLeft p b.length (fun j => v = 0 || j + 1 = v)
               if v ≠ 0 && l.isEmpty then .fault .notEnabled
               else
                 unitGate s (s.slotLines p b.length)
                   (let s1 := (s.slotLines p b.length).foldl (fun t q => homeLine q.1 p.gctx rx true t q.2) s
                    if v ≠ 0 then .next ((slotWrite s1 p b l).putPkt { p with pieces := (v - 1) :: p.pieces })
                    else .next (slotDone (slotCover (slotWrite s1 p b l) p b.length) p rx ring r.hcc msg parts b.length)))
          | .cap => .next (answer (bad s 0x0C .none) p)
          | _ => .next (answer (bad s 0x09 .none) p)
    | _ => .fault .notEnabled

/-! ## EREL_NOTICE, EREL_NOTICE_ARRIVAL (R323) -/

/-- EREL_NOTICE: the command at the head of a context's queue. -/
def execErelNotice (s : State) : Out :=
  let w := s.sel.who
  match s.eagerHead w with
  | some (k, o) =>
    (match k.op, s.myRing w.chip w (ringOf o) true with
     | .erel _, some r =>
       if !s.mayRequest w.coreId 1 then .fault .notEnabled else
       let c := s.ctx w
       let want := (o.ext.imm.extractLsb' 5 8).toNat
       let n := min want ((c.view (ringOf o)).pending).toNat
       let s1 := (clearHead s w).updCtx w (fun c =>
         let c1 := c.setView (ringOf o) (fun v => { v with rel := v.rel + BitVec.ofNat 32 n })
         { c1 with csr := { c1.csr with eagerOvrel := c1.csr.eagerOvrel || decide (n < want) } })
       .next (sendCmd s1 (cmdPkt s w k (s.memberOfWho w r.smem) .unit (.notice (ringOf o) n o.cc.toNat) (noticeFlow (ringOf o)) 4))
     | _, _ => .fault .notEnabled)
  | none => .fault .notEnabled
/-- EREL_NOTICE_ARRIVAL: packet `id` at the sender. -/
def execErelNoticeArrival (s : State) : Out :=
  match s.thePkt with
  | none => .fault .notEnabled
  | some p =>
    match p.op with
    | .notice ring n _ =>
      if !s.mayPerform p then .fault .notEnabled
      else
        match (s.rings p.dst)[ring]? with
        | none => .fault .notEnabled
        | some r =>
          .next (answer (s.updCtx (s.ringTx p.dst p.gctx r) (fun c => c.setView ring (fun v => { v with tail := v.tail + BitVec.ofNat 32 n }))) p)
    | _ => .fault .notEnabled

/-! ## EPROBE_READ (R324) -/

/-- The count that eprobe reads. -/
def eprobeValue (s : State) (w : Who) (o : EOp) : BitVec 64 :=
  let v := (s.ctx w).view (ringOf o)
  if o.opt.getLsbD 0 then v.pending.setWidth 64
  else (v.free (((s.rings w.chip)[ringOf o]?).map (·.nslot) |>.getD 0)).setWidth 64
/-- EPROBE_READ: the command at the head of a context's queue. -/
def execEprobeRead (s : State) : Out :=
  let w := s.sel.who
  match s.eagerHead w with
  | some (k, o) =>
    (match k.op with
     | .eprobe _ => .next (finishCmd (clearHead s w) w k.id k.inst (ccOf k.op) (eprobeValue s w o))
     | _ => .fault .notEnabled)
  | none => .fault .notEnabled

/-! ## SLK_APPLY (R287, R288, R302) -/

/-- SLACK_CTL after slk: RALLOW, EV, and EVCC unless EV is 0. -/
def slkCtl (old : BitVec 9) (o : EOp) : BitVec 9 :=
  let ev := o.opt.getLsbD 4
  BitVec.ofNat 9 (natFld o.opt.toNat 0 4 + (if ev then natFld o.ext.imm.toNat 0 4 else natFld old.toNat 4 4) * 16 + (if ev then 256 else 0))
/-- The settings of a context changed. -/
def slkSet (o : EOp) (inst : Nat) (c : Ctx) : Ctx :=
  let d := if o.ext.skv then o.ext.sk else c.csr.slackDef
  { c with csr := { c.csr with slackCtl := slkCtl c.csr.slackCtl o, slackDef := d },
           shadow := if c.inSeg ∧ inst ≠ c.segInst then
               c.shadow.map (fun h => { h with slackCtl := slkCtl h.slackCtl o, slackDef := if o.ext.skv then o.ext.sk else h.slackDef })
             else c.shadow }
/-- SLK_APPLY: slk at the head of a context's queue. -/
def execSlkApply (s : State) : Out :=
  let w := s.sel.who
  match s.headOf w (fun i => match i with | .slk _ => true | _ => false) with
  | none => .fault .notEnabled
  | some k =>
    match k.op with
    | .slk o => .next ((clearHead s w).updCtx w (fun c => (slkSet o k.inst c).incCC o.cc.toNat k.inst 1))
    | _ => .fault .notEnabled

end Sys2Proof.Machine
end

