-- ==== Sys2Proof/Machine/EvColl.lean ====
section
/-! DEFINITION. Sys2Proof/Machine/EvColl.lean: collectives: contexts, the joint start, the exchange and its sums (spec/13
R306 to R318). A member's elements are dense lists in the order of R306. -/

namespace Sys2Proof.Machine

/-! ## Ranges of the kernel space -/

/-- A range cut at extents: address and length. -/
def vaPieces (a n : Nat) : List (Nat × Nat) :=
  (extentsOf a n).map (fun e => let lo := max a (e * 2 ^ 28); (lo, min (a + n) ((e + 1) * 2 ^ 28) - lo))
/-- A page as a unit of the chip meets it, at the chip that holds it: a peer-chip extent is looked up at its target too (R362), and
a revision region is reached by no unit (R259). -/
def State.unitLookup (s : State) (n g va : Nat) : Nat × XRes :=
  let flat := fun (x : XRes) => match x with | .dpa _ true => XRes.range | x => x
  match s.lookup n g va false false false with
  | .peer m va' => let t := s.memberChip n g m; (t, flat (s.peerLookup t g va' false false false))
  | x => (n, flat x)
/-- A range cut at its pages, as address and length. -/
def pagesOf (a n : Nat) : List (Nat × Nat) :=
  if n = 0 then []
  else (upTo ((a + n - 1) / 2 ^ 21 - a / 2 ^ 21 + 1)).map (fun i =>
    let lo := max a ((a / 2 ^ 21 + i) * 2 ^ 21); (lo, min (a + n) ((a / 2 ^ 21 + i + 1) * 2 ^ 21) - lo))
/-- The lines of a range that lie in the memory of chips, as chip and DPA. -/
def State.vaLines (s : State) (n g a len : Nat) : List (Nat × Nat) :=
  (pagesOf a len).flatMap (fun p => match s.unitLookup n g p.1 with | (t, .dpa d _) => (linesOver d p.2).map (fun x => (t, x)) | _ => [])
/-- A whole range read or written at its home slices (R244). -/
def State.vaTouches (s : State) (n g : Nat) (w : Who) (wr : Bool) (a len : Nat) : State :=
  (s.vaLines n g a len).foldl (fun t q => homeLine q.1 g w wr t q.2) s
/-- The key of a page's bytes from an address on; none where the page leads nowhere. -/
def State.vaSpot (s : State) (n g va : Nat) : Option Nat :=
  match s.unitLookup n g va with | (t, .dpa d _) => some (hbmKey t d) | (_, .host p d) => some (hostKey n p d) | _ => none
/-- Bytes of a range with their poison; where a page leads nowhere they are free and poisoned (DESIGN CHOICE, log 51). -/
def State.vaMarked (s : State) (n g a len : Nat) : List (Byte × Bool) :=
  (pagesOf a len).flatMap (fun p =>
    match s.vaSpot n g p.1 with
    | some k => s.marked k p.2
    | none => (upTo p.2).map (fun i => (Config.undefByte s.free (p.1 + i), true)))
/-- Bytes of a range written for a context, with their poison; nothing where a page leads nowhere (log 51). -/
def vaWrite (s : State) (n g : Nat) (w : Who) (a : Nat) (b : List (Byte × Bool)) : State :=
  (pagesOf a b.length).foldl (fun s p =>
    let d := (b.drop (p.1 - a)).take p.2
    match s.vaSpot n g p.1 with
    | some k => (hbmWrite s k (d.map (·.1))).poisonAt k (d.map (·.2))
    | none => s) (s.vaTouches n g w true a b.length)
/-- The first page of a range that cannot be used: its address, the cause, and what a freeze waits for; with `past`, an absent one
alone. -/
def State.rangeMeets (s : State) (n g a len : Nat) (past : Bool) : Option (Nat × BitVec 8 × FreezeCause) :=
  (pagesOf a len).findSome? (fun p =>
    match s.unitLookup n g p.1 with
    | (t, .absent e q) => some (p.1, 0x08, .absent t e q)
    | (_, .cap) => if past then none else some (p.1, 0x0C, .none)
    | (_, .range) => if past then none else some (p.1, 0x09, .none)
    | _ => none)
/-- The first page of a range that needs its dirty record, where it lies: chip, extent and page (R369). -/
def State.rangeClean (s : State) (n g a len : Nat) : Option (Nat × Nat × Nat) :=
  (pagesOf a len).findSome? (fun p =>
    match s.lookup n g p.1 false false false with
    | .peer m va => let t := s.memberChip n g m; (s.pageClean t g va).map (fun q => (t, q))
    | _ => (s.pageClean n g p.1).map (fun q => (n, q)))

/-! ## What a member holds (R305, R306, R309) -/

/-- The digit of axis x that a sharded dimension's index has in a layout (R306). -/
def CDesc.digit (d : CDesc) (lay : Nat × Nat) (dim x i : Nat) : Nat :=
  let l := d.dim.getD dim 1 / d.shards lay
  let below := ((upTo x).filter (fun y => lay.2.testBit y)).foldl (fun a y => a * d.ax y) 1
  i / l / below % d.ax x
/-- A mesh axis that shards a dimension in both layouts. -/
def CDesc.kept (d : CDesc) (dim x : Nat) : Bool := role d.slay x = 1 + dim && role d.dlay x = 1 + dim
/-- A mesh axis that shards a dimension in the destination alone. -/
def CDesc.gained (d : CDesc) (dim x : Nat) : Bool := role d.dlay x = 1 + dim && role d.slay x ≠ 1 + dim
/-- The place of index i of a dimension among those that a member holds by the axes it keeps there. -/
def CDesc.posOf (d : CDesc) (c : List Nat) (dim i : Nat) : Nat :=
  ((upTo i).filter (fun u => (upTo 3).all (fun x => !d.kept dim x || d.digit (d.slay.getD dim (0, 0)) dim x u = c.getD x 0))).length
/-- The digit of a gained axis: what the kept axes leave of the dimension is cut by the gained ones as R306 cuts a whole one
(R308, R309; DESIGN CHOICE, log 27). -/
def CDesc.gdigit (d : CDesc) (c : List Nat) (dim x i : Nat) : Nat :=
  let prod := fun (p : Nat → Bool) => ((upTo 3).filter p).foldl (fun a y => a * d.ax y) 1
  let l := d.dim.getD dim 1 / prod (fun y => d.kept dim y) / prod (fun y => d.gained dim y)
  d.posOf c dim i / l / prod (fun y => decide (y < x) && d.gained dim y) % d.ax x
/-- A held set: conditions (dimension, axis, gained). -/
abbrev Holds := List (Nat × Nat × Bool)
/-- What the source layout holds. -/
def CDesc.holds0 (d : CDesc) : Holds :=
  (upTo d.ndim).flatMap (fun i => ((upTo 3).filter (fun x => role d.slay x = 1 + i)).map (fun x => (i, x, false)))
/-- The held set after a step. -/
def Holds.after (h : Holds) (p : PStep) : Holds :=
  let gone := if p.kind = 3 ∨ p.kind = 4 then h.filter (fun q => q.2.1 ≠ p.axis) else h
  if p.kind = 0 ∨ p.kind = 1 ∨ p.kind = 3 then gone ++ [(p.into, p.axis, true)] else gone
/-- The held set before step k. -/
def CDesc.holdsAt (d : CDesc) (k : Nat) : Holds := ((plan d).take k).foldl Holds.after d.holds0
/-- Indexes of a dimension that a member at a coordinate holds, ascending. -/
def CDesc.heldIdx (d : CDesc) (h : Holds) (c : List Nat) (i : Nat) : List Nat :=
  (upTo (d.dim.getD i 1)).filter (fun v => h.all (fun q =>
    q.1 ≠ i || (if q.2.2 then d.gdigit c i q.2.1 v else d.digit (d.slay.getD i (0, 0)) i q.2.1 v) = c.getD q.2.1 0))
/-- Element coordinates of a product of index lists, dimension 0 fastest. -/
def coordsOf : List (List Nat) → List (List Nat)
  | [] => [[]]
  | l :: r => (coordsOf r).flatMap (fun t => l.map (fun v => v :: t))
/-- Place of a coordinate in such a product. -/
def placeOf : List (List Nat) → List Nat → Nat
  | [], _ => 0
  | l :: r, c => (firstIdx (fun v => v = c.headD 0) l).getD 0 + l.length * placeOf r c.tail
/-- Index lists of a member. -/
def CDesc.held (d : CDesc) (h : Holds) (c : List Nat) : List (List Nat) := (upTo d.ndim).map (fun i => d.heldIdx h c i)
/-- Elements a member holds. -/
def heldCount (l : List (List Nat)) : Nat := l.foldl (fun a q => a * q.length) 1

/-! ## Hop and final step (R312) -/

/-- Partials are carried in FMT: NARROW, and f32 and i32 in either wire. -/
def CDesc.thin (d : CDesc) : Bool := d.narrow || d.fmt = 0 || d.fmt = 5
/-- Format of a partial on the wire. -/
def CDesc.wire (d : CDesc) : BitVec 4 := if d.thin then d.fmt else if isFloatFmt d.fmt then 0 else 5
/-- A member's element widened to the wire. -/
def CDesc.widen (d : CDesc) (v : Nat) : Nat := if d.thin then v else (convert 0 d.fmt d.wire 0 v).1
/-- hop(p, v): the partial, flags, and whether the hop overflowed. -/
def CDesc.hop (d : CDesc) (ovt : BitVec 10) (p v : Nat) : Nat × Flags × Bool :=
  let ovf := fun (f : Flags) => (f &&& (fOF ||| fIRANGE)) ≠ 0
  if isFloatFmt d.fmt then
    let r := sumRound 0 0 0 [decodeF d.wire p, decodeF d.fmt v]
    if d.thin && d.fmt ≠ 0 then let q := convert ovt 0 d.fmt 0 r.1; (q.1, r.2 ||| q.2, ovf (r.2 ||| q.2)) else (r.1, r.2, ovf r.2)
  else if d.fmt = 7 && d.thin then let q := fitInt ovt 7 (decodeI 7 p + decodeI 7 v); (q.1, q.2, ovf q.2)
  else (wrapI 5 (decodeI d.wire p + decodeI d.fmt v), 0, false)
/-- hop of two partials, as the tree adds them (R311). -/
def CDesc.hopP (d : CDesc) (ovt : BitVec 10) (p q : Nat) : Nat × Flags × Bool :=
  if d.thin then d.hop ovt p q
  else if isFloatFmt d.fmt then let r := sumRound 0 0 0 [decodeF 0 p, decodeF 0 q]; (r.1, r.2, (r.2 &&& fOF) ≠ 0)
  else (wrapI 5 (decodeI 5 p + decodeI 5 q), 0, false)
/-- last(p, v), v absent when nothing is added. -/
def CDesc.fin (d : CDesc) (ovt : BitVec 10) (p : Nat) (v : Option Nat) : Nat × Flags :=
  let q := match v with | some v => (d.hop ovt p v) | none => if isFloatFmt d.fmt ∧ d.wire = 0 then
      (let r := sumRound 0 0 0 [decodeF 0 p]; (r.1, r.2, false)) else (p, 0, false)
  if d.thin then
    (match v with
     | some _ => (q.1, q.2.1)
     | none => if isFloatFmt d.fmt ∧ d.fmt ≠ 0 then
         (let r := convert 0 d.fmt 0 0 p; let t := convert ovt 0 d.fmt 0 r.1; (t.1, r.2 ||| t.2)) else (q.1, q.2.1))
  else let t := convert ovt d.wire d.fmt 0 q.1; (t.1, q.2.1 ||| t.2)

/-- The sum of one element at a coordinate k of a ring of members' values (R310): its value, whether a hop overflowed, and
flags by coordinate. -/
def ringSum (d : CDesc) (ovts : List (BitVec 10)) (vals : List Nat) (k : Nat) : Nat × Bool × List (Nat × Flags) :=
  let n := vals.length
  let at_ := fun (j : Nat) => vals.getD (j % n) 0
  let ovt := fun (j : Nat) => ovts.getD (j % n) 0
  if n ≤ 1 then let r := d.fin (ovt 0) (d.widen (at_ 0)) none; (r.1, false, [(0, r.2)])
  else
    let a := ((upTo (n - 2)).map (fun i => k + 2 + i)).foldl (fun (a : Nat × Bool × List (Nat × Flags)) j =>
      let h := d.hop (ovt j) a.1 (at_ j)
      (h.1, a.2.1 || h.2.2, a.2.2 ++ [(j % n, h.2.1)])) (d.widen (at_ (k + 1)), false, [])
    let r := d.fin (ovt k) a.1 (some (at_ k))
    (r.1, a.2.1, a.2.2 ++ [(k, r.2)])
/-- One level of the tree (R311): partials, marks and flags by coordinate. -/
def treeLevel (d : CDesc) (ovts : List (BitVec 10)) (l : Nat) (a : List (Nat × Bool) × List (Nat × Flags)) :
    List (Nat × Bool) × List (Nat × Flags) :=
  let n := a.1.length
  (upTo n).foldl (fun (b : List (Nat × Bool) × List (Nat × Flags)) c =>
    if c % 2 ^ (l + 1) = 0 ∧ c + 2 ^ l < n then
      let p := b.1.getD c (0, false)
      let q := b.1.getD (c + 2 ^ l) (0, false)
      let r := d.hopP (ovts.getD c 0) p.1 q.1
      (b.1.set c (r.1, p.2 || q.2 || r.2.2), b.2 ++ [(c, r.2.1)])
    else b) a
/-- The partials of one element at the coordinates of a tree, once each has added its children's. -/
def treeParts (d : CDesc) (ovts : List (BitVec 10)) (vals : List Nat) : List (Nat × Bool) × List (Nat × Flags) :=
  (upTo 11).foldl (fun a l => if 2 ^ l < vals.length then treeLevel d ovts l a else a) (vals.map (fun v => (d.widen v, false)), [])
/-- The partial of one element of block k of a ring that coordinate c passes on (R310). -/
def ringPart (d : CDesc) (ovts : List (BitVec 10)) (vals : List Nat) (k c : Nat) : Nat :=
  let n := vals.length
  ((upTo ((c + n - (k + 1) % n) % n)).map (fun i => k + 2 + i)).foldl
    (fun a j => (d.hop (ovts.getD (j % n) 0) a (vals.getD (j % n) 0)).1) (d.widen (vals.getD ((k + 1) % n) 0))
/-- The sum of one element on the tree. -/
def treeSum (d : CDesc) (ovts : List (BitVec 10)) (vals : List Nat) : Nat × Bool × List (Nat × Flags) :=
  let a := treeParts d ovts vals
  let p := a.1.getD 0 (0, false)
  let r := d.fin (ovts.getD 0 0) p.1 none
  (r.1, p.2, a.2 ++ [(0, r.2)])

/-! ## A step of the plan over one line of members (R308 to R311) -/

/-- Bytes of an element on the wire. -/
def CDesc.wireBytes (d : CDesc) : Nat := fmtBits d.wire / 8
/-- The chunks of a number of bytes: CHUNK each, the last one possibly shorter (R316). -/
def CDesc.cuts (d : CDesc) (bytes : Nat) : List Nat := (upTo ((bytes + d.chunk - 1) / d.chunk)).map (fun i => min d.chunk (bytes - i * d.chunk))
/-- The block of an all-reduce that element i of n belongs to: equal blocks, and a split of the implementation's when n is no
multiple, the same in every run of the descriptor (R88, R310; log 27). -/
def arBlock (key n s i : Nat) : Nat := if n % s = 0 then i / (n / s) else Config.arSplit key i % s
/-- Marks spread over the chunks of a block: positions are (block, place in it). -/
def spreadMarks (d : CDesc) (l : List (Nat × Nat × Bool)) : List Bool :=
  let hot := (l.filter (fun q => q.2.2)).map (fun q => (q.1, q.2.1 * d.wireBytes / d.chunk))
  l.map (fun q => hot.contains (q.1, q.2.1 * d.wireBytes / d.chunk))
/-- Flags of one coordinate. -/
def flagsAt (l : List (Nat × Flags)) (c : Nat) : Flags := (l.filter (fun q => q.1 = c)).foldl (fun a q => a ||| q.2) 0

/-- The reduced elements of a whole line: value, mark and flags of every element that the line's members hold. -/
def lineSums (d : CDesc) (key : Nat) (st : PStep) (h : Holds) (coords : List (List Nat)) (ovts : List (BitVec 10))
    (ins : List (List (Nat × Bool))) : List (Nat × Bool × List (Nat × Flags)) :=
  let n := ins.length
  let held := d.held h (coords.headD [])
  let el := coordsOf held
  let cnt := el.length
  let block := fun (i : Nat) (g : List Nat) =>
    if st.kind = 1 then d.gdigit (coords.headD []) st.into st.axis (g.getD st.into 0) else arBlock key cnt n i
  let raw := el.mapIdx (fun i g =>
    let vals := ins.map (fun l => (l.getD i (0, false)).1)
    let old := ins.any (fun l => (l.getD i (0, false)).2)
    let r := if d.tree then treeSum d ovts vals else ringSum d ovts vals (block i g)
    (block i g, old, r))
  let place := fun (i : Nat) (b : Nat) => if d.tree then i else ((raw.take i).filter (fun q => q.1 = b)).length
  let marks := spreadMarks d (raw.mapIdx (fun i q => (if d.tree then 0 else q.1, place i q.1, q.2.2.2.1)))
  raw.mapIdx (fun i q => (q.2.2.1, marks.getD i false || q.2.1, q.2.2.2.2))
/-- What every member of a line holds after a step: elements with marks, and its flags. -/
def lineStep (d : CDesc) (key : Nat) (st : PStep) (h : Holds) (coords : List (List Nat)) (ovts : List (BitVec 10))
    (ins : List (List (Nat × Bool))) : List (List (Nat × Bool) × Flags) :=
  let h2 := h.after st
  let sums := if st.kind = 1 ∨ st.kind = 2 then lineSums d key st h coords ovts ins else []
  coords.mapIdx (fun c me =>
    let mine := d.held h me
    let out := coordsOf (d.held h2 me)
    match st.kind with
    | 1 | 2 =>
      (out.map (fun g => let r := sums.getD (placeOf mine g) (0, false, []); (r.1, r.2.1)),
       sums.foldl (fun f r => f ||| flagsAt r.2.2 c) 0)
    | 0 => (out.map (fun g => (ins.getD c []).getD (placeOf mine g) (0, false)), 0)
    | _ =>
      (out.map (fun g =>
        let j := d.digit (d.slay.getD st.from_ (0, 0)) st.from_ st.axis (g.getD st.from_ 0)
        (ins.getD j []).getD (placeOf (d.held h (coords.getD j [])) g) (0, false)), 0))
/-- Which elements of every member of a line come from poisoned bytes after a step. -/
def lineBad (d : CDesc) (st : PStep) (h : Holds) (coords : List (List Nat)) (ins : List (List Bool)) : List (List Bool) :=
  let h2 := h.after st
  coords.mapIdx (fun c me =>
    let mine := d.held h me
    (coordsOf (d.held h2 me)).map (fun g =>
      match st.kind with
      | 1 | 2 => ins.any (fun l => l.getD (placeOf mine g) false)
      | 0 => (ins.getD c []).getD (placeOf mine g) false
      | _ =>
        let j := d.digit (d.slay.getD st.from_ (0, 0)) st.from_ st.axis (g.getD st.from_ 0)
        (ins.getD j []).getD (placeOf (d.held h (coords.getD j [])) g) false))

/-! ## Chunks of a step (R310, R311, R316) -/

/-- A block that a member sends in a step: the coordinate it goes to on the line, its bytes, and its place among the blocks of a
ring, which is sent once as many have come from the member before. -/
structure Block where
  dest : Nat
  bytes : Nat
  round : Nat
  deriving DecidableEq, Repr
/-- Elements of a member that an all-to-all takes to coordinate j. -/
def CDesc.goesTo (d : CDesc) (st : PStep) (h : Holds) (me : List Nat) (j : Nat) : Nat :=
  (upTo d.ndim).foldl (fun a i =>
    let l := d.heldIdx h me i
    a * (if i = st.into then (l.filter (fun v => d.gdigit me i st.axis v = j)).length else l.length)) 1
/-- The blocks that the member at a coordinate of a line sends in a step, in order: along the ring, up and down the tree, or
directly (R310, R311; log 27). -/
def stepBlocks (d : CDesc) (key : Nat) (st : PStep) (h : Holds) (me : List Nat) : List Block :=
  let n := d.ax st.axis
  let c := me.getD st.axis 0
  let next := (c + 1) % n
  let at_ := fun (j : Nat) => me.set st.axis (j % n)
  let cnt := heldCount (d.held h me)
  let out := fun (j : Nat) => heldCount (d.held (h.after st) (at_ j))
  let ar := fun (b : Nat) => ((upTo cnt).filter (fun i => arBlock key cnt n i = b % n)).length
  let others := (upTo n).filter (fun b => b ≠ c)
  let ring := fun (first : Nat) (f : Nat → Nat) => (upTo (n - 1)).map (fun r => Block.mk next (f (c + n - r)) (first + r))
  let up : List Block := if c = 0 then [] else
    ((upTo 11).find? (fun l => c % 2 ^ (l + 1) ≠ 0)).toList.map (fun l => Block.mk (c - 2 ^ l) (cnt * d.wireBytes) 0)
  let down := fun (f : Nat → Nat) => if c = 0 then others.map (fun b => Block.mk b (f b) 1) else []
  match st.kind, d.tree with
  | 0, _ => []
  | 1, false => ring 0 (fun b => out (b + n - 1) * d.wireBytes)
  | 1, true => up ++ down (fun b => out b * d.esz)
  | 2, false => ring 0 (fun b => ar (b + n - 1) * d.wireBytes) ++ ring (n - 1) (fun b => ar b * d.esz)
  | 2, true => up ++ down (fun _ => cnt * d.esz)
  | 3, _ => others.map (fun j => Block.mk j (d.goesTo st h me j * d.esz) 0)
  | _, false => ring 0 (fun b => heldCount (d.held h (at_ b)) * d.esz)
  | _, true => others.map (fun j => Block.mk j (cnt * d.esz) 0)
/-- The bytes of a block that coordinate c of a line sends in a step: the partials that it passes on, the sums, or elements as they
are (R310 to R312, R316). -/
def blockData (d : CDesc) (key : Nat) (st : PStep) (h : Holds) (coords : List (List Nat)) (ovts : List (BitVec 10))
    (ins : List (List (Nat × Bool))) (c : Nat) (b : Block) : List Byte :=
  let n := ins.length
  let me := coords.getD c []
  let el := coordsOf (d.held h me)
  let vals := fun (i : Nat) => ins.map (fun l => (l.getD i (0, false)).1)
  let mine := fun (j : Nat) => (ins.getD (j % n) []).map (·.1)
  let blk := fun (i : Nat) (g : List Nat) =>
    if st.kind = 1 then d.gdigit (coords.headD []) st.into st.axis (g.getD st.into 0) else arBlock key el.length n i
  let those := fun (p : Nat → List Nat → Bool) => (el.zipIdx.filter (fun q => p q.2 q.1)).map (·.2)
  let sums := if st.kind = 1 ∨ st.kind = 2 then (lineSums d key st h coords ovts ins).map (·.1) else []
  let pack := fun (w : Nat) (l : List Nat) => bytesOf (packElems (8 * w) l) (l.length * w)
  let whole := fun (l : List Nat) => pack d.esz (l.map (fun i => sums.getD i 0))
  match st.kind, d.tree with
  | 3, _ => pack d.esz ((those (fun _ g => d.gdigit me st.into st.axis (g.getD st.into 0) = b.dest)).map (fun i => (mine c).getD i 0))
  | 4, false => pack d.esz (mine (c + n - b.round))
  | 4, true => pack d.esz (mine c)
  | _, true =>
    if b.round = 0 then pack d.wireBytes ((upTo el.length).map (fun i => ((treeParts d ovts (vals i)).1.getD c (0, false)).1))
    else whole (those (fun i g => st.kind = 2 || blk i g = b.dest))
  | _, false =>
    if b.round < n - 1 then
      let k := (c + n - b.round - 1) % n
      pack d.wireBytes ((those (fun i g => blk i g = k)).map (fun i => ringPart d ovts (vals i) k c))
    else whole (those (fun i g => blk i g = (c + n - (b.round - (n - 1))) % n))
/-- Packets of a block. -/
def CDesc.blockPkts (d : CDesc) (b : Block) : Nat := (d.cuts b.bytes).foldl (fun a x => a + packetsOf x) 0
/-- Packets that come to a member in a step, those that meet a test. -/
def stepComes (d : CDesc) (key : Nat) (st : PStep) (h : Holds) (me : List Nat) (p : Nat → Block → Bool) : Nat :=
  (((upTo (d.ax st.axis)).filter (fun j => j ≠ me.getD st.axis 0)).flatMap (fun j =>
    ((stepBlocks d key st h (me.set st.axis j)).filter (fun b => b.dest = me.getD st.axis 0 && p j b)).map d.blockPkts)).foldl (· + ·) 0
/-- Packets that must have come before a block is sent: of a ring, those of the rounds before it; at a node of a tree, its
children's partials. -/
def stepNeeds (d : CDesc) (key : Nat) (st : PStep) (h : Holds) (me : List Nat) (b : Block) : Nat :=
  if st.kind = 3 then 0
  else if d.tree then (if st.kind = 4 then 0 else stepComes d key st h me (fun _ q => q.round = 0))
  else stepComes d key st h me (fun _ q => decide (q.round < b.round))
/-- The spec fixes the number of chunks that a member sends in a step (R310, R311, R316; log 27). -/
def stepFixed (d : CDesc) (st : PStep) (h : Holds) (me : List Nat) : Bool :=
  d.tree || (st.kind ≠ 3 && (st.kind ≠ 2 || heldCount (d.held h me) % d.ax st.axis = 0))

/-! ## Colls of a mesh (R315) -/

/-- The descriptor of a collective. -/
def Coll.d (k : Coll) : CDesc := readCDesc k.desc
/-- Members of the mesh that exist. -/
def Coll.mesh (k : Coll) (nchips : Nat) : List Nat := (upTo nchips).filter (fun m => k.d.mbase ≤ m && m < k.d.mbase + k.d.size)
/-- The descriptor with bytes 24 to 39 taken as zero, which every member has alike (R315). -/
def Coll.common (k : Coll) : List Byte := k.desc.mapIdx (fun i b => if 24 ≤ i ∧ i < 40 then 0 else b)
/-- The key of a step's splits. -/
def Coll.key (k : Coll) (step : Nat) : Nat := ofBytes k.common * 256 + step
/-- A member's coordinate. -/
def Coll.me (k : Coll) : List Nat := k.d.coord k.member
/-- The chip's own collective, by number. -/
def State.coll (s : State) (n id : Nat) : Option Coll := (s.chip n).colls.find? (fun k => k.id = id)
/-- The collective a step names, on a chip whose gang runs and injects (R380). -/
def State.theColl (s : State) : Option Coll :=
  let n := s.sel.who.chip
  (s.coll n s.sel.id).filter (fun k => (s.chip n).running = some k.gctx && (s.chip n).vote.member.isNone && !(s.chip n).frozen)
/-- The collective of a member with the same tag. -/
def State.peerColl (s : State) (k : Coll) (m : Nat) : Option (Nat × Coll) :=
  let n := s.memberChip k.who.chip k.gctx m
  ((s.chip n).colls.find? (fun q => q.gctx = k.gctx && q.tag = k.tag && 0 < q.phase)).map (fun q => (n, q))
/-- A collective changed. -/
def updColl (s : State) (n id : Nat) (f : Coll → Coll) : State := s.updChip n (fun c => { c with colls := updWhere (fun k => k.id = id) f c.colls })
/-- A member of its mesh has been reset (R316). -/
def State.peerGone (s : State) (k : Coll) : Bool :=
  let n := k.who.chip
  (s.gang n k.gctx).peersReset.any (fun m => (k.mesh (s.nchipsOf n)).contains m)
/-- A port's use of a collective ends. -/
def freePorts (s : State) (n id : Nat) : State :=
  s.updChip n (fun c => { c with ports := c.ports.map (fun (q : Nat × Port) => (q.1, { q.2 with seqs := q.2.seqs.filter (fun x => x ≠ id) })) })
/-- The status word (R317): the count is free where the spec does not fix it. -/
def collWord (s : State) (k : Coll) (status : Nat) : BitVec 64 :=
  let d := k.d
  let ran := k.decision = some 0
  let fixed := (plan d).mapIdx (fun i p => stepFixed d p (d.holdsAt i) k.me)
  let n := if fixed.all id then k.chunks else Config.undefNat s.free 317
  BitVec.ofNat 64 (status + (if ran then (plan d).length else 0) % 256 * 256 + (if ran then min n (2 ^ 32 - 1) else 0) * 65536)
/-- A collective completes: contexts released, counters of COLL_STAT, the status word, then its counter (R317, R319). -/
def collDone (s : State) (n : Nat) (k : Coll) (status : Nat) : State :=
  let s1 := (freePorts s n k.id).updChip n (fun c => { c with colls := c.colls.filter (fun q => q.id ≠ k.id) })
  let s2 := s1.updCtx k.who (fun c => { c with csr := { c.csr with
    collDone := inc16 c.csr.collDone, collBusy := if status = 1 then inc16 c.csr.collBusy else c.csr.collBusy,
    collWovf := if status = 2 then inc16 c.csr.collWovf else c.csr.collWovf } })
  finishCmd s2 k.who k.id 0 k.cc (collWord s k status)

/-! ## COLL_CONTEXT_TAKE (R307, R313, R314, R317) -/

/-- The ports of a collective, a port that is down replaced by the next that is up; none when every port is down. -/
def collPorts (s : State) (n : Nat) (d : CDesc) : List (Option Nat) :=
  (upTo d.nport).map (fun i =>
    ((upTo 48).map (fun j => (d.pbase + i + j) % 48)).find? (fun k => ((s.chip n).ports.get k Port.reset).up))
/-- Every port of a list has as many free contexts of its eight as the list names it. -/
def portsFree (s : State) (n : Nat) (l : List (Option Nat)) : Bool :=
  l.all (fun q => match q with
    | some k => decide (((s.chip n).ports.get k Port.reset).seqs.length + (l.filter (fun x => x = some k)).length ≤ 8)
    | none => false)
/-- A collective in progress, issued before this one, has its tag (R317); one that an open segment still holds has not issued
(R318). -/
def State.dupTag (s : State) (n : Nat) (k : Coll) : Bool :=
  ((s.chip n).colls.takeWhile (fun q => q.id ≠ k.id)).any (fun q => q.gctx = k.gctx && q.tag = k.tag &&
    !(s.ctx q.who).closing.any (fun e => e.id = q.id))
/-- A collective stands at the head of its queue after every earlier access of its context. -/
def State.collAtHead (s : State) (k : Coll) : Bool :=
  (s.ctx k.who).eHead.any (fun e => e.id = k.id) && k.phase = 0 && s.released k.who k.cmd.po 5
/-- Another VF's collective that requests the last free context of a port in this cycle: it could take its contexts too (R314). -/
def State.portRivals (s : State) (n : Nat) (k : Coll) (port : Nat) : List Coll :=
  (s.chip n).colls.filter (fun q =>
    let ps := collPorts s n q.d
    q.id ≠ k.id && s.gcVf n q.gctx ≠ s.gcVf n k.gctx && s.collAtHead q && !q.bad && !q.d.tree && !s.dupTag n q &&
      ps.contains (some port) && portsFree s n ps && ((s.chip n).ports.get port Port.reset).seqs.length = 7)
/-- Such a collective stands at or after the pointer before this one. -/
def State.loses (s : State) (n : Nat) (k : Coll) (l : List (Option Nat)) : Bool :=
  l.any (fun x => match x with
    | some p =>
      let r := (s.chip n).ports.get p Port.reset
      (s.portRivals n k p).any (fun q => decide ((s.gcVf n q.gctx + 126 - r.ptr) % 126 < (s.gcVf n k.gctx + 126 - r.ptr) % 126))
    | none => false)
/-- The member takes its ports; the pointer of one whose last context it takes from a rival moves past its VF. -/
def takePorts (s : State) (n : Nat) (k : Coll) (l : List (Option Nat)) : State :=
  l.foldl (fun t x => match x with
    | some p => countPort t n p (fun r => { r with seqs := r.seqs ++ [k.id], ptr := if (s.portRivals n k p).isEmpty then r.ptr else (s.gcVf n k.gctx + 1) % 126 })
    | none => t) s
/-- COLL_CONTEXT_TAKE: collective `id` at the head of its queue, after every earlier access of its context (R318). -/
def execCollContextTake (s : State) : Out :=
  let n := s.sel.who.chip
  match s.theColl with
  | none => .fault .notEnabled
  | some k =>
    let s1 := clearHead s k.who
    let d := k.d
    let ps := collPorts s n d
    if (s.ctx k.who).eHead.any (fun e => e.id = k.id) && k.phase = 0 && s.dupTag n k then .next (collDone s1 n k 6)
    else if !s.collAtHead k then .fault .notEnabled
    else if k.bad then .next (updColl s1 n k.id (fun q => { q with phase := 1, status := 3 }))
    else if d.tree then .next (updColl s1 n k.id (fun q => { q with phase := 1 }))
    else if portsFree s n ps && !s.loses n k ps then
      .next (takePorts (updColl s1 n k.id (fun q => { q with phase := 1, ports := ps.filterMap id })) n k ps)
    else if d.waitq then .fault .notEnabled
    else .next (updColl s1 n k.id (fun q => { q with phase := 1, status := 1 }))

/-! ## COLL_START_FLIT, COLL_GO, COLL_ABORT (R315) -/

/-- The CRC-32C of a descriptor with bytes 24 to 39 as zero. -/
def Coll.crc (k : Coll) : BitVec 32 := crc32c k.common
/-- A packet that a collective's member sends to another one, under the slack of its coll (R281, R316). -/
def collSend (s : State) (k : Coll) (m : Nat) (op : AccOp) (flow : Nat) (f : Pkt → Pkt) : State :=
  let p := { cmdPkt s k.who k.cmd (s.memberOfWho k.who m) .unit op flow 4 with id := s.nextId, ord := 0 }
  sendCmd s.fresh (f p)
/-- The coordinator's decision over the status and CRC of a mesh's flits: go, or the first status that applies. -/
def decide_ (gone : Bool) (l : List (Nat × BitVec 32)) : Nat :=
  if gone then 5
  else if l.any (fun q => l.any (fun r => q.2 ≠ r.2)) then 4
  else if l.any (fun q => q.1 = 3) then 3
  else if l.any (fun q => q.1 = 1) then 1
  else 0
/-- The collective of a chip with a tag that has left its queue's head. -/
def State.taggedColl (s : State) (n g tag : Nat) : Option Coll := (s.chip n).colls.find? (fun q => q.gctx = g && q.tag = tag && 0 < q.phase)
/-- The coordinator of a collective decides once it has the flit of every member: go or abort is due to each of them, itself
last. -/
def collDecide (s : State) (n g tag : Nat) : State :=
  match s.taggedColl n g tag with
  | none => s
  | some k =>
    let fl := (s.chip n).flits.filter (fun f => f.1 = g && f.2.1 = tag)
    let mesh := k.mesh (s.nchipsOf n)
    if mesh.all (fun m => fl.any (fun f => f.2.2.1 = m)) then
      let v := decide_ (s.peerGone k) (fl.map (fun f => (f.2.2.2.1, f.2.2.2.2)))
      updColl (s.updChip n (fun c => { c with flits := c.flits.filter (fun f => !(f.1 = g && f.2.1 = tag)) })) n k.id
        (fun q => { q with tell := mesh.reverse.map (fun m => (m, v)) })
    else s
/-- The packet a step names is a control flit of a kind that its chip may take: its tag, member, status and CRC. -/
def State.theFlit (s : State) (kind : Nat) : Option (Pkt × Nat × Nat × Nat × BitVec 32) :=
  (s.thePkt.filter s.mayPerform).bind (fun p => match p.op with
    | .flit tag k m st crc => if k = kind then some (p, tag, m, st, crc) else none
    | _ => none)
/-- COLL_START_FLIT: the member of collective `id` sends its control flit to the coordinator, or packet `id` reaches it there; a
coordinator that has decided sends go or abort to the next member (R291). A member outside the mesh ends alone with BADDESC
(R327). -/
def execCollStartFlit (s : State) : Out :=
  let n := s.sel.who.chip
  match s.theColl, s.theFlit 0 with
  | some k, _ =>
    if !s.mayRequest k.who.coreId 1 then .fault .notEnabled
    else if k.phase ≠ 1 then
      (match k.tell with
       | (m, v) :: r => .next (collSend (updColl s n k.id (fun q => { q with tell := r })) k m (.flit k.tag (if v = 0 then 1 else 2) m v 0) flitFlow id)
       | [] => .fault .notEnabled)
    else
      let s1 := updColl s n k.id (fun q => { q with phase := 2 })
      if !(k.mesh (s.nchipsOf n)).contains k.member then .next (updColl s1 n k.id (fun q => { q with decision := some 3 }))
      else .next (collSend s1 k k.d.mbase (.flit k.tag 0 k.member k.status k.crc) flitFlow id)
  | none, some (p, tag, m, st, crc) =>
    let s1 := s.updChip p.dst (fun c => { c with flits := c.flits ++ [(p.gctx, tag, m, st, crc)] })
    .next (collDecide (answer s1 p) p.dst p.gctx tag)
  | none, none => .fault .notEnabled

/-- Where a step reads: the source at the first, the destination after it. -/
def Coll.readAt (k : Coll) (step : Nat) : Nat := if step = 0 then k.d.src else k.d.dst
/-- Elements a member reads for a step. -/
def Coll.count (k : Coll) (step : Nat) : Nat := heldCount (k.d.held (k.d.holdsAt step) k.me)
/-- The members of the line of a step that a collective's member belongs to, by coordinate. -/
def Coll.line (k : Coll) (axis : Nat) : List Nat :=
  (upTo (k.d.ax axis)).map (fun j => k.d.memberAt (k.me.set axis j))
/-- The inputs of a line are complete: the outputs of its members are formed. -/
def formLine (s : State) (k : Coll) (step : Nat) : State :=
  match (plan k.d)[step]? with
  | none => s
  | some st =>
    let ps := (k.line st.axis).map (fun m => s.peerColl k m)
    if ps.all (fun p => p.any (fun q => q.2.ins.any (fun i => i.1 = step))) then
      let l := ps.filterMap id
      let cs := l.map (fun q => q.2.me)
      let outs := lineStep k.d (k.key step) st (k.d.holdsAt step) cs (l.map (fun q => q.2.ovt)) (l.map (fun q => q.2.ins.get step []))
      let bads := lineBad k.d st (k.d.holdsAt step) cs (l.map (fun q => q.2.inBad.get step []))
      let sent := cs.mapIdx (fun c me => (stepBlocks k.d (k.key step) st (k.d.holdsAt step) me).map
        (blockData k.d (k.key step) st (k.d.holdsAt step) cs (l.map (fun q => q.2.ovt)) (l.map (fun q => q.2.ins.get step [])) c))
      (l.zip (outs.zip (bads.zip sent))).foldl (fun s q => updColl s q.1.1 q.1.2.id (fun c =>
        { c with outs := c.outs.set step q.2.1, outBad := c.outBad.set step q.2.2.1, sends := c.sends.set step q.2.2.2 })) s
    else s
/-- Elements as bytes, with their poison. -/
def elemBytes (d : CDesc) (l : List Nat) (bad : List Bool) : List (Byte × Bool) :=
  (bytesOf (packElems (8 * d.esz) l) (l.length * d.esz)).mapIdx (fun i b => (b, bad.getD (i / d.esz) false))
/-- What a member has after a step: its elements, poisoned where their bytes were or where a chunk came poisoned. -/
def Coll.whole (k : Coll) (step : Nat) : List (Byte × Bool) :=
  let sick := k.sick.contains step
  elemBytes k.d ((k.outs.get step ([], 0)).1.map (·.1)) ((k.outBad.get step []).map (fun b => b || sick))
/-- What it writes to DST: of an output larger than the destination shard, which a later step shrinks, the part that fits there;
the sequencer keeps the rest (DESIGN CHOICE, log 27: R309 says that each intermediate shard fits). -/
def Coll.output (k : Coll) : List (Byte × Bool) := (k.whole k.step).take (k.d.bytes k.d.dlay)
/-- A member reads its input of a step, marked as its last output was; bytes of the source that have been read ahead stand as
they were read (R318), and so do those of an output that DST does not hold. -/
def readInput (s : State) (k : Coll) (step : Nat) (marks : List Bool) : State :=
  let d := k.d
  let cnt := k.count step
  let n := k.who.chip
  let a := k.readAt step
  let len := if step = 0 then cnt * d.esz else min (cnt * d.esz) (d.bytes d.dlay)
  let s1 := s.vaTouches n k.gctx k.who false a len
  let b := (s1.vaMarked n k.gctx a len).mapIdx (fun i x => if step = 0 then ((k.taken.find? (fun q => q.1 = i)).map (·.2)).getD x else x) ++
    (if step = 0 then [] else (k.whole (step - 1)).drop len)
  let l := (elemsOf (ofBytes (b.map (·.1))) cnt (8 * d.esz)).mapIdx (fun i x => (x, marks.getD i false))
  let bad := (upTo cnt).map (fun i => ((b.drop (i * d.esz)).take d.esz).any (·.2))
  formLine (updColl s1 n k.id (fun q => { q with step := step, sub := 0, told := 0, ins := q.ins.set step l, inBad := q.inBad.set step bad })) k step
/-- Byte i of the source shard of a collective that has left its queue's head is read ahead of the others: a write before
completion leaves each byte old or new (R318). -/
def takeSrc (s : State) (k : Coll) (i : Nat) : Out :=
  let a := k.d.src + i
  if k.phase = 0 || 3 ≤ k.phase || k.bad || k.count 0 * k.d.esz ≤ i || k.taken.any (fun q => q.1 = i) || (s.rangeMeets k.who.chip k.gctx a 1 false).isSome then
    .fault .notEnabled
  else
    unitGate s (s.vaLines k.who.chip k.gctx a 1) <|
      let s1 := s.vaTouches k.who.chip k.gctx k.who false a 1
      .next (updColl s1 k.who.chip k.id (fun q => { q with taken := (s1.vaMarked k.who.chip k.gctx a 1).map (fun x => (i, x)) ++ q.taken }))
/-- A range that a member needs: what stands in its way, once for each page, or the use of it. A page that is absent or waits for
its dirty record holds it; one that cannot be used raises its cause, and is then passed over (R317, R369, R411, R436; log 51).
-/
def collPages (s : State) (k : Coll) (a len : Nat) (wr : Bool) (go : Out) : Out :=
  let n := k.who.chip
  let once := fun (m : Nat) (va : Nat) (code : BitVec 8) (f : FreezeCause) =>
    if k.told = m then Host.Outcome.fault Fault.notEnabled
    else Host.Outcome.next (lateFor (updColl s n k.id (fun q => { q with told := m })) k.who code (memInfo 10 0 va) 0 f)
  match s.rangeMeets n k.gctx a len (decide (2 ^ 20 ≤ k.told)) with
  | some (va, code, .absent t e p) => once (pageMark e p) va code (.absent t e p)
  | some (va, code, f) => once (badMark code) va code f
  | none =>
    match (if wr then s.rangeClean n k.gctx a len else none) with
    | some (t, e, p) => if s.dirtyAsked t k.gctx e p then .fault .notEnabled else .next (askDirty s t k.gctx k.who e p)
    | none => unitGate s (s.vaLines n k.gctx a len) go
/-- COLL_GO: go reaches its member as packet `id`, or the member of collective `id`, which has it, reads its source shard; with
operand value i + 1 it reads byte i ahead of the others. -/
def execCollGo (s : State) : Out :=
  match s.theColl, s.theFlit 1 with
  | some k, _ =>
    if s.sel.val ≠ 0 then takeSrc s k (s.sel.val.toNat - 1)
    else if k.phase = 2 && k.decision = some 0 then
      collPages s k (k.readAt 0) (k.count 0 * k.d.esz) false
        (.next (readInput (updColl s k.who.chip k.id (fun q => { q with phase := 3 })) { k with phase := 3 } 0 []))
    else .fault .notEnabled
  | none, some (p, tag, _) =>
    let s1 := match s.taggedColl p.dst p.gctx tag with
      | some k => updColl s p.dst k.id (fun q => { q with decision := some 0 })
      | none => s
    .next (answer s1 p)
  | none, none => .fault .notEnabled
/-- COLL_ABORT: abort reaches its member as packet `id`, or the member of collective `id` has ended alone. -/
def execCollAbort (s : State) : Out :=
  match s.theColl, s.theFlit 2 with
  | some k, _ =>
    (match k.decision with
     | some v => if k.phase = 2 && v ≠ 0 then .next (collDone s s.sel.who.chip k v) else .fault .notEnabled
     | none => .fault .notEnabled)
  | none, some (p, tag, _, v, _) =>
    let s1 := match s.taggedColl p.dst p.gctx tag with
      | some k => collDone s p.dst k v
      | none => s
    .next (answer s1 p)
  | none, none => .fault .notEnabled

/-! ## COLL_CHUNK, COLL_COMPLETE (R309, R316, R317) -/

/-- A chunk: its block and the block's number, its place in it and its bytes. -/
structure Cut where
  block : Block
  num : Nat
  off : Nat
  len : Nat
  deriving DecidableEq, Repr
/-- The chunks of a step's blocks in order. -/
def stepCuts (d : CDesc) (l : List Block) : List Cut :=
  l.zipIdx.flatMap (fun q => (d.cuts q.1.bytes).mapIdx (fun i x => Cut.mk q.1 q.2 (i * d.chunk) x))
/-- The bytes of a chunk. -/
def Coll.cutBytes (k : Coll) (c : Cut) : List Byte := (upTo c.len).map (fun i => ((k.sends.get k.step []).getD c.num []).getD (c.off + i) 0)
/-- Chunk i of a step leaves, as packets of up to 256 bytes, through the port that its member has taken for it, or in the chip's own
flow on a tree (R311, R315, R316). -/
def sendChunk (s : State) (k : Coll) (st : PStep) (i : Nat) (c : Cut) : State :=
  let d := k.d
  let port := if d.tree then none else k.ports[i % d.nport]?
  let m := d.memberAt (k.me.set st.axis c.block.dest)
  let sick := k.sick.contains k.step
  let b := k.cutBytes c
  let np := packetsOf c.len
  let s1 := (upTo np).foldl (fun s j =>
    collSend s k m (.chunk k.tag k.step ((b.drop (256 * j)).take 256)) (if d.tree then treeFlow else chunkFlow)
      (fun p => { p with via := port, poison := sick })) s
  updColl s1 k.who.chip k.id (fun q => { q with sub := q.sub + 1, chunks := q.chunks + 1, owed := q.owed + np })
/-- Byte i of a member's output is written ahead of the others: a read of DST before completion returns each byte old,
intermediate or final (R318). -/
def putDst (s : State) (k : Coll) (b : List (Byte × Bool)) (i : Nat) : Out :=
  match b[i]? with
  | some x => collPages s k (k.d.dst + i) 1 true (.next (vaWrite s k.who.chip k.gctx k.who (k.d.dst + i) [x]))
  | none => .fault .notEnabled
/-- A packet of a chunk has come (R316). -/
def chunkComes (s : State) (p : Pkt) (tag step : Nat) : State :=
  match s.taggedColl p.dst p.gctx tag with
  | some k => updColl s p.dst k.id (fun q => { q with got := q.got.set step (q.got.get step 0 + 1), sick := if p.poison then step :: q.sick else q.sick })
  | none => s
/-- COLL_CHUNK: the member of collective `id` sends its next chunk of the step; after the last, and after every chunk that comes
to it, its output is written to DST and it reads the next step's input. With operand value i + 1 byte i of the output is written
ahead of the others. Packet `id` of a chunk is taken at the member it goes to. -/
def execCollChunk (s : State) : Out :=
  match s.theColl, s.thePkt.filter s.mayPerform with
  | some k, _ =>
    let n := k.who.chip
    let d := k.d
    (match (plan d)[k.step]?, k.outs.find? (fun o => o.1 = k.step) with
     | some st, some (_, out) =>
       if k.phase ≠ 3 || s.peerGone k then .fault .notEnabled
       else if s.sel.val ≠ 0 then putDst s k k.output (s.sel.val.toNat - 1)
       else
         let h := d.holdsAt k.step
         let got := k.got.get k.step 0
         match (stepCuts d (stepBlocks d (k.key k.step) st h k.me))[k.sub]? with
         | some c =>
           if got < stepNeeds d (k.key k.step) st h k.me c.block || !s.mayRequest k.who.coreId (packetsOf c.len) then .fault .notEnabled
           else .next (sendChunk s k st k.sub c)
         | none =>
           if got < stepComes d (k.key k.step) st h k.me (fun _ _ => true) then .fault .notEnabled
           else
             collPages s k d.dst k.output.length true
               (let s1 := (vaWrite s n k.gctx k.who d.dst k.output).updCtx k.who (fun c => c.setFlags (s.clkOf k.who) 0 out.2)
                .next (readInput s1 k (k.step + 1) (out.1.map (·.2))))
     | _, _ => .fault .notEnabled)
  | none, some p => (match p.op with | .chunk tag step _ => .next (answer (chunkComes s p tag step) p) | _ => .fault .notEnabled)
  | none, none => .fault .notEnabled
/-- COLL_COMPLETE: the member's part of collective `id` ends: after its last step and the acknowledgement of every chunk it sent,
or by the reset of a peer, which leaves every byte of DST undefined. A plan without steps copies the source. -/
def execCollComplete (s : State) : Out :=
  match s.theColl with
  | none => .fault .notEnabled
  | some k =>
    let n := k.who.chip
    let d := k.d
    if s.peerGone k && 1 ≤ k.phase && k.tell = [] && k.decision.all (fun v => v = 0) then
      let b := (upTo (d.bytes d.dlay)).map (fun i => (Config.undefByte s.free (316 + i), false))
      .next (collDone (if k.phase = 3 then vaWrite s n k.gctx k.who d.dst b else s) n k 5)
    else if k.phase = 3 && k.step = (plan d).length && k.owed = 0 then
      let l := k.ins.get k.step []
      if (plan d).isEmpty then
        let b := elemBytes d (l.map (·.1)) (k.inBad.get k.step [])
        if s.sel.val ≠ 0 then putDst s k b (s.sel.val.toNat - 1)
        else collPages s k d.dst b.length true (.next (collDone (vaWrite s n k.gctx k.who d.dst b) n k 0))
      else if s.sel.val ≠ 0 then .fault .notEnabled
      else .next (collDone s n k (if l.any (·.2) then 2 else 0))
    else .fault .notEnabled

end Sys2Proof.Machine
end

