-- ==== Sys2Proof/Machine/Launch.lean ====
section
/-! DEFINITION. Sys2Proof/Machine/Launch.lean: rings in host memory, two-stage translation, the checks of a launch, the
start and the end of a kernel on a member (spec/09 R222, R223, spec/18 R353 to R367). -/

namespace Sys2Proof.Machine

/-! ## Rings in host memory (R353, R365): base, control, device count and host count at +0, +8, +0x10, +0x18 -/

/-- The host port of a function: 63 VFs to a port (R429). -/
def portOfFn (f : Nat) : Nat := (f - 1) / 63
/-- The host link of a function is up. -/
def State.fnUp (s : State) (n f : Nat) : Bool := (s.chip n).hostUp.getLsbD (portOfFn f)
/-- Ring control: enabled, size, vector. -/
def State.ringEn (s : State) (n f off : Nat) : Bool := (s.bar n f (off + 8)).getLsbD 7
def State.ringSize (s : State) (n f off : Nat) : Nat := 2 ^ natFld (s.barN n f (off + 8)) 0 5
def State.ringVec (s : State) (n f off : Nat) : Nat := natFld (s.barN n f (off + 8)) 8 8
/-- A ring that the device writes has room. -/
def State.ringRoom (s : State) (n f off : Nat) : Bool :=
  s.ringEn n f off && s.fnUp n f && decide ((s.barN n f (off + 0x10) + 2 ^ 32 - s.barN n f (off + 0x18)) % 2 ^ 32 < s.ringSize n f off)
/-- An interrupt of a function. -/
def signal (s : State) (n f vec : Nat) : State := s.updChip n (fun c => { c with msix := c.msix ++ [(f, vec)] })
/-- Write one record of a ring: its slot, the count, the interrupt. -/
def ringPut (s : State) (n f off : Nat) (b : List Byte) : State :=
  let prod := s.barN n f (off + 0x10)
  let a := s.barN n f off / 4096 * 4096 + prod % s.ringSize n f off * b.length
  signal ((s.poke (hostKey n (portOfFn f) a) b).setBarN n f (off + 0x10) ((prod + 1) % 2 ^ 32)) n f (s.ringVec n f off)

/-! ## Fault records (R364, R365) -/

/-- The 32 bytes of a fault record. -/
def FaultRec.bytes (r : FaultRec) : List Byte :=
  bytesOf r.info.toNat 8 ++ bytesOf r.pc.toNat 8 ++ bytesOf r.code.toNat 1 ++ bytesOf r.lstat 1 ++ bytesOf r.count 2 ++
    bytesOf r.who 2 ++ bytesOf r.gctx 2 ++ bytesOf r.hcode 1 ++ bytesOf 0 7
/-- A hypervisor record of a VF for one of its gang contexts. -/
def hyperRec (vf g hcode gpa : Nat) : FaultRec :=
  { info := BitVec.ofNat 64 gpa, pc := 0, code := 0, lstat := 0, count := 1, who := vf, gctx := g, hcode := hcode, terminal := false, kern := 0 }
/-- A hypervisor record filed. -/
def fileHyper (s : State) (n : Nat) (r : FaultRec) : State := s.updChip n (fun c => { c with hpending := c.hpending ++ [r] })

/-! ## The stage-two map (R366, R367) -/

/-- The state of a frame. -/
def State.frame (s : State) (n f : Nat) : Frame := (s.chip n).frames.get f .free
/-- A stage-two entry of a VF: frame and domain, none when it is not VALID or has a reserved bit set. -/
def State.stage2 (s : State) (n vf gpa : Nat) : Option (Nat × Nat) :=
  if 2 ^ 40 ≤ gpa then none
  else
    let e := ofBytes (s.peek (hbmKey n (natFld (s.barN n 0 (vfBlock vf + 8)) 12 28 * 4096 + gpa / 2 ^ 28 * 8)) 8)
    if natFld e 0 1 = 0 || natFld e 40 24 ≠ 0 || natFld e 7 21 ≠ 0 then none else some (natFld e 28 12, natFld e 1 6)
/-- The DPA of a guest-physical address, when its entry is usable (R366). -/
def State.gpaDpa (s : State) (n vf gpa : Nat) : Option Nat :=
  match s.stage2 n vf gpa with
  | some (f, _) => if s.frame n f = .assigned vf then some (f * 2 ^ 28 + gpa % 2 ^ 28) else none
  | none => none
/-- Bytes of the guest-physical space, which ends at 2^40; none when some entry is not usable, and none, DESIGN CHOICE (log 45), when
a byte would come with poison (R244). -/
def State.gpaRead (s : State) (n vf gpa len : Nat) : Option (List Byte) :=
  if 2 ^ 40 < gpa + len then none
  else
    (vaPieces gpa len).foldl (fun a p =>
      match a, s.gpaDpa n vf p.1 with
      | some b, some d => if s.badAt n d p.2 then none else some (b ++ s.peek (hbmKey n d) p.2)
      | _, _ => none) (some [])

/-- An entry as the stage-one list holds it (R361). -/
def readEntry (b : List Byte) : XEntry :=
  let v := ofBytes b
  { kind := natFld v 0 3, r := v.testBit 3, w := v.testBit 4, x := v.testBit 5, dlog := v.testBit 6, hport := natFld v 7 1,
    domain := natFld v 8 6, member := natFld v 14 10, base := natFld v 64 64, absent := BitVec.ofNat 128 (natFld v 128 128),
    gbase := natFld v 64 64 }
/-- A reserved field or code of a stage-one entry is non-zero (R361, R367). -/
def entryBad (b : List Byte) : Bool :=
  let e := readEntry b
  let v := ofBytes b
  natFld v 24 40 ≠ 0 || 5 ≤ e.kind || (e.kind ≠ 3 && e.hport ≠ 0) || (e.kind ≠ 2 && e.member ≠ 0) ||
    (e.kind = 3 && e.domain ≠ 0) || (e.kind ≠ 1 && e.kind ≠ 4 && e.dlog) ||
    ((e.kind = 1 || e.kind = 4) && e.base % 2 ^ 28 ≠ 0) || (e.kind = 3 && e.base % 2 ^ 21 ≠ 0) || (e.kind = 2 && 4096 ≤ e.base)
/-- What the walk of one entry gives: the device's entry, BADENTRY, or a hypervisor code and address. -/
inductive WalkRes where
  | ok (e : XEntry)
  | bad
  | fault (hcode gpa : Nat)
  deriving DecidableEq, Repr
/-- The walk of one stage-one entry at a guest-physical address (R367). -/
def State.walkOne (s : State) (n vf gpa : Nat) : WalkRes :=
  match s.gpaRead n vf gpa 32 with
  | none => .fault 1 gpa
  | some b =>
    let e := readEntry b
    if e.kind = 1 || e.kind = 4 then
      match s.stage2 n vf e.base with
      | none => .fault 2 gpa
      | some (f, d) =>
        if s.frame n f ≠ .assigned vf then .fault 4 gpa
        else if d ≠ e.domain then .fault 3 gpa
        else if entryBad b then .bad
        else .ok { e with base := f * 2 ^ 28 }
    else if entryBad b then .bad else .ok e
/-- The hypervisor records of a walk. -/
def walkFaults (vf g : Nat) (l : List WalkRes) : List FaultRec :=
  l.filterMap (fun r => match r with | .fault h a => some (hyperRec vf g h a) | _ => none)
/-- The status of a walk: of its first entry that failed (R368). -/
def walkStatus (l : List WalkRes) : Nat :=
  match l.find? (fun r => match r with | .ok _ => false | _ => true) with
  | some (.fault _ _) => 1 | some .bad => 2 | _ => 0
/-! ## Freezes that resolve (R126, R362, R363, R368) -/

/-- A Frozen context returns to the state it froze from; a record that its own fault wrote is no longer VALID (R126). -/
def Ctx.thaw (c : Ctx) : Ctx :=
  if c.st = .frozen then
    { c with st := if c.from_ = .running then .ready else c.from_, freeze := .none, retry := none,
             trap := { c.trap with valid := c.trap.valid && !(c.retry.isSome && c.trap.retry) } }
  else c
/-- Every context of a gang context whose freeze meets a test resumes; a saved one does at its restore. -/
def thawWhere (s : State) (g : Nat) (p : FreezeCause → Bool) : State :=
  { s with ctxs := s.ctxs.map (fun q => if q.2.st = .frozen && p q.2.freeze && s.gctxOf q.1.chip = g then (q.1, q.2.thaw) else q),
           chips := s.chips.map (fun h => (h.1, { h.2 with gangs := h.2.gangs.map (fun k =>
             if k.1 = g then (k.1, { k.2 with savedCtx := k.2.savedCtx.map (fun q =>
               if q.2.st = .frozen && p q.2.freeze then (q.1, { q.2 with freeze := .none, retry := none }) else q) }) else k) })) }
/-- The absent bit of a page of a gang context's table. -/
def State.pageAbsent (s : State) (n g ext page : Nat) : Bool := (s.xentry n g ext).absent.getLsbD page
/-- Contexts frozen on a page that is absent no longer resume, and requests held for one are looked up again (R362, R363,
R368). -/
def resumePages (s : State) (n g : Nat) : State :=
  let s1 := thawWhere s g (fun f => match f with | .absent m ext page => m = n && !s.pageAbsent n g ext page | _ => false)
  let absentAt := fun (va : Nat) => s.pageAbsent n g (va / 2 ^ 28 % 4096) (natFld va 21 7)
  { s1 with pkts := s1.pkts.map (fun p =>
      if p.stage = .absent ∧ p.dst = n ∧ p.gctx = g ∧ !absentAt p.tva ∧ !absentAt (p.tva + (p.payload.length - 1)) then { p with stage := .target, since := s.now } else p) }
/-- Entries installed from an extent on; their dirty bits are clear (R367, R369), and a page that is absent no longer resumes
what waited for it. -/
def installWalk (s : State) (n g ext : Nat) (l : List WalkRes) : State :=
  resumePages (s.updGang n g (fun k =>
    { k with loaded := true,
             xlat := (l.zipIdx).foldl (fun m q => match q.1 with | .ok e => m.set (ext + q.2) e | _ => m) k.xlat,
             dirty := k.dirty.filter (fun d => d.1 < ext || ext + l.length ≤ d.1) })) n g
/-- A walk carried out: its records, and, when none failed, its entries. -/
def walkApply (s : State) (n vf g ext : Nat) (l : List WalkRes) : State :=
  let s1 := (walkFaults vf g l).foldl (fun s r => fileHyper s n r) s
  if walkStatus l = 0 then installWalk s1 n g ext l else s1
/-- The walk of a whole list (R361). -/
def State.walkAll (s : State) (n vf list : Nat) : List WalkRes := (upTo 4096).map (fun i => s.walkOne n vf (list + 32 * i))

/-! ## Completion records (R359) -/

/-- The 64 bytes of a completion record. -/
def completion (tag status member dtask darr drev tfaults cycles : Nat) : List Byte :=
  let c := fun (v : Nat) => bytesOf (min v (2 ^ 32 - 1)) 4
  bytesOf tag 8 ++ bytesOf status 1 ++ bytesOf 0 1 ++ bytesOf member 2 ++ c dtask ++ c darr ++ c drev ++ c tfaults ++
    bytesOf 0 4 ++ bytesOf cycles 8 ++ bytesOf 0 24
/-- A completion record written, and the queue's interrupt when IRQ is 1. -/
def putCompletion (s : State) (n vf q crec : Nat) (irq : Bool) (b : List Byte) : State :=
  let s1 := s.poke (hostKey n (portOfFn (vf + 1)) (crec / 64 * 64)) b
  if irq then signal s1 n (vf + 1) (s.ringVec n (vf + 1) (0x20 * q)) else s1

/-! ## The launch record and the header (R354 to R357) -/

/-- XTOP or the EA operand of a translation record breaks R354: a reserved mode, VAL outside MODE 2, bits of IMM19 or an
address that the mode does not use (R368). -/
def xtopBad (b : List Byte) : Bool :=
  let x := fieldAt b 40 8
  let imm := natFld x 3 19
  natFld x 22 42 ≠ 0 ||
    (match natFld x 0 2 with
     | 0 => x.testBit 2 || imm ≠ 0
     | 1 => x.testBit 2 || 4096 ≤ imm
     | 2 => fieldAt b 0 8 ≠ 0
     | _ => true)
/-- A record of a launch queue breaks R354. -/
def recordBad (s : State) (n vf : Nat) (b : List Byte) : Bool :=
  let g := fieldAt b 16 2
  let fl := fieldAt b 22 2
  let kind := natFld fl 2 2
  fieldAt b 48 16 ≠ 0 || natFld fl 4 12 ≠ 0 || 2 ≤ kind || (kind = 1 && xtopBad b) ||
    256 ≤ g || natFld (s.gcCtl n g) 0 1 = 0 || s.gcVf n g ≠ vf || fieldAt b 20 2 ≤ fieldAt b 18 2 ||
    (natFld fl 0 1 = 1 && !s.supok n vf)
/-- The header breaks step 3 of R357. -/
def headerBad (h : List Byte) : Bool :=
  let entry := fieldAt h 8 4
  let code := fieldAt h 12 4
  fieldAt h 0 4 ≠ 0x4B375A47 || fieldAt h 4 2 ≠ 1 || fieldAt h 6 2 ≠ 512 || entry % 4 ≠ 0 || entry < 512 || 512 + code ≤ entry ||
    code % 4 ≠ 0 || fieldAt h 16 4 < 512 + code || natFld (fieldAt h 28 4) 3 29 ≠ 0 || natFld (fieldAt h 48 1) 3 5 ≠ 0 ||
    natFld (fieldAt h 49 1) 4 4 ≠ 0 || natFld (fieldAt h 50 2) 12 4 ≠ 0 || 16 < fieldAt h 54 1 ||
    fieldAt h 26 2 ≠ 0 || fieldAt h 55 1 ≠ 0 || fieldAt h 96 160 ≠ 0 || fieldAt h (256 + 16 * fieldAt h 54 1) (256 - 16 * fieldAt h 54 1) ≠ 0
/-- The scratchpad limit of a header (R239). -/
def headerLimit (h : List Byte) : Int := 4194304 - 32768 * (fieldAt h 24 1 : Int) - 65536 * (fieldAt h 25 1 : Int)
/-- The header breaks step 4 (R239). -/
def partBad (h : List Byte) : Bool :=
  let t := fieldAt h 24 1
  t % 2 = 1 || 64 < t || 16 < fieldAt h 25 1 || headerLimit h < 65536 || headerLimit h < fieldAt h 20 4
/-- The regions of a header (R257). -/
def headerRegions (h : List Byte) : List Region :=
  (upTo (fieldAt h 54 1)).map (fun i =>
    let b := 256 + 16 * i
    { base := fieldAt h b 8, size := fieldAt h (b + 8) 4 * 256, fmt := BitVec.ofNat 4 (fieldAt h (b + 12) 1),
      merge := fieldAt h (b + 13) 1, esz := fieldAt h (b + 14) 1 })
/-- The merge type accepts the format (R258). -/
def mergeTakes (merge : Nat) (f : BitVec 4) : Bool :=
  match merge with
  | 3 | 4 | 5 => !isFloatFmt f || f = 0
  | 7 => f = 6 || f = 7
  | _ => true
/-- One region breaks R257; `kind4` tells that an extent is of revision kind. -/
def regionBad (h : List Byte) (i : Nat) (r : Region) (kind4 : Nat → Bool) : Bool :=
  let b := 256 + 16 * i
  2 ^ 40 ≤ r.base || r.base % 256 ≠ 0 || r.size = 0 || 15 ≤ fieldAt h (b + 12) 1 || r.fmt = 13 || 8 ≤ r.merge || 4 ≤ r.esz ||
    fieldAt h (b + 15) 1 ≠ 0 || fmtBits r.fmt ≠ 8 * 2 ^ r.esz || !mergeTakes r.merge r.fmt || 2 ^ 40 < r.base + r.size ||
    (extentsOf r.base r.size).any (fun e => !kind4 e)
/-- The region table breaks R257. -/
def regionsBad (h : List Byte) (kind4 : Nat → Bool) : Bool :=
  let l := (headerRegions h).zipIdx
  l.any (fun q => regionBad h q.2 q.1 kind4) ||
    l.any (fun q => l.any (fun t => q.2 < t.2 && q.1.base < t.1.base + t.1.size && t.1.base < q.1.base + q.1.size))
/-- The rings of an eager table (R320). -/
def readRings (b : List Byte) : List Ring :=
  (upTo (fieldAt b 0 4)).map (fun i =>
    let o := 4 + 32 * i
    let sl := fieldAt b (o + 2) 1
    let x := fieldAt b (o + 3) 1
    let rl := fieldAt b (o + 6) 1
    { smem := fieldAt b o 2, sclus := natFld sl 0 5, score := natFld sl 5 3, sctx := natFld x 0 2, rctx := natFld x 2 2,
      hcc := natFld x 4 4, rmem := fieldAt b (o + 4) 2, rclus := natFld rl 0 5, rcore := natFld rl 5 3, base := fieldAt b (o + 8) 8,
      slotsz := fieldAt b (o + 16) 2, nslot := fieldAt b (o + 18) 2 })
/-- One ring breaks R320; `dpa` tells that an extent of the receiver, when it is this member, is of local DPA kind (R322). -/
def ringBad (s : State) (n g nch me : Nat) (dpa : Nat → Bool) (b : List Byte) (i : Nat) (r : Ring) : Bool :=
  let o := 4 + 32 * i
  fieldAt b (o + 7) 1 ≠ 0 || fieldAt b (o + 20) 12 ≠ 0 || r.base % 64 ≠ 0 || 2 ^ 40 ≤ r.base || r.slotsz = 0 || 64 < r.slotsz ||
    r.nslot = 0 || 1024 < r.nslot || nch ≤ r.smem || nch ≤ r.rmem ||
    !s.isLogical (s.memberChip n g r.smem) r.sclus r.score || !s.isLogical (s.memberChip n g r.rmem) r.rclus r.rcore ||
    (r.rmem = me && !dpa (r.base / 2 ^ 28))
/-- The table breaks step 7: its place, then its entries. -/
def ringsBad (s : State) (n g nch me : Nat) (dpa : Nat → Bool) (off dataSz : Nat) (tbl : List Byte) : Bool :=
  let k := fieldAt tbl 0 4
  dataSz < off + 4 || 32 < k || dataSz < off + 4 + 32 * k || ((readRings tbl).zipIdx).any (fun q => ringBad s n g nch me dpa tbl q.2 q.1)

/-- What the checks of a launch read: header, flow table and eager table through the stage-two map, and the walk. -/
structure LaunchRead where
  hdr : Option (List Byte)
  flows : Option (List Byte)
  rings : Option (List Byte)
  walk : List WalkRes
  deriving DecidableEq, Repr
/-- What a launch record leads to. -/
def State.launchRead (s : State) (n vf : Nat) (b : List Byte) : LaunchRead :=
  let img := fieldAt b 0 8
  match s.gpaRead n vf img 512 with
  | none => { hdr := none, flows := none, rings := none, walk := [] }
  | some h =>
    let at_ := fun (off len : Nat) => s.gpaRead n vf (img + fieldAt h 16 4 + off) len
    let off := fieldAt h 60 4
    -- the count alone, when it is beyond 32 or its rings do not lie within the data image
    let rings := (at_ off 4).bind (fun b =>
      let k := fieldAt b 0 4
      if 32 < k ∨ fieldAt h 20 4 < off + 4 + 32 * k then some b else at_ off (4 + 32 * k))
    { hdr := some h, flows := at_ (fieldAt h 56 4) 256, rings := rings,
      walk := s.walkAll n vf (if fieldAt b 8 8 = 0 then fieldAt h 64 8 else fieldAt b 8 8) }
/-- An extent is of a kind as the list has it; one that could not be read is judged by the walk. -/
def LaunchRead.ofKind (r : LaunchRead) (k e : Nat) : Bool :=
  match (r.walk[e]? : Option WalkRes) with | some (.ok x) => x.kind = k | some _ => true | none => false
/-- Entry 0 maps the image (step 9). -/
def LaunchRead.entry0 (r : LaunchRead) (img : Nat) : Bool :=
  match (r.walk[0]? : Option WalkRes) with | some (.ok x) => x.kind = 1 && x.r && x.x && x.gbase = img | _ => false
/-- The first check of steps 1 to 7 that fails: its status (R357, R359). -/
def State.launchFirst (s : State) (n vf : Nat) (b : List Byte) : Nat :=
  if recordBad s n vf b then 1
  else
    let r := s.launchRead n vf b
    match r.hdr with
    | none => 7
    | some h =>
      let fl := fieldAt h 28 4
      let dataSz := fieldAt h 20 4
      if headerBad h then 2
      else if partBad h then 3
      else if regionsBad h (r.ofKind 4) then 4
      else if fl.testBit 1 && dataSz < fieldAt h 56 4 + 256 then 5
      else if fl.testBit 1 && r.flows.isNone then 5
      else if fl.testBit 1 && (r.flows.getD []).any (fun v => 4 ≤ v.toNat) then 5
      else if fl.testBit 2 && dataSz < fieldAt h 60 4 + 4 then 6
      else if fl.testBit 2 && r.rings.isNone then 6
      else if fl.testBit 2 && ringsBad s n (fieldAt b 16 2) (fieldAt b 20 2) (fieldAt b 18 2) (r.ofKind 1) (fieldAt h 60 4) dataSz (r.rings.getD []) then 6
      else 0
/-- The first check of steps 1 to 9 that fails. -/
def State.launchStatus (s : State) (n vf : Nat) (b : List Byte) : Nat :=
  let st := s.launchFirst n vf b
  let r := s.launchRead n vf b
  if st ≠ 0 then st
  else if walkStatus r.walk ≠ 0 then 7
  else if !r.entry0 (fieldAt b 0 8) then 2
  else 0
/-- The kernel a launch record and its header give, under a number of its own. Of the addresses of the ancestor pool and of the
overflow rings the bits count that their registers have (R3, R236, R264). -/
def mkKernel (id vf q : Nat) (b h : List Byte) (flows rings : List Byte) : Kernel :=
  let fl := fieldAt h 28 4
  { id := id, vf := vf, q := q, img := fieldAt b 0 8, member := fieldAt b 18 2, nchips := fieldAt b 20 2, super := (fieldAt b 22 2).testBit 0,
    irq := (fieldAt b 22 2).testBit 1, crec := fieldAt b 24 8, tag := BitVec.ofNat 64 (fieldAt b 32 8), entry := fieldAt h 8 4,
    dataOff := fieldAt h 16 4, dataSz := fieldAt h 20 4, tiles := fieldAt h 24 1, accs := fieldAt h 25 1, noMatrix := fl.testBit 0,
    stageMap := BitVec.ofNat 128 (fieldAt h 32 16), cls := fieldAt h 48 1, aliasDef := BitVec.ofNat 4 (fieldAt h 49 1),
    slackDef := BitVec.ofNat 12 (fieldAt h 50 2), quota := fieldAt h 52 2, ovfBase := fieldAt h 88 8 / 64 * 64,
    flows := if fl.testBit 1 then flows.map (fun v => v.setWidth 2) else [], rings := if fl.testBit 2 then readRings rings else [],
    nregs := headerRegions h, ancSz := fieldAt h 72 8, ancBase := natFld (fieldAt h 80 8) 8 32 * 256, phase := 0, startClk := 0, dtask := 0, darr := 0,
    drev := 0, tfaults := 0 }

/-! ## Kernel start (R222, R358, R388) -/

/-- The logical cores of a chip. -/
def State.logicalCores (s : State) (n : Nat) : List CoreId :=
  (upTo 256).filterMap (fun i => if s.isLogical n (i / 8) (i % 8) then some ⟨n, i / 8, i % 8⟩ else none)
/-- The contexts of a core. -/
def coreCtxs (c : CoreId) : List Who := (upTo 4).map (fun x => ⟨c.chip, c.clus, c.core, x⟩)
/-- The number of a core's block in the pool save area (R388). -/
def blockNum (c : CoreId) : Nat := 8 * c.clus + c.core
/-- The key of a unit in a gang context's pool save area. -/
def State.unitKey (s : State) (n g : Nat) (c : CoreId) (u : Nat) : Nat :=
  hbmKey n (natFld (s.barN n 0 (gcBlock g + 0x28)) 12 28 * 4096 + blockNum c * 0x408000 + u * 65536)
/-- The cluster's stage. -/
def stageOf (m : BitVec 128) (clus : Nat) : Nat := natFld m.toNat (4 * clus) 4
/-- A context at kernel start: what the runtime loads stays as it is (R222). -/
def startCtx (s : State) (n g : Nat) (k : Kernel) (w : Who) : Ctx :=
  let old := (s.ctx w).csr
  let z := Ctx.reset w
  { z with
    st := .ready, from_ := .ready, pc := BitVec.ofNat 64 k.entry, noMatrix := k.noMatrix || ((s.chip n).coreMap.get w.clus CoreMap.reset).mfail,
    ids := { core := w.core, clus := w.clus, chip := k.member, stage := stageOf k.stageMap w.clus, ctx := w.ctx, gang := g,
             nchips := k.nchips, nstages := BitVec.ofNat 64 ((upTo 32).foldl (fun (a c : Nat) => max a (stageOf k.stageMap c + 1)) 1),
             ncores := ((s.chip n).coreMap.get w.clus CoreMap.reset).ncores },
    csr := { Csr.reset with
      ovt := old.ovt, winBind := old.winBind, winMax := old.winMax, winAvail := old.winMax, occLimit := old.occLimit,
      slackDef := k.slackDef, aliasDef := k.aliasDef, mode := k.super,
      ovfBase := BitVec.ofNat 64 (k.ovfBase + (32 * w.clus + 4 * w.core + w.ctx) * k.quota * 64), ovfQuota := BitVec.ofNat 16 k.quota,
      poolLimit := BitVec.ofNat 32 (4194304 - 32768 * k.tiles - 65536 * k.accs), poolAccs := BitVec.ofNat 5 k.accs,
      poolTiles := BitVec.ofNat 8 k.tiles } }
/-- Units of a core as a gang starts on it: its own stay RESIDENT, every other becomes WANTED (R388). -/
def wantUnits (g : Nat) (k : Core) : Core :=
  { k with units := (upTo 64).foldl (fun m u => let x := m.get u ⟨none, false, false⟩; m.set u { x with wanted := x.owner ≠ some g, moving := false }) k.units }
/-- A core at kernel start: no unit holds bytes of the kernel before. DESIGN CHOICE (log 55): context 0 is the first that is looked at
(`last` 3), there and after a resume; R224 gives the order after a running context alone. -/
def startCore (g : Nat) (k : Core) : Core :=
  wantUnits g { k with run := none, last := 3, mq := [], accTag := Vector.replicate 16 3, ck := [], uf := [], cur0 := none, cur1 := none,
                       spills := 0, fills := 0,
                       units := k.units.map (fun q => (q.1, { q.2 with owner := if q.2.owner = some g then none else q.2.owner })) }
/-- The initial image of one core's block (R358), its side part last: zeros there say tag 3, ck 0 and uf 0 (log 54). -/
def imageBlock (s : State) (n g : Nat) (k : Kernel) : List (Byte × Bool) :=
  let d := s.vaMarked n g k.dataOff k.dataSz
  d ++ List.replicate (4194304 + 32768 - d.length) (0, false)
/-- The collectives of a gang context on a chip end: their ports' contexts are free again (R313). -/
def dropColls (s : State) (n g : Nat) : State :=
  let l := (s.chip n).colls.filter (fun k => k.gctx = g)
  (l.foldl (fun s k => freePorts s n k.id) s).updChip n (fun c =>
    { c with colls := c.colls.filter (fun k => k.gctx ≠ g), flits := c.flits.filter (fun f => f.1 ≠ g) })
/-- What is left of an earlier kernel of the gang context on the chip goes. -/
def clearGangWork (s : State) (n g : Nat) : State :=
  dropColls { s with pkts := s.pkts.filter (fun p => p.isVote || !(p.who.chip = n && p.gctx = g)), xfers := s.xfers.filter (fun x => x.who.chip ≠ n),
                     wires := s.wires.filter (fun w => w.unit || !(w.who.chip = n && w.gctx = g)),
                     reqs := s.reqs.filter (fun q => q.who.chip ≠ n) } n g
/-- The gang state at kernel start (R222, R264, R276, R381, R385). DESIGN CHOICE (log 55): the rotating pointer of the dispatch begins
at 0; R231 does not say where. -/
def startGang (k : Kernel) (now : Nat) (q : Gang) : Gang :=
  { q with kernel := some { k with phase := 1, startClk := now }, savedCtx := [], cores := [], kept := [], nsa := [], nsaBytes := 0,
           image := [], savedStat := 0, savedRetw := [], ovf := false, poolValid := (upTo 256).flatMap (fun b => (upTo 64).map (fun u => (b, u))), tasks := [], window := [],
           waiting := [], ptr := 0, picked := [], bars := [], regions := k.nregs, revs := [], slots := [], serial := 0, joins := [],
           ancBase := k.ancBase, ancSlots := k.ancSz / 256, ancHwm := 0, expect := [], accepted := [], parts := [], sCnt := [], rCnt := [],
           commits := 0, aborts := 0, halts := 0, lreason := 0, lout := 0, peersReset := [] }
/-- The kernel of a gang context starts on a member: every context Ready at the entry point, every unit WANTED, the image in
the pool save area. -/
def startKernel (s : State) (n g : Nat) (k : Kernel) : State :=
  let s0 := (clearGangWork s n g).updGang n g (startGang k (s.cycNow n))
  let img := imageBlock s0 n g k
  (s0.logicalCores n).foldl (fun s c =>
    let u := s.unitKey n g c 0
    let s1 := ((hbmWrite s u (img.map (·.1))).poisonAt u (img.map (·.2))).updCore c (startCore g)
    (coreCtxs c).foldl (fun s w => s.setCtx w (startCtx s n g k w)) s1) s0

/-! ## Kernel end (R223, R359, R360) -/

/-- The kernel of a gang context ends on a member with a status: discarded work is counted, and the record written. What waits for a
barrier or a join is discarded (R223, R276). -/
def endKernel (s : State) (n g : Nat) (status : Nat) : State :=
  let q := s.gang n g
  match q.kernel with
  | none => s
  | some k =>
    let dtask := (q.tasks.filter (fun t => t.2.posted)).length + ((q.window ++ q.waiting).filter (fun t => t.idx.isNone)).length
    let here := (s.chip n).running = some g
    let cs := if here then (s.ctxsOf n).map s.ctx else q.savedCtx.map (·.2)
    let darr := (cs.map (fun c => c.rq.length + ((c.ring ++ c.ovfWait).filter (fun r => r.queue = 3)).length)).foldl (· + ·) 0
    let s1 := s.updGang n g (fun q =>
      { q with kernel := some { k with phase := 2, dtask := dtask, darr := darr, drev := q.revs.length }, tasks := [], window := [],
               waiting := [], picked := [], revs := [], slots := [], joins := [] })
    let s2 := if here then (s.ctxsOf n).foldl (fun s w => s.updCtx w (fun c =>
        { c with st := .halted, from_ := .halted, block := .none, freeze := .none, rq := [], ring := [], ovfWait := [] })) s1 else s1
    let s3 := { s2 with pkts := s2.pkts.filter (fun p => !(p.stage = .parked && p.who.chip = n && p.gctx = g)) }
    putCompletion s3 n k.vf k.q k.crec k.irq
      (completion k.tag.toNat status k.member dtask darr q.revs.length k.tfaults (if k.phase = 0 then 0 else s.cycNow n - k.startClk))
/-- A context halted by a stop: its segment, its buffered stores and its queued commands go (R360). -/
def stopCtx (s : State) (w : Who) : State :=
  ((releaseHolds (leaveCore (dropBuffered s w) w) w true)).updCtx w (fun c =>
    { c.dropSeg with st := .halted, from_ := .halted, freeze := .none, block := .none, halting := false, pend := none, entryNext := false,
                     yieldFor := [], eq := [], eHead := none, cq0 := [], cq1 := [], ring := c.ring.filter (fun r => r.queue = 3),
                     ovfWait := c.ovfWait.filter (fun r => r.queue = 3), late := [], flowWait := [], holds := [], taken := [] })
/-- A kernel is stopped on a member with a status: contexts halted or, switched out, discarded, and its collectives end (R313, R360).
-/
def stopKernel (s : State) (n g : Nat) (status : Nat) : State :=
  match (s.gang n g).kernel with
  | none => s
  | some k =>
    if k.phase = 2 then s
    else
      let s1 := if (s.chip n).running = some g then
          let s2 := (s.ctxsOf n).foldl stopCtx s
          { s2 with
            reqs := s2.reqs.filter (fun q => q.who.chip ≠ n),
            pkts := s2.pkts.filter (fun p => !(p.who.chip = n && p.gctx = g && (match p.op with | .cmd _ => true | _ => false))),
            cores := s2.cores.map (fun (p : CoreId × Core) => if p.1.chip = n then (p.1, { p.2 with mq := p.2.mq.filter (fun m => m.started) }) else p) }
        else s
      (endKernel (dropColls s1 n g) n g status).updGang n g (fun q =>
        { q with savedCtx := [], cores := [], kept := [], nsa := [], nsaBytes := 0, image := [], ovf := false })

/-! ## Absent bits (R362, R363, R368) -/

/-- An absent bit of a table set or cleared; a cleared one resumes what waited for the page. -/
def setAbsent (s : State) (n g ext page : Nat) (v : Bool) : State :=
  let bit1 : BitVec 128 := 1#128 <<< page
  let e := s.xentry n g ext
  let s1 := s.updGang n g (fun k => { k with xlat := k.xlat.set ext { e with absent := if v then e.absent ||| bit1 else e.absent &&& ~~~bit1 } })
  if v then s1 else resumePages s1 n g

end Sys2Proof.Machine
end

