-- ==== Sys2Proof/Machine/EvLaunch.lean ====
section
/-! DEFINITION. Sys2Proof/Machine/EvLaunch.lean: the events of the command processor and the reporting engine: launch and
translation records, kernel end, fault records, xtload and dirty logs (spec/09 R223, spec/18 R353 to R369). -/

namespace Sys2Proof.Machine

/-! ## Launch queues (R353) -/

/-- A launch queue's record at its head; none when the queue holds none, is disabled, or its VF is being reset. -/
def State.queueHead (s : State) (n vf q : Nat) : Option (List Byte) :=
  let f := vf + 1
  let off := 0x20 * q
  let head := s.barN n f (off + 0x10)
  if !s.ringEn n f off || !s.fnUp n f || (s.chip n).resetting.contains vf || (s.barN n f (off + 0x18) + 2 ^ 32 - head) % 2 ^ 32 = 0 then none
  else some (s.peek (hostKey n (portOfFn f) (s.barN n f off / 4096 * 4096 + head % s.ringSize n f off * 64)) 64)
/-- KIND of a record. -/
def recKind (b : List Byte) : Nat := natFld (fieldAt b 22 2) 2 2
/-- A launch record waits for a kernel of its queue, or of its gang context, to end on this member (R353). -/
def State.mustWait (s : State) (n vf q : Nat) (b : List Byte) : Bool :=
  recKind b ≠ 1 && (s.chip n).gangs.any (fun p =>
    p.2.kernel.any (fun k => decide (k.phase < 2) && ((k.vf = vf && k.q = q) || p.1 = fieldAt b 16 2)))
/-- The first queue of a VF, round-robin, whose head record may be served. -/
def State.nextQueue (s : State) (n vf : Nat) : Option (Nat × List Byte) :=
  ((upTo 16).map (fun i => ((s.chip n).rrQ.get vf 0 + i) % 16)).findSome? (fun q =>
    (s.queueHead n vf q).bind (fun b => if s.mustWait n vf q b then none else some (q, b)))
/-- The record the command processor serves next: VF, queue and record. -/
def State.nextRecord (s : State) (n : Nat) : Option (Nat × Nat × List Byte) :=
  ((upTo 126).map (fun i => ((s.chip n).rrVf + i) % 126)).findSome? (fun v => (s.nextQueue n v).map (fun p => (v, p.1, p.2)))
/-- A record read whole: LQ_HEAD advances, and the turns pass on. -/
def takeRecord (s : State) (n vf q : Nat) : State :=
  (s.setBarN n (vf + 1) (0x20 * q + 0x10) ((s.barN n (vf + 1) (0x20 * q + 0x10) + 1) % 2 ^ 32)).updChip n
    (fun c => { c with rrVf := (vf + 1) % 126, rrQ := c.rrQ.set vf ((q + 1) % 16) })
/-- A launch that fails files one terminal record with CODE 0; its completion record follows that record (R357). -/
def failLaunch (s : State) (n vf q : Nat) (b : List Byte) (st : Nat) : State :=
  (s.fileFault n vf { info := 0, pc := 0, code := 0, lstat := st, count := 1, who := 0, gctx := fieldAt b 16 2, hcode := 0, terminal := true, kern := 0 }).updChip n
    (fun c => { c with failed := c.failed ++ [(vf, q, b, st)] })
/-- A launch that passes its checks: its table is installed; it starts when its gang context holds the chip, or waits for
GO (R357). A launch of service class 6 or 7 that needs a core under scan aborts the scan (R424). -/
def acceptLaunch (s : State) (n vf q : Nat) (b : List Byte) : State :=
  let r := s.launchRead n vf b
  let g := fieldAt b 16 2
  let k := mkKernel s.nextId vf q b (r.hdr.getD []) (r.flows.getD []) (r.rings.getD [])
  let s1 := (installWalk s.fresh n g 0 r.walk).updGang n g (fun q => { q with kernel := some k })
  let s2 := if 6 ≤ k.cls % 8 ∧ (s.chip n).ifs = 1 then s1.updChip n (fun c => { c with ifs := 4 }) else s1
  if (s.chip n).running = some g then startKernel s2 n g k else s2
/-- LAUNCH_RECORD (R353, R357). -/
def execLaunchRecord (s : State) : Out :=
  let n := s.sel.who.chip
  match s.nextRecord n with
  | none => .fault .notEnabled
  | some (vf, q, b) =>
    if recKind b = 1 then .fault .notEnabled
    else
      let s1 := takeRecord s n vf q
      let st := s.launchStatus n vf b
      if st ≠ 0 then
        let s2 := if s.launchFirst n vf b = 0 then (walkFaults vf (fieldAt b 16 2) (s.launchRead n vf b).walk).foldl (fun s r => fileHyper s n r) s1 else s1
        .next (failLaunch s2 n vf q b st)
      else .next (acceptLaunch s1 n vf q b)

/-! ## Translation loads and updates (R367, R368) -/

/-- A request of another member has been looked up at its target, and is still to be performed there. -/
def Pkt.lookedUp (p : Pkt) : Bool :=
  match p.stage with
  | .slice | .wmHold | .mc .. | .ready | .sorrel | .dlog => !p.performed
  | .target => (match p.op with | .slot .. => p.told = 1 || p.pieces ≠ [] | _ => false)
  | _ => false
/-- Addresses on the pages that an access from an address on touches: every page of an L2 control form, both of a slot write. -/
def Pkt.span (p : Pkt) (a : Nat) : List Nat :=
  match p.op with
  | .l2 _ len _ => (pagesOf a len).map (·.1)
  | .slot _ _ b .. => [a, a + b.length - 1]
  | _ => [a]
/-- Accesses translated on a member under an absent bit that a command has set, still to be performed: its own, and those of
other members and the slot writes that it has looked up as their target (R322, R368). -/
def State.oldBitUses (s : State) (n g ext page stamp : Nat) : Bool :=
  let on := fun (va : Nat) => va / 2 ^ 28 % 4096 = ext && natFld va 21 7 = page
  let slot := fun (p : Pkt) => match p.op with | .slot .. => true | _ => false
  s.pkts.any (fun p => p.gctx = g &&
    ((p.isMem && p.who.chip = n && p.id < stamp && !p.done && (p.span p.va).any on) ||
     (((p.isMem && p.who.chip ≠ n) || slot p) && p.dst = n && p.lookedUp && (p.span p.tva).any on)))
/-- What a request asks for: mode, gang context, list or entry address, IMM19 and VAL; BADGCTX, BUSY, or its effect, with its
status (R368). -/
def xtApply (s : State) (n vf mode : Nat) (eb ea imm : Nat) (val : Bool) : State × Nat :=
  let g := eb % 65536
  if eb ≠ g || 256 ≤ g || natFld (s.gcCtl n g) 0 1 = 0 || s.gcVf n g ≠ vf then (s, 4)
  else if mode < 2 && (s.gang n g).kernel.any (fun k => k.phase = 1) then (s, 3)
  else
    match mode with
    | 0 => let l := s.walkAll n vf ea; (walkApply s n vf g 0 l, walkStatus l)
    | 1 => let l := [s.walkOne n vf ea]; (walkApply s n vf g (imm % 4096) l, walkStatus l)
    | _ => (setAbsent s n g (imm % 4096) (natFld imm 12 7) val, 0)
/-- Mode, IMM19 and VAL of an xtload. -/
def xtFields (i : Instr) : Option (Nat × Nat × Bool) :=
  match i with
  | .xtloadFull _ => some (0, 0, false)
  | .xtloadEntry o => some (1, o.ext.imm.toNat, false)
  | .xtloadPage o => some (2, o.ext.imm.toNat, o.opt.getLsbD 2)
  | _ => none
/-- XTLOAD_APPLY: the command at the head of a context's queue. An absent bit that is set stands at once; the command
completes when every access translated under the old bit has been performed (R368). -/
def execXtloadApply (s : State) : Out :=
  let w := s.sel.who
  let n := w.chip
  match (s.ctx w).eHead with
  | none => .fault .notEnabled
  | some k =>
    match xtFields k.op with
    | none => .fault .notEnabled
    | some (mode, imm, val) =>
      let done := fun (s : State) (st : Nat) => finishCmd (clearHead s w) w k.id k.inst (ccOf k.op) (BitVec.ofNat 64 st)
      let g := k.eb.toNat % 65536
      if k.stamp ≠ 0 then
        (if s.oldBitUses n g (imm % 4096) (natFld imm 12 7) k.stamp then .fault .notEnabled else .next (done s 0))
      else
        let r := xtApply s n (s.vf n) mode k.eb.toNat k.ea.toNat imm val
        if mode = 2 && val && r.2 = 0 && s.oldBitUses n g (imm % 4096) (natFld imm 12 7) s.nextId then
          .next (r.1.updCtx w (fun c => { c with eHead := some { k with stamp := s.nextId } }))
        else .next (done r.1 r.2)
/-- A translation record's completion: the status xtload would give (R368, log 26). -/
def xtComplete (s : State) (n vf q : Nat) (b : List Byte) (st : Nat) : State :=
  putCompletion s n vf q (fieldAt b 24 8) ((fieldAt b 22 2).testBit 1) (completion (fieldAt b 32 8) st (fieldAt b 18 2) 0 0 0 0 0)
/-- TRANSLATION_RECORD: the next record is of KIND 1 and is performed at once; `id` 1 ends one that set an absent bit (R354,
R368). -/
def execTranslationRecord (s : State) : Out :=
  let n := s.sel.who.chip
  let imm := fun (b : List Byte) => natFld (fieldAt b 40 8) 3 19
  if s.sel.id = 1 then
    match (s.chip n).xtWait with
    | [] => .fault .notEnabled
    | (st, vf, q, b) :: r =>
      if s.oldBitUses n (fieldAt b 16 2) (imm b % 4096) (natFld (imm b) 12 7) st then .fault .notEnabled
      else .next ((xtComplete s n vf q b 0).updChip n (fun c => { c with xtWait := r }))
  else
    match s.nextRecord n with
    | none => .fault .notEnabled
    | some (vf, q, b) =>
      let x := fieldAt b 40 8
      let mode := natFld x 0 2
      let g := fieldAt b 16 2
      if recKind b ≠ 1 then .fault .notEnabled
      else
        let s1 := takeRecord s n vf q
        if recordBad s n vf b then .next (failLaunch s1 n vf q b 1)
        else
          let r := xtApply s1 n vf mode g (fieldAt b 0 8) (imm b) (x.testBit 2)
          if mode = 2 && x.testBit 2 && r.2 = 0 && s.oldBitUses n g (imm b % 4096) (natFld (imm b) 12 7) s.nextId then
            .next (r.1.updChip n (fun c => { c with xtWait := c.xtWait ++ [(s.nextId, vf, q, b)] }))
          else .next (xtComplete r.1 n vf q b r.2)

/-! ## MEMBER_FINISH (R223) -/

/-- A packet whose completion kernel end waits for: a store, window store or atomic until it is performed, by R180 at another
chip when its acknowledgement or reply has returned; a message or command until it is acknowledged. What waits at a barrier or
for a join holds nothing: R223 does not name it, and R276 discards the children that are still live. -/
def Pkt.holdsEnd (p : Pkt) : Bool :=
  p.stage ≠ .parked &&
  match p.op with
  | .load .. | .row .. | .prefetch _ | .l2 .. | .vote _ => false
  | .atomic .. | .store _ | .sttRow .. | .pool _ => !p.done
  | _ => true
/-- A context has nothing left to do. -/
def Ctx.idle (c : Ctx) : Bool :=
  (c.st = .halted || (c.st = .dormant && c.rq.isEmpty && !c.inRing 3)) && c.eq.isEmpty && c.eHead.isNone && c.cq0.isEmpty && c.cq1.isEmpty &&
    c.ring.isEmpty && c.ovfWait.isEmpty && c.closing.isEmpty && c.flowWait.isEmpty
/-- The conditions of R223 on a member whose gang runs. -/
def State.finished (s : State) (n g : Nat) : Bool :=
  let q := s.gang n g
  (s.ctxsOf n).all (fun w => (s.ctx w).idle) &&
    (s.cores.filter (fun p => p.1.chip = n)).all (fun p => p.2.cur0.isNone && p.2.cur1.isNone) &&
    !s.pkts.any (fun p => p.who.chip = n && p.gctx = g && p.holdsEnd) && !s.reqs.any (fun r => r.who.chip = n) &&
    !(s.chip n).colls.any (fun k => k.gctx = g) && q.picked.isEmpty && (q.window.isEmpty || !(s.ctxsOf n).any s.freeForTasks) &&
    !s.xfers.any (fun x => x.who.chip = n && x.out)
/-- A terminal record of a kernel waits to be written, and stops the kernel when it is (R360). -/
def State.stopPending (s : State) (n g : Nat) : Bool :=
  ((s.chip n).pending.get (s.gcVf n g) []).any (fun r => r.terminal && r.code ≠ 0 && r.gctx = g && r.kern = s.kernId n g)
/-- MEMBER_FINISH. -/
def execMemberFinish (s : State) : Out :=
  let n := s.sel.who.chip
  let g := s.gctxOf n
  when_ ((s.chip n).running.isSome && (s.gang n g).kernel.any (fun k => k.phase = 1) && s.finished n g && !s.stopPending n g) (endKernel s n g 0)

/-! ## FAULT_REPORT_WRITE (R360, R365) -/

/-- The ring of a record: terminal or retryable. -/
def FaultRec.ring (r : FaultRec) : Nat := if r.terminal then 0x220 else 0x200
/-- The first record of a VF's buffer whose ring has room. -/
def State.nextFault (s : State) (n vf : Nat) : Option FaultRec :=
  (((s.chip n).pending.get vf []).take 64).find? (fun r => s.ringRoom n (vf + 1) r.ring)
/-- The VF served next, and the records it may still write in this round. -/
def State.nextReporter (s : State) (n : Nat) : Option (Nat × Nat) :=
  let c := s.chip n
  if 0 < c.repLeft && (s.nextFault n c.repPtr).isSome then some (c.repPtr, c.repLeft - 1)
  else (((upTo 126).map (fun i => (c.repPtr + 1 + i) % 126)).find? (fun v => (s.nextFault n v).isSome)).map (fun v => (v, max 1 (s.weight n v) - 1))
/-- The first element that equals one removed. -/
def dropFirst (r : FaultRec) : List FaultRec → List FaultRec
  | [] => []
  | x :: l => if x = r then l else x :: dropFirst r l
/-- A terminal record has been written: one of a launch is followed by its completion record, and one of a trap stops its
kernel on this member, if that has not ended (R357, R359, R360). -/
def afterTerminal (s : State) (n vf : Nat) (r : FaultRec) : State :=
  if r.code = 0 then
    match (s.chip n).failed.find? (fun q => q.1 = vf) with
    | none => s
    | some (_, q, b, st) =>
      (putCompletion s n vf q (fieldAt b 24 8) ((fieldAt b 22 2).testBit 1) (completion (fieldAt b 32 8) st (fieldAt b 18 2) 0 0 0 0 0)).updChip n
        (fun c => { c with failed := (c.failed.takeWhile (fun q => q.1 ≠ vf)) ++ (c.failed.dropWhile (fun q => q.1 ≠ vf)).drop 1 })
  else if r.kern ≠ s.kernId n r.gctx then s
  else
    let s1 := s.updGang n r.gctx (fun g => { g with kernel := g.kernel.map (fun k => { k with tfaults := k.tfaults + 1 }) })
    stopKernel s1 n r.gctx 8
/-- FAULT_REPORT_WRITE: the hypervisor ring first, then the VFs in weighted turns. -/
def execFaultReportWrite (s : State) : Out :=
  let n := s.sel.who.chip
  match (if s.ringRoom n 0 0x50100 then (s.chip n).hpending.head? else none) with
  | some r => .next ((ringPut s n 0 0x50100 r.bytes).updChip n (fun c => { c with hpending := c.hpending.tail }))
  | none =>
    match s.nextReporter n with
    | none => .fault .notEnabled
    | some (v, left) =>
      match s.nextFault n v with
      | none => .fault .notEnabled
      | some r =>
        let s1 := (ringPut s n (v + 1) r.ring r.bytes).updChip n (fun c =>
          { c with pending := c.pending.set v (dropFirst r (c.pending.get v [])), repPtr := v, repLeft := left })
        .next (if r.terminal then afterTerminal s1 n v r else s1)

/-! ## FR_RESUME, GANG_KILL (R360, R365): writes of a VF's BAR -/

/-- The context that a WHO field names. -/
def whoOf (n v : Nat) : Who := ⟨n, natFld v 5 5, natFld v 2 3, natFld v 0 2⟩
/-- A freeze that FR_RESUME resolves. -/
def resumable (f : FreezeCause) : Bool := f = .quota || f = .merge
/-- FR_RESUME of VF `id`: a QUOTA or MERGE_LIMIT freeze of the named context resolves; any other write is ignored. -/
def execFrResume (s : State) : Out :=
  let n := s.sel.who.chip
  let w := whoOf n s.sel.val.toNat
  let g := natFld s.sel.val.toNat 16 16
  if s.gcVf n g ≠ s.sel.id then .next s
  else if (s.chip n).running = some g then
    .next (s.updCtx w (fun c => if c.st = .frozen && resumable c.freeze then c.thaw else c))
  else .next (s.updGang n g (fun k => { k with savedCtx := k.savedCtx.map (fun q =>
    if q.1 = w && q.2.st = .frozen && resumable q.2.freeze then (q.1, { q.2 with freeze := .none, retry := none }) else q) }))
/-- GANG_KILL of VF `id`: the member's kernel of its gang context stops with STOPPED. -/
def execGangKill (s : State) : Out :=
  let n := s.sel.who.chip
  let g := natFld s.sel.val.toNat 0 16
  .next (if g < 256 && s.gcVf n g = s.sel.id then stopKernel s n g 9 else s)

/-! ## DIRTY_LOG_RECORD, DL_CLEAR (R369) -/

/-- The page's record has been written: its bit is set, and what waited for it goes on, a slot write on any of its pages. -/
def dirtySet (s : State) (n : Nat) (r : DlogReq) : State :=
  let s1 := s.updGang n r.gctx (fun g => { g with dirty := g.dirty ++ [(r.ext, r.page)] })
  let s2 := thawWhere s1 r.gctx (fun f => f = .dlog r.id)
  { s2 with pkts := s2.pkts.map (fun p =>
      if p.stage = .dlog ∧ p.dst = n ∧ p.gctx = r.gctx ∧ (p.span p.tva).any (fun a => a / 2 ^ 28 % 4096 = r.ext && natFld a 21 7 = r.page) then
        { p with stage := (match p.op with | .slot .. => .target | _ => .ready), since := s2.now }
      else if p.stage = .dlog ∧ p.dst = n ∧ p.gctx = r.gctx ∧ s2.isRev n r.gctx p.tva then { p with stage := .ready }
      else p) }
/-- The writing context freezes without a trap record while the ring is full; the first to do so posts DLOG_FULL. -/
def dirtyFull (s : State) (n : Nat) (r : DlogReq) : State :=
  let c := s.ctx r.who
  let s1 := if c.st = .halted ∨ c.st = .frozen then s
    else (leaveCore s r.who).updCtx r.who (fun c => { c with st := .frozen, from_ := c.st, freeze := .dlog r.id })
  let first := !(s.chip n).dlogWait.any (fun q => q.vf = r.vf && q.told)
  (if first then fileHyper s1 n (hyperRec r.vf r.gctx 5 r.gpa) else s1).updChip n
    (fun h => { h with dlogWait := updWhere (fun q => q.id = r.id) (fun q => { q with told := true }) h.dlogWait })
/-- DIRTY_LOG_RECORD: request `id`: the oldest of its VF is written; while the ring is full every writer freezes (R369). -/
def execDirtyLogRecord (s : State) : Out :=
  let n := s.sel.who.chip
  match (s.chip n).dlogWait.find? (fun r => r.id = s.sel.id) with
  | none => .fault .notEnabled
  | some r =>
    let oldest := ((s.chip n).dlogWait.find? (fun q => q.vf = r.vf)).map (·.id) = some r.id
    if s.ringRoom n 0 (vfBlock r.vf + 0x20) then
      (if oldest then
        .next (dirtySet ((ringPut s n 0 (vfBlock r.vf + 0x20) (bytesOf (r.gpa / 2 ^ 21 * 2 ^ 21) 8)).updChip n
          (fun h => { h with dlogWait := h.dlogWait.filter (fun q => q.id ≠ r.id) })) n r)
      else .fault .notEnabled)
    else if r.told then .fault .notEnabled else .next (dirtyFull s n r)

end Sys2Proof.Machine
end

