-- ==== Sys2Proof/Machine/EvReg.lean ====
section
/-! DEFINITION. Sys2Proof/Machine/EvReg.lean: writes of the registers of the BARs and of context registers, and the frame
commands (spec/10 R245, spec/11 R264, spec/12 R297, spec/18 R365, R369 to R372, spec/19 R374, R378). Where a step is a
write, `id` is the function (0 the PF, v + 1 VF v), `reg` the offset and `val` the value (log 17). -/

namespace Sys2Proof.Machine

/-! ## What a write stores (R4) -/

/-- Bits of a value under a mask. -/
def keepBits (v : BitVec 64) (mask : Nat) : BitVec 64 := v &&& BitVec.ofNat 64 mask
/-- A ring's registers: base, control with its SIZE clamped, the device's count, the host's count (R365). -/
def ringStore (k : Nat) (old v : BitVec 64) : BitVec 64 :=
  match k with
  | 0x00 => keepBits v 0xFFFFFFFFFFFFF000
  | 0x08 => keepBits v 0xFF80 ||| BitVec.ofNat 64 (max 4 (min 16 (natFld v.toNat 0 5)))
  | 0x18 => keepBits v 0xFFFFFFFF
  | _ => old
/-- VF_POLICY (R371). -/
def policyStore (v : BitVec 64) : BitVec 64 := keepBits v 0x3F03 ||| BitVec.ofNat 64 (max 1 (natFld v.toNat 16 4) * 65536)
/-- MIG_POLICY (R425). -/
def migPolicyStore (v : BitVec 64) : BitVec 64 := keepBits v 0xFFFFFFFF0001 ||| BitVec.ofNat 64 (max 1 (natFld v.toNat 8 8) * 256)
/-- A register of a gang context's block, while EN is 0 (R374). -/
def gcStore (k : Nat) (old v : BitVec 64) : BitVec 64 :=
  match k with
  | 0x08 | 0x18 => v
  | 0x10 | 0x20 | 0x28 => keepBits v 0xFFFFFFF000
  | _ => old
/-- A register of a checkpoint block, while STATE is IDLE (R415). DESIGN CHOICE (log 15): CK_LAYLEN above 65,536 is stored as
65,536. -/
def ckStore (k : Nat) (old v : BitVec 64) : BitVec 64 :=
  match k with
  | 0x00 | 0x08 => keepBits v 0xFFFFFFFFFFFFF001
  | 0x10 => v
  | 0x18 => keepBits v 0xFFFFFFFFFFFFF000
  | 0x20 => BitVec.ofNat 64 (min v.toNat 65536)
  | _ => old
/-- ALM_CTL written (R378). -/
def almCtl (a : Alm) (v : Nat) : Alm :=
  { a with step := max 1 (min 100 (natFld v 9 7)), adj := v.testBit 8, master := v.testBit 7, run := v.testBit 4, nslots := natFld v 0 4,
           begun := a.begun && v.testBit 4 }
/-- A register of the PF's BAR written. -/
def pfWrite (s : State) (n off : Nat) (v : BitVec 64) : State :=
  let old := s.bar n 0 off
  let put := fun (x : BitVec 64) => s.setBar n 0 off x
  if 0x10000 ≤ off ∧ off < 0x10000 + 0x100 * 126 then
    (match off % 0x100 with
     | 0x00 => put (policyStore v)
     | 0x20 | 0x28 | 0x38 => put (ringStore (off % 0x100 - 0x20) old v)
     | _ => s)
  else if 0x20000 ≤ off ∧ off < 0x24000 then
    if natFld (s.gcCtl n ((off - 0x20000) / 0x40)) 0 1 = 1 then s else put (gcStore (off % 0x40) old v)
  else if 0x30000 ≤ off ∧ off < 0x30000 + 0x10 * 126 ∧ off % 0x10 = 0 then put (keepBits v 0x3FF03FF)
  else if off = 0x31000 then s.updChip n (fun c => { c with alm := almCtl c.alm v.toNat })
  else if off = 0x32000 then put (keepBits v 0xFF)
  else if off = 0x32008 then
    (put (migPolicyStore v)).updChip n (fun c => { c with mig := { c.mig with request := if v.getLsbD 0 then c.mig.request else none } })
  else if 0x36000 ≤ off ∧ off < 0x36020 then put (ringStore (off - 0x36000) old v)
  else if 0x40000 ≤ off ∧ off < 0x44000 then
    if (s.gang n ((off - 0x40000) / 0x40)).ckState ≠ 0 then s else put (ckStore (off % 0x40) old v)
  else if 0x50100 ≤ off ∧ off < 0x50120 then put (ringStore (off - 0x50100) old v)
  else s
/-- A register of a VF's BAR written. -/
def vfWrite (s : State) (n f off : Nat) (v : BitVec 64) : State :=
  if off < 0x240 then s.setBar n f off (ringStore (off % 0x20) (s.bar n f off) v) else s
/-- A kernel runs on a chip, so what the runtime loads before a context runs stays as it is (R242). -/
def State.kernelRuns (s : State) (n : Nat) : Bool :=
  match (s.rgang n).kernel with
  | some k => k.phase = 1
  | none => false
/-- A context register that the runtime loads (R222, R242): OVT and the window bindings besides those csrw writes. The
bindings stay constant until the kernel ends. -/
def runtimeLoad (s : State) (w : Who) (k : Nat) (v : BitVec 64) : State :=
  if (k = 0x001 ∨ (0x060 ≤ k ∧ k < 0x070)) ∧ s.kernelRuns w.chip then s
  else if k = 0x001 then s.updCtx w (fun c => { c with csr := { c.csr with ovt := ovtStore v } })
  else if k = 0x004 then s.updCtx w (fun c => { c with csr := { c.csr with mode := v.getLsbD 0, pmode := v.getLsbD 1 } })
  else if 0x060 ≤ k ∧ k < 0x070 then
    s.updCtx w (fun c => { c with csr := { c.csr with winBind := c.csr.winBind.mapIdx (fun i x => if i = k - 0x060 then winBindStore v else x) } })
  else csrLand s w (BitVec.ofNat 12 k) v
/-- Offsets whose writes are events of their own. -/
def ownEvent (f off : Nat) (v : BitVec 64) : Bool :=
  if f = 0 then
    (decide (0x10000 ≤ off ∧ off < 0x10000 + 0x100 * 126) && (off % 0x100 = 8 || (off % 0x100 = 0x28 && v.getLsbD 6))) ||
      (decide (0x20000 ≤ off ∧ off < 0x24000) && off % 0x40 = 0) || (decide (0x40000 ≤ off ∧ off < 0x44000) && off % 0x40 = 0x28 && v.toNat / 8 = 0 && (v.toNat % 4 = 1 || v.toNat % 4 = 2)) ||
      off = 0x35200 || off = 0x38000 || (off = 0x50000 && decide (1 ≤ natFld v.toNat 12 4 ∧ natFld v.toNat 12 4 ≤ 3))
  else decide (f ≤ 126) && (off = 0x240 || off = 0x248)
/-- REGISTER_WRITE: a register without behaviour of its own; function 200 is a load of the runtime into context `who`. -/
def execRegisterWrite (s : State) : Out :=
  let n := s.sel.who.chip
  let f := s.sel.id
  if f = 200 then .next (runtimeLoad s s.sel.who s.sel.reg s.sel.val)
  else if ownEvent f s.sel.reg s.sel.val then .fault .notEnabled
  else if f = 0 then .next (pfWrite s n s.sel.reg s.sel.val)
  else if f ≤ 126 then .next (vfWrite s n f s.sel.reg s.sel.val)
  else .fault .notEnabled

/-! ## Gang contexts, stage-two maps, dirty logs -/

/-- Every byte of a DPA range lies in frames assigned to a VF. -/
def State.rangeOwned (s : State) (n vf a len : Nat) : Bool :=
  (upTo ((a + len + 2 ^ 28 - 1) / 2 ^ 28 - a / 2 ^ 28)).all (fun i => s.frame n (a / 2 ^ 28 + i) = .assigned vf)
/-- The ranges a gang context's block names lie in frames of its VF (R374). -/
def State.gcOwned (s : State) (n g vf nch : Nat) : Bool :=
  let r := fun (k : Nat) => s.barN n 0 (gcBlock g + k)
  s.rangeOwned n vf (r 0x08) (2 * nch) && s.rangeOwned n vf (r 0x10) (r 0x18 * 4096) && s.rangeOwned n vf (r 0x20) (1024 * 0x42000) &&
    s.rangeOwned n vf (r 0x28) (256 * 0x408000)
/-- GC_CTL_WRITE of gang context `reg`: EN is accepted when every range is the VF's, else ERR is set; a write of EN ends the
RESET flag (R374, R393). -/
def execGcCtlWrite (s : State) : Out :=
  let n := s.sel.who.chip
  let g := s.sel.reg
  let v := s.sel.val
  if 256 ≤ g then .fault .notEnabled
  else
    let s1 := s.updGang n g (fun k => { k with resetDone := false })
    if natFld (s.gcCtl n g) 0 1 = 1 then
      .next (s1.setBar n 0 (gcBlock g) (keepBits (s.bar n 0 (gcBlock g)) 0x1FFFFFFE ||| keepBits v 1))
    else
      let x := keepBits v 0x1FFFFFFF
      let bad := v.getLsbD 0 && !s.gcOwned n g (natFld v.toNat 1 7) (natFld v.toNat 18 11)
      .next ((s1.setBar n 0 (gcBlock g) (if bad then keepBits x 0x1FFFFFFE else x)).setBarN n 0 (gcBlock g + 0x30) (bit bad))
/-- GC_STAT of a gang context (R374); RESET stands from the request of a reset until EN is written (R393). -/
def State.gcStat (s : State) (n g : Nat) : Nat :=
  natFld (s.barN n 0 (gcBlock g + 0x30)) 0 1 + 2 * bit ((s.chip n).running = some g) + 4 * bit (s.gang n g).ovf +
    8 * bit (s.gang n g).resetDone
/-- Some gang context of a VF has a table loaded. -/
def State.vfLoaded (s : State) (n vf : Nat) : Bool := (s.chip n).gangs.any (fun q => q.2.loaded && s.gcVf n q.1 = vf)
/-- S2_BASE_WRITE of VF `reg` (R371). -/
def execS2BaseWrite (s : State) : Out :=
  let n := s.sel.who.chip
  if 126 ≤ s.sel.reg then .fault .notEnabled
  else .next (if s.vfLoaded n s.sel.reg then s else s.setBar n 0 (vfBlock s.sel.reg + 8) (keepBits s.sel.val 0xFFFFFFF000))
/-- DL_CLEAR of VF `reg`: a write of DL_CTL with CLR (R365, R369). -/
def execDlClear (s : State) : Out :=
  let n := s.sel.who.chip
  let vf := s.sel.reg
  if 126 ≤ vf || !s.sel.val.getLsbD 6 then .fault .notEnabled
  else
    let s1 := s.setBar n 0 (vfBlock vf + 0x28) (ringStore 8 0 s.sel.val)
    .next (s1.updChip n (fun c => { c with gangs := c.gangs.map (fun q => if s.gcVf n q.1 = vf then (q.1, { q.2 with dirty := [] }) else q) }))

/-! ## Frames (R370, R372) -/

/-- FRAME_STAT after a command on a frame: its state, the error, the frame and its owner. -/
def frameStat (st : Frame) (err f : Nat) : Nat :=
  (match st with | .free => 0 | .assigned _ => 1 | .scrubbing => 2 | .reserved => 3) + err * 2 ^ 16 + f * 2 ^ 20 +
    (match st with | .assigned v => v * 2 ^ 33 | _ => 0)
/-- A command ends: the frame's new state, and FRAME_STAT. -/
def frameDone (s : State) (n f : Nat) (st : Frame) (err : Nat) : State :=
  (s.updChip n (fun c => { c with frames := c.frames.set f st })).setBarN n 0 0x50008 (frameStat st err f)
/-- Frame, op and VF of a command. -/
def cmdFrame (v : BitVec 64) : Nat := natFld v.toNat 0 12
def cmdOp (v : BitVec 64) : Nat := natFld v.toNat 12 4
def cmdVf (v : BitVec 64) : Nat := natFld v.toNat 16 7
/-- The frame as a command finds it: 0 and 1 are RESERVED. -/
def State.frameNow (s : State) (n f : Nat) : Frame := if f < 2 then .reserved else s.frame n f
/-- The outcome of ASSIGN: error, and the frame's state. -/
def State.assignRes (s : State) (n f vf : Nat) : Nat × Frame :=
  let st := s.frameNow n f
  if st ≠ .free then (2, st)
  else if s.capLimit n < (f + 1) * 2 ^ 28 then (3, st)
  else if 125 < vf then (4, st)
  else (0, .assigned vf)
/-- FRAME_ASSIGN. -/
def execFrameAssign (s : State) : Out :=
  let n := s.sel.who.chip
  let f := cmdFrame s.sel.val
  if cmdOp s.sel.val ≠ 1 then .fault .notEnabled
  else let r := s.assignRes n f (cmdVf s.sel.val); .next (frameDone s n f r.2 r.1)
/-- A loaded translation entry names a frame. -/
def State.frameNamed (s : State) (n f : Nat) : Bool :=
  (s.chip n).gangs.any (fun q => q.2.loaded && q.2.xlat.any (fun e => (e.2.kind = 1 || e.2.kind = 4) && e.2.base / 2 ^ 28 = f))
/-- The outcome of FREE. -/
def State.freeRes (s : State) (n f : Nat) : Nat × Frame :=
  match s.frameNow n f with
  | .assigned v => if s.frameNamed n f then (1, .assigned v) else (0, .scrubbing)
  | st => (2, st)
/-- FRAME_FREE. -/
def execFrameFree (s : State) : Out :=
  let n := s.sel.who.chip
  let f := cmdFrame s.sel.val
  if cmdOp s.sel.val ≠ 2 then .fault .notEnabled
  else let r := s.freeRes n f; .next (frameDone s n f r.2 r.1)
/-- FRAME_QUERY. -/
def execFrameQuery (s : State) : Out :=
  let n := s.sel.who.chip
  let f := cmdFrame s.sel.val
  if cmdOp s.sel.val ≠ 3 then .fault .notEnabled else .next (frameDone s n f (s.frameNow n f) 0)
/-- A range of memory reads zero, unpoisoned and correctable. -/
def zeroRange (s : State) (k len : Nat) : State :=
  let out := fun (a : Nat) => decide (a < k) || decide (k + len ≤ a)
  { s with mem := s.mem.filter (fun c => out c.1), poison := s.poison.filter out, uncorr := s.uncorr.filter out, sunk := s.sunk.filter out }
/-- SCRUB_END of frame `id`: its lines are zero, none stays in the L2, and it is FREE (R370). Its writes wait while they would go to
the period at the watermark (R409, R414). -/
def execScrubEnd (s : State) : Out :=
  let n := s.sel.who.chip
  let f := s.sel.id
  if s.frame n f ≠ .scrubbing then .fault .notEnabled
  else
    let gone := fun (w : Way) => w.line.any (fun l => l * 128 / 2 ^ 28 = f)
    unitGate s (((s.chip n).mig.linesIn (f * 2 ^ 28) (2 ^ 28)).map (fun a => (n, a)))
      (.next ((zeroRange s (hbmKey n (f * 2 ^ 28)) (2 ^ 28)).updChip n (fun c =>
      { c with frames := c.frames.set f .free, l2 := c.l2.map (fun q => (q.1, q.2.map (fun w => if gone w then Way.empty else w))) })))

/-! ## Context registers that reach beyond their context (R245, R264, R297) -/

/-- The first due result of a context for a register that meets a test lands. -/
def landOne (s : State) (w : Who) (p : Nat → Bool) : Out :=
  match (splitDue (s.clkOf w) (s.ctx w).flight []).1.find? (fun l => match l.dest with | .csr n => p n.toNat | _ => false) with
  | none => .fault .notEnabled
  | some l => .next (landStatus w (s.updCtx w (fun c => { c with flight := c.flight.erase l })) l)
/-- WIN_ALLOW_MAX_WRITE. -/
def execWinAllowMaxWrite (s : State) : Out := landOne s s.sel.who (fun n => decide (0x080 ≤ n) && decide (n < 0x090))
/-- RETW_WAYS_WRITE. -/
def execRetwWaysWrite (s : State) : Out := landOne s s.sel.who (fun n => decide (0x070 ≤ n) && decide (n < 0x078))
/-- ANC_POOL_WRITE. -/
def execAncPoolWrite (s : State) : Out := landOne s s.sel.who (fun n => n = 0x04D)
/-- ANC_BASE_WRITE. -/
def execAncBaseWrite (s : State) : Out := landOne s s.sel.who (fun n => n = 0x04E)

end Sys2Proof.Machine
end

