-- ==== Sys2Proof/Machine/Save.lean ====
section
/-! DEFINITION. Sys2Proof/Machine/Save.lean: the save area of a context: what a switch writes there and what a restore reads
back (spec/19 R390 to R392). What the layout does not name, and the engine block, stay with the gang (log 18). -/

namespace Sys2Proof.Machine

/-- The key of a context's save area (R391). -/
def State.saveKey (s : State) (n g : Nat) (w : Who) : Nat :=
  hbmKey n (natFld (s.barN n 0 (gcBlock g + 0x20)) 12 28 * 4096 + (4 * blockNum w.coreId + w.ctx) * 0x42000)

/-- Register files in the area: offset, bytes and register. -/
def saveRegs : List (Nat × Nat × Dest) :=
  let v := fun (off sz n : Nat) (d : Nat → Dest) => (upTo n).map (fun i => (off + sz * i, sz, d i))
  v 0x100 8 32 (fun i => .a (BitVec.ofNat 5 i)) ++ v 0x200 8 32 (fun i => .b (BitVec.ofNat 5 i)) ++
  v 0x400 16 8 (fun i => .mx (BitVec.ofNat 3 i)) ++ v 0x480 16 8 (fun i => .my (BitVec.ofNat 3 i)) ++
  v 0x500 16 8 (fun i => .mz (BitVec.ofNat 3 i)) ++ v 0x600 8 16 (fun i => .g (BitVec.ofNat 4 i)) ++
  v 0x680 8 16 (fun i => .h (BitVec.ofNat 4 i)) ++ v 0x700 8 8 (fun i => .e (BitVec.ofNat 3 i)) ++
  v 0x1000 128 32 (fun i => .x (BitVec.ofNat 5 i)) ++ v 0x2000 128 32 (fun i => .y (BitVec.ofNat 5 i)) ++
  v 0x3000 128 32 (fun i => .z (BitVec.ofNat 5 i)) ++ v 0x4000 128 16 (fun i => .w (BitVec.ofNat 4 i)) ++
  v 0x4800 512 8 (fun i => .c (BitVec.ofNat 3 i))

/-! ## Control and status registers -/

/-- The value saved for a register number; 0 for numbers that name no register of the context. -/
def State.saveCsr (s : State) (w : Who) (n : Nat) : Nat :=
  let c := s.ctx w
  if 0x010 ≤ n ∧ n < 0x016 then (c.regs.get (.lc (BitVec.ofNat 3 (n - 0x010)))).toNat
  else if 0x018 ≤ n ∧ n < 0x01B then (c.regs.get (.rb (BitVec.ofNat 2 (n - 0x018)))).toNat
  else if n = 0x020 ∨ n = 0x04D ∨ n = 0x04E ∨ n = 0x04F ∨ 0x0A0 ≤ n then 0
  else if n = 0 then c.csr.flags.toNat
  else s.csrValue w n
/-- A register taken back from its saved value. ACC_TAG and SPILL_STAT are the core's (`restoreTags`, `restoreSpill`); the retention
registers and GANG_STAT are the chip's (`restoreShared`). -/
def Ctx.csrRestore (n : Nat) (c : Ctx) (v : BitVec 64) : Ctx :=
  let k := c.csr
  let x := v.toNat
  if 0x050 ≤ n ∧ n < 0x060 then { c with csr := { k with ccnt := k.ccnt.mapIdx (fun i y => if i = n - 0x050 then v.setWidth 32 else y) } }
  else if 0x060 ≤ n ∧ n < 0x070 then { c with csr := { k with winBind := k.winBind.mapIdx (fun i y => if i = n - 0x060 then winBindStore v else y) } }
  else if 0x080 ≤ n ∧ n < 0x090 then
    { c with csr := { k with winMax := k.winMax.mapIdx (fun i y => if i = n - 0x080 then BitVec.ofNat 16 (natFld x 16 16) else y),
                             winAvail := k.winAvail.mapIdx (fun i y => if i = n - 0x080 then BitVec.ofNat 16 (natFld x 0 16) else y) } }
  else if 0x010 ≤ n ∧ n < 0x016 then { c with regs := c.regs.set (.lc (BitVec.ofNat 3 (n - 0x010))) (v.setWidth 4096) }
  else if 0x018 ≤ n ∧ n < 0x01B then { c with regs := c.regs.set (.rb (BitVec.ofNat 2 (n - 0x018))) (v.setWidth 4096) }
  else
    match n with
    | 0x000 => { c with csr := { k with flags := v.setWidth 7 } }
    | 0x001 => { c with csr := { k with ovt := ovtStore v } }
    | 0x004 => { c with csr := { k with mode := v.getLsbD 0, pmode := v.getLsbD 1 } }
    | 0x006 =>
      { c with trap := { c.trap with valid := v.getLsbD 31, retry := v.getLsbD 30, reason := BitVec.ofNat 10 (natFld x 19 10),
                                     slots := BitVec.ofNat 11 (natFld x 8 11), code := BitVec.ofNat 8 x } }
    | 0x040 => { c with csr := { k with pinShort := v.setWidth 32 } }
    | 0x042 => { c with csr := { k with mchkFrow := BitVec.ofNat 8 (natFld x 32 8), mchkUnchk := BitVec.ofNat 16 (natFld x 16 16), mchkN := v.setWidth 16 } }
    | 0x043 => { c with csr := { k with engStat := v.setWidth 3 } }
    | 0x047 => { c with csr := { k with ovfHwm := BitVec.ofNat 16 (natFld x 32 16), ovfSpills := BitVec.ofNat 16 (natFld x 16 16) } }
    | 0x04A => { c with csr := { k with poolLimit := BitVec.ofNat 32 (natFld x 32 32), poolAccs := BitVec.ofNat 5 (natFld x 8 5), poolTiles := BitVec.ofNat 8 x } }
    | 0x04B => { c with csr := { k with memClamps := BitVec.ofNat 32 (natFld x 32 32), scopeClamp := v.getLsbD 0 } }
    | 0x04C => { c with csr := { k with revCur := v &&& 0x80FFFFFFFFFFF07F } }
    | 0x079 => { c with csr := { k with slackExh := v.setWidth 32 } }
    | 0x090 => { c with csr := { k with collWovf := BitVec.ofNat 16 (natFld x 32 16), collBusy := BitVec.ofNat 16 (natFld x 16 16), collDone := v.setWidth 16 } }
    | 0x091 => { c with csr := { k with eagerOvrel := v.getLsbD 32, eagerNoslot := v.setWidth 32 } }
    | 0x092 =>
      { c with inSeg := v.getLsbD 0, segRetry := v.getLsbD 1, segSafe := v.getLsbD 2, segIssues := natFld x 16 13,
               csr := { k with segRewinds := BitVec.ofNat 16 (natFld x 48 16), segPrewinds := BitVec.ofNat 8 (natFld x 40 8),
                               segLcause := BitVec.ofNat 4 (natFld x 8 4), segRabt := v.getLsbD 4 } }
    | 0x093 => { c with csr := { k with segEntry := BitVec.ofNat 32 (natFld x 32 32), segGroup := BitVec.ofNat 8 (natFld x 24 8), segWrid := v.setWidth 16 } }
    | n => c.csrStore n v

/-! ## Checksums (R195, R388, R391) -/

/-- The 8 bytes of a row of bsum (log 18). -/
def bsumBytes (v : FVal) : List Byte :=
  bytesOf (match v with
    | .fin ng m e => Config.bsumWord (bit ng) m e
    | .inf ng => Config.bsumWord (2 + bit ng) 0 0
    | .nan => Config.bsumWord 4 0 0).toNat 8
/-- A row of bsum. -/
def bsumRow (l : List FVal) (i : Nat) : FVal := l.getD i (.fin false 0 0)
/-- bsum of the four latches, 1,024 rows each (R391). -/
def bsumArea (m : AMap Nat (List FVal)) : List Byte := (upTo 4).flatMap (fun k => (upTo 1024).flatMap (fun i => bsumBytes (bsumRow (m.get k []) i)))
/-- bsum as its area gives it: a row whose bytes are those of the value kept is that value, and any other a free one. -/
def readBsum (m : AMap Nat (List FVal)) (b : List Byte) : AMap Nat (List FVal) :=
  if b = bsumArea m then m
  else
    (upTo 4).foldl (fun r k => r.set k ((upTo 1024).map (fun i =>
      let v := bsumRow (m.get k []) i
      let x := (b.drop (8192 * k + 8 * i)).take 8
      if x = bsumBytes v then v
      else
        let q := Config.bsumRead (ofBytes x)
        .fin q.1 q.2.1 q.2.2))) m
/-- The f32 pattern of a value. -/
def f32Bits (v : FVal) : Nat := match v with | .fin .. => (roundF 0 0 0 v).1 | .inf ng => infBits 0 ng | .nan => qnan 0
/-- One ck of an accumulator in a side part: an integer in 14 bytes, or an f32 pattern, and which it is (DESIGN CHOICE, log 54). -/
def ckBytes (v : FVal) : List Byte :=
  match v with
  | .fin ng m 0 => bytesOf (wrapN ((if ng then -1 else 1) * (m : Int)) 112) 14 ++ bytesOf 0 1
  | v => bytesOf (f32Bits v) 14 ++ bytesOf 1 1
/-- One ck read back. -/
def readCk (b : List Byte) : FVal := if fieldAt b 14 1 = 0 then intF (sInt (fieldAt b 0 14) 112) else decodeF 0 (fieldAt b 0 4)
/-- Where an accumulator's entry lies in a core's block of the pool save area: in the side part that ends it (R388, log 54). -/
def sideAt (m : Nat) : Nat := 0x400000 + 2048 * m
/-- The entry of an accumulator: ck, uf, and its tag so that 0 says tag 3. -/
def sideBytes (tag : Vector (BitVec 2) 16) (ck : AMap Nat (List FVal)) (uf : AMap Nat (BitVec 128)) (m : Nat) : List Byte :=
  (upTo 128).flatMap (fun i => ckBytes (bsumRow (ck.get m []) i)) ++ bytesOf (uf.get m 0).toNat 16 ++ bytesOf (3 - (tag.toList.getD m 3).toNat) 1
/-- An accumulator's entry read back into a core. -/
def readSide (b : List Byte) (m : Nat) (k : Core) : Core :=
  { k with ck := k.ck.set m ((upTo 128).map (fun i => readCk ((b.drop (15 * i)).take 15))), uf := k.uf.set m (BitVec.ofNat 128 (fieldAt b 1920 16)),
           accTag := k.accTag.mapIdx (fun i t => if i = m then BitVec.ofNat 2 (3 - fieldAt b 1936 1) else t) }

/-! ## Snapshot entries (R391) -/

/-- File code and register of a result a snapshot entry can hold: the files of R41, 9 for predicates, 10 for lane masks. -/
def snapCode (d : Dest) : Option (Nat × Nat) :=
  match d with
  | .a n => some (0, n.toNat) | .b n => some (1, n.toNat) | .x n => some (2, n.toNat) | .y n => some (3, n.toNat)
  | .z n => some (4, n.toNat) | .w n => some (5, n.toNat) | .g n => some (6, n.toNat) | .h n => some (7, n.toNat)
  | .e n => some (8, n.toNat) | .pa n => some (9, n.toNat) | .pb n => some (9, 8 + n.toNat)
  | .mx n => some (10, n.toNat) | .my n => some (10, 8 + n.toNat) | .mz n => some (10, 16 + n.toNat)
  | _ => none
/-- The register a file code and number name. -/
def snapDest (f n : Nat) : Option Dest :=
  match f with
  | 0 => some (.a (BitVec.ofNat 5 n)) | 1 => some (.b (BitVec.ofNat 5 n)) | 2 => some (.x (BitVec.ofNat 5 n))
  | 3 => some (.y (BitVec.ofNat 5 n)) | 4 => some (.z (BitVec.ofNat 5 n)) | 5 => some (.w (BitVec.ofNat 4 n))
  | 6 => some (.g (BitVec.ofNat 4 n)) | 7 => some (.h (BitVec.ofNat 4 n)) | 8 => some (.e (BitVec.ofNat 3 n))
  | 9 => some (if n < 8 then .pa (BitVec.ofNat 3 n) else .pb (BitVec.ofNat 3 n))
  | 10 => some (if n < 8 then .mx (BitVec.ofNat 3 n) else if n < 16 then .my (BitVec.ofNat 3 n) else .mz (BitVec.ofNat 3 n))
  | _ => none
/-- The results of a context that become snapshot entries, with the cycles left as their bounds: those of an earlier restore that it
has not issued after, and those of its units in flight to a register file. -/
def Ctx.snapshots (c : Ctx) (t : Nat) : List Landing :=
  c.snaps ++ (c.flight.filter (fun l => l.id = 0 && (snapCode l.dest).isSome)).map (fun l => { l with bound := l.bound - t })
/-- An entry: an enable bit for each byte that the result writes in part or whole, and the value over the register's. -/
def snapBytes (c : Ctx) (l : Landing) : List Byte :=
  let q := (snapCode l.dest).getD (0, 0)
  let v := Sys2Proof.Machine.merge (c.regs.get l.dest) l.val l.en
  bytesOf q.1 1 ++ bytesOf q.2 1 ++ bytesOf l.bound 1 ++ bytesOf 0 5 ++
    bytesOf (packMask 1 ((upTo 128).map (fun i => natFld l.en.toNat (8 * i) 8 ≠ 0))) 16 ++ bytesOf v.toNat 128
/-- A result from its entry, its bound the cycles left, which count from the context's first issue (R392). -/
def readSnap (b : List Byte) : Option Landing :=
  (snapDest (fieldAt b 0 1) (fieldAt b 1 1)).map (fun d =>
    let en := packMask 8 ((upTo 128).map (fun i => (fieldAt b 8 16).testBit i))
    { dest := d, val := BitVec.ofNat 4096 (fieldAt b 24 128), en := BitVec.ofNat 4096 en &&& d.full, issued := 0,
      bound := fieldAt b 2 1, flags := 0, inst := 0, id := 0, pool := [] })

/-! ## The area -/

/-- STATE (R391). -/
def stateCode (st : CtxState) : Nat :=
  match st with | .running | .ready => 0 | .blocked => 1 | .dormant => 2 | .frozen => 3 | .halted => 4
/-- The state a code names. -/
def stateOf (v : Nat) : CtxState := match v with | 0 => .ready | 1 => .blocked | 2 => .dormant | 3 => .frozen | _ => .halted
/-- A held-operation memory: two syllables, held offset, valid. -/
def heldBytes (h : Held) : List Byte :=
  match h.op.bind encode with
  | some q => bytesOf q.1.toNat 4 ++ bytesOf (q.2.getD 0).toNat 4 ++ bytesOf h.off.toNat 4 ++ bytesOf 1 1
  | none => bytesOf 0 12 ++ bytesOf 0 1
/-- A held-operation memory read back. -/
def readHeld (sl : Slot) (b : List Byte) : Held :=
  if fieldAt b 12 1 = 0 then Held.none
  else
    let w : Syl := BitVec.ofNat 32 (fieldAt b 0 4)
    match decodeSlot sl w (if w.getLsbD 31 then some (BitVec.ofNat 32 (fieldAt b 4 4)) else none) with
    | .ok i => { op := some i, off := BitVec.ofNat 32 (fieldAt b 8 4) }
    | .error _ => Held.none
/-- A view of an eager ring. -/
def viewBytes (v : EagerView) : List Byte := bytesOf v.sent.toNat 4 ++ bytesOf v.tail.toNat 4 ++ bytesOf v.head.toNat 4 ++ bytesOf v.rel.toNat 4
/-- Bytes private to the device, by their identity. -/
def privateRun (id off n : Nat) : List Byte := (upTo n).map (fun i => Config.privateBytes id (off + i))
/-- The identity of a context's private bytes. -/
def blockId (id : Nat) (w : Who) : Nat := id * 1024 + 4 * blockNum w.coreId + w.ctx

/-- The parts of a context's area, by offset (R391); every other byte is 0. -/
def saveParts (s : State) (g : Nat) (w : Who) : List (Nat × List Byte) :=
  let c := s.ctx w
  let t := s.clkOf w
  let id := blockId (s.gang w.chip g).saveId w
  let r := c.retry
  let snaps := (c.snapshots t).take 288
  [(0, bytesOf 0x56435A47 4 ++ bytesOf 1 2 ++ bytesOf (stateCode c.st) 1 ++ bytesOf (bit c.entryNext) 1 ++ bytesOf c.pc.toNat 8 ++ bytesOf c.rep 1),
   (0x12, bytesOf snaps.length 2 ++ bytesOf c.sig.crc.toNat 4 ++ bytesOf c.sig.sigv.toNat 4 ++
     bytesOf (c.latFmt.toList.foldr (fun v a => v.toNat + 16 * a) 0) 2 ++ bytesOf c.fifoA.length 1 ++ bytesOf c.fifoB.length 1),
   (0x20, bytesOf ((r.map (fun q => q.code.toNat)).getD 0) 4),
   (0x28, bytesOf ((r.map (fun q => q.pc.toNat)).getD 0) 8 ++ bytesOf ((r.map (fun q => q.info.toNat)).getD 0) 8),
   (0x40, [c.ids.core, c.ids.clus, c.ids.stage, c.ids.ctx, c.ids.nstages, c.ids.ncores].map (fun v => v.setWidth 8) ++
     bytesOf c.ids.chip.toNat 2 ++ bytesOf c.ids.nchips.toNat 2),
   (0x300, bytesOf (c.regs.pa.toNat ||| 1) 1 ++ bytesOf (c.regs.pb.toNat ||| 1) 1)] ++
  saveRegs.map (fun q => (q.1, bytesOf ((q.2.2.fixed.getD (c.regs.get q.2.2)).toNat) q.2.1)) ++
  (c.held.toList.zipIdx).map (fun q => (0x740 + 16 * q.2, heldBytes q.1)) ++
  (upTo 256).map (fun n => (0x800 + 8 * n, bytesOf (s.saveCsr w n) 8)) ++
  [(0x5800, s.peek (latKey w 0 0) 131072), (0x25800, bsumArea c.bsum)] ++
  (c.fifoA.zipIdx).map (fun q => (0x2D800 + 256 * q.2, q.1.bytes)) ++ (c.fifoB.zipIdx).map (fun q => (0x31800 + 256 * q.2, q.1.bytes)) ++
  c.eager.map (fun q => (0x35C00 + 16 * q.1, viewBytes q.2)) ++
  (snaps.zipIdx).map (fun q => (0x35E00 + 152 * q.2, snapBytes c q.1)) ++ [(0x40900, privateRun id 0 5888)]

/-- Results that no snapshot entry can hold land as the context is saved, which their bounds allow (R30, log 10). -/
def landUnsnapped (s : State) (w : Who) : State :=
  let now := (s.ctx w).flight.filter (fun l => l.id = 0 && (snapCode l.dest).isNone)
  let s1 := s.updCtx w (fun c => now.foldl (fun c l => c.putReg l.inst l.dest l.val l.en) { c with flight := c.flight.filter (fun l => !now.contains l) })
  let s2 := (byStatus now).foldl (landStatus w) s1
  s2.updCtx w (fun c => (c.snapshots 0).foldl (fun c l => c.putFlags l.inst l.flags) c)
/-- The served queues spilled whole to the ring, each before what it has there, and what is on its way there after it (R391). -/
def Ctx.spillAll (c : Ctx) : Ctx :=
  let r := (upTo 4).flatMap c.queueOf ++ c.ring ++ c.ovfWait
  let c1 := { c with eq := [], cq0 := [], cq1 := [], rq := [], ring := r, ovfWait := [] }
  { c1 with csr := { c1.csr with ovfHwm := if c1.csr.ovfHwm.toNat < r.length then BitVec.ofNat 16 r.length else c1.csr.ovfHwm } }
/-- A context saved: its area written, and what the area does not hold kept with the gang. -/
def saveCtx (s : State) (n g : Nat) (w : Who) : State :=
  let s1 := (landUnsnapped s w).updCtx w (fun c =>
    let c1 := c.spillAll
    { c1 with fcyc := (match c1.freeze with | .touch _ => c1.fcyc + (s.clkOf w - c1.fcycFrom) | _ => c1.fcyc) })
  let k := s1.saveKey n g w
  let s2 := (saveParts s1 g w).foldl (fun s p => s.poke (k + p.1) p.2) (zeroRange s1 k 0x42000)
  s2.updGang n g (fun q => { q with savedCtx := q.savedCtx ++ [(w, s1.ctx w)] })

/-- Lines of a context's save area. -/
def State.areaLines (s : State) (n g : Nat) (w : Who) : List Nat :=
  let a := natFld (s.barN n 0 (gcBlock g + 0x20)) 12 28 * 4096 + (4 * blockNum w.coreId + w.ctx) * 0x42000
  (s.chip n).mig.linesIn a 0x42000
/-- A context's save area as it stands: its bytes by key, and the offsets of poisoned ones, of lines that memory holds poisoned or
cannot correct among them (R244). -/
def State.readArea (s : State) (n g : Nat) (w : Who) : List Host.Cell × List Nat :=
  let k := s.saveKey n g w
  let own := fun (p : Nat) => decide (k ≤ p) && decide (p < k + 0x42000)
  (s.mem.filter (fun c => own c.1),
   ((s.poison ++ (s.uncorr ++ s.sunk).filter (fun u => ((s.chip n).hit (u - hbmKey n 0)).isNone)).filter own).map (fun p => p - k))
/-- The machine with a context's save area as the chip read it before it answered READY (R384). -/
def State.areaView (s : State) (n g : Nat) (w : Who) : State :=
  match (s.gang n g).image.find? (fun q => q.1 = w) with | some q => { s with mem := q.2.1 } | none => s
/-- Offsets of poisoned bytes there. -/
def State.areaBad (s : State) (n g : Nat) (w : Who) : List Nat :=
  match (s.gang n g).image.find? (fun q => q.1 = w) with | some q => q.2.2 | none => (s.readArea n g w).2
/-- A context as its area gives it, over what the gang kept of it (R392); whether its cluster has a matrix engine is the cluster's
(R423). A first touch is met afresh, and a freeze resolved meanwhile is over. An area that comes with poison raises POISON in the
context (R244, R334; DESIGN CHOICE, log 45: SLOT 12, KIND 0, ADDR the offset). -/
def readCtx (s0 : State) (n g : Nat) (w : Who) (c0 : Ctx) : Ctx :=
  let s := s0.areaView n g w
  let k := s.saveKey n g w
  let at_ := fun (off len : Nat) => ofBytes (s.peek (k + off) len)
  let c1 : Ctx := (upTo 256).foldl (fun c n => c.csrRestore n (BitVec.ofNat 64 (at_ (0x800 + 8 * n) 8))) c0
  let regs := saveRegs.foldl (fun (r : Regs) q => r.set q.2.2 (BitVec.ofNat 4096 (at_ q.1 q.2.1))) c1.regs
  let fifo := fun (base cnt : Nat) (old : List FifoEntry) =>
    (upTo (min cnt 64)).map (fun i => { (old.getD i ⟨[], false, 0, 0⟩) with bytes := s.peek (k + base + 256 * i) 256 })
  let code := at_ 0x20 4
  let resolved : Bool := match c0.freeze with | .touch _ | .none => true | _ => false
  let st := stateOf (at_ 6 1)
  let c2 : Ctx :=
    { c1 with
      st := if st = .frozen ∧ resolved then (if c0.from_ = .running then .ready else c0.from_) else st,
      freeze := if resolved then .none else c0.freeze,
      trap := { c1.trap with valid := c1.trap.valid && !(resolved && code ≠ 0 && c1.trap.retry) },
      noMatrix := (s.gang n g).kernel.any (fun k => k.noMatrix) || ((s.chip n).coreMap.get w.clus CoreMap.reset).mfail,
      entryNext := (at_ 7 1) % 2 = 1, pc := BitVec.ofNat 64 (at_ 8 8), rep := at_ 0x10 1,
      sig := { c1.sig with crc := BitVec.ofNat 32 (at_ 0x14 4), sigv := BitVec.ofNat 32 (at_ 0x18 4) },
      bsum := readBsum c1.bsum (s.peek (k + 0x25800) 32768),
      latFmt := c1.latFmt.mapIdx (fun i _ => BitVec.ofNat 4 (natFld (at_ 0x1C 2) (4 * i) 4)),
      fifoA := fifo 0x2D800 (at_ 0x1E 1) c1.fifoA, fifoB := fifo 0x31800 (at_ 0x1F 1) c1.fifoB,
      retry := if resolved || code = 0 then none else some ⟨BitVec.ofNat 8 code, BitVec.ofNat 64 (at_ 0x28 8), BitVec.ofNat 64 (at_ 0x30 8)⟩,
      ids := { c1.ids with
        core := BitVec.ofNat 64 (at_ 0x40 1), clus := BitVec.ofNat 64 (at_ 0x41 1), stage := BitVec.ofNat 64 (at_ 0x42 1),
        ctx := BitVec.ofNat 64 (at_ 0x43 1), nstages := BitVec.ofNat 64 (at_ 0x44 1), ncores := BitVec.ofNat 64 (at_ 0x45 1),
        chip := BitVec.ofNat 64 (at_ 0x46 2), nchips := BitVec.ofNat 64 (at_ 0x48 2) },
      regs := { regs with pa := BitVec.ofNat 8 (at_ 0x300 1), pb := BitVec.ofNat 8 (at_ 0x301 1) },
      held := c1.held.mapIdx (fun i _ => readHeld (allSlots.getD i .s0) (s.peek (k + 0x740 + 16 * i) 16)),
      eager := c1.eager.map (fun q => (q.1, { sent := BitVec.ofNat 32 (at_ (0x35C00 + 16 * q.1) 4), tail := BitVec.ofNat 32 (at_ (0x35C04 + 16 * q.1) 4),
                                              head := BitVec.ofNat 32 (at_ (0x35C08 + 16 * q.1) 4), rel := BitVec.ofNat 32 (at_ (0x35C0C + 16 * q.1) 4) })),
      snaps := (upTo (min (at_ 0x12 2) 288)).filterMap (fun i => readSnap (s.peek (k + 0x35E00 + 152 * i) 152)),
      flight := c1.flight.filter (fun l => l.id ≠ 0),
      late := c1.late ++ (s0.areaBad n g w).head?.toList.map (fun off => c1.found 0x05 (memInfo 12 0 off) 0 .none) }
  (upTo 4).foldl (fun c q => c.refill q) c2
/-- The tags of a core's accumulators as the area of its first context gives them (R392). -/
def restoreTags (n g : Nat) (s : State) (c : CoreId) : State :=
  let w : Who := ⟨c.chip, c.clus, c.core, 0⟩
  let v := ofBytes ((s.areaView n g w).peek (s.saveKey n g w + 0x800 + 8 * 0x41) 8)
  s.updCore c (fun k => { k with accTag := k.accTag.mapIdx (fun i _ => BitVec.ofNat 2 (natFld v (2 * i) 2)) })
/-- The engine block as it stands is the one the device wrote (R392). -/
def State.blockIntact (s : State) (n g : Nat) (w : Who) : Bool :=
  (s.areaView n g w).peek (s.saveKey n g w + 0x40900) 5888 = privateRun (blockId (s.gang n g).saveId w) 0 5888
/-- A context restored: its area, its latches' images, and, when its engine block has been altered, undefined latches and
accumulators (R392). -/
def restoreCtx (s : State) (n g : Nat) (q : Who × Ctx) : State :=
  let w := q.1
  let s1 := ((s.areaBad n g w).filter (fun off => decide (0x5800 ≤ off) && decide (off < 0x25800))).foldl
    (fun t off => t.setPoison (latKey w 0 (off - 0x5800)) 1)
    ((s.setCtx w (readCtx s n g w q.2)).poke (latKey w 0 0) ((s.areaView n g w).peek (s.saveKey n g w + 0x5800) 131072))
  if s.blockIntact n g w then s1
  else (s1.updCtx w (fun c => { c with latDef := 0 })).updCore w.coreId (fun k => { k with accTag := Vector.replicate 16 3 })

/-- GANG_STAT taken back. -/
def Gang.putStat (k : Gang) (v : Nat) : Gang :=
  { k with commits := BitVec.ofNat 16 (natFld v 48 16), aborts := BitVec.ofNat 16 (natFld v 32 16), halts := BitVec.ofNat 16 (natFld v 16 16),
           lreason := BitVec.ofNat 4 (natFld v 12 4), lout := BitVec.ofNat 8 (natFld v 0 8) }
/-- The registers that a context shows of its gang context and VF, from its area: one whose saved value has been altered there is
taken back; any other stands as it has gone on since the save (R385, R392; DESIGN CHOICE, log 18). -/
def restoreShared (n g : Nat) (s : State) (w : Who) : State :=
  let reg := fun (i : Nat) => ofBytes ((s.areaView n g w).peek (s.saveKey n g w + 0x800 + 8 * i) 8)
  let q := s.gang n g
  let s1 := if reg 0x94 = q.savedStat then s else s.updGang n g (fun k => k.putStat (reg 0x94))
  (upTo 8).foldl (fun t i =>
    if natFld (reg (0x70 + i)) 0 16 = q.savedRetw.getD i 0 then t else setWays t n (s.gcVf n g) i (natFld (reg (0x70 + i)) 0 16)) s1

end Sys2Proof.Machine
end

