-- ==== Sys2Proof/Machine/Sha.lean ====
section
/-! DEFINITION. Sys2Proof/Machine/Sha.lean: SHA-384, which the spec names without stating it (spec/22 R418, R427, R428):
the standard hash of FIPS 180-4 (log 19). Its constants are taken from the primes, as that standard defines them. -/

namespace Sys2Proof.Machine

/-- The largest number below 2^b above r whose k-th power stays within n, bit by bit. -/
def rootGo (k n : Nat) : Nat → Nat → Nat
  | 0, r => r
  | b + 1, r => rootGo k n b (if (r + 2 ^ b) ^ k ≤ n then r + 2 ^ b else r)
/-- The first 64 bits of the fraction of the k-th root of p. -/
def rootFraction (k p : Nat) : Nat := rootGo k (p * 2 ^ (64 * k)) 70 0 % 2 ^ 64
/-- The primes below 410, of which there are 80. -/
def shaPrimes : List Nat :=
  (upTo 410).filter (fun n => 2 ≤ n && (upTo 19).all (fun d => n % (d + 2) ≠ 0 || n = d + 2))
/-- The constant of each of the 80 rounds: cube roots. -/
def shaConst : List Nat := shaPrimes.map (rootFraction 3)
/-- The eight working words before the first block: square roots of the ninth to the sixteenth prime. -/
def shaSeed : List Nat := ((shaPrimes.drop 8).take 8).map (rootFraction 2)

/-- A word turned right by n places. -/
def turn (n v : Nat) : Nat := (v / 2 ^ n + v * 2 ^ (64 - n)) % 2 ^ 64
/-- A word turned by each of two amounts, and by a third or shifted, combined. -/
def mix (p q : Nat) (z : Nat → Nat) (v : Nat) : Nat := turn p v ^^^ turn q v ^^^ z v

/-- The schedule, newest word first: n words more. -/
def shaWords : Nat → List Nat → List Nat
  | 0, w => w
  | n + 1, w =>
    let word := mix 19 61 (· / 64) (w.getD 1 0) + w.getD 6 0 + mix 1 8 (· / 128) (w.getD 14 0) + w.getD 15 0
    shaWords n (word % 2 ^ 64 :: w)

/-- A round with the sum of its constant and its word: the words shift down, two are new. -/
def shaRound (v : List Nat) (kw : Nat) : List Nat :=
  let at_ := fun (i : Nat) => v.getD i 0
  let choose := at_ 6 ^^^ (at_ 4 &&& (at_ 5 ^^^ at_ 6))
  let most := (at_ 0 &&& (at_ 1 ||| at_ 2)) ||| (at_ 1 &&& at_ 2)
  let x := at_ 7 + mix 14 18 (turn 41) (at_ 4) + choose + kw
  (x + mix 28 34 (turn 39) (at_ 0) + most) % 2 ^ 64 :: v.take 3 ++ ((at_ 3 + x) % 2 ^ 64 :: (v.drop 4).take 3)

/-- The working words after one block of 128 bytes. -/
def shaBlock (h : List Nat) (b : List Byte) : List Nat :=
  let first := (upTo 16).map (fun i => ofBytes ((b.drop (8 * i)).take 8).reverse)
  let out := ((shaWords 64 first.reverse).reverse.zip shaConst).foldl (fun v p => shaRound v (p.1 + p.2)) h
  (h.zip out).map (fun p => (p.1 + p.2) % 2 ^ 64)
/-- The working words after n blocks. -/
def shaBlocks : Nat → List Nat → List Byte → List Nat
  | 0, h, _ => h
  | n + 1, h, b => shaBlocks n (shaBlock h (b.take 128)) (b.drop 128)
/-- What follows a message of n bytes: a one bit, zeros, and the length in bits, to a multiple of 128 bytes. -/
def shaPad (n : Nat) : List Byte := 0x80#8 :: List.replicate ((239 - n % 128) % 128) 0 ++ (bytesOf (8 * n) 16).reverse
/-- SHA-384 of bytes: the first byte of the digest is the highest. -/
def sha384 (b : List Byte) : BitVec 384 :=
  let m := b ++ shaPad b.length
  BitVec.ofNat 384 (((shaBlocks (m.length / 128) shaSeed m).take 6).foldl (fun a w => a * 2 ^ 64 + w) 0)
/-- The digest as bytes, in its own order. -/
def shaBytes (d : BitVec 384) : List Byte := (bytesOf d.toNat 48).reverse
/-- A signature as bytes: r then s, big-endian (R418). -/
def sigBytes (d : BitVec 768) : List Byte := (bytesOf d.toNat 96).reverse

end Sys2Proof.Machine
end

