-- ==== Sys2Proof/Machine/EvAlm.lean ====
section
/-! DEFINITION. Sys2Proof/Machine/EvAlm.lean: the Almanac: slots, frames, deltas, the opening of votes and starts at a slot
boundary, and usage records (spec/19 R375 to R379, R384, R395, spec/22 R428). -/

namespace Sys2Proof.Machine

/-! ## Cells, gangs and messages -/

/-- The gang context a cell names (R377). -/
def cellNames (v : BitVec 64) : Option Nat := if natFld v.toNat 16 2 = 1 ∨ natFld v.toNat 16 2 = 2 then some (natFld v.toNat 0 16) else none
/-- The gang a chip's cell names in the current slot. -/
def State.cellNow (s : State) (n : Nat) : Option Nat := let a := (s.chip n).alm; cellNames (a.cells.get a.idx 0)
/-- The length of a slot; 1 ms where none has been written (log 15). -/
def Alm.len (a : Alm) (i : Nat) : Nat := a.lens.get i 1
/-- Cycles of the pod clock in a millisecond: at full rate a core cycle each (R375, R431). -/
def msCycles : Nat := 700000
/-- The chips of a gang's members, as a chip's member map has them. -/
def State.memberChips (s : State) (n g : Nat) : List Nat := (upTo (s.gcNchips n g)).map (fun m => s.memberChip n g m)
/-- The coordinator's chip (R374). -/
def State.coordOf (s : State) (n g : Nat) : Nat := s.memberChip n g 0
/-- The controller of a chip as the issuer of messages: no core of it (log 53). -/
def voteWho (n : Nat) : Who := ⟨n, 32, 0, 0⟩
/-- The packet of a message: critical, with SLACK 0, SUB 0 and RALLOW 0, in the flow of the controllers (R293, R379). -/
def votePkt (s : State) (n dst seq : Nat) (m : VoteMsg) : Pkt :=
  { id := s.nextId, who := voteWho n, gctx := 256, slot := 10, op := .vote m, va := 0, ea := 0, target := .unit, dst := dst, po := 0,
    ac := 0, ord := 0, scope := 0, ef := false, reach := 5, flow := voteFlow, seq := seq, ordf := false, ords := false, crit := true,
    slack := 0, sub := 0, exh := false, exq := false, evcc := 0, rallow := 0, stage := .router, since := s.now, born := 0, port := 0,
    via := none, resv := false, inst := 0, rev := 0, result := [], rflags := 0, poison := false, fault := 0, performed := false,
    pieces := [], told := 0, win := none, xfer := 0, dropLanding := false, again := false }
/-- A message sent by the controller of a chip; one to itself needs no packet (log 53). -/
def post (s : State) (n dst : Nat) (m : VoteMsg) : State :=
  if dst = n then { s with votes := s.votes ++ [(dst, m)] }
  else
    let q := (s.chip n).useqs.get dst 0
    ({ s.fresh with pkts := s.pkts ++ [votePkt s n dst q m] }).updChip n (fun c => { c with useqs := c.useqs.set dst ((q + 1) % 4096) })
/-- A message sent to chips. -/
def postAll (s : State) (n : Nat) (l : List Nat) (m : VoteMsg) : State := l.foldl (fun s d => post s n d m) s
/-- A message is PREPARE. -/
def VoteMsg.isPrepare (m : VoteMsg) : Bool := match m with | .prepare .. => true | _ => false
/-- A message is ACK. -/
def VoteMsg.isAck (m : VoteMsg) : Bool := match m with | .ack .. => true | _ => false
/-- A message is REFUSE. -/
def VoteMsg.isRefuse (m : VoteMsg) : Bool := match m with | .refuse .. => true | _ => false
/-- A message is COMMIT. -/
def VoteMsg.isCommit (m : VoteMsg) : Bool := match m with | .commit .. => true | _ => false
/-- A message is ABORT. -/
def VoteMsg.isAbort (m : VoteMsg) : Bool := match m with | .abort .. => true | _ => false
/-- A message is READY. -/
def VoteMsg.isReady (m : VoteMsg) : Bool := match m with | .ready .. => true | _ => false
/-- A message is NOTREADY. -/
def VoteMsg.isNotready (m : VoteMsg) : Bool := match m with | .notready .. => true | _ => false
/-- A message is GO. -/
def VoteMsg.isGo (m : VoteMsg) : Bool := match m with | .go .. => true | _ => false
/-- A message is HALT. -/
def VoteMsg.isHalt (m : VoteMsg) : Bool := match m with | .halt .. => true | _ => false
/-- A message is PEERRESET. -/
def VoteMsg.isPeerReset (m : VoteMsg) : Bool := match m with | .peerReset .. => true | _ => false
/-- A message is DELTAS. -/
def VoteMsg.isDeltas (m : VoteMsg) : Bool := match m with | .deltas .. => true | _ => false
/-- A message is REPORT. -/
def VoteMsg.isReport (m : VoteMsg) : Bool := match m with | .report .. => true | _ => false
/-- The boundary that an answer to a start concerns: epoch and slot. -/
def VoteMsg.bound (m : VoteMsg) : Nat × Nat := match m with | .ready _ e i _ => (e, i) | .notready _ e i _ => (e, i) | _ => (0, 0)
/-- The first message to a chip that meets a test removed. -/
def dropMsg (n : Nat) (p : VoteMsg → Bool) : List (Nat × VoteMsg) → List (Nat × VoteMsg)
  | [] => []
  | q :: r => if q.1 = n && p q.2 then r else q :: dropMsg n p r
/-- The first message to a chip that meets a test, and the state without it. -/
def takeMsg (s : State) (n : Nat) (p : VoteMsg → Bool) : Option (VoteMsg × State) :=
  (s.votes.find? (fun q => q.1 = n && p q.2)).map (fun q => (q.2, { s with votes := dropMsg n p s.votes }))
/-- Binnacle of a chip changed. -/
def State.updVote (s : State) (n : Nat) (f : Vote → Vote) : State := s.updChip n (fun c => { c with vote := f c.vote })

/-! ## Run cycles and usage records (R378, R428) -/

/-- The tenant of a VF (R378). -/
def State.tenantOf (s : State) (n vf : Nat) : Nat := natFld (s.barN n 0 (0x30000 + 0x10 * vf)) 0 10
/-- The cycles a gang has run since the last account are added to its own and to its tenant's. -/
def accrue (s : State) (n : Nat) : State :=
  match (s.chip n).running with
  | none => s
  | some g =>
    let d := s.now - (s.gang n g).goClk
    let t := s.tenantOf n (s.gcVf n g)
    (s.updGang n g (fun k => { k with runCyc := k.runCyc + d, goClk := s.now })).updChip n (fun c =>
      { c with alm := { c.alm with runCyc := c.alm.runCyc.set t (c.alm.runCyc.get t 0 + d) } })
/-- The usage of the slot that ends. -/
def State.usageNow (s : State) (n : Nat) : Usage :=
  let a := (s.chip n).alm
  match (s.chip n).running with
  | none => { epoch := a.epoch.toNat, slot := a.idx, tenant := 0xFFFF, vf := 0, gctx := 0, span := 1, runCyc := 0, issues := 0, hbmB := 0, fabB := 0 }
  | some g =>
    let k := s.gang n g
    { epoch := a.epoch.toNat, slot := a.idx, tenant := s.tenantOf n (s.gcVf n g), vf := s.gcVf n g, gctx := g, span := 1, runCyc := k.runCyc,
      issues := k.issues, hbmB := k.hbmBytes, fabB := k.fabBytes }
/-- A record that waits for ring room takes in one more slot. -/
def Usage.join (a b : Usage) : Usage :=
  { b with tenant := if a.tenant = b.tenant ∧ a.gctx = b.gctx then b.tenant else 0xFFFE, span := a.span + b.span, runCyc := a.runCyc + b.runCyc,
           issues := a.issues + b.issues, hbmB := a.hbmB + b.hbmB, fabB := a.fabB + b.fabB }
/-- The 128 bytes of a usage record. -/
def usageBytes (u : Usage) (seq chip : Nat) (prev : BitVec 384) : List Byte :=
  bytesOf seq 8 ++ bytesOf u.epoch 4 ++ bytesOf u.slot 1 ++ bytesOf 0 1 ++ bytesOf chip 2 ++ bytesOf u.tenant 2 ++ bytesOf u.vf 1 ++
    bytesOf u.gctx 1 ++ bytesOf u.span 4 ++ bytesOf u.runCyc 8 ++ bytesOf u.issues 8 ++ bytesOf u.hbmB 8 ++ bytesOf u.fabB 8 ++
    bytesOf 0 8 ++ shaBytes prev ++ bytesOf 0 16
/-- The signature record that follows a usage record: of TYPE 1, over the SHA-384 of that record (log 13). -/
def signatureBytes (seq chip : Nat) (digest : BitVec 384) : List Byte :=
  bytesOf seq 8 ++ bytesOf 0 5 ++ bytesOf 1 1 ++ bytesOf 0 2 ++ sigBytes (Config.sign chip digest) ++ bytesOf 0 16
/-- The signature record that is due is written when the ring has room. -/
def writeSign (s : State) (n : Nat) : State :=
  let c := s.chip n
  if c.urSign && s.ringRoom n 0 0x36000 then
    (ringPut s n 0 0x36000 (signatureBytes (c.urSeq - 1) n c.urPrev)).updChip n (fun c => { c with urSign := false })
  else s
/-- The pending usage record is written when the ring has room, after a signature that is due. -/
def writeUsage (s : State) (n : Nat) : State :=
  let c := s.chip n
  match c.urPend with
  | none => s
  | some u =>
    if c.urSign || !s.ringRoom n 0 0x36000 then s
    else
      let b := usageBytes u c.urSeq n c.urPrev
      writeSign ((ringPut s n 0 0x36000 b).updChip n (fun c =>
        { c with urPend := none, urSeq := c.urSeq + 1, urPrev := sha384 b, urSign := decide (c.urSeq % 64 = 63) })) n
/-- The record of a slot that ends enters the ring, or the pending record. -/
def recordUsage (s : State) (n : Nat) : State :=
  let u := s.usageNow n
  let s1 := (writeSign s n).updChip n (fun c => { c with urPend := some (match c.urPend with | none => u | some p => p.join u) })
  let s2 := match (s.chip n).running with
    | some g => s1.updGang n g (fun k => { k with runCyc := 0, issues := 0, hbmBytes := 0, fabBytes := 0 })
    | none => s1
  writeUsage s2 n

/-! ## The incoming gang (R384) -/

/-- A member may start a gang: it has a launched kernel there, no reset stands in its way, and no checkpoint of it is being
read (R384, R417). -/
def State.mayStart (s : State) (n g : Nat) : Bool :=
  let k := s.gang n g
  k.kernel.any (fun q => q.phase < 2) && !k.resetDone && !(s.chip n).resetting.contains (s.gcVf n g) && k.ckState ≠ 1 && k.ckState ≠ 2 &&
    (s.chip n).running.isNone
/-- The save areas of a gang's contexts as the chip reads them before it answers READY (R384, R392). -/
def readImage (s : State) (n h : Nat) : State :=
  s.updGang n h (fun k => { k with image := k.savedCtx.map (fun q => (q.1, s.readArea n h q.1)) })
/-- A chip that runs nothing answers the coordinator of the gang its cell names: READY, once it has restored the gang's contexts,
or NOTREADY. -/
def startIncoming (s : State) (n : Nat) (aborted : Bool) : State :=
  match s.cellNow n with
  | none => s
  | some h =>
    if (s.chip n).running = some h then s
    else
      let a := (s.chip n).alm
      let m := s.gcMember n h
      if !aborted && s.mayStart n h then
        post ((readImage s n h).updVote n (fun v => { v with sentReady := some (h, a.epoch.toNat, a.idx) })) n (s.coordOf n h) (.ready h a.epoch.toNat a.idx m)
      else post (s.updVote n (fun v => { v with sentReady := none })) n (s.coordOf n h) (.notready h a.epoch.toNat a.idx m)
/-- The coordinator of the gang that its cell names opens a start at the boundary. -/
def openStart (s : State) (n : Nat) : State :=
  match s.cellNow n with
  | none => s
  | some h =>
    let a := (s.chip n).alm
    if s.coordOf n h = n && (s.chip n).running ≠ some h then
      s.updVote n (fun v =>
        if v.inGang = some h ∧ v.inEpoch = a.epoch.toNat ∧ v.inSlot = a.idx then { v with startClk := s.cycNow n }
        else { v with inGang := some h, inEpoch := a.epoch.toNat, inSlot := a.idx, startClk := s.cycNow n, readies := [], decided := false })
    else s
/-- A member whose cell does not name a gang that its coordinator's cell for the slot names sends NOTREADY (R384). -/
def refuseOthers (s : State) (n : Nat) : State :=
  let a := (s.chip n).alm
  (upTo 256).foldl (fun s g =>
    let co := (s.chip (s.coordOf n g)).alm
    if natFld (s.gcCtl n g) 0 1 = 1 && s.cellNow n ≠ some g && (s.chip n).running ≠ some g && cellNames (co.cells.get a.idx 0) = some g then
      post s n (s.coordOf n g) (.notready g a.epoch.toNat a.idx (s.gcMember n g))
    else s) s

/-! ## SLOT_BOUNDARY (R375 to R379) -/

/-- The outgoing vote opens: PREPARE to every member. -/
def openVote (s : State) (n g : Nat) : State :=
  let a := (s.chip n).alm
  postAll (s.updVote n (fun v => { v with coord := some g, cEpoch := a.epoch.toNat, cSlot := a.idx, prepClk := s.cycNow n, acks := [] })) n
    (s.memberChips n g) (.prepare g a.epoch.toNat a.idx)
/-- Every member's kernel of a gang has ended. -/
def State.allEnded (s : State) (n g : Nat) : Bool := (s.memberChips n g).all (fun m => (s.gang m g).kernel.all (fun k => k.phase = 2))
/-- A change of slot lengths. -/
def addLens (m : AMap Nat Nat) (d : List (Nat × Int)) : AMap Nat Nat := d.foldl (fun m q => m.set q.1 ((m.get q.1 1 : Int) + q.2).toNat) m
/-- A frame boundary: staged cells and lengths take effect, deltas whose boundary has come are applied. -/
def Alm.frame (a : Alm) : Alm :=
  let due := (a.deltas.filter (fun q => q.1 ≤ 1)).flatMap (fun q => q.2)
  { a with cells := a.stagedCells.foldl (fun m q => m.set q.1 q.2) a.cells,
           lens := addLens (a.stagedLens.foldl (fun m q => m.set q.1 q.2) a.lens) due,
           stagedLens := addLens (due.foldl (fun m q => m.set q.1 (a.stagedLens.get q.1 (a.lens.get q.1 1))) a.stagedLens) due,
           deltas := (a.deltas.filter (fun q => 1 < q.1)).map (fun q => (q.1 - 1, q.2)) }
/-- Where the pod time base stands for a column that begins: the epoch and the clock of the frame boundary it begins at. -/
structure Base where
  epoch : BitVec 32
  clk : Nat
  deriving DecidableEq, Repr
/-- The column at the next slot; the first boundary begins a frame at the pod time base. -/
def Alm.advance (a : Alm) (b : Base) : Alm :=
  let go := fun (a : Alm) (t : Nat) => { a with due := t + a.len a.idx * msCycles }
  if !a.begun then go { a.frame with begun := true, idx := 0, epoch := b.epoch } b.clk
  else if a.idx < a.nslots then go { a with idx := a.idx + 1 } a.due
  else go { a.frame with idx := 0, epoch := a.epoch + 1, ended := true, lastRun := a.runCyc, runCyc := [], lastCells := a.cells,
                         lastLens := a.lens, lastN := a.nslots } a.due
/-- Cycles within which a column follows the time base, so that a boundary falls within 1,400 cycles on every chip (R375). -/
def baseSlip : Nat := 1000
/-- The time base at which a chip's column may begin now: its own, when no column's frames advance; else the frame that another
column has just begun (R375; DEDUCED, log 31). -/
def State.podBase (s : State) (n : Nat) : Option Base :=
  match s.chips.find? (fun c => c.1 ≠ n && c.2.alm.run && c.2.alm.begun) with
  | none => some ⟨(s.chip n).alm.epoch, s.now⟩
  | some (_, c) =>
    let a := c.alm
    let t := a.due - a.len 0 * msCycles
    if a.idx = 0 ∧ s.now ≤ t + baseSlip then some ⟨a.epoch, t⟩ else none
/-- A column's boundary is overdue by the pod time base. -/
def State.overdue (s : State) (n : Nat) : Bool :=
  let c := s.chip n
  c.alm.run && c.alm.begun && !c.frozen && decide (c.alm.due + baseSlip ≤ s.now)
/-- SLOT_BOUNDARY of a chip: the slot ends, and a switch or a start opens. -/
def execSlotBoundary (s : State) : Out :=
  let n := s.sel.who.chip
  let a := (s.chip n).alm
  if !a.run || (a.begun && decide (s.now < a.due)) || (!a.begun && (s.podBase n).isNone) then .fault .notEnabled
  else
    let s1 := if a.begun then recordUsage (accrue s n) n else s
    let s2 := s1.updChip n (fun c => { c with alm := c.alm.advance ((s.podBase n).getD ⟨0, 0⟩) })
    let s3 := refuseOthers (openStart s2 n) n
    .next (match (s.chip n).running with
      | some g => if s.coordOf n g = n && (s3.cellNow n ≠ some g || s3.allEnded n g) then openVote s3 n g else s3
      | none => startIncoming s3 n false)

/-! ## FRAME_END_REPORT, ALMANAC_DELTAS (R378) -/

/-- The master's chip. -/
def State.masterChip (s : State) : Option Nat := (s.chips.find? (fun c => c.2.alm.master)).map (·.1)
/-- FRAME_END_REPORT: run cycles of each tenant, the tenant of each slot's cell, and the frame's cycles, all of the frame that has
ended. -/
def execFrameEndReport (s : State) : Out :=
  let n := s.sel.who.chip
  let a := (s.chip n).alm
  if !a.ended then .fault .notEnabled
  else
    let slots := upTo (a.lastN + 1)
    let cells := slots.filterMap (fun i => (cellNames (a.lastCells.get i 0)).map (fun g => (i, s.tenantOf n (s.gcVf n g))))
    let s1 := s.updChip n (fun c => { c with alm := { c.alm with ended := false } })
    .next (match s.masterChip with
      | some m => post s1 n m (.report n a.lastRun cells (slots.foldl (fun t i => t + a.lastLens.get i 1 * msCycles) 0))
      | none => s1)
/-- The tenants of a chip, by number, with their targets: every number that a VF has, tenant 0 among them, and every one that a
report names; of several VFs of one tenant the first that has a target gives it (DESIGN CHOICE, log 31). -/
def State.tenants (s : State) (n : Nat) : List (Nat × Nat) :=
  let target := fun (v : Nat) => natFld (s.barN n 0 (0x30000 + 0x10 * v)) 16 10
  (upTo 1024).filterMap (fun t =>
    if (upTo 126).any (fun v => s.tenantOf n v = t) || (s.chip n).alm.reports.any (fun r => r.2.1.any (fun q => q.1 = t)) then
      some (t, (((upTo 126).find? (fun v => s.tenantOf n v = t && target v ≠ 0)).map target).getD 0)
    else none)
/-- The best of a list under a strict order, the first on a tie. -/
def pickBest {α : Type} (better : α → α → Bool) : List α → Option α
  | [] => none
  | x :: r => match pickBest better r with | none => some x | some y => some (if better y x then y else x)
/-- The slot that holds most cells of a tenant, the lowest index on a tie. -/
def mostCells (cells : List (Nat × Nat)) (t : Nat) : Nat :=
  ((pickBest (fun (x y : Nat × Nat) => y.2 < x.2) ((upTo 16).map (fun i => (i, (cells.filter (fun c => c = (i, t))).length)))).map (·.1)).getD 0
/-- The length that a slot has once the staged lengths and the deltas still to come have taken effect. -/
def Alm.lenToBe (a : Alm) (i : Nat) : Nat :=
  (addLens (a.stagedLens.foldl (fun m q => m.set q.1 q.2) a.lens) (a.deltas.flatMap (fun q => q.2))).get i 1
/-- The master's adjustment (R378). It tests the lengths that the slots will have as it takes effect, so that none leaves 1 to
1,000 (DEDUCED, log 31). -/
def deltasOf (a : Alm) (ten : List (Nat × Nat)) : List (Nat × Int) :=
  let total := a.reports.foldl (fun t r => t + r.2.2.2) 0
  let run := fun (t : Nat) => a.reports.foldl (fun k r => k + (r.2.1.filter (fun q => q.1 = t)).foldl (fun x q => x + q.2) 0) 0
  let d : List (Nat × Int) := ten.map (fun q => (q.1, ((q.2 * total / 1024 : Nat) : Int) - ((run q.1 : Nat) : Int)))
  let cells := a.reports.flatMap (fun r => r.2.2.1)
  match pickBest (fun (x y : Nat × Int) => decide (y.2 < x.2)) (d.filter (fun q => 0 < q.2)),
        pickBest (fun (x y : Nat × Int) => decide (x.2 < y.2)) (d.filter (fun q => q.2 < 0)) with
  | some up, some down =>
    let su := mostCells cells up.1
    let sd := mostCells cells down.1
    if su ≠ sd && decide (a.step + 1 ≤ a.lenToBe sd) && decide (a.lenToBe su + a.step ≤ 1000) then [(sd, -(a.step : Int)), (su, (a.step : Int))] else []
  | _, _ => []
/-- Chips whose frames advance. -/
def State.columns (s : State) : List Nat := (s.chips.filter (fun c => c.2.alm.run)).map (·.1)
/-- ALMANAC_DELTAS: a report reaches the master, which, holding every column's, broadcasts its deltas; a column takes them, to
apply at the second frame boundary that follows when ADJ is 1. -/
def execAlmanacDeltas (s : State) : Out :=
  let n := s.sel.who.chip
  let a := (s.chip n).alm
  match takeMsg s n VoteMsg.isDeltas, takeMsg s n VoteMsg.isReport with
  | some (.deltas d, s1), _ =>
    .next (s1.updChip n (fun c => { c with alm := { c.alm with deltas := if c.alm.adj then c.alm.deltas ++ [(2, d)] else c.alm.deltas } }))
  | _, some (.report ch run cells frame, s1) =>
    .next (s1.updChip n (fun c => { c with alm := { c.alm with reports := c.alm.reports ++ [(ch, run, cells, frame)] } }))
  | _, _ =>
    if a.master && !a.reports.isEmpty && s.columns.all (fun c => a.reports.any (fun r => r.1 = c)) then
      .next (postAll (s.updChip n (fun c => { c with alm := { c.alm with reports := [] } })) n s.columns (.deltas (deltasOf a (s.tenants n))))
    else .fault .notEnabled

/-! ## ALMW_APPLY (R395) -/

/-- The value is one that a cell or a length may hold. -/
def almwOk (len : Bool) (nslots slot : Nat) (v : BitVec 64) : Bool :=
  decide (slot ≤ nslots) &&
    (if len then decide (0 < v.toNat) && decide (v.toNat ≤ 1000)
     else
       let kind := natFld v.toNat 16 2
       let g := natFld v.toNat 0 16
       natFld v.toNat 18 46 = 0 && kind ≠ 3 && decide (g ≤ 255) && !(kind = 0 && g ≠ 0))
/-- ALMW_APPLY: the command at the head of a context's queue stages a cell or a length. -/
def execAlmwApply (s : State) : Out :=
  let w := s.sel.who
  let n := w.chip
  match (s.ctx w).eHead with
  | none => .fault .notEnabled
  | some k =>
    let a := (s.chip n).alm
    let go := fun (o : EOp) (len : Bool) =>
      let slot := natFld o.ext.imm.toNat 0 4
      let s1 := clearHead s w
      if !almwOk len a.nslots slot k.ea then Host.Outcome.next (finishCmd s1 w k.id k.inst o.cc.toNat (BitVec.allOnes 64))
      else if len then
        Host.Outcome.next (finishCmd (s1.updChip n (fun c => { c with alm := { c.alm with stagedLens := c.alm.stagedLens.set slot k.ea.toNat } })) w k.id k.inst
          o.cc.toNat (BitVec.ofNat 64 (a.stagedLens.get slot (a.len slot))))
      else
        Host.Outcome.next (finishCmd (s1.updChip n (fun c => { c with alm := { c.alm with stagedCells := c.alm.stagedCells.set slot k.ea } })) w k.id k.inst
          o.cc.toNat (a.stagedCells.get slot (a.cells.get slot 0)))
    match k.op with
    | .almw o => go o false
    | .almwLen o => go o true
    | _ => .fault .notEnabled

end Sys2Proof.Machine
end

