-- ==== Sys2Proof/Machine/EvVote.lean ====
section
/-! DEFINITION. Sys2Proof/Machine/EvVote.lean: Binnacle's vote, the switch of gangs, first touch and VF reset (spec/19 R379
to R393). -/

namespace Sys2Proof.Machine

/-! ## PREPARE and PREEMPTION_REQUEST (R380, R390) -/

/-- A context stands in the rendezvous stall of R340. -/
def State.inRendezvous (s : State) (w : Who) : Bool :=
  let c := s.ctx w
  c.st = .running && c.arrive = .again && !c.holds.isEmpty && (s.rawAt w c.pc.toNat).rdv.isSome
/-- The reason a member refuses PREPARE with; 0 when it does not (R380). -/
def State.refusal (s : State) (n g epoch slot : Nat) : Nat :=
  let a := (s.chip n).alm
  if (s.chip n).resetting.contains (s.gcVf n g) then 1
  else if (s.chip n).running ≠ some g then 0
  else if (s.ctxsOf n).any s.inRendezvous then 2
  else if s.cellNow n = some g || a.epoch.toNat ≠ epoch || a.idx ≠ slot then 3
  else 0
/-- The member sends ACK once every context has stopped. -/
def maybeAck (s : State) (n g : Nat) : State :=
  let v := (s.chip n).vote
  if v.member = some g && !v.acked && (s.ctxsOf n).all (fun w => v.stopped.contains w) then
    let k := s.gang n g
    post (s.updVote n (fun v => { v with acked := true, holdClk := s.now, ackClk := s.cycNow n, lastS := k.sCnt, lastR := k.rCnt })) n (s.coordOf n g)
      (.ack g v.epoch v.slotIdx (s.gcMember n g) k.sCnt k.rCnt)
  else s
/-- A member sends REFUSE with a reason (R380, R398). -/
def refuse (s : State) (n g epoch slot r : Nat) : State :=
  post (s.updGang n g (fun k => { k with lreason := BitVec.ofNat 4 r })) n (s.coordOf n g) (.refuse g epoch slot (s.gcMember n g) r)
/-- PREPARE at a member. -/
def prepare (s : State) (n g epoch slot : Nat) : State :=
  let r := s.refusal n g epoch slot
  if r ≠ 0 then refuse s n g epoch slot r
  else if (s.chip n).running ≠ some g then post s n (s.coordOf n g) (.ack g epoch slot (s.gcMember n g) [] [])
  else
    maybeAck (s.updVote n (fun v =>
      { v with member := some g, epoch := epoch, slotIdx := slot, stopped := [], acked := false, openClk := s.now, held := [] })) n g
/-- PREPARE. -/
def execPrepare (s : State) : Out :=
  match takeMsg s s.sel.who.chip VoteMsg.isPrepare with
  | some (.prepare g e i, s1) => .next (prepare s1 s.sel.who.chip g e i)
  | _ => .fault .notEnabled

/-- A context has stopped for a vote. -/
def stopFor (s : State) (w : Who) (g : Nat) : State :=
  let s1 := (leaveCore s w).updCtx w (fun c => if c.st = .running then { c with st := .ready } else c)
  maybeAck (s1.updVote w.chip (fun v => { v with stopped := v.stopped ++ [w] })) w.chip g
/-- PREEMPTION_REQUEST: the context `who` stops: a rewind-safe instance is rewound, also one that has been rewound and not
issued again, another one commits first, and elsewhere the context is served in place (R341, R390). -/
def execPreemptionRequest (s : State) : Out :=
  let w := s.sel.who
  let c := s.ctx w
  match (s.chip w.chip).vote.member with
  | none => .fault .notEnabled
  | some g =>
    if (s.chip w.chip).vote.stopped.contains w || !(s.ctxsOf w.chip).contains w then .fault .notEnabled
    else if !c.inSeg then .next (stopFor s w g)
    else if c.segSafe then .next (stopFor (rewind s w 1 false) w g)
    else if c.entryNext then .next (stopFor s w g)
    else if s.commitReady w then .next (stopFor (commitNow s) w g)
    else .fault .notEnabled

/-! ## The coordinator of the outgoing gang (R379, R381) -/

/-- Sent and accepted counts agree for every pair of members. -/
def drained (members : Nat) (acks : List (Nat × AMap Nat Nat × AMap Nat Nat)) : Bool :=
  (upTo members).all (fun m => (upTo members).all (fun p =>
    match acks.find? (fun a => a.1 = m), acks.find? (fun a => a.1 = p) with
    | some a, some b => a.2.1.get p 0 = b.2.2.get m 0
    | _, _ => false))
/-- The vote closes with a message to every member. -/
def closeVote (s : State) (n g : Nat) (m : VoteMsg) : State :=
  postAll (s.updVote n (fun v => { v with coord := none, acks := [] })) n (s.memberChips n g) m
/-- A message concerns the vote that the coordinator has open. -/
def Vote.opened (v : Vote) (g epoch slot : Nat) : Bool := v.coord = some g && v.cEpoch = epoch && v.cSlot = slot
/-- ACK: COMMIT as soon as the counts are drained (R381). -/
def execAck (s : State) : Out :=
  let n := s.sel.who.chip
  match takeMsg s n VoteMsg.isAck with
  | some (.ack g e i m sc rc, s1) =>
    let v := (s.chip n).vote
    if v.opened g e i then
      let l := v.acks.filter (fun a => a.1 ≠ m) ++ [(m, sc, rc)]
      let s2 := s1.updVote n (fun v => { v with acks := l })
      .next (if drained (s.gcNchips n g) l then closeVote s2 n g (.commit g e i) else s2)
    else .next s1
  | _ => .fault .notEnabled
/-- ACK_RESEND: 700 cycles after the last ACK, while the counts change (R380). -/
def execAckResend (s : State) : Out :=
  let n := s.sel.who.chip
  let v := (s.chip n).vote
  match v.member with
  | none => .fault .notEnabled
  | some g =>
    let k := s.gang n g
    if v.acked && decide (v.ackClk + 700 ≤ s.cycNow n) && (v.lastS ≠ k.sCnt || v.lastR ≠ k.rCnt) then
      .next (post (s.updVote n (fun v => { v with ackClk := s.cycNow n, lastS := k.sCnt, lastR := k.rCnt })) n (s.coordOf n g)
        (.ack g v.epoch v.slotIdx (s.gcMember n g) k.sCnt k.rCnt))
    else .fault .notEnabled
/-- REFUSE: the coordinator writes its reason, also when the vote is decided already, and sends ABORT (R381, R398). -/
def execRefuse (s : State) : Out :=
  let n := s.sel.who.chip
  match takeMsg s n VoteMsg.isRefuse with
  | some (.refuse g e i _ r, s1) =>
    let s2 := s1.updGang n g (fun k => { k with lreason := BitVec.ofNat 4 r })
    .next (if (s.chip n).vote.opened g e i then closeVote s2 n g (.abort g e i 2) else s2)
  | _ => .fault .notEnabled
/-- VOTE_TIMEOUT: 14,000 cycles after PREPARE, COMMIT when every member has sent ACK, else ABORT (R381). -/
def execVoteTimeout (s : State) : Out :=
  let n := s.sel.who.chip
  let v := (s.chip n).vote
  match v.coord with
  | none => .fault .notEnabled
  | some g =>
    if s.cycNow n < v.prepClk + 14000 then .fault .notEnabled
    else if (upTo (s.gcNchips n g)).all (fun m => v.acks.any (fun a => a.1 = m)) then .next (closeVote s n g (.commit g v.cEpoch v.cSlot))
    else .next (closeVote s n g (.abort g v.cEpoch v.cSlot 3))

/-! ## COMMIT (R382, R386 to R391) -/

/-- What becomes of a packet of the gang at COMMIT: captured on its way out or in, kept with the gang's own units, or left
where it is, on a link or at another chip. -/
inductive Fate where
  | out | in_ | keep | leave
  deriving DecidableEq, Repr
/-- Every copy of a packet on a link has failed its tag and waits at its sender's egress to be sent again (R299). -/
def State.unsent (s : State) (p : Pkt) : Bool :=
  let l := s.wires.filter (fun w => w.pkt = p.id)
  !l.isEmpty && l.all (fun w => !w.out)
/-- The fate of a packet of the gang at a member: out of the egress side of its path, in from the ingress side. -/
def State.fate (s : State) (p : Pkt) (n : Nat) : Fate :=
  let own := p.who.chip = n
  let here := p.dst = n
  let sent := if here then (if own then Fate.keep else .out) else .leave
  let come := if here then (if own then Fate.keep else .in_) else .leave
  match p.stage with
  | .router | .egress | .bridge 0 => if own then (if here then .keep else .out) else .leave
  | .link => if own && s.unsent p then .out else .leave
  | .ingress | .reorder | .inRouter | .bridge 1 | .target | .voteHold | .absent | .slice | .wmHold | .mc .. | .sorrel | .dlog | .ready => come
  | .parked => if here then .keep else .leave
  | .replyRouter | .bridge 2 | .replyEgress => sent
  | .replyLink => if here && s.unsent p then .out else .leave
  | .buffered | .core | .readout | .landing | .replyIngress | .replyOut | .bridge _ | .home => if own then .keep else .leave
/-- An access to this chip's own memory, or a reply that has come, that the save lets land first (R390). -/
def State.stillLands (s : State) (n : Nat) (p : Pkt) : Bool :=
  p.who.chip = n &&
    (match p.stage with
     | .router | .bridge 0 | .slice | .wmHold | .mc .. | .replyRouter | .bridge 2 => p.dst = n
     | .target => p.dst = n && (match p.op with | .store _ | .load .. | .row .. | .atomic .. => s.mayPerform p | _ => false)
     | .ready => p.dst = n && !s.hostDown p && s.inTurn p
     | .replyIngress | .replyOut | .bridge _ | .home => true
     | .landing => (match p.op with | .load .. | .atomic .. => true | _ => false)
     | _ => false)
/-- Nothing stands in the way of the save: own accesses and started copies have landed. -/
def State.settled (s : State) (n g : Nat) : Bool :=
  !s.pkts.any (fun p => p.gctx = g && s.stillLands n p) &&
    (s.cores.filter (fun p => p.1.chip = n)).all (fun p => (p.2.cur0.toList ++ p.2.cur1.toList).all (fun r => r.cmd.toFifo))
/-- A kept packet that waited for a dirty record asks again after the next GO. -/
def Pkt.kept (p : Pkt) : Pkt :=
  if p.stage = .dlog then { p with stage := (match p.op with | .slot .. => .target | _ => .ready) } else p
/-- A packet on its way out is captured. One whose copies all wait to be sent again is unsent, so that it is no longer counted
in S until it is granted afresh (R381; log 53). -/
def captureOut (s : State) (n g : Nat) (p : Pkt) : State :=
  let m := s.gcMember p.goes g
  let back := p.stage = .link ∨ p.stage = .replyLink
  let s1 := if back then
      { s with wires := s.wires.filter (fun w => w.pkt ≠ p.id) }.updGang n g (fun k => { k with sCnt := k.sCnt.set m ((k.sCnt.get m 0 + 2 ^ 32 - 1) % 2 ^ 32) })
    else s
  capture s1 n g (if back then { p with stage := if p.isBack then .replyEgress else .egress } else p) true
/-- Packets of the gang leave the chip's units: captured in order, or kept. -/
def capturePkts (s : State) (n g : Nat) : State :=
  let l := s.pkts.filter (fun p => p.gctx = g)
  let keep := l.filter (fun p => s.fate p n = Fate.keep)
  let s1 := l.foldl (fun t p => match s.fate p n with | .out => captureOut t n g p | .in_ => capture t n g p false | _ => t) s
  { s1 with pkts := s1.pkts.filter (fun p => !keep.any (fun q => q.id = p.id)),
            xfers := s1.xfers.filter (fun x => x.who.chip ≠ n), reqs := s1.reqs.filter (fun q => q.who.chip ≠ n) }.updGang n g (fun k =>
    { k with kept := keep.map Pkt.kept, keptX := s.xfers.filter (fun x => x.who.chip = n), keptR := s.reqs.filter (fun q => q.who.chip = n) })
/-- What a core holds of the gang that leaves it. -/
def Core.saved (k : Core) : CoreSave := { mq := k.mq, accTag := k.accTag, ck := k.ck, uf := k.uf, cur0 := k.cur0, cur1 := k.cur1 }
/-- A core without a gang: its clock goes on, and units keep their owners. -/
def Core.cleared (k : Core) : Core :=
  { Core.reset with clk := k.clk, units := k.units.map (fun q => (q.1, { q.2 with wanted := false, moving := false })) }
/-- A context without a gang: what the runtime loads stays. -/
def clearedCtx (w : Who) (c : Ctx) : Ctx :=
  let z := Ctx.reset w
  { z with csr := { z.csr with ovt := c.csr.ovt, winBind := c.csr.winBind, winMax := c.csr.winMax, winAvail := c.csr.winMax, occLimit := c.csr.occLimit } }
/-- The gang is switched out of the chip: contexts chosen for a task are Ready at its entry (R238), its packets are captured, its
contexts and cores saved. -/
def switchOut (s0 : State) (n g : Nat) : State :=
  let s := startPicked s0 n
  let ws := s.ctxsOf n
  let s1 := ((capturePkts (accrue s n) n g).fresh.updGang n g (fun k =>
    { k with saveId := s.nextId, savedCtx := [], image := [], ckEpoch := (s.chip n).alm.epoch.toNat, ckCslot := (s.chip n).alm.idx,
             commits := if k.commits = 0xFFFF then k.commits else k.commits + 1, lout := 1 })).updGang n g (fun k =>
    { k with savedStat := k.stat, savedRetw := (upTo 8).map (fun i => (s.chip n).retw.get (s.gcVf n g, i) 0) })
  let s2 := ws.foldl (fun s w => saveCtx s n g w) s1
  let mine := s2.cores.filter (fun (p : CoreId × Core) => p.1.chip = n)
  let s3 := s2.updGang n g (fun k => { k with cores := mine.map (fun (p : CoreId × Core) => (p.1, p.2.saved)) })
  let s4 := { s3 with cores := s3.cores.map (fun (p : CoreId × Core) => if p.1.chip = n then (p.1, p.2.cleared) else p) }
  (ws.foldl (fun s w => s.updCtx w (clearedCtx w)) s4).updChip n (fun c => { c with running := none, vote := { c.vote with member := none, held := [], stopped := [] } })
/-- Slots of its ring that a save of a context writes, which spills the served queues whole (R391). -/
def Ctx.saveSlots (c : Ctx) : List Nat :=
  let k := ((upTo 4).map c.queueLen).foldl (· + ·) c.ovfWait.length
  if k = 0 then [] else upTo (k + c.ring.length)
/-- The first clean page that the saves of a gang write, and the context of that save (R369). -/
def State.savePage (s : State) (n : Nat) : Option (Who × Nat × Nat) :=
  (s.ctxsOf n).findSome? (fun w => ((ovfMeets s w (s.ctx w).saveSlots true).2).map (fun q => (w, q)))
/-- COMMIT at a member: the gang is switched out, and the gang its cell names may start (R382, R384); a member at which it does
not run notes the outcome. The saves wait for their dirty records and for a period that moves (R369, R409). -/
def execCommit (s : State) : Out :=
  let n := s.sel.who.chip
  match takeMsg s n VoteMsg.isCommit with
  | some (.commit g _ _, s1) =>
    if (s.chip n).vote.member ≠ some g || (s.chip n).running ≠ some g then
      .next (if (s.chip n).running = some g then s1 else s1.updGang n g (fun k => { k with lout := 1 }))
    else if !s.settled n g then .fault .notEnabled
    else
      match s.savePage n with
      | some (w, e, p) => if s.dirtyAsked n g e p then .fault .notEnabled else .next (askDirty s n g w e p)
      | none =>
        unitGate s ((s.ctxsOf n).flatMap (fun w => (s.areaLines n g w).map (fun a => (n, a)))) (.next (startIncoming (switchOut s1 n g) n false))
  | _ => .fault .notEnabled
/-- Since when a packet that was held from a clock on counts as waiting, as the hold ends: the hold is not charged (R282). -/
def heldSince (since hold now : Nat) : Nat := now - (hold - since)
/-- A member goes on after an aborted vote: held requests stand in ingress again in the order they arrived, and injection
restarts (R383); what waited for the vote has not been eligible meanwhile (R282). -/
def reopen (s : State) (n g : Nat) : State :=
  let v := (s.chip n).vote
  let s1 := s.updVote n (fun v => { v with member := none, stopped := [] })
  let back := fun (p : Pkt) =>
    if p.gctx ≠ g then p
    else if p.stage = .voteHold ∧ p.dst = n then { p with stage := .ingress, since := s.now }
    else if (p.stage = .egress ∨ p.stage = .replyEgress) ∧ p.leaves = n ∧ !p.isVote then { p with since := heldSince p.since v.openClk s.now }
    else if p.dst = n ∧ s.voteStops p then { p with since := heldSince p.since v.holdClk s.now }
    else p
  { s1 with pkts := s1.pkts.map back,
            wires := s1.wires.map (fun w => if w.gctx = g ∧ w.leaves = n ∧ !w.out ∧ !w.unit then { w with since := heldSince w.since v.openClk s.now } else w) }
/-- ABORT at a member, one that refused among them: it is counted, the gang holds the new slot, and the gang that the cell names
is answered NOTREADY unless the chip runs another one (R383 to R385). -/
def execAbort (s : State) : Out :=
  let n := s.sel.who.chip
  match takeMsg s n VoteMsg.isAbort with
  | some (.abort g _ _ why, s1) =>
    let s2 := if (s.chip n).vote.member = some g then reopen s1 n g else s1
    let s3 := s2.updGang n g (fun k => { k with aborts := if k.aborts = 0xFFFF then k.aborts else k.aborts + 1, lout := BitVec.ofNat 8 why })
    .next (if (s.chip n).running.all (fun k => k = g) then startIncoming s3 n true else s3)
  | _ => .fault .notEnabled

/-! ## The coordinator of the incoming gang (R384) -/

/-- A boundary stands before the chip's current one, at it, or after it. -/
def Alm.past (a : Alm) (epoch slot : Nat) : Bool := epoch < a.epoch.toNat || (epoch = a.epoch.toNat && slot < a.idx)
def Alm.here (a : Alm) (epoch slot : Nat) : Bool := epoch = a.epoch.toNat && slot = a.idx
/-- The coordinator has a start of the gang open at the boundary. -/
def Vote.starting (v : Vote) (g epoch slot : Nat) : Bool := v.inGang = some g && v.inEpoch = epoch && v.inSlot = slot
/-- The start is decided by a message to every member. -/
def decideStart (s : State) (n g : Nat) (m : VoteMsg) : State := postAll (s.updVote n (fun v => { v with decided := true })) n (s.memberChips n g) m
/-- The start is not to be: HALT. -/
def haltStart (s : State) (n g epoch slot : Nat) : State := decideStart s n g (.halt g epoch slot)
/-- An answer to a start arrives: dropped when its boundary is past, taken at the coordinator's own boundary (log 6). -/
def takeAnswer (s : State) (n : Nat) (p : VoteMsg → Bool) (bound : VoteMsg → Nat × Nat) : Option (VoteMsg × State) :=
  takeMsg s n (fun m => p m && ((s.chip n).alm.past (bound m).1 (bound m).2 || (s.chip n).alm.here (bound m).1 (bound m).2))
/-- READY: GO when every member is READY; a start that the coordinator's own cell does not name is halted. -/
def execReady (s : State) : Out :=
  let n := s.sel.who.chip
  match takeAnswer s n VoteMsg.isReady VoteMsg.bound with
  | some (.ready g e i m, s1) =>
    let v := (s.chip n).vote
    if (s.chip n).alm.past e i then .next s1
    else if !v.starting g e i then .next (post s1 n (s.memberChip n g m) (.halt g e i))
    else if v.decided then .next s1
    else
      let l := if v.readies.contains m then v.readies else v.readies ++ [m]
      let s2 := s1.updVote n (fun v => { v with readies := l })
      if (upTo (s.gcNchips n g)).all (fun k => l.contains k) then
        .next (decideStart s2 n g (.go g e i ((s.memberChips n g).any (fun c => (s.gang c g).ovf))))
      else .next s2
  | _ => .fault .notEnabled
/-- NOTREADY: HALT. -/
def execNotready (s : State) : Out :=
  let n := s.sel.who.chip
  match takeAnswer s n VoteMsg.isNotready VoteMsg.bound with
  | some (.notready g e i _, s1) =>
    .next (if (s.chip n).vote.starting g e i && !(s.chip n).vote.decided then haltStart s1 n g e i else s1)
  | _ => .fault .notEnabled
/-- START_TIMEOUT: 14,000 cycles after the boundary without every answer: HALT. -/
def execStartTimeout (s : State) : Out :=
  let n := s.sel.who.chip
  let v := (s.chip n).vote
  match v.inGang with
  | none => .fault .notEnabled
  | some g => when_ (!v.decided && decide (v.startClk + 14000 ≤ s.cycNow n)) (haltStart s n g v.inEpoch v.inSlot)

/-! ## GO and HALT (R384, R386, R387, R392) -/

/-- The oldest SEQ of a flow's captured packets: none lies before it within half the number space. -/
def oldestSeq (l : List Pkt) : Nat :=
  ((l.find? (fun p => l.all (fun q => (q.seq + 4096 - p.seq) % 4096 < 2048))).map (·.seq)).getD ((l.head?.map (·.seq)).getD 0)
/-- Insert by SEQ counted from a first one. -/
def insertSeq (base : Nat) (p : Pkt) : List Pkt → List Pkt
  | [] => [p]
  | q :: r => if (q.seq + 4096 - base) % 4096 ≤ (p.seq + 4096 - base) % 4096 then q :: insertSeq base p r else p :: q :: r
/-- Captured packets of one flow by ascending SEQ (R386). -/
def inFlow (l : List Pkt) : List Pkt := l.foldl (fun a p => insertSeq (oldestSeq l) p a) []
/-- The first occurrences of a list's elements, in order. -/
def firsts {α : Type} [DecidableEq α] (l : List α) : List α := l.foldl (fun a x => if a.contains x then a else a ++ [x]) []
/-- Captured packets presented again, by flows in the order of their first record, before every new packet of their flow. -/
def reinject (l : List Pkt) (now : Nat) : List Pkt :=
  ((firsts (l.map Pkt.flowKey)).flatMap (fun f => inFlow (l.filter (fun p => p.flowKey = f)))).map (fun p => { p with since := now, again := true })
/-- A core of a chip as a saved gang finds it again; context 0 is the first that is looked at (DESIGN CHOICE, log 55). -/
def restoreCore (q : Gang) (g : Nat) (c : CoreId) (k : Core) : Core :=
  let h := q.cores.get c Core.reset.saved
  wantUnits g { k with run := none, last := 3, mq := h.mq, accTag := h.accTag, ck := h.ck, uf := h.uf, cur0 := h.cur0, cur1 := h.cur1 }
/-- SPILL_STAT of a core from the area of its first context (R389, R392); FCYC as the contexts hold it, unless the area says
otherwise. -/
def restoreSpill (n g : Nat) (s : State) (c : CoreId) : State :=
  let w : Who := ⟨c.chip, c.clus, c.core, 0⟩
  let v := ofBytes ((s.areaView n g w).peek (s.saveKey n g w + 0x800 + 8 * 0x95) 8)
  let s1 := s.updCore c (fun k => { k with spills := BitVec.ofNat 16 (natFld v 0 16), fills := BitVec.ofNat 16 (natFld v 16 16) })
  if natFld (s1.spillStat w) 32 16 = natFld v 32 16 then s1
  else (coreCtxs c).foldl (fun t x => t.updCtx x (fun q => { q with fcyc := if x.ctx = 0 then natFld v 32 16 * 64 else 0 })) s1
/-- A saved gang resumes on a chip: packets first, then cores and contexts (R384, R386, R392). -/
def resumeGang (s : State) (n g : Nat) : State :=
  let q := s.gang n g
  let s1 := { s with pkts := s.pkts ++ reinject q.nsa s.now ++ q.kept.map (fun p => { p with since := s.now }), xfers := s.xfers ++ q.keptX, reqs := s.reqs ++ q.keptR }
  let cs := s.logicalCores n
  let s2 := cs.foldl (fun s c => restoreTags n g (s.updCore c (restoreCore q g c)) c) s1
  let s3 := cs.foldl (restoreSpill n g) (q.savedCtx.foldl (fun s x => restoreCtx s n g x) s2)
  let s4 := q.savedCtx.foldl (fun s x => restoreShared n g s x.1) s3
  (s4.updGang n g (fun k => { k with nsa := [], nsaBytes := 0, kept := [], keptX := [], keptR := [], savedCtx := [], cores := [], image := [] })).settle
/-- A saved context's core no longer exists (R424). -/
def State.coreGone (s : State) (n g : Nat) : Bool := (s.gang n g).savedCtx.any (fun q => !s.isLogical n q.1.clus q.1.core)
/-- GO at a member that answered READY for it: the gang's kernel starts or resumes; after an overflow of the save area, or
with a core gone, it stops with STOPPED before any context starts. -/
def goNow (s : State) (n g : Nat) (stop : Bool) : State :=
  let s1 := (s.updChip n (fun c => { c with running := some g, vote := { c.vote with sentReady := none } })).updGang n g (fun k => { k with goClk := s.now })
  if stop || s.coreGone n g then (stopKernel s n g 9).updChip n (fun c => { c with running := some g, vote := { c.vote with sentReady := none } })
  else
    match (s.gang n g).kernel with
    | some k => if k.phase = 0 then startKernel s1 n g k else resumeGang s1 n g
    | none => s1
/-- GO: any other than the one this member is READY for is ignored; a checkpoint that is to be read, or is being read, goes first
(R416, R417). -/
def execGo (s : State) : Out :=
  let n := s.sel.who.chip
  match takeMsg s n VoteMsg.isGo with
  | some (.go g e i stop, s1) =>
    if (s.chip n).vote.sentReady = some (g, e, i) && (s.chip n).running.isNone then
      (if (s.gang n g).ckState = 1 ∨ (s.gang n g).ckState = 2 then .fault .notEnabled else .next (goNow s1 n g stop))
    else .next s1
  | _ => .fault .notEnabled
/-- VOTE_HALT: the gang stays switched out for the slot. -/
def execVoteHalt (s : State) : Out :=
  let n := s.sel.who.chip
  match takeMsg s n VoteMsg.isHalt with
  | some (.halt g e i, s1) =>
    .next ((s1.updGang n g (fun k => { k with halts := if k.halts = 0xFFFF then k.halts else k.halts + 1, image := [] })).updVote n (fun v =>
      { v with sentReady := if v.sentReady = some (g, e, i) then none else v.sentReady }))
  | _ => .fault .notEnabled

/-! ## UNIT_FILL_DONE (R388, R389) -/

/-- Ranges of a core's pool that its engines, forms and arriving payloads wait to touch. -/
def State.demands (s : State) (c : CoreId) : List (Nat × Nat) :=
  ((s.core c).mq.flatMap (fun m => formRanges (s.ctx m.who) m.op)) ++
  (((s.core c).cur0.toList ++ (s.core c).cur1.toList).flatMap (fun r => copyRanges (s.ctx r.cmd.who) r.cmd)) ++
  (coreCtxs c).flatMap (fun w =>
    let x := s.ctx w
    (x.cq0.take 1 ++ x.cq1.take 1).flatMap (copyRanges x) ++
      x.eHead.toList.flatMap (fun k => match k.op with
        | .amsg o => [(alignTo k.ea.toNat 64, amsgBytes o)]
        | .esend o => (s.myRing w.chip w (ringOf o) false).toList.map (fun r => (alignTo k.ea.toNat 64, r.slotsz * 64))
        | _ => [])) ++
  (s.xfers.filter (fun x => x.who.coreId = c)).map (fun x => ((s.ctx x.who).tileAt x.tile, 32768)) ++
  s.pkts.filterMap (fun p => match p.stage, p.target with
    | .target, .pool cl co off => if p.dst = c.chip ∧ cl = c.clus ∧ co = c.core then some (off, p.payload.length) else none
    | _, _ => none)
/-- A unit is WANTED and something waits to touch it. -/
def State.touched (s : State) (c : CoreId) (u : Nat) : Bool :=
  let x := (s.core c).units.get u ⟨none, false, false⟩
  x.wanted && (x.moving || (s.demands c).any (fun q => q.1 < (u + 1) * 65536 && u * 65536 < q.1 + q.2))
/-- Bytes of one range to another, with their poison. -/
def copyBytes (s : State) (src dst len : Nat) : State :=
  (s.poison.filter (fun p => src ≤ p && p < src + len)).foldl (fun s p => s.setPoison (dst + (p - src)) 1) (hbmWrite s dst (s.peek src len))
/-- Accumulators of a core whose first byte lies in a unit, as a context of the core lays out its pool. -/
def Ctx.accsIn (x : Ctx) (u : Nat) : List Nat := (upTo 16).filter (fun m => x.accAt m / 65536 = u)
/-- A unit's bytes written to its owner's block, and with them the side part of the accumulators that start in it (R388). -/
def spillUnit (s : State) (n : Nat) (c : CoreId) (u owner : Nat) : State :=
  let q := s.gang n owner
  let h := q.cores.get c Core.reset.saved
  let l := ((q.savedCtx.find? (fun x => x.1.coreId = c)).map (fun x => x.2.accsIn u)).getD []
  let s1 := copyBytes s (poolKey c (u * 65536)) (s.unitKey n owner c u) 65536
  (l.foldl (fun s m => s.poke (s.unitKey n owner c 0 + sideAt m) (sideBytes h.accTag h.ck h.uf m)) s1).updGang n owner (fun k =>
    { k with poolValid := if k.poolValid.contains (blockNum c, u) then k.poolValid else k.poolValid ++ [(blockNum c, u)] })
/-- A unit filled from the gang's block, the side part of the accumulators that start in it among it, or with zeros; an
accumulator that starts in a unit without valid bytes is undefined. -/
def fillUnit (s : State) (n g : Nat) (c : CoreId) (u : Nat) : State :=
  let k := poolKey c (u * 65536)
  let l := (s.ctx ⟨c.chip, c.clus, c.core, 0⟩).accsIn u
  if (s.gang n g).poolValid.contains (blockNum c, u) then
    (l.foldl (fun s m => s.updCore c (readSide (s.peek (s.unitKey n g c 0 + sideAt m) 2048) m))
      (copyBytes (zeroRange s k 65536) (s.unitKey n g c u) k 65536)).updGang n g (fun q => { q with poolValid := q.poolValid.filter (fun x => x ≠ (blockNum c, u)) })
  else
    (zeroRange s k 65536).updCore c (fun q =>
      { q with accTag := q.accTag.mapIdx (fun i t => if l.contains i then 3 else t), ck := l.foldl (fun m i => m.set i []) q.ck, uf := l.foldl (fun m i => m.set i 0) q.uf })
/-- Lines of a unit's block in the save areas of gang contexts that lie in the period at the watermark of a retirement. -/
def State.unitLines (s : State) (n : Nat) (gs : List Nat) (c : CoreId) (u : Nat) : List (Nat × Nat) :=
  gs.flatMap (fun h => ((s.chip n).mig.linesIn (s.unitKey n h c u - hbmKey n 0) 65536).map (fun a => (n, a)))
/-- UNIT_FILL_DONE: unit `id` of the core of `who`: spilled, filled, RESIDENT, and the contexts frozen for it resume. -/
def execUnitFillDone (s : State) : Out :=
  let c := s.sel.who.coreId
  let n := c.chip
  let u := s.sel.id
  match (s.chip n).running with
  | none => .fault .notEnabled
  | some g =>
    if !s.touched c u then .fault .notEnabled
    else
      let x := (s.core c).units.get u ⟨none, false, false⟩
      let s1 := match x.owner with
        | some h => (spillUnit s n c u h).updCore c (fun k => { k with spills := if k.spills = 0xFFFF then k.spills else k.spills + 1 })
        | none => s
      let s2 := (fillUnit s1 n g c u).updCore c (fun k =>
        { k with fills := if k.fills = 0xFFFF then k.fills else k.fills + 1, units := k.units.set u ⟨some g, false, false⟩ })
      unitGate s (s.unitLines n (x.owner.toList ++ [g]) c u)
        (.next ((coreCtxs c).foldl (fun s w => if (s.ctx w).freeze = .touch u ∧ (s.ctx w).st = .frozen then
          s.updCtx w (fun q => { q.thaw with fcyc := q.fcyc + (s.clkOf w - q.fcycFrom) }) else s) s2))

/-! ## VF_RESET, VF_RESET_END, PEER_RESET (R393) -/

/-- What a reset says in a vote or a start that is in progress: REFUSE with code 1 as a member of a vote, NOTREADY after READY
(R384, R396). -/
def resetVotes (s : State) (n g : Nat) : State :=
  let v := (s.chip n).vote
  let s1 := if v.member = some g then refuse s n g v.epoch v.slotIdx 1 else s
  match v.sentReady with
  | some (h, e, i) =>
    if h = g then post (s1.updVote n (fun v => { v with sentReady := none })) n (s.coordOf n g) (.notready g e i (s.gcMember n g)) else s1
  | none => s1
/-- A gang context of the VF is discarded on a chip. -/
def resetGang (s0 : State) (n g : Nat) : State :=
  let k := s0.gang n g
  let s := dropColls (resetVotes s0 n g) n g
  let s1 := stopKernel s n g 10
  let s2 := if (s.chip n).running = some g then (s1.ctxsOf n).foldl (fun s w => s.setCtx w (Ctx.reset w)) s1 else s1
  let s3 := s2.updChip n (fun c =>
    { c with gangs := c.gangs.set g { Gang.reset with resetDone := true, lreason := (s.gang n g).lreason, ckErr := if k.ckState ≠ 0 then 3 else k.ckErr, ckSeq := k.ckSeq, ckGood := k.ckGood, ckSlot := k.ckSlot },
             running := if c.running = some g then none else c.running, vote := if c.vote.member = some g then { c.vote with member := none, held := [], stopped := [] } else c.vote,
             ckJobs := c.ckJobs.filter (fun j => j.g ≠ g), dlogWait := c.dlogWait.filter (fun r => r.gctx ≠ g) })
  let s4 := { s3 with
    pkts := (s3.pkts.filter (fun p => p.isVote || !(p.who.chip = n && p.gctx = g))).map (fun p =>
      if p.dst = n ∧ p.gctx = g ∧ s3.fate p n = Fate.in_ then { p with stage := Stage.voteHold } else p),
    wires := s3.wires.filter (fun w => w.unit || !(w.who.chip = n && w.gctx = g)),
    xfers := if (s.chip n).running = some g then s3.xfers.filter (fun x => x.who.chip ≠ n) else s3.xfers,
    reqs := if (s.chip n).running = some g then s3.reqs.filter (fun q => q.who.chip ≠ n) else s3.reqs,
    cores := s3.cores.map (fun (p : CoreId × Core) => if p.1.chip = n then (p.1, { p.2 with units := p.2.units.map (fun u => (u.1, { u.2 with owner := if u.2.owner = some g then none else u.2.owner })) }) else p) }
  let s5 := if (s.chip n).running = some g then { s4 with cores := s4.cores.map (fun (p : CoreId × Core) => if p.1.chip = n then (p.1, p.2.cleared) else p) } else s4
  postAll s5 n ((s.memberChips n g).filter (fun d => d ≠ n)) (.peerReset g (s.gcMember n g))
/-- The launch queues of a VF are emptied, and what it waits for there is dropped. -/
def emptyQueues (s : State) (n vf : Nat) : State :=
  ((upTo 16).foldl (fun s q => s.setBar n (vf + 1) (0x20 * q + 0x10) (s.bar n (vf + 1) (0x20 * q + 0x18))) s).updChip n (fun c =>
    { c with xtWait := c.xtWait.filter (fun r => r.2.1 ≠ vf), failed := c.failed.filter (fun r => r.1 ≠ vf),
             l2 := c.l2.map (fun q => (q.1, q.2.map (fun w => if w.pin.any (fun p => p.1 = vf) then { w with pin := none } else w))) })
/-- Gang contexts of a VF on a chip. -/
def State.gangsOf (s : State) (n vf : Nat) : List Nat := (upTo 256).filter (fun g => natFld (s.gcCtl n g) 0 1 = 1 && s.gcVf n g = vf)
/-- VF_RESET of VF `id`: a function-level reset, requested from outside (log 17). -/
def execVfReset (s : State) : Out :=
  let n := s.sel.who.chip
  let vf := s.sel.id
  if 126 ≤ vf || (s.chip n).resetting.contains vf then .fault .notEnabled
  else .next ((s.gangsOf n vf).foldl (fun s g => resetGang s n g) (emptyQueues (s.updChip n (fun c => { c with resetting := c.resetting ++ [vf] })) n vf))
/-- VF_RESET_END of VF `id`. -/
def execVfResetEnd (s : State) : Out :=
  let n := s.sel.who.chip
  when_ ((s.chip n).resetting.contains s.sel.id) (s.updChip n (fun c => { c with resetting := c.resetting.filter (fun v => v ≠ s.sel.id) }))
/-- PEER_RESET: accesses of the chip to the reset member, wherever they stand, are answered (R393). -/
def execPeerReset (s : State) : Out :=
  let n := s.sel.who.chip
  match takeMsg s n VoteMsg.isPeerReset with
  | some (.peerReset g m, s1) =>
    let d := s.memberChip n g m
    let lost := fun (p : Pkt) => p.who.chip = n && p.gctx = g && p.dst = d && !p.performed &&
      p.stage ≠ .buffered && p.stage ≠ .core && p.stage ≠ .readout
    let s2 := s1.updGang n g (fun k => { k with peersReset := k.peersReset ++ [m] })
    let l := s2.pkts.filter lost
    .next (l.foldl answerReset { s2 with wires := s2.wires.filter (fun w => !l.any (fun p => p.id = w.pkt)) })
  | _ => .fault .notEnabled

end Sys2Proof.Machine
end

