-- ==== Sys2Proof/Machine/EvMig.lean ====
section
/-! DEFINITION. Sys2Proof/Machine/EvMig.lean: the retirement of a stack: its start, the move of its periods, and the policy
that asks for one (spec/21 R405 to R413, spec/22 R425). -/

namespace Sys2Proof.Machine

/-! ## The start (R405, R407) -/

/-- The first check of R405 that fails, without DENIED: 2 ACTIVE, 3 NOTLIVE, 4 MINSTACKS, 5 USED; 0 none. -/
def State.migCheck (s : State) (n stack : Nat) : Nat :=
  let m := (s.chip n).mig
  if m.active then 2
  else if 11 < stack || !m.mask.getLsbD stack then 3
  else if m.count = 8 then 4
  else if s.capNext n < s.capUsed n then 5
  else 0
/-- P(s): whole periods under s stacks (R401). -/
def periodsOf (k : Nat) : Nat := 16777216 * k / 3960
/-- Dirty lines of a set that are written back as way 15 is reserved: its own, and the one whose way a pinned line takes
(R407). -/
def stageOut (l : List Way) : List (Nat × Nat) :=
  let y := l.getD 15 Way.empty
  let old := match y.pin with
    | some _ => (firstIdx (fun (w : Way) => w.pin.isNone) l).map (fun i => l.getD i Way.empty)
    | none => none
  y.dirtyLine.toList ++ (old.bind Way.dirtyLine).toList
/-- Way 15 of a set is reserved: a pinned line moves to the lowest way without one, and what stood there is evicted (R407). -/
def stageSet (l : List Way) : List Way :=
  let y := l.getD 15 Way.empty
  let l1 := match y.pin with
    | some _ => (match firstIdx (fun (w : Way) => w.pin.isNone) l with | some i => l.set i { y with dirty := false } | none => l)
    | none => l
  l1.set 15 Way.empty
/-- An accepted start. -/
def startMig (s : State) (n stack : Nat) (fw : Bool) : State :=
  let s1 := s.updChip n (fun c =>
    { c with l2 := c.l2.map (fun q => (q.1, stageSet q.2)),
             mig := { c.mig with phase := c.mig.phase + 1, active := true, stack := stack, fw := fw, last := 0, wmValid := true,
                                 wm := periodsOf (c.mig.count - 1) - 1, marked := false, request := none } })
  ((s.chip n).l2.flatMap (fun q => stageOut q.2)).foldl (fun s o => writeBack s n (ownPkt n) (some o)) s1
/-- MIG_PERMIT allows a start from a VF (R404). -/
def State.migPermit (s : State) (n vf : Nat) : Bool := (s.bar n 0 0x32000).getLsbD 7 && natFld (s.barN n 0 0x32000) 0 7 = vf
/-- MIG_START_APPLY (R413). -/
def execMigStartApply (s : State) : Out :=
  let w := s.sel.who
  let n := w.chip
  match (s.ctx w).eHead with
  | none => .fault .notEnabled
  | some k =>
    match k.op with
    | .migCtlStart o =>
      let stack := natFld o.ext.imm.toNat 0 4
      let st := if !s.migPermit n (s.vf n) then 1 else s.migCheck n stack
      let s1 := if st = 0 then startMig s n stack false else s
      .next (finishCmd (clearHead s1 w) w k.id k.inst o.cc.toNat (BitVec.ofNat 64 (st + (if st = 0 then s1.migReg n 5 * 2 ^ 16 else 0))))
    | _ => .fault .notEnabled
/-- MIG_DONE_APPLY: waits until STATE is IDLE (R413). -/
def execMigDoneApply (s : State) : Out :=
  let w := s.sel.who
  let m := (s.chip w.chip).mig
  match (s.ctx w).eHead with
  | none => .fault .notEnabled
  | some k =>
    match k.op with
    | .migCtlDone o =>
      if m.active then .fault .notEnabled
      else .next (finishCmd (clearHead s w) w k.id k.inst o.cc.toNat (BitVec.ofNat 64 (m.last.toNat + m.stack * 2 ^ 32)))
    | _ => .fault .notEnabled

/-! ## Periods (R408, R409) -/

/-- PERIOD_MARK: every controller marks the period at the watermark as moving. -/
def execPeriodMark (s : State) : Out :=
  let n := s.sel.who.chip
  let m := (s.chip n).mig
  when_ (m.active && !m.marked) (s.updChip n (fun c => { c with mig := { c.mig with marked := true } }))
/-- A line of the period that cannot be corrected is staged poisoned and counted, and from then on its place in memory holds
it poisoned; the copy that the L2 or the writeback buffer of its slice holds is not touched (R408, R410). -/
def loseLine (n : Nat) (s : State) (k : Nat) : State :=
  let a := k - hbmKey n 0
  let st := stackOf (s.chip n).mig.mask a
  let s1 := ({ s with uncorr := s.uncorr.filter (fun u => u ≠ k) } : State).updChip n (fun c =>
    { c with mig := { c.mig with last := c.mig.last + 1, total := inc32 c.mig.total, ue := c.mig.ue.set st (inc32 (c.mig.ue.get st 0)) } })
  if ((s.chip n).hit a).isSome || s.buffers n a then { s1 with sunk := k :: s1.sunk.filter (fun u => u ≠ k) } else s1.setPoison k 128
/-- Requests that a slice held for the period go on under the new map, and no line of it is held any more (R409). -/
def releaseHeld (s : State) (n per : Nat) : State :=
  let m := (s.chip n).mig
  let s1 : State := { s with pkts := s.pkts.map (fun p =>
      if p.stage = .wmHold ∧ p.dst = n ∧ periodOf (s.pktDpa p) = per then
        { p with stage := .mc (m.phase.toNat % 256) (m.maskAt (s.pktDpa p)) } else p) }
  s1.updChip n (fun c => { c with mig := { c.mig with held := c.mig.held.filter (fun l => periodOf (l * 128) ≠ per) } })
/-- The last period has moved: the stack leaves the map. -/
def endMig (s : State) (n : Nat) : State :=
  s.updChip n (fun c => { c with mig := { c.mig with mask := c.mig.newMask, wmValid := false, wm := 0, active := false, marked := false } })
/-- What the cells of line i of the period being staged show, from outside: an error that cannot be corrected, or one that is,
which is counted (R408, R425, log 17). -/
def stageShows (s : State) (n i : Nat) (lost : Bool) : State :=
  let m := (s.chip n).mig
  let a := m.wm * periodBytes + i * 128
  let st := stackOf m.mask a
  if lost then s.lineFails n a
  else s.updChip n (fun c => { c with mig := { c.mig with ce := c.mig.ce.set st (inc32 (c.mig.ce.get st 0)) } })
/-- PERIOD_DRAINED: the marked period is staged and written under the new map, and the watermark moves down. With operand value
i + 1, line i of it shows an error as it is read. -/
def execPeriodDrained (s : State) : Out :=
  let n := s.sel.who.chip
  let m := (s.chip n).mig
  let i := natFld s.sel.val.toNat 0 32
  if !m.active || !m.marked || periodBytes / 128 < i then .fault .notEnabled
  else if i ≠ 0 then .next (stageShows s n (i - 1) (!s.sel.val.getLsbD 32))
  else
    let lo := hbmKey n (m.wm * periodBytes)
    let s1 := (s.uncorr.filter (fun k => lo ≤ k && k < lo + periodBytes)).foldl (loseLine n) s
    let s2 := if m.wm = 0 then endMig s1 n else s1.updChip n (fun c => { c with mig := { c.mig with wm := m.wm - 1, marked := false } })
    .next (releaseHeld s2 n m.wm)

/-! ## The retirement policy (R406, R425) -/

/-- MIG_POLICY's fields. -/
def State.polAuto (s : State) (n : Nat) : Bool := (s.bar n 0 0x32008).getLsbD 0
def State.polWin (s : State) (n : Nat) : Nat := natFld (s.barN n 0 0x32008) 8 8
def State.polUe (s : State) (n : Nat) : Nat := natFld (s.barN n 0 0x32008) 16 16
def State.polCe (s : State) (n : Nat) : Nat := natFld (s.barN n 0 0x32008) 32 16
/-- The counts of the stacks now. -/
def Mig.counts (m : Mig) : List (Nat × Nat × Nat) := (upTo 12).map (fun i => (i, (m.ce.get i 0).toNat, (m.ue.get i 0).toNat))
/-- The increase of CE and UE of a stack over the window; counts are 0 before power-on. -/
def State.increase (s : State) (n i : Nat) : Nat × Nat :=
  let m := (s.chip n).mig
  let old := (((m.history.getD (s.polWin n - 1) []).find? (fun q => q.1 = i)).map (·.2)).getD (0, 0)
  ((m.ce.get i 0).toNat - old.1, (m.ue.get i 0).toNat - old.2)
/-- A stack calls for retirement. -/
def State.callsOut (s : State) (n i : Nat) : Bool :=
  let d := s.increase n i
  (s.chip n).mig.mask.getLsbD i && s.polAuto n &&
    ((s.polUe n ≠ 0 && decide (s.polUe n ≤ d.2)) || (s.polCe n ≠ 0 && decide (s.polCe n * 1024 ≤ d.1)))
/-- An event posted to the PF. -/
def postEvent (s : State) (n : Nat) : State := s.updChip n (fun c => { c with mig := { c.mig with events := c.mig.events + 1 } })
/-- The controller asks for the retirement of a stack: it starts, or, on USED, is tried again. -/
def askRetire (s : State) (n i : Nat) : State :=
  match s.migCheck n i with
  | 0 => startMig s n i true
  | 5 => (postEvent s n).updChip n (fun c => { c with fwClk := s.now, mig := { c.mig with request := some i } })
  | _ => s.updChip n (fun c => { c with mig := { c.mig with request := none } })
/-- The stack chosen: the largest UE increase, the lowest number on a tie. -/
def State.worstStack (s : State) (n : Nat) : Option Nat :=
  pickBest (fun (a b : Nat) => decide ((s.increase n b).2 < (s.increase n a).2)) ((upTo 12).filter (s.callsOut n))
/-- Core cycles in a second. -/
def secCycles : Nat := 700000000
/-- POLICY_EVALUATION: once per second. -/
def execPolicyEvaluation (s : State) : Out :=
  let n := s.sel.who.chip
  let c := s.chip n
  if s.now < c.polClk + secCycles then .fault .notEnabled
  else
    let req := c.mig.request.filter (s.callsOut n)
    let done := fun (s : State) => s.updChip n (fun h => { h with polClk := c.polClk + secCycles, mig := { h.mig with history := (c.mig.counts :: h.mig.history).take 255 } })
    let s1 := s.updChip n (fun h => { h with mig := { h.mig with request := req } })
    .next (done (match s.worstStack n with
      | some i =>
        if c.mig.active || req.isSome then s1
        else if c.mig.count = 8 then postEvent s1 n
        else askRetire s1 n i
      | none => s1))
/-- FIRMWARE_RETIRE_RETRY: every 100 ms. -/
def execFirmwareRetireRetry (s : State) : Out :=
  let n := s.sel.who.chip
  match (s.chip n).mig.request with
  | none => .fault .notEnabled
  | some i => when_ (decide ((s.chip n).fwClk + secCycles / 10 ≤ s.now)) (askRetire s n i)

end Sys2Proof.Machine
end

