-- ==== Sys2Proof/Machine/Ckpt.lean ====
section
/-! DEFINITION. Sys2Proof/Machine/Ckpt.lean: checkpoints: their parts and manifest, the write and the restore (spec/22 R415 to
R421). The GANG part's bytes are private to the device; what they stand for is kept beside them (log 18). -/

namespace Sys2Proof.Machine

/-! ## A gang's state named by members instead of chips -/

/-- Chips renamed in a command. -/
def ECmd.mapChips (f : Nat → Nat) (k : ECmd) : ECmd := { k with dst := f k.dst }
/-- Chips renamed in the key of a flow's accepted packets: its issuer, and the chip that its replies come from. -/
def flowMapChips (f : Nat → Nat) (q : Who × Nat) : Who × Nat :=
  ({ q.1 with chip := f q.1.chip }, if q.2 < 4096 then q.2 else q.2 % 4096 + 4096 * (1 + f (q.2 / 4096 - 1)))
/-- Chips renamed in what a freeze waits for. -/
def FreezeCause.mapChips (f : Nat → Nat) (x : FreezeCause) : FreezeCause := match x with | .absent c e p => .absent (f c) e p | y => y
/-- Chips renamed in a context's own state. -/
def Ctx.mapChips (f : Nat → Nat) (c : Ctx) : Ctx :=
  let cp := fun (k : CopyCmd) => { k with who := { k.who with chip := f k.who.chip } }
  let ec := ECmd.mapChips f
  let en := fun (r : RingEntry) => match r with | .copy e k => RingEntry.copy e (cp k) | .e k => .e (ec k) | x => x
  { c with cq0 := c.cq0.map cp, cq1 := c.cq1.map cp, ring := c.ring.map en, ovfWait := c.ovfWait.map en,
           freeze := c.freeze.mapChips f, late := c.late.map (fun l => { l with freeze := l.freeze.mapChips f }),
           eq := c.eq.map ec, eHead := c.eHead.map ec, closing := c.closing.map ec,
           flowWait := c.flowWait.map (fun w => { w with dsts := w.dsts.map f }),
           seqs := c.seqs.map (fun (q : (Nat × Nat) × Nat) => ((f q.1.1, q.1.2), q.2)),
           modes := c.modes.map (fun (q : (Nat × Nat) × BitVec 2) => ((f q.1.1, q.1.2), q.2)), ords := c.ords.map (fun q => (f q.1, q.2)) }
/-- Chips renamed in a gang's state. -/
def Gang.mapChips (f : Nat → Nat) (g : Gang) : Gang :=
  let wh := fun (w : Who) => { w with chip := f w.chip }
  let pk := fun (p : Pkt) => { p with who := wh p.who, dst := f p.dst, op := (match p.op with | .cmd k => .cmd (k.mapChips f) | o => o) }
  let run := fun (r : CopyRun) => { r with cmd := { r.cmd with who := wh r.cmd.who } }
  { g with savedCtx := g.savedCtx.map (fun q => (wh q.1, q.2.mapChips f)), image := [],
           cores := g.cores.map (fun (q : CoreId × CoreSave) => ({ q.1 with chip := f q.1.chip },
             { q.2 with mq := q.2.mq.map (fun m => { m with who := wh m.who }), cur0 := q.2.cur0.map run, cur1 := q.2.cur1.map run })),
           kept := g.kept.map pk, nsa := g.nsa.map pk, keptX := g.keptX.map (fun x => { x with who := wh x.who }),
           keptR := g.keptR.map (fun r => { r with who := wh r.who, cmd := r.cmd.mapChips f }), picked := g.picked.map (fun q => (wh q.1, q.2)),
           bars := g.bars.map (fun (q : Nat × Barrier) => (q.1, { q.2 with arrivals := q.2.arrivals.map (fun a => (wh a.1, a.2)) })),
           joins := g.joins.map (fun j => { j with who := wh j.who, cmd := j.cmd.map (ECmd.mapChips f) }),
           parts := g.parts.map (fun (q : (Who × Nat) × (Nat × Nat)) => ((wh q.1.1, q.1.2), q.2)),
           expect := g.expect.map (fun (q : (Who × Nat) × Nat) => ((wh q.1.1, q.1.2), q.2)),
           accepted := g.accepted.map (fun (q : (Who × Nat) × (Nat × List Nat)) => (flowMapChips f q.1, q.2)) }

/-! ## The block's registers (R415) -/

/-- A register of a gang context's checkpoint block. -/
def State.ckReg (s : State) (n g k : Nat) : Nat := s.barN n 0 (0x40000 + 0x40 * g + k)
/-- Address and host port of a slot. -/
def State.ckSlotAt (s : State) (n g : Nat) (b : Bool) : Nat := s.ckReg n g (if b then 8 else 0) / 4096 * 4096
def State.ckPort (s : State) (n g : Nat) (b : Bool) : Nat := s.ckReg n g (if b then 8 else 0) % 2
/-- CK_STAT. -/
def Gang.ckStat (g : Gang) : Nat := g.ckSeq * 2 ^ 32 + bit g.ckGood * 2 ^ 31 + bit g.ckSlot * 2 ^ 30 + g.ckErr * 2 ^ 16 + g.ckState
/-- The attempt ends with an error. -/
def ckFail (s : State) (n g err : Nat) : State :=
  (s.updGang n g (fun k => { k with ckErr := err, ckState := 0 })).updChip n (fun c => { c with ckJobs := c.ckJobs.filter (fun j => j.g ≠ g) })
/-- A command of CK_CMD: 1 TAKE, 2 RESTORE, none when the write is ignored. -/
def ckOp (v : BitVec 64) : Option Nat :=
  if v.toNat / 8 ≠ 0 then none else if v.toNat % 4 = 1 then some 1 else if v.toNat % 4 = 2 then some 2 else none
/-- CK_TAKE: a write of CK_CMD of gang context `reg` (R416). -/
def execCkTake (s : State) : Out :=
  let n := s.sel.who.chip
  let g := s.sel.reg
  if ckOp s.sel.val ≠ some 1 || 256 ≤ g then .fault .notEnabled
  else .next (s.updGang n g (fun k => if k.ckState = 0 then { k with ckState := 1 } else { k with ckErr := 7 }))

/-! ## Parts and manifest (R417, R418) -/

/-- A part: kind, extent, bytes, and which of them are poisoned, by offset (R244). -/
structure Part where
  kind : Nat
  ext : Nat
  bytes : List Byte
  bad : List Nat
  deriving DecidableEq, Repr
/-- Offsets of the poisoned bytes among n from a key. -/
def State.badFrom (s : State) (k n : Nat) : List Nat := (s.poison.filter (fun p => k ≤ p && p < k + n)).map (fun p => p - k)
/-- The same among n from a DPA of a chip: a line that memory holds poisoned or cannot correct, and that the L2 does not hold, is
poisoned (R244). -/
def State.badDpa (s : State) (n a len : Nat) : List Nat :=
  let k := hbmKey n a
  let lines := (s.uncorr ++ s.sunk).filter (fun u => decide (k ≤ u + 127) && decide (u < k + len) &&
    ((s.chip n).hit (u - hbmKey n 0)).isNone && !s.buffers n (u - hbmKey n 0))
  s.badFrom k len ++ (lines.flatMap (fun u => (upTo 128).map (fun i => u + i))).filterMap (fun p => if k ≤ p ∧ p < k + len then some (p - k) else none)
/-- A part of n bytes as they stand at a key of host memory, and at a DPA of a chip. -/
def State.partAt (s : State) (kind ext k n : Nat) : Part := ⟨kind, ext, s.peek k n, s.badFrom k n⟩
def State.partDpa (s : State) (kind n a len : Nat) : Part := ⟨kind, 0, s.peek (hbmKey n a) len, s.badDpa n a len⟩
/-- Bytes of a part written at a key, poisoned where they are (R244; DESIGN CHOICE, log 32). -/
def Part.put (s : State) (k : Nat) (p : Part) : State :=
  (p.bad.filter (fun o => o < p.bytes.length)).foldl (fun s o => s.setPoison (k + o) 1) (hbmWrite s k p.bytes)
/-- Bytes of an extent of local memory; absent pages are zero. -/
def State.extBytes (s : State) (n : Nat) (e : XEntry) : List Byte :=
  (upTo 128).flatMap (fun p => if e.absent.getLsbD p then List.replicate (2 ^ 21) 0 else s.peek (hbmKey n (e.base + p * 2 ^ 21)) (2 ^ 21))
/-- The poisoned bytes of an extent. -/
def State.extBad (s : State) (n : Nat) (e : XEntry) : List Nat :=
  (s.badDpa n e.base (2 ^ 28)).filter (fun o => !e.absent.getLsbD (o / 2 ^ 21))
/-- The extents of a gang context that a checkpoint holds. -/
def State.ckExtents (s : State) (n g : Nat) : List Nat := (upTo 4096).filter (fun e => (s.xentry n g e).kind = 1 || (s.xentry n g e).kind = 4)
/-- DPA of the context, pool and network save areas of a gang context. -/
def State.areaDpa (s : State) (n g k : Nat) : Nat := natFld (s.barN n 0 (gcBlock g + k)) 12 28 * 4096
/-- The save areas that are parts of a checkpoint: kind, DPA and bytes. -/
def State.ckAreas (s : State) (n g : Nat) : List (Nat × Nat × Nat) :=
  [(0, s.areaDpa n g 0x20, 1024 * 0x42000), (1, s.areaDpa n g 0x28, 256 * 0x408000), (2, s.areaDpa n g 0x10, (s.gang n g).nsaBytes)]
/-- Lines of the save areas and the extents of a gang context that lie in the period at the watermark of a retirement (R409,
R414). -/
def State.ckLines (s : State) (n g : Nat) : List (Nat × Nat) :=
  let ext := (s.ckExtents n g).flatMap (fun e =>
    let x := s.xentry n g e
    ((upTo 128).filter (fun p => !x.absent.getLsbD p)).map (fun p => (x.base + p * 2 ^ 21, 2 ^ 21)))
  (((s.ckAreas n g).map (·.2) ++ ext).flatMap (fun q => (s.chip n).mig.linesIn q.1 q.2)).map (fun a => (n, a))
/-- The parts of a checkpoint, in order; `id` names the GANG part's bytes. The layout table is read through the port of the slot
(DESIGN CHOICE, log 32). -/
def ckParts (s : State) (n g id : Nat) (b : Bool) : List Part :=
  (s.ckAreas n g).map (fun q => s.partDpa q.1 n q.2.1 q.2.2) ++ [⟨3, 0, privateRun id 0 (Config.privateLen id), []⟩] ++
  (s.ckExtents n g).map (fun e => ⟨4, e, s.extBytes n (s.xentry n g e), s.extBad n (s.xentry n g e)⟩) ++
  [s.partAt 5 0 (hostKey n (s.ckPort n g b) (s.ckReg n g 0x18 / 4096 * 4096)) (s.ckReg n g 0x20)]
/-- Offsets of parts in the slot, from 512 KiB up, each 4 KiB aligned. -/
def partOffs : Nat → List Part → List (Nat × Part)
  | _, [] => []
  | at_, p :: r => (at_, p) :: partOffs ((at_ + p.bytes.length + 4095) / 4096 * 4096) r
/-- A part's entry in the manifest. -/
def partEntry (q : Nat × Part) : List Byte :=
  bytesOf q.2.kind 1 ++ bytesOf 0 1 ++ bytesOf q.2.ext 2 ++ bytesOf 0 4 ++ bytesOf q.1 8 ++ bytesOf q.2.bytes.length 8 ++ shaBytes (sha384 q.2.bytes) ++ bytesOf 0 8
/-- The manifest, signed by the chip. -/
def manifest (s : State) (n g seq : Nat) (b : Bool) (l : List (Nat × Part)) : List Byte :=
  let k := s.gang n g
  let body := bytesOf 0x4D4B5A47 4 ++ bytesOf 1 2 ++ bytesOf l.length 2 ++ bytesOf seq 8 ++ bytesOf g 2 ++ bytesOf (s.gcMember n g) 2 ++
    bytesOf (s.gcNchips n g) 2 ++ bytesOf n 2 ++ bytesOf k.ckEpoch 4 ++ bytesOf k.ckCslot 1 ++ bytesOf (bit b) 1 ++ bytesOf 0 34 ++ l.flatMap partEntry
  body ++ sigBytes (Config.sign n (sha384 body))

/-! ## CHECKPOINT_WRITE, CHECKPOINT_COMPLETE (R417) -/

/-- Every RESIDENT unit of a gang context on a chip spilled to its block; the units stay RESIDENT. -/
def spillOwned (s : State) (n g : Nat) : State :=
  (s.logicalCores n).foldl (fun s c =>
    ((s.core c).units.filter (fun u => u.2.owner = some g)).foldl (fun s u => spillUnit s n c u.1 g) s) s
/-- CHECKPOINT_WRITE of gang context `id`: pending, and switched out here; its reads wait for a period that moves (R409). -/
def execCheckpointWrite (s : State) : Out :=
  let n := s.sel.who.chip
  let g := s.sel.id
  let k := s.gang n g
  if k.ckState ≠ 1 || (s.chip n).running = some g then .fault .notEnabled
  else unitGate s (s.ckLines n g) (
    let b := k.ckGood && !k.ckSlot
    let seq := if k.ckGood then (k.ckSeq + 1) % 2 ^ 32 else 1
    let id := s.nextId
    let s1 := (spillOwned s n g).fresh
    let l := partOffs 0x80000 (ckParts s1 n g id b)
    if s.ckReg n g 0x10 * 4096 < 0x80000 + (l.map (fun q => q.2.bytes.length)).foldl (· + ·) 0 then .next (ckFail s1 n g 1)
    else if !(s.chip n).hostUp.getLsbD (s.ckPort n g b) then .next (ckFail s1 n g 2)
    else
      let at_ := fun (off : Nat) => hostKey n (s.ckPort n g b) (s.ckSlotAt n g b + off)
      let s2 := l.foldl (fun s q => q.2.put s (at_ q.1)) (s1.poke (at_ 0) (List.replicate 64 0))
      let members := s.memberChips n g
      let snap := (s1.gang n g).mapChips (fun c => (firstIdx (fun x => x = c) members).getD c)
      let s3 := { s2 with snaps := s2.snaps ++ [(id, snap)] }.updGang n g (fun k => { k with ckState := 2 })
      .next (s3.updChip n (fun c => { c with ckJobs := c.ckJobs ++ [⟨g, b, manifest s1 n g seq b l⟩] })))
/-- The part entries of a manifest, with the bytes of their parts. -/
def slotParts (s : State) (at_ : Nat → Nat) (m : List Byte) : List (Part × List Byte) :=
  (upTo (fieldAt m 6 2)).map (fun i =>
    let o := 64 + 80 * i
    (s.partAt (fieldAt m o 1) (fieldAt m (o + 2) 2) (at_ (fieldAt m (o + 8) 8)) (fieldAt m (o + 16) 8), (m.drop (o + 24)).take 48))
/-- A part's frames as they stand, bytes and the offsets of poisoned ones: none for parts that lie in no frame. -/
def Part.frames (p : Part) (s : State) (n g : Nat) : Option (List Byte × List Nat) :=
  if p.kind = 4 then some (s.extBytes n (s.xentry n g p.ext), s.extBad n (s.xentry n g p.ext))
  else ((s.ckAreas n g).find? (fun q => q.1 = p.kind)).map (fun q => (s.peek (hbmKey n q.2.1) q.2.2, s.badDpa n q.2.1 q.2.2))
/-- A part as it was read in the end: each aligned 64-byte piece of an extent or of a save area that another gang context has
written meanwhile is old or new (R417, log 4); the gang's own GO waits for the end of the write. -/
def Part.mixed (p : Part) (s : State) (n g : Nat) : Part :=
  match p.frames s n g with
  | none => p
  | some now =>
    let new := fun (i : Nat) => Config.pick s.free ((p.kind * 4096 + p.ext) * 2 ^ 26 + i / 64)
    { p with bytes := p.bytes.mapIdx (fun i b => if new i then now.1.getD i 0 else b), bad := p.bad.filter (fun i => !new i) ++ now.2.filter new }
/-- The write of a checkpoint ends: the parts have been read, and the manifest is written. A poisoned completion, of the layout
table's bytes, ends it with HOSTERR. -/
def finishWrite (s : State) (n g : Nat) (j : CkJob) : State :=
  let at_ := fun (off : Nat) => hostKey n (s.ckPort n g j.slot) (s.ckSlotAt n g j.slot + off)
  let l := partOffs 0x80000 ((slotParts s at_ j.manifest).map (fun q => q.1.mixed s n g))
  if l.any (fun q => q.2.kind = 5 && !q.2.bad.isEmpty) then ckFail s n g 2
  else
    let s1 := l.foldl (fun s q => q.2.put s (at_ q.1)) s
    let s2 := s1.poke (at_ 0) (manifest s n g (fieldAt j.manifest 8 8) j.slot l)
    (ckFail s2 n g 0).updGang n g (fun k => { k with ckSeq := fieldAt j.manifest 8 8 % 2 ^ 32, ckGood := true, ckSlot := j.slot })

/-! ## CK_RESTORE (R419 to R421) -/

/-- A slot is valid: its signature verifies under the chip's identity key or a key of its trust list (R419, R420). -/
def slotValid (s : State) (n : Nat) (m : List Byte) (parts : List (Part × List Byte)) : Bool :=
  let len := 64 + 80 * fieldAt m 6 2
  fieldAt m 0 4 = 0x4D4B5A47 && fieldAt m 4 2 = 1 && 1 ≤ fieldAt m 6 2 && fieldAt m 6 2 ≤ 4101 &&
    (Config.idKey n :: (s.chip n).trust).any (fun key => Config.verifies key (sha384 (m.take len)) (BitVec.ofNat 768 (ofBytes ((m.drop len).take 96).reverse))) &&
    parts.all (fun p => shaBytes (sha384 p.1.bytes) = p.2)
/-- A page of a part. -/
def Part.page (p : Part) (i : Nat) : Part :=
  { p with bytes := (p.bytes.drop (i * 2 ^ 21)).take (2 ^ 21), bad := (p.bad.filter (fun o => decide (i * 2 ^ 21 ≤ o))).map (fun o => o - i * 2 ^ 21) }
/-- An extent written through the table, page by page; an absent page is not written (log 27). -/
def putExtent (s : State) (n : Nat) (e : XEntry) (p : Part) : State :=
  (upTo 128).foldl (fun s i => if e.absent.getLsbD i then s else (p.page i).put s (hbmKey n (e.base + i * 2 ^ 21))) s
/-- The extents of a checkpoint written. -/
def putExtents (s : State) (n g : Nat) (l : List Part) : State :=
  (l.filter (fun p => p.kind = 4)).foldl (fun s p => putExtent s n (s.xentry n g p.ext) p) s
/-- The gang that a GANG part stands for whose bytes no chip of this pod wrote: a saved kernel whose launch record and header those
bytes hold in a layout private to the device, every context as its area gives it, and nothing under way (DESIGN CHOICE, log
18). -/
def foreignGang (s : State) (n g : Nat) (bytes : List Byte) : Gang :=
  let at_ := fun (base len : Nat) => (upTo len).map (fun i => Config.gangByte bytes (base + i))
  let k := mkKernel s.nextId (s.gcVf n g) (fieldAt (at_ 4096 1) 0 1 % 16) (at_ 0 64) (at_ 64 512) (at_ 1024 16) (at_ 2048 1024)
  { startGang { k with member := s.gcMember n g, nchips := s.gcNchips n g } (s.cycNow n) Gang.reset with
    savedCtx := ((s.logicalCores n).flatMap coreCtxs).map (fun w => (w, Ctx.reset w)) }
/-- Save areas written, and the gang context holds a saved kernel. -/
def putGang (s : State) (n g : Nat) (l : List Part) : State :=
  let s1 := l.foldl (fun s p => match p.kind with
    | 0 => p.put s (hbmKey n (s.areaDpa n g 0x20))
    | 1 => p.put s (hbmKey n (s.areaDpa n g 0x28))
    | 2 => p.put s (hbmKey n (s.areaDpa n g 0x10))
    | _ => s) s
  let own := ((l.find? (fun p => p.kind = 3)).map (·.bytes)).getD []
  let members := s.memberChips n g
  let old := match s.snaps.find? (fun q => privateRun q.1 0 (Config.privateLen q.1) = own) with
    | some q => q.2.mapChips (fun m => members.getD m m)
    | none => foreignGang s n g own
  let s2 := s1.updGang n g (fun k =>
    { old with loaded := k.loaded, xlat := k.xlat, dirty := k.dirty, resetDone := k.resetDone, kernel := old.kernel.map (fun q => { q with vf := s.gcVf n g }),
               ckState := 0, ckErr := 0, ckSeq := k.ckSeq, ckGood := k.ckGood, ckSlot := k.ckSlot })
  { s2 with cores := s2.cores.map (fun (c : CoreId × Core) => if c.1.chip = n then
      (c.1, { c.2 with units := c.2.units.map (fun u => (u.1, { u.2 with owner := if u.2.owner = some g then none else u.2.owner })) }) else c) }
/-- The extents that a failed restore may have written hold unspecified bytes (R421, log 3). -/
def spoilExtents (s : State) (n g : Nat) (l : List Part) : State :=
  putExtents s n g (l.map (fun p => { p with bytes := (upTo p.bytes.length).map (fun i =>
    if Config.pick s.free i then Config.undefByte s.free i else (s.peek (hbmKey n ((s.xentry n g p.ext).base + i)) 1).getD 0 0) }))
/-- A restore of a slot. A table that has not been loaded maps nothing (R421). -/
def restoreSlot (s : State) (n g : Nat) (b : Bool) : State :=
  let at_ := fun (off : Nat) => hostKey n (s.ckPort n g b) (s.ckSlotAt n g b + off)
  let m := s.peek (at_ 0) 524288
  let parts := slotParts s at_ m
  let l := parts.map (·.1)
  let re := (fieldAt m 30 1).testBit 0
  if !(s.chip n).hostUp.getLsbD (s.ckPort n g b) then ckFail s n g 2
  else if fieldAt m 18 2 ≠ s.gcMember n g ∨ fieldAt m 20 2 ≠ s.gcNchips n g then ckFail s n g 5
  else if !(s.gang n g).loaded || l.any (fun p => p.kind = 4 && !(s.ckExtents n g).contains p.ext) then ckFail s n g 6
  else if !slotValid s n m parts || (re && l.any (fun p => p.kind ≠ 4 && p.kind ≠ 5)) then ckFail (spoilExtents s n g l) n g 4
  else
    let s1 := putExtents s n g l
    let s2 := if re then s1 else putGang s1 n g l
    (ckFail s2 n g 0).updGang n g (fun k => { k with ckSeq := fieldAt m 8 8 % 2 ^ 32, ckGood := true, ckSlot := fieldAt m 29 1 = 1 })
/-- A gang context may be restored: it is enabled, and no kernel of it runs or is saved on the member (R421). -/
def State.mayRestore (s : State) (n g : Nat) : Bool := natFld (s.gcCtl n g) 0 1 = 1 && !(s.gang n g).kernel.any (fun q => q.phase < 2)
/-- A restore of what may not be restored fails, with one of the codes for a failure; the spec does not state which (log 3). -/
def refuseRestore (s : State) (n g : Nat) : State := ckFail s n g (1 + Config.undefNat s.free 421 % 7)
/-- CHECKPOINT_COMPLETE of gang context `id`: its write ends, or its restore, which waits for a period that moves (R409); `val` 1 is
a completer abort or a poisoned completion from outside (log 17). -/
def execCheckpointComplete (s : State) : Out :=
  let n := s.sel.who.chip
  let g := s.sel.id
  match (s.chip n).ckJobs.find? (fun j => j.g = g) with
  | none => .fault .notEnabled
  | some j =>
    if s.sel.val = 1 then .next (ckFail s n g 2)
    else if (s.gang n g).ckState ≠ 3 then unitGate s (s.ckLines n g) (.next (finishWrite s n g j))
    else if !s.mayRestore n g then .next (refuseRestore s n g)
    else unitGate s (s.ckLines n g) (.next (restoreSlot s n g j.slot))
/-- CK_RESTORE: a write of CK_CMD of gang context `reg`, which begins a restore. While another command runs it reports BUSY. -/
def execCkRestore (s : State) : Out :=
  let n := s.sel.who.chip
  let g := s.sel.reg
  let k := s.gang n g
  if ckOp s.sel.val ≠ some 2 || 256 ≤ g then .fault .notEnabled
  else if k.ckState ≠ 0 then .next (s.updGang n g (fun k => { k with ckErr := 7 }))
  else if !s.mayRestore n g then .next (refuseRestore s n g)
  else .next ((s.updGang n g (fun k => { k with ckState := 3 })).updChip n (fun c => { c with ckJobs := c.ckJobs ++ [⟨g, s.sel.val.getLsbD 2, []⟩] }))

end Sys2Proof.Machine
end

