-- ==== Sys2Proof/Machine/EvPlat.lean ====
section
/-! DEFINITION. Sys2Proof/Machine/EvPlat.lean: the platform: attestation, in-field scan, supply sag, freeze, power-on, host
links and device reset (spec/22 R422 to R433). Requests and signals from outside are inputs (log 17). -/

namespace Sys2Proof.Machine

/-! ## Attestation (R427) -/

/-- CORE_MAP of a cluster (R422). -/
def CoreMap.reg (m : CoreMap) : Nat := m.phys.toNat + m.ncores * 2 ^ 36 + bit m.spare * 2 ^ 40 + bit m.mfail * 2 ^ 41
/-- ATTESTATION_REQUEST: a write of ATT_CMD. -/
def execAttestationRequest (s : State) : Out :=
  .next (s.updChip s.sel.who.chip (fun c => { c with att := some (s.sel.val.toNat / 4096 * 4096) }))
/-- The report over a nonce. -/
def attReport (s : State) (n : Nat) (nonce : List Byte) : List Byte :=
  let c := s.chip n
  let b := nonce ++ bytesOf n 2 ++ bytesOf (Config.rollback n).toNat 2 ++ bytesOf c.mig.mask.toNat 2 ++ bytesOf 0 2 ++
    (upTo 32).flatMap (fun k => bytesOf (c.coreMap.get k CoreMap.reset).reg 8) ++ bytesOf (Config.firmware n).toNat 192
  b ++ sigBytes (Config.sign n (sha384 b))
/-- ATTESTATION_REPORT_WRITE: into the requested buffer, through the PF's port. -/
def execAttestationReportWrite (s : State) : Out :=
  let n := s.sel.who.chip
  match (s.chip n).att with
  | none => .fault .notEnabled
  | some a =>
    if !s.fnUp n 0 then .fault .notEnabled
    else
      let k := hostKey n (portOfFn 0) a
      .next ((s.poke k (attReport s n (s.peek k 48))).updChip n (fun c => { c with att := none }))

/-! ## In-field scan (R424) -/

/-- The core a scan names. -/
def scanCore (n v : Nat) : CoreId := ⟨n, natFld v 0 5, natFld v 5 3⟩
/-- The core's RESIDENT units are spilled to their owners' blocks; no gang owns them any more. -/
def spillCore (s : State) (n : Nat) (c : CoreId) : State :=
  let s1 := (s.core c).units.foldl (fun s u => match u.2.owner with | some h => spillUnit s n c u.1 h | none => s) s
  s1.updCore c (fun k => { k with units := k.units.map (fun u => (u.1, { u.2 with owner := none })) })
/-- IFS_SCAN: a write of IFS_CMD. Without GO, while a scan runs, or naming no logical core, nothing happens (log 28). -/
def execIfsScan (s : State) : Out :=
  let n := s.sel.who.chip
  let v := s.sel.val.toNat
  let c := scanCore n v
  if !v.testBit 8 || (s.chip n).ifs = 1 || !s.isLogical n c.clus c.core then .next s
  else if (s.rgang n).kernel.any (fun k => k.phase = 1) && (s.chip n).running.isSome then .next (s.updChip n (fun h => { h with ifs := 5 }))
  else .next ((spillCore s n c).updChip n (fun h => { h with ifs := 1, ifsCore := v % 256, ifsEnd := s.cycNow n + 140000 }))
/-- Physical core of a logical core. -/
def CoreMap.physOf (m : CoreMap) (k : Nat) : Nat := natFld m.phys.toNat (4 * k) 4
/-- The map after a core has failed: the spare takes its number, or the cores above move down and the last is gone. -/
def CoreMap.fail (m : CoreMap) (k : Nat) : CoreMap :=
  let used := (upTo 8).map m.physOf
  let put := fun (f : Nat → Nat) => BitVec.ofNat 32 ((upTo 8).foldl (fun a i => a + f i * 2 ^ (4 * i)) 0)
  if m.spare then { m with spare := false, phys := put (fun i => if i = k then ((upTo 9).find? (fun p => !used.contains p)).getD 15 else m.physOf i) }
  else { m with ncores := 7, phys := put (fun i => if i = 7 then 15 else if i < k then m.physOf i else m.physOf (i + 1)) }
/-- A core that is another physical core now: every unit is WANTED and without an owner. -/
def freshUnits (k : Core) : Core := { k with units := (upTo 64).map (fun u => (u, ⟨none, true, false⟩)) }
/-- A scan that failed: the cluster's map changes. -/
def remap (s : State) (n v : Nat) : State :=
  let c := scanCore n v
  let old := (s.chip n).coreMap.get c.clus CoreMap.reset
  let m := old.fail c.core
  let s1 := s.updChip n (fun h => { h with coreMap := h.coreMap.set c.clus m })
  ((upTo 8).filter (fun k => m.physOf k ≠ old.physOf k)).foldl (fun s k => s.updCore ⟨n, c.clus, k⟩ freshUnits) s1
/-- IFS_COMPLETE: the pattern has run; its outcome is the silicon's (log 17). -/
def execIfsComplete (s : State) : Out :=
  let n := s.sel.who.chip
  let c := s.chip n
  if c.ifs ≠ 1 || decide (s.cycNow n < c.ifsEnd) then .fault .notEnabled
  else if Config.scanPass s.free then .next (s.updChip n (fun h => { h with ifs := 2 }))
  else .next ((remap s n c.ifsCore).updChip n (fun h => { h with ifs := 3 }))

/-! ## Supply sag (R431) -/

/-- SUPPLY_SAG: the rail is out of range, or, with `val` 1, the temperature is; a reading during half rate restarts the wait. -/
def execSupplySag (s : State) : Out :=
  .next (s.updChip s.sel.who.chip (fun c =>
    { c with sagHalf := true, sagTherm := s.sel.val.getLsbD 0, sagFrom := c.cycAt s.now, halfFrom := if c.sagHalf then c.halfFrom else s.now,
             sagEvents := if c.sagHalf then c.sagEvents else inc32 c.sagEvents }))
/-- SAG_RECOVER: 1,400 core cycles in range; from then on the core clock runs at full rate, behind by the cycles it has lost. -/
def execSagRecover (s : State) : Out :=
  let n := s.sel.who.chip
  when_ ((s.chip n).sagHalf && decide ((s.chip n).sagFrom + 1400 ≤ s.cycNow n))
    (s.updChip n (fun c => { c with sagHalf := false, sagTherm := false, lost := c.lost + (s.now - c.halfFrom) / 2 }))

/-! ## Host links, freeze, power-on, device reset (R417, R429, R432, R433) -/

/-- Host link `reg` of a chip comes up or goes down; a checkpoint written over it ends with HOSTERR (R417). -/
def setHost (s : State) (n port : Nat) (up : Bool) : State :=
  let b : BitVec 2 := 1#2 <<< port
  let s1 := s.updChip n (fun c => { c with hostUp := if up then c.hostUp ||| b else c.hostUp &&& ~~~b })
  if up then s1
  else ((s1.chip n).ckJobs.filter (fun j => s1.ckPort n j.g j.slot = port)).foldl (fun s j => ckFail s n j.g 2) s1
/-- HOST_LINK_CHANGE: link `reg`, `val` 1 up. -/
def execHostLinkChange (s : State) : Out := .next (setHost s s.sel.who.chip s.sel.reg (s.sel.val.getLsbD 0))
/-- Every fabric port of a chip is down, and the others hear of it (R280, R432). -/
def dropLinks (s : State) (n : Nat) : State :=
  let s1 := s.updChip n (fun c => { c with ports := c.ports.map (fun (q : Nat × Port) => (q.1, { q.2 with up := false })) })
  { s1 with chips := s1.chips.map (fun (q : Nat × Chip) => (q.1, { q.2 with notices := q.2.notices.map (fun (x : (Nat × Nat) × Bool) => if x.1.1 = n then (x.1, false) else x) })) }
/-- FREEZE: every clock of the chip stops. -/
def execFreeze (s : State) : Out :=
  let n := s.sel.who.chip
  .next ((setHost (setHost (dropLinks s n) n 0 false) n 1 false).updChip n (fun c => { c with frozen := true }))
/-- Contexts, cores, packets and requests of a chip at their reset state; cores keep the pod's clock (log 6). -/
def clearChip (s : State) (n : Nat) : State :=
  { s with ctxs := s.ctxs.filter (fun (q : Who × Ctx) => q.1.chip ≠ n),
           cores := s.cores.map (fun (q : CoreId × Core) => if q.1.chip = n then (q.1, { Core.reset with clk := q.2.clk }) else q),
           pkts := s.pkts.filter (fun p => p.who.chip ≠ n && p.dst ≠ n), wires := s.wires.filter (fun w => w.who.chip ≠ n && w.dst ≠ n), xfers := s.xfers.filter (fun x => x.who.chip ≠ n),
           reqs := s.reqs.filter (fun r => r.who.chip ≠ n), votes := s.votes.filter (fun v => v.1 ≠ n) }
/-- Physical cores of a cluster that fail the core scan. -/
def badCores (n c : Nat) : List Nat := (upTo 9).filter (Config.coreFails n c)
/-- The map of a cluster after the core scan of power-on: each core that fails is replaced as by an in-field scan, the spare among
them first (R422, R424, R433; DEDUCED, log 28). -/
def scanMap (n c : Nat) : CoreMap :=
  ((badCores n c).filter (fun p => p < 8)).foldl
    (fun m p => match (upTo 8).find? (fun k => m.physOf k = p) with | some k => m.fail k | none => m)
    { CoreMap.reset with mfail := Config.matrixFails n c, spare := !(badCores n c).contains 8 }
/-- The boot code accepts a firmware image: its signature verifies under the root key, and its version is not below the rollback
counter (R426). -/
def bootAccepts (n : Nat) (f : FwImage) : Bool :=
  Config.verifies Config.rootKey f.hash f.sig && decide ((Config.rollback n).toNat ≤ f.version.toNat)
/-- The first step of power-on that fails, of those that the image and the tests decide and the one that the outside names; 0 for
none. A memory of fewer than eight stacks, or a cluster of fewer than seven cores, fails its step (DEDUCED, log 28). -/
def powerStep (n outside : Nat) (f : FwImage) : Nat :=
  ((upTo 7).find? (fun i => outside = i + 1 || (i = 0 && !bootAccepts n f) || (i = 1 && decide ((stacksOf (Config.stacks n)).length < 8)) ||
    (i = 2 && (upTo 32).any (fun c => decide (2 < (badCores n c).length))))).elim 0 (fun i => i + 1)
/-- A chip after power-on with an image: the results of the steps before the one that failed, 0 for none (R433): stacks, core map,
host links, fabric ports, and the trust list of at most 16 keys with the unwrapped domain keys (R420, R426). -/
def Chip.powerOn (n now failed : Nat) (f : FwImage) : Chip :=
  let done := fun (k : Nat) => failed = 0 || decide (k < failed)
  { Chip.reset with
    mig := { Mig.reset with mask := if done 2 then Config.stacks n else 0xFFF }, cycFrom := now, polClk := now,
    coreMap := if done 3 then (upTo 32).map (fun c => (c, scanMap n c)) else [],
    hostUp := if done 4 then 3 else 0,
    ports := if done 5 then (upTo 48).map (fun k => (k, { Port.reset with up := true })) else [],
    trust := if done 6 then f.trust.take 16 else [],
    domKeys := if done 6 then f.wrapped.map (fun q => (q.1, Config.unwrap (Config.idKey n) q.2)) else [],
    failStep := failed, frozen := failed ≠ 0 }
/-- POWER_ON with firmware image `reg`; `val` names a step that fails, 0 none. A step that fails stops the sequence: the chip stays
stopped, and its management controller reports the step (R433). -/
def execPowerOn (s : State) : Out :=
  let n := s.sel.who.chip
  let s1 := clearChip s n
  let f := Config.image s.sel.reg
  .next { s1 with chips := s1.chips.set n (Chip.powerOn n s.now (powerStep n s.sel.val.toNat f) f) }
/-- DEVICE_RESET: a function-level reset of the PF: every register at its reset value; what power-on found and loaded, link
states, counts since power-on and the usage that is still to be reported stay (log 28). -/
def execDeviceReset (s : State) : Out :=
  let n := s.sel.who.chip
  let c := s.chip n
  let m := c.mig
  let s1 := clearChip s n
  .next { s1 with chips := s1.chips.set n { Chip.reset with
    mig := { Mig.reset with mask := m.mask, phase := m.phase, total := m.total, replays := m.replays, stalls := m.stalls, ce := m.ce, ue := m.ue,
                            history := m.history },
    cycFrom := s.cycNow n, polClk := c.polClk, coreMap := c.coreMap, notices := c.notices, hostUp := c.hostUp, sagEvents := c.sagEvents, sagHalf := c.sagHalf,
    sagTherm := c.sagTherm, sagFrom := c.sagFrom, halfFrom := c.halfFrom, lost := c.lost, urPend := c.urPend, urSeq := c.urSeq, urPrev := c.urPrev,
    urSign := c.urSign, trust := c.trust, domKeys := c.domKeys, failStep := c.failStep, frozen := c.frozen,
    ports := c.ports.map (fun (q : Nat × Port) => (q.1, { Port.reset with up := q.2.up })) } }

end Sys2Proof.Machine
end

