-- ==== Sys2Proof/Machine/Dispatch.lean ====
section
/-! DEFINITION. Sys2Proof/Machine/Dispatch.lean: one arm per instruction. -/

namespace Sys2Proof.Machine

def exec (i : Instr) (s : State) : Host.Outcome State Fault Refusal :=
  match i with
  | .add o => Sys2Proof.Machine.execAdd o s
  | .sub o => Sys2Proof.Machine.execSub o s
  | .mul o => Sys2Proof.Machine.execMul o s
  | .mulh o => Sys2Proof.Machine.execMulh o s
  | .mulhn o => Sys2Proof.Machine.execMulhn o s
  | .div o => Sys2Proof.Machine.execDiv o s
  | .divn o => Sys2Proof.Machine.execDivn o s
  | .rem o => Sys2Proof.Machine.execRem o s
  | .remn o => Sys2Proof.Machine.execRemn o s
  | .and o => Sys2Proof.Machine.execAnd o s
  | .or o => Sys2Proof.Machine.execOr o s
  | .xor o => Sys2Proof.Machine.execXor o s
  | .andn o => Sys2Proof.Machine.execAndn o s
  | .shl o => Sys2Proof.Machine.execShl o s
  | .shr o => Sys2Proof.Machine.execShr o s
  | .sar o => Sys2Proof.Machine.execSar o s
  | .rotl o => Sys2Proof.Machine.execRotl o s
  | .min o => Sys2Proof.Machine.execMin o s
  | .max o => Sys2Proof.Machine.execMax o s
  | .minn o => Sys2Proof.Machine.execMinn o s
  | .maxn o => Sys2Proof.Machine.execMaxn o s
  | .clz o => Sys2Proof.Machine.execClz o s
  | .ctz o => Sys2Proof.Machine.execCtz o s
  | .popc o => Sys2Proof.Machine.execPopc o s
  | .sext o => Sys2Proof.Machine.execSext o s
  | .zext o => Sys2Proof.Machine.execZext o s
  | .bfx o => Sys2Proof.Machine.execBfx o s
  | .bfi o => Sys2Proof.Machine.execBfi o s
  | .lea o => Sys2Proof.Machine.execLea o s
  | .sel o => Sys2Proof.Machine.execSel o s
  | .addi o => Sys2Proof.Machine.execAddi o s
  | .andi o => Sys2Proof.Machine.execAndi o s
  | .ori o => Sys2Proof.Machine.execOri o s
  | .xori o => Sys2Proof.Machine.execXori o s
  | .shli o => Sys2Proof.Machine.execShli o s
  | .shri o => Sys2Proof.Machine.execShri o s
  | .sari o => Sys2Proof.Machine.execSari o s
  | .li o => Sys2Proof.Machine.execLi o s
  | .lih o => Sys2Proof.Machine.execLih o s
  | .cmp o => Sys2Proof.Machine.execCmp o s
  | .pset o => Sys2Proof.Machine.execPset o s
  | .pand o => Sys2Proof.Machine.execPand o s
  | .por o => Sys2Proof.Machine.execPor o s
  | .pnot o => Sys2Proof.Machine.execPnot o s
  | .fadd o => Sys2Proof.Machine.execFadd o s
  | .fsub o => Sys2Proof.Machine.execFsub o s
  | .fmul o => Sys2Proof.Machine.execFmul o s
  | .fma o => Sys2Proof.Machine.execFma o s
  | .fmin o => Sys2Proof.Machine.execFmin o s
  | .fmax o => Sys2Proof.Machine.execFmax o s
  | .fcmp o => Sys2Proof.Machine.execFcmp o s
  | .fcvt o => Sys2Proof.Machine.execFcvt o s
  | .br o => Sys2Proof.Machine.execBr o s
  | .bc o => Sys2Proof.Machine.execBc o s
  | .call o => Sys2Proof.Machine.execCall o s
  | .ret o => Sys2Proof.Machine.execRet o s
  | .jr o => Sys2Proof.Machine.execJr o s
  | .loop o => Sys2Proof.Machine.execLoop o s
  | .lbrk o => Sys2Proof.Machine.execLbrk o s
  | .rrbSet o => Sys2Proof.Machine.execRrbSet o s
  | .rrbClr o => Sys2Proof.Machine.execRrbClr o s
  | .nop o => Sys2Proof.Machine.execNop o s
  | .halt o => Sys2Proof.Machine.execHalt o s
  | .wait o => Sys2Proof.Machine.execWait o s
  | .waitReg o => Sys2Proof.Machine.execWaitReg o s
  | .yield o => Sys2Proof.Machine.execYield o s
  | .trap o => Sys2Proof.Machine.execTrap o s
  | .rfe o => Sys2Proof.Machine.execRfe o s
  | .idr o => Sys2Proof.Machine.execIdr o s
  | .csrr o => Sys2Proof.Machine.execCsrr o s
  | .csrw o => Sys2Proof.Machine.execCsrw o s
  | .csrx o => Sys2Proof.Machine.execCsrx o s
  | .cp o => Sys2Proof.Machine.execCp o s
  | .ovtLd o => Sys2Proof.Machine.execOvtLd o s
  | .vadd o => Sys2Proof.Machine.execVadd o s
  | .vsub o => Sys2Proof.Machine.execVsub o s
  | .vmul o => Sys2Proof.Machine.execVmul o s
  | .vfma o => Sys2Proof.Machine.execVfma o s
  | .vfms o => Sys2Proof.Machine.execVfms o s
  | .vfnma o => Sys2Proof.Machine.execVfnma o s
  | .vmin o => Sys2Proof.Machine.execVmin o s
  | .vmax o => Sys2Proof.Machine.execVmax o s
  | .vabs o => Sys2Proof.Machine.execVabs o s
  | .vneg o => Sys2Proof.Machine.execVneg o s
  | .vsatadd o => Sys2Proof.Machine.execVsatadd o s
  | .vsatsub o => Sys2Proof.Machine.execVsatsub o s
  | .vclamp o => Sys2Proof.Machine.execVclamp o s
  | .vdot4 o => Sys2Proof.Machine.execVdot4 o s
  | .vand o => Sys2Proof.Machine.execVand o s
  | .vor o => Sys2Proof.Machine.execVor o s
  | .vxor o => Sys2Proof.Machine.execVxor o s
  | .vandn o => Sys2Proof.Machine.execVandn o s
  | .vnot o => Sys2Proof.Machine.execVnot o s
  | .vshl o => Sys2Proof.Machine.execVshl o s
  | .vshr o => Sys2Proof.Machine.execVshr o s
  | .vsar o => Sys2Proof.Machine.execVsar o s
  | .vcmp o => Sys2Proof.Machine.execVcmp o s
  | .vsel o => Sys2Proof.Machine.execVsel o s
  | .vmov o => Sys2Proof.Machine.execVmov o s
  | .vbcast o => Sys2Proof.Machine.execVbcast o s
  | .viota o => Sys2Proof.Machine.execViota o s
  | .vcvt o => Sys2Proof.Machine.execVcvt o s
  | .vpack o => Sys2Proof.Machine.execVpack o s
  | .vunpack o => Sys2Proof.Machine.execVunpack o s
  | .vperm o => Sys2Proof.Machine.execVperm o s
  | .vshuf o => Sys2Proof.Machine.execVshuf o s
  | .vslide o => Sys2Proof.Machine.execVslide o s
  | .vcompress o => Sys2Proof.Machine.execVcompress o s
  | .vexpand o => Sys2Proof.Machine.execVexpand o s
  | .vredadd o => Sys2Proof.Machine.execVredadd o s
  | .vredmax o => Sys2Proof.Machine.execVredmax o s
  | .vredmin o => Sys2Proof.Machine.execVredmin o s
  | .vscanAdd o => Sys2Proof.Machine.execVscanAdd o s
  | .vscanMax o => Sys2Proof.Machine.execVscanMax o s
  | .vsegscan o => Sys2Proof.Machine.execVsegscan o s
  | .vcp o => Sys2Proof.Machine.execVcp o s
  | .mand o => Sys2Proof.Machine.execMand o s
  | .mor o => Sys2Proof.Machine.execMor o s
  | .mnot o => Sys2Proof.Machine.execMnot o s
  | .mpopc o => Sys2Proof.Machine.execMpopc o s
  | .sfrcp o => Sys2Proof.Machine.execSfrcp o s
  | .sfrsq o => Sys2Proof.Machine.execSfrsq o s
  | .sfrcpr o => Sys2Proof.Machine.execSfrcpr o s
  | .sfrsqr o => Sys2Proof.Machine.execSfrsqr o s
  | .sfexp2 o => Sys2Proof.Machine.execSfexp2 o s
  | .sflog2 o => Sys2Proof.Machine.execSflog2 o s
  | .sfsin o => Sys2Proof.Machine.execSfsin o s
  | .sfcos o => Sys2Proof.Machine.execSfcos o s
  | .sftanh o => Sys2Proof.Machine.execSftanh o s
  | .sfsigm o => Sys2Proof.Machine.execSfsigm o s
  | .sferf o => Sys2Proof.Machine.execSferf o s
  | .sfsqrt o => Sys2Proof.Machine.execSfsqrt o s
  | .sfdiv o => Sys2Proof.Machine.execSfdiv o s
  | .sfcp o => Sys2Proof.Machine.execSfcp o s
  | .ldv o => Sys2Proof.Machine.execLdv o s
  | .stv o => Sys2Proof.Machine.execStv o s
  | .lds o => Sys2Proof.Machine.execLds o s
  | .sts o => Sys2Proof.Machine.execSts o s
  | .ldb o => Sys2Proof.Machine.execLdb o s
  | .gth o => Sys2Proof.Machine.execGth o s
  | .sct o => Sys2Proof.Machine.execSct o s
  | .ldt o => Sys2Proof.Machine.execLdt o s
  | .stt o => Sys2Proof.Machine.execStt o s
  | .ldtp o => Sys2Proof.Machine.execLdtp o s
  | .ldg o => Sys2Proof.Machine.execLdg o s
  | .stg o => Sys2Proof.Machine.execStg o s
  | .aadd o => Sys2Proof.Machine.execAadd o s
  | .amin o => Sys2Proof.Machine.execAmin o s
  | .amax o => Sys2Proof.Machine.execAmax o s
  | .aminn o => Sys2Proof.Machine.execAminn o s
  | .amaxn o => Sys2Proof.Machine.execAmaxn o s
  | .aand o => Sys2Proof.Machine.execAand o s
  | .aor o => Sys2Proof.Machine.execAor o s
  | .axor o => Sys2Proof.Machine.execAxor o s
  | .aswp o => Sys2Proof.Machine.execAswp o s
  | .acas o => Sys2Proof.Machine.execAcas o s
  | .afadd o => Sys2Proof.Machine.execAfadd o s
  | .afmax o => Sys2Proof.Machine.execAfmax o s
  | .fence o => Sys2Proof.Machine.execFence o s
  | .l2pin o => Sys2Proof.Machine.execL2pin o s
  | .l2unpin o => Sys2Proof.Machine.execL2unpin o s
  | .l2inv o => Sys2Proof.Machine.execL2inv o s
  | .wwait o => Sys2Proof.Machine.execWwait o s
  | .mzero o => Sys2Proof.Machine.execMzero o s
  | .mlat o => Sys2Proof.Machine.execMlat o s
  | .mma o => Sys2Proof.Machine.execMma o s
  | .mter o => Sys2Proof.Machine.execMter o s
  | .mdrain o => Sys2Proof.Machine.execMdrain o s
  | .maccLd o => Sys2Proof.Machine.execMaccLd o s
  | .mkat o => Sys2Proof.Machine.execMkat o s
  | .mchk o => Sys2Proof.Machine.execMchk o s
  | .kld o => Sys2Proof.Machine.execKld o s
  | .kset o => Sys2Proof.Machine.execKset o s
  | .kmov o => Sys2Proof.Machine.execKmov o s
  | .cpy o => Sys2Proof.Machine.execCpy o s
  | .amsg o => Sys2Proof.Machine.execAmsg o s
  | .taskPost o => Sys2Proof.Machine.execTaskPost o s
  | .taskDec o => Sys2Proof.Machine.execTaskDec o s
  | .ecntAdd o => Sys2Proof.Machine.execEcntAdd o s
  | .ecntSet o => Sys2Proof.Machine.execEcntSet o s
  | .clbar o => Sys2Proof.Machine.execClbar o s
  | .chbar o => Sys2Proof.Machine.execChbar o s
  | .fork o => Sys2Proof.Machine.execFork o s
  | .spawn o => Sys2Proof.Machine.execSpawn o s
  | .join o => Sys2Proof.Machine.execJoin o s
  | .revSt o => Sys2Proof.Machine.execRevSt o s
  | .flowMode o => Sys2Proof.Machine.execFlowMode o s
  | .slk o => Sys2Proof.Machine.execSlk o s
  | .coll o => Sys2Proof.Machine.execColl o s
  | .esend o => Sys2Proof.Machine.execEsend o s
  | .erel o => Sys2Proof.Machine.execErel o s
  | .eprobe o => Sys2Proof.Machine.execEprobe o s
  | .xtloadFull o => Sys2Proof.Machine.execXtloadFull o s
  | .xtloadEntry o => Sys2Proof.Machine.execXtloadEntry o s
  | .xtloadPage o => Sys2Proof.Machine.execXtloadPage o s
  | .gbar o => Sys2Proof.Machine.execGbar o s
  | .almw o => Sys2Proof.Machine.execAlmw o s
  | .almwLen o => Sys2Proof.Machine.execAlmwLen o s
  | .migCtlStart o => Sys2Proof.Machine.execMigCtlStart o s
  | .migCtlDone o => Sys2Proof.Machine.execMigCtlDone o s
  | .bundleIssue => Sys2Proof.Machine.execBundleIssue s
  | .blockRelease => Sys2Proof.Machine.execBlockRelease s
  | .resultLand => Sys2Proof.Machine.execResultLand s
  | .lateFault => Sys2Proof.Machine.execLateFault s
  | .queueSpill => Sys2Proof.Machine.execQueueSpill s
  | .eQueueHead => Sys2Proof.Machine.execEQueueHead s
  | .globalLoadLand => Sys2Proof.Machine.execGlobalLoadLand s
  | .tileRowsDone => Sys2Proof.Machine.execTileRowsDone s
  | .accessPerformed => Sys2Proof.Machine.execAccessPerformed s
  | .homeSliceAccess => Sys2Proof.Machine.execHomeSliceAccess s
  | .mcRequestAccept => Sys2Proof.Machine.execMcRequestAccept s
  | .sorrelSlotGrant => Sys2Proof.Machine.execSorrelSlotGrant s
  | .arbiterGrant => Sys2Proof.Machine.execArbiterGrant s
  | .packetArrival => Sys2Proof.Machine.execPacketArrival s
  | .requestPerform => Sys2Proof.Machine.execRequestPerform s
  | .replyLand => Sys2Proof.Machine.execReplyLand s
  | .windowAck => Sys2Proof.Machine.execWindowAck s
  | .portLinkChange => Sys2Proof.Machine.execPortLinkChange s
  | .linkStateNotice => Sys2Proof.Machine.execLinkStateNotice s
  | .flowModeDrained => Sys2Proof.Machine.execFlowModeDrained s
  | .matrixOpStart => Sys2Proof.Machine.execMatrixOpStart s
  | .matrixOpComplete => Sys2Proof.Machine.execMatrixOpComplete s
  | .copyStart => Sys2Proof.Machine.execCopyStart s
  | .copyComplete => Sys2Proof.Machine.execCopyComplete s
  | .fifoEntryPush => Sys2Proof.Machine.execFifoEntryPush s
  | .amsgSend => Sys2Proof.Machine.execAmsgSend s
  | .amsgLand => Sys2Proof.Machine.execAmsgLand s
  | .handlerStart => Sys2Proof.Machine.execHandlerStart s
  | .taskPostAccept => Sys2Proof.Machine.execTaskPostAccept s
  | .taskDecApply => Sys2Proof.Machine.execTaskDecApply s
  | .dispatchDecision => Sys2Proof.Machine.execDispatchDecision s
  | .taskStart => Sys2Proof.Machine.execTaskStart s
  | .barrierArrival => Sys2Proof.Machine.execBarrierArrival s
  | .barrierComplete => Sys2Proof.Machine.execBarrierComplete s
  | .gbarArrival => Sys2Proof.Machine.execGbarArrival s
  | .gbarComplete => Sys2Proof.Machine.execGbarComplete s
  | .memberFinish => Sys2Proof.Machine.execMemberFinish s
  | .forkPerform => Sys2Proof.Machine.execForkPerform s
  | .joinPerform => Sys2Proof.Machine.execJoinPerform s
  | .revStPerform => Sys2Proof.Machine.execRevStPerform s
  | .segmentCommit => Sys2Proof.Machine.execSegmentCommit s
  | .segmentIssueLimit => Sys2Proof.Machine.execSegmentIssueLimit s
  | .holdRelease => Sys2Proof.Machine.execHoldRelease s
  | .preemptionRequest => Sys2Proof.Machine.execPreemptionRequest s
  | .esendSlot => Sys2Proof.Machine.execEsendSlot s
  | .esendSlotPerform => Sys2Proof.Machine.execEsendSlotPerform s
  | .erelNotice => Sys2Proof.Machine.execErelNotice s
  | .erelNoticeArrival => Sys2Proof.Machine.execErelNoticeArrival s
  | .eprobeRead => Sys2Proof.Machine.execEprobeRead s
  | .slkApply => Sys2Proof.Machine.execSlkApply s
  | .collContextTake => Sys2Proof.Machine.execCollContextTake s
  | .collStartFlit => Sys2Proof.Machine.execCollStartFlit s
  | .collGo => Sys2Proof.Machine.execCollGo s
  | .collAbort => Sys2Proof.Machine.execCollAbort s
  | .collChunk => Sys2Proof.Machine.execCollChunk s
  | .collComplete => Sys2Proof.Machine.execCollComplete s
  | .almwApply => Sys2Proof.Machine.execAlmwApply s
  | .xtloadApply => Sys2Proof.Machine.execXtloadApply s
  | .migStartApply => Sys2Proof.Machine.execMigStartApply s
  | .migDoneApply => Sys2Proof.Machine.execMigDoneApply s
  | .periodMark => Sys2Proof.Machine.execPeriodMark s
  | .periodDrained => Sys2Proof.Machine.execPeriodDrained s
  | .policyEvaluation => Sys2Proof.Machine.execPolicyEvaluation s
  | .firmwareRetireRetry => Sys2Proof.Machine.execFirmwareRetireRetry s
  | .slotBoundary => Sys2Proof.Machine.execSlotBoundary s
  | .frameEndReport => Sys2Proof.Machine.execFrameEndReport s
  | .almanacDeltas => Sys2Proof.Machine.execAlmanacDeltas s
  | .prepare => Sys2Proof.Machine.execPrepare s
  | .ack => Sys2Proof.Machine.execAck s
  | .ackResend => Sys2Proof.Machine.execAckResend s
  | .refuse => Sys2Proof.Machine.execRefuse s
  | .voteTimeout => Sys2Proof.Machine.execVoteTimeout s
  | .commit => Sys2Proof.Machine.execCommit s
  | .abort => Sys2Proof.Machine.execAbort s
  | .ready => Sys2Proof.Machine.execReady s
  | .notready => Sys2Proof.Machine.execNotready s
  | .startTimeout => Sys2Proof.Machine.execStartTimeout s
  | .go => Sys2Proof.Machine.execGo s
  | .voteHalt => Sys2Proof.Machine.execVoteHalt s
  | .unitFillDone => Sys2Proof.Machine.execUnitFillDone s
  | .peerReset => Sys2Proof.Machine.execPeerReset s
  | .vfReset => Sys2Proof.Machine.execVfReset s
  | .deviceReset => Sys2Proof.Machine.execDeviceReset s
  | .launchRecord => Sys2Proof.Machine.execLaunchRecord s
  | .translationRecord => Sys2Proof.Machine.execTranslationRecord s
  | .faultReportWrite => Sys2Proof.Machine.execFaultReportWrite s
  | .frResume => Sys2Proof.Machine.execFrResume s
  | .gangKill => Sys2Proof.Machine.execGangKill s
  | .dirtyLogRecord => Sys2Proof.Machine.execDirtyLogRecord s
  | .dlClear => Sys2Proof.Machine.execDlClear s
  | .frameAssign => Sys2Proof.Machine.execFrameAssign s
  | .frameFree => Sys2Proof.Machine.execFrameFree s
  | .frameQuery => Sys2Proof.Machine.execFrameQuery s
  | .scrubEnd => Sys2Proof.Machine.execScrubEnd s
  | .gcCtlWrite => Sys2Proof.Machine.execGcCtlWrite s
  | .s2BaseWrite => Sys2Proof.Machine.execS2BaseWrite s
  | .winAllowMaxWrite => Sys2Proof.Machine.execWinAllowMaxWrite s
  | .retwWaysWrite => Sys2Proof.Machine.execRetwWaysWrite s
  | .ancPoolWrite => Sys2Proof.Machine.execAncPoolWrite s
  | .ancBaseWrite => Sys2Proof.Machine.execAncBaseWrite s
  | .registerWrite => Sys2Proof.Machine.execRegisterWrite s
  | .ckTake => Sys2Proof.Machine.execCkTake s
  | .checkpointWrite => Sys2Proof.Machine.execCheckpointWrite s
  | .checkpointComplete => Sys2Proof.Machine.execCheckpointComplete s
  | .ckRestore => Sys2Proof.Machine.execCkRestore s
  | .attestationRequest => Sys2Proof.Machine.execAttestationRequest s
  | .ifsScan => Sys2Proof.Machine.execIfsScan s
  | .ifsComplete => Sys2Proof.Machine.execIfsComplete s
  | .supplySag => Sys2Proof.Machine.execSupplySag s
  | .sagRecover => Sys2Proof.Machine.execSagRecover s
  | .freeze => Sys2Proof.Machine.execFreeze s
  | .powerOn => Sys2Proof.Machine.execPowerOn s
  | .hostLinkChange => Sys2Proof.Machine.execHostLinkChange s
  | .vfResetEnd => Sys2Proof.Machine.execVfResetEnd s
  | .attestationReportWrite => Sys2Proof.Machine.execAttestationReportWrite s

end Sys2Proof.Machine
end

