-- ==== Sys2Proof/Machine/Place.lean ====
section
/-! DEFINITION. Sys2Proof/Machine/Place.lean: how one instruction is placed so that the very next step runs it (log 7). -/

namespace Sys2Proof.Machine

/-- The context that runs a placed instruction. -/
def placeWho : Who := ⟨0, 0, 0, 0⟩
/-- The translation entry its code is fetched through: local, readable and executable, at frame 2. -/
def placeEntry : XEntry :=
  { kind := 1, r := true, w := false, x := true, dlog := false, hport := 0, domain := 0, member := 0, base := 2 ^ 29,
    absent := 0, gbase := 0 }
/-- The bundle that holds one operation: header with SIG, SIGV, and the operation's syllables. -/
def placeBundle (sl : Slot) (p : Words) : List Syl :=
  let h : Syl := BitVec.ofNat 32 (2 ^ 28 + 2 ^ sl.index)
  let body := p.1 :: p.2.toList
  let crc := crcFinal ((h :: 0 :: body).foldl crcSyl crcInit)
  h :: crc :: body
/-- Syllables stored from a key, little-endian. -/
def storeSyls (k : Nat) : List Syl → State → State
  | [], s => s
  | v :: r, s => storeSyls (k + 4) r (s.poke k (bytesOf v.toNat 4))

/-- One operation placed at the program counter of a context that then issues: its chip runs gang context 0, whose table
maps that page, and the pool partition has every tile and accumulator a syllable can name. -/
def placeOp (sl : Slot) (p : Words) (s : State) : State :=
  let pc := (s.ctx placeWho).pc.toNat % 2 ^ 40 / 4 * 4
  let s1 := s.updChip 0 (fun c => { c with running := some 0 })
  let s2 := s1.updGang 0 0 (fun g => { g with loaded := true, xlat := g.xlat.set (pc / 2 ^ 28) placeEntry })
  let s3 := s2.updCore placeWho.coreId (fun k => { k with run := some 0 })
  let s4 := s3.updCtx placeWho (fun c =>
    { c with st := .running, pc := BitVec.ofNat 64 pc, arrive := .taken, rep := 0, repOn := false,
             csr := { c.csr with poolTiles := 64, poolAccs := 16, poolLimit := 0x100000 } })
  storeSyls (hbmKey 0 (2 ^ 29 + pc % 2 ^ 28)) (placeBundle sl p) s4

end Sys2Proof.Machine
end

