-- ==== Sys2Proof/Machine/Schedule.lean ====
section
/-! DEFINITION. Sys2Proof/Machine/Schedule.lean: the steps and events that may come next, in the order the model offers
them: inputs from outside, the events inside the device, then the issues of the cores (log 5). -/

namespace Sys2Proof.Machine

/-- A candidate for the next step: its row, the parties, and the outside input it takes, by place in the list. -/
structure Cand where
  op : Instr
  sel : Sel
  input : Option Nat
  deriving DecidableEq, Repr

/-- A candidate of a context, with the number of an item. -/
def forWho (i : Instr) (w : Who) (id : Nat) : Cand := ⟨i, ⟨w, id, 0, 0⟩, none⟩
/-- A candidate of a context. -/
def forCtx (i : Instr) (w : Who) : Cand := forWho i w 0
/-- A candidate of a core. -/
def forCore (i : Instr) (c : CoreId) (id : Nat) : Cand := forWho i ⟨c.chip, c.clus, c.core, 0⟩ id
/-- A candidate with an operand value. -/
def Cand.val (c : Cand) (v : Nat) : Cand := { c with sel := { c.sel with val := BitVec.ofNat 64 v } }
/-- A candidate of a chip. -/
def forChip (i : Instr) (n id : Nat) : Cand := forWho i ⟨n, 0, 0, 0⟩ id

/-- Events that a packet may meet where it stands, and the chip at which they occur. -/
def pktCands (p : Pkt) : List Cand :=
  let at_ := fun (n : Nat) (l : List Instr) => l.map (fun i => forChip i n p.id)
  match p.stage with
  | .router | .egress | .bridge 0 | .replyIngress | .replyOut | .bridge 3 => at_ p.who.chip [.arbiterGrant]
  | .ingress => at_ p.dst [.arbiterGrant, .amsgLand]
  | .reorder | .inRouter | .replyRouter | .replyEgress | .bridge _ => at_ p.dst [.arbiterGrant]
  | .core => if p.isPool then at_ p.dst [.accessPerformed] else []
  | .target =>
    at_ p.dst [.requestPerform, .amsgLand, .taskDecApply, .esendSlotPerform, .erelNoticeArrival, .gbarArrival, .collStartFlit, .collGo, .collAbort, .collChunk]
  | .slice => at_ p.dst [.homeSliceAccess]
  | .mc _ _ => at_ p.dst [.mcRequestAccept]
  | .ready => at_ p.dst [.accessPerformed]
  | .sorrel => at_ p.dst [.sorrelSlotGrant]
  | .home => at_ p.who.chip [.replyLand, .windowAck]
  | .landing => at_ p.who.chip [.globalLoadLand]
  | _ => []
/-- The event of a copy on a link, or of one that waits to be sent again. -/
def wireCand (w : Wire) : Cand :=
  if w.out then ⟨.packetArrival, ⟨⟨w.goes, 0, 0, 0⟩, w.pkt, w.port, 0⟩, none⟩ else ⟨.arbiterGrant, ⟨⟨w.leaves, 0, 0, 0⟩, w.pkt, w.port, 1⟩, none⟩
/-- Events of a request to a unit of its chip. -/
def reqCands (q : UnitReq) : List Cand :=
  [Instr.taskPostAccept, .barrierArrival, .forkPerform, .joinPerform, .revStPerform].map (fun i => forChip i q.who.chip q.id)

/-- Events of a context. -/
def ctxCands (w : Who) (c : Ctx) : List Cand :=
  (if c.flight.isEmpty then [] else [Instr.resultLand, .winAllowMaxWrite, .retwWaysWrite, .ancPoolWrite, .ancBaseWrite].map (fun i => forCtx i w)) ++
  (if c.late.isEmpty then [] else [forCtx .lateFault w]) ++ (if c.st = .blocked then [forCtx .blockRelease w] else []) ++
  (if c.inSeg then [forCtx .segmentCommit w, forCtx .segmentIssueLimit w] else []) ++
  (if c.holds.isEmpty then [] else [forCtx .holdRelease w]) ++ (if c.eq.isEmpty then [] else [forCtx .eQueueHead w]) ++
  (if c.eHead.isNone then [] else
    [Instr.amsgSend, .esendSlot, .erelNotice, .eprobeRead, .slkApply, .almwApply, .xtloadApply, .migStartApply, .migDoneApply].map (fun i => forCtx i w)) ++
  (if c.flowWait.isEmpty then [] else [forCtx .flowModeDrained w]) ++
  (if c.cq0.isEmpty then [] else [forWho .copyStart w 0]) ++ (if c.cq1.isEmpty then [] else [forWho .copyStart w 1]) ++
  ((upTo 4).filter (fun q => decide (64 ≤ c.queueLen q))).map (forWho .queueSpill w) ++
  (if c.ovfWait.isEmpty then [] else [(forCtx .queueSpill w).val 1]) ++
  (if c.ring.isEmpty then [] else (upTo 4).map (fun q => (forWho .queueSpill w q).val 2)) ++
  (if c.st = .dormant then [forCtx .handlerStart w, forCtx .taskStart w] else [])
/-- Events of a core. -/
def coreCands (c : CoreId) (k : Core) : List Cand :=
  k.mq.flatMap (fun m => [forCore .matrixOpStart c m.id, forCore .matrixOpComplete c m.id]) ++
  (if k.cur0.isNone then [] else [forCore .copyComplete c 0, forCore .fifoEntryPush c 0]) ++
  (if k.cur1.isNone then [] else [forCore .copyComplete c 1, forCore .fifoEntryPush c 1]) ++
  (k.units.filter (fun u => u.2.wanted)).map (fun u => forCore .unitFillDone c u.1)
/-- Events of the vote and the Almanac of a chip. -/
def voteCands (s : State) (n : Nat) (h : Chip) : List Cand :=
  (if s.votes.any (fun v => v.1 = n) then
    [Instr.prepare, .ack, .refuse, .commit, .abort, .ready, .notready, .go, .voteHalt, .peerReset, .almanacDeltas].map (fun i => forChip i n 0) else []) ++
  (if h.vote.member.isNone then [] else forChip .ackResend n 0 :: (s.ctxsOf n).map (forCtx .preemptionRequest)) ++
  (if h.vote.coord.isNone then [] else [forChip .voteTimeout n 0]) ++ (if h.vote.inGang.isNone then [] else [forChip .startTimeout n 0]) ++
  (if h.alm.run then [forChip .slotBoundary n 0] else []) ++ (if h.alm.ended then [forChip .frameEndReport n 0] else []) ++
  (if h.alm.reports.isEmpty then [] else [forChip .almanacDeltas n 0])
/-- Events of Meridian and the platform of a chip. -/
def platCands (n : Nat) (h : Chip) : List Cand :=
  (if h.mig.active then [forChip .periodMark n 0, forChip .periodDrained n 0] else []) ++ [forChip .policyEvaluation n 0] ++
  (if h.mig.request.isNone then [] else [forChip .firmwareRetireRetry n 0]) ++
  (if h.att.isNone then [] else [forChip .attestationReportWrite n 0]) ++ (if h.ifs = 1 then [forChip .ifsComplete n 0] else []) ++
  (if h.sagHalf then [forChip .sagRecover n 0] else []) ++ h.resetting.map (forChip .vfResetEnd n) ++
  (h.frames.filter (fun f => f.2 = .scrubbing)).map (fun f => forChip .scrubEnd n f.1) ++
  h.ckJobs.map (fun j => forChip .checkpointComplete n j.g) ++
  (h.gangs.filter (fun g => g.2.ckState = 1)).map (fun g => forChip .checkpointWrite n g.1)
/-- Events of the command processor, the scheduler, the barriers and the collectives of a chip. -/
def unitCands (s : State) (n : Nat) (h : Chip) : List Cand :=
  let g := s.rgang n
  (if h.bar.isEmpty then [] else [forChip .launchRecord n 0, forChip .translationRecord n 0]) ++
  (if h.xtWait.isEmpty then [] else [forChip .translationRecord n 1]) ++
  (if h.pending.isEmpty && h.hpending.isEmpty then [] else [forChip .faultReportWrite n 0]) ++
  h.dlogWait.map (fun r => forChip .dirtyLogRecord n r.id) ++
  (if g.waiting.isEmpty && g.window.isEmpty then [] else [forChip .dispatchDecision n 0]) ++
  g.bars.flatMap (fun b => [forChip .barrierComplete n b.1, forChip .gbarComplete n b.1]) ++ g.joins.map (fun j => forChip .joinPerform n j.id) ++
  h.colls.flatMap (fun k => [Instr.collContextTake, .collStartFlit, .collGo, .collAbort, .collChunk, .collComplete].map (fun i => forChip i n k.id)) ++
  (if g.kernel.any (fun k => k.phase = 1) then [forChip .memberFinish n 0] else [])

/-- The events inside the device. -/
def eventCands (s : State) : List Cand :=
  s.pkts.flatMap pktCands ++ s.wires.map wireCand ++ s.xfers.map (fun x => forChip .tileRowsDone x.who.chip x.id) ++ s.reqs.flatMap reqCands ++
  s.ctxs.flatMap (fun (q : Who × Ctx) => ctxCands q.1 q.2) ++ s.cores.flatMap (fun (q : CoreId × Core) => coreCands q.1 q.2) ++
  s.chips.flatMap (fun (q : Nat × Chip) => voteCands s q.1 q.2 ++ unitCands s q.1 q.2 ++ platCands q.1 q.2)
/-- The issues of the cores, those of the cores that lag behind first. -/
def issueCands (s : State) : List Cand :=
  let l := (s.ctxs.map (·.1)).filter (fun w => s.mayIssue w.chip && s.issuer w.coreId = some w.ctx)
  let at_ := fun (w : Who) => (s.chip w.chip).timeOf (s.clkOf w)
  let t := (l.map at_).foldl min (at_ (l.headD s.sel.who))
  (l.filter (fun w => at_ w = t) ++ l.filter (fun w => at_ w ≠ t)).map (forCtx .bundleIssue)
/-- Rows that occur only because something outside the device does them (log 17). -/
def fromOutside (i : Instr) : Bool :=
  match i with
  | .portLinkChange | .linkStateNotice | .vfReset | .deviceReset | .frResume | .gangKill | .dlClear | .frameAssign | .frameFree | .frameQuery
  | .gcCtlWrite | .s2BaseWrite | .registerWrite | .ckTake | .ckRestore | .attestationRequest | .ifsScan | .supplySag | .freeze | .powerOn
  | .hostLinkChange | .packetArrival | .mcRequestAccept | .checkpointComplete | .periodDrained | .fifoEntryPush => true
  | _ => false
/-- The inputs from outside, each its own candidate. -/
def inputCands (s : State) : List Cand := (s.inputs.zipIdx).filterMap (fun q => if fromOutside q.1.1 then some ⟨q.1.1, q.1.2, some q.2⟩ else none)
/-- One byte, piece or part of an access, a tile, a copy or a payload ahead of the rest of it, which `v` names (R193, R253, R254):
the orders that the spec leaves open within one access. -/
def aheadCands (s : State) (v : Nat) : List Cand :=
  if v = 0 then []
  else
    let l : List Cand := s.pkts.flatMap (fun (p : Pkt) => match p.stage with
      | .ready => [forChip .accessPerformed p.dst p.id]
      | .core => if p.isPool then [forChip .accessPerformed p.dst p.id] else []
      | .target => [Instr.requestPerform, .amsgLand, .esendSlotPerform, .collChunk].map (fun i => forChip i p.dst p.id)
      | _ => []) ++
    s.xfers.map (fun x => forChip .tileRowsDone x.who.chip x.id) ++
    s.ctxs.flatMap (fun (q : Who × Ctx) => q.2.cmds.flatMap (fun k => [forWho .amsgSend q.1 k.id, forWho .esendSlot q.1 k.id]) ++
      (upTo q.2.flight.length).map (fun i => { forCtx .resultLand q.1 with sel := ⟨q.1, 0, i, 0⟩ })) ++
    s.cores.flatMap (fun (q : CoreId × Core) => [forCore .copyComplete q.1 0, forCore .copyComplete q.1 1] ++
      q.2.mq.map (fun m => forCore .matrixOpComplete q.1 m.id)) ++
    s.chips.flatMap (fun (q : Nat × Chip) => (s.rgang q.1).joins.map (fun j => forChip .joinPerform q.1 j.id) ++
      q.2.colls.flatMap (fun k => [Instr.collGo, .collChunk, .collComplete].map (fun i => forChip i q.1 k.id)))
    l.map (fun c => c.val v)
/-- A frozen chip takes no step but a power-on (R432); a slot boundary that is overdue by the pod time base comes before anything
else (R375). -/
def State.allows (s : State) (q : Cand) : Bool :=
  (!(s.chip q.sel.who.chip).frozen || q.op = .powerOn) &&
    (!s.chips.any (fun c => s.overdue c.1) || (q.op = .slotBoundary && s.overdue q.sel.who.chip))
/-- All candidates, with those that `v` names. -/
def candidates (s : State) (v : Nat) : List Cand := (inputCands s ++ eventCands s ++ issueCands s ++ aheadCands s v).filter s.allows

/-- The pod clock follows the core the step acted for, and cores on which nothing can issue follow the pod clock. -/
def State.settleClock (s : State) : State :=
  let t := max s.now ((s.chip s.sel.who.chip).timeOf (s.clkOf s.sel.who))
  { s with now := t, cores := s.cores.map (fun (p : CoreId × Core) =>
      if (s.issuer p.1).isNone then (p.1, { p.2 with clk := max p.2.clk ((s.chip p.1.chip).cycAt t) }) else p) }
/-- Nothing can happen: a cycle of the pod clock passes, on every core of a chip that is not frozen; at half rate every other one
(R431). -/
def idleCycle (s : State) : State :=
  { s with cores := s.cores.map (fun (p : CoreId × Core) =>
      let c := s.chip p.1.chip
      if c.frozen then p else (p.1, { p.2 with clk := p.2.clk + (c.cycAt (s.now + 1) - c.cycAt s.now) })), now := s.now + 1 }

/-- The state a candidate acts on: its parties selected; an outside input is taken. -/
def Cand.at (q : Cand) (s : State) : State :=
  { s with sel := q.sel, inputs := match q.input with | some i => s.inputs.eraseIdx i | none => s.inputs }
/-- The schedule's choice is consumed and the counter of free values advanced. -/
def State.ready (s : State) : State := { s with choices := s.choices.tail, free := s.free + 1 }

end Sys2Proof.Machine
end

