-- ==== Sys2Proof/Machine/Step.lean ====
section
/-! DEFINITION. Sys2Proof/Machine/Step.lean: one step of the pod: the chosen candidate that is enabled (log 5). -/

namespace Sys2Proof.Machine

/-- The k-th candidate that takes a step, or the last one when there are fewer. -/
def pickEnabled (s : State) : List Cand → Nat → Option (Host.Outcome State Fault Refusal) → Option (Host.Outcome State Fault Refusal)
  | [], _, last => last
  | q :: r, k, last =>
    match exec q.op (q.at s) with
    | .next t => if k = 0 then some (.next t) else pickEnabled s r (k - 1) (some (.next t))
    | .fault _ => pickEnabled s r k last
    | .refused e => some (.refused e)

/-- One step of the machine: a choice is the place of the candidate, with, 2^32 of them apart, what an "ahead" candidate names. -/
def step (s : State) : Host.Outcome State Fault Refusal :=
  let c := s.choices.headD 0
  match pickEnabled s.ready (candidates s.ready (c / 2 ^ 32)) (c % 2 ^ 32) none with
  | some (.next t) => .next t.settleClock
  | some o => o
  | none => .next (idleCycle s.ready)

/-- s with one instruction where step fetches next; bits beyond nbits are 0. -/
def State.withFetchWord (s : State) (nbits w : Nat) : State :=
  let p := tableWords (w % 2 ^ nbits)
  match decodeAny p.1 p.2 wordSlots with
  | some (sl, _) => placeOp sl p s
  | none => placeOp .s0 p s

end Sys2Proof.Machine
end

