-- ==== Sys2Proof/Safety.lean ====
section
/-! DEFINITION. Sys2Proof/Safety.lean: what counts as a safe run, and the terms the statements use: what an operation's
result is, and what a step leaves unchanged. -/

namespace Sys2Proof.Machine

/-- A state that keeps the shape every operation of the model relies on: memory in its canonical form. -/
def State.Inv (s : State) : Prop := Memory.wf s.mem = true

/-- A run that never stops by a fault or a refusal in n steps. -/
def safeFor (n : Nat) (s : State) : Prop := ∃ t, Host.Core.run Sys2Proof.core n s = .next t

/-- Exactly when its guard is true, the operation puts one fixed-latency result in flight: the bits en of value v for
destination d, with a bound of lat cycles from its issue cycle and its flags (R14, R30); nothing else changes. -/
def State.gives (s : State) (i : Instr) (sl : Slot) (g : Guard) (d : Dest) (v en : BitVec 4096) (lat : Nat) (fl : Flags) : Prop :=
  exec i s = .next (if s.guard sl g then s.land d v en lat fl else s)
/-- The same for a 64-bit value written whole. -/
def State.gives64 (s : State) (i : Instr) (sl : Slot) (g : Guard) (d : Dest) (v : BitVec 64) (lat : Nat) (fl : Flags) : Prop :=
  s.gives i sl g d (v.setWidth 4096) d.full lat fl

/-- A result put in flight by the acting context at its issue cycle (R30). -/
def State.result (s : State) (d : Dest) (v en : BitVec 4096) (lat : Nat) (fl : Flags) : Landing :=
  { dest := d, val := v, en := en, issued := s.t, bound := s.t + lat, flags := fl, inst := s.cur.inst, id := 0, pool := [] }
/-- The acting context changed by f, exactly when the guard of the slot is true. -/
def State.does (s : State) (i : Instr) (sl : Slot) (g : Guard) (f : Ctx → Ctx) : Prop :=
  exec i s = .next (if s.guard sl g then s.upd f else s)

/-- A candidate takes a step. -/
def Cand.takes (q : Cand) (s : State) : Bool := match exec q.op (q.at s) with | .next _ => true | _ => false

/-- Lane count of a vector operation. -/
def vLanes (o : VOp) : Nat := lanesOf o.w o.ext.fmt
/-- Element k of a source of a vector operation, in its format: 0 SA, 1 SB, 2 SC, 3 DST. -/
def State.vSrc (s : State) (o : VOp) (pos k : Nat) : Nat :=
  (s.vElems o.slot pos (match pos with | 0 => o.a | 1 => o.b | 2 => o.ext.c | _ => o.d) (vLanes o) (fmtBits o.ext.fmt)).getD k 0
/-- A vector operation lands element k of its result where m selects it, with the flags of the elements selected (R138). -/
def State.givesElems (s : State) (i : Instr) (o : VOp) (w : Nat) (m : List Bool) (r : List (Nat × Flags)) (lat : Nat) : Prop :=
  exec i s = .next (if s.guard o.slot.slot o.g then landElems s (s.vReg o.slot o.d) w m r lat else s)
/-- The same for one result per lane under the write role of MASK. -/
def State.givesLanes (s : State) (i : Instr) (o : VOp) (lat : Nat) (r : Nat → Nat × Flags) : Prop :=
  s.givesElems i o (fmtBits o.ext.fmt) (s.vMaskBits o (vLanes o)) ((upTo (vLanes o)).map r) lat

/-- t differs from s in no part of the pod but one context. -/
def onlyCtx (w : Who) (s t : State) : Prop := t = { s with ctxs := t.ctxs } ∧ ∀ v, v ≠ w → t.ctx v = s.ctx v
/-- t differs from s in nothing but the results the acting context has in flight. -/
def onlyFlight (s t : State) : Prop :=
  onlyCtx s.sel.who s t ∧ t.cur = { s.cur with flight := t.cur.flight } ∧ s.cur.flight <+: t.cur.flight
/-- t differs from s in nothing but the results the acting context has in flight and its next-bundle target. -/
def onlyFlightAndNext (s t : State) : Prop :=
  onlyCtx s.sel.who s t ∧ t.cur = { s.cur with flight := t.cur.flight, next := t.cur.next } ∧ s.cur.flight <+: t.cur.flight
/-- Every byte of memory reads in t as it reads in s, but for those at the keys from k on, n of them. -/
def memSameBut (s t : State) (k n : Nat) : Prop := ∀ a, ¬ (k ≤ a ∧ a < k + n) → memGet t.mem a = memGet s.mem a

/-- No store to a scratchpad is held back outside a segment (R179, R182). -/
def State.poolIdle (s : State) : Prop := ∀ p ∈ s.pkts, p.isPool = true → p.stage = .buffered
/-- t is s with an M-class form issued (R189, R192, R193): it stands last in its core's M queue with its claim of na entries
of the A FIFO and nb of the B FIFO, and its busy bits are set; nothing else of its context and of any core differs. -/
def State.formIssued (s t : State) (i : Instr) (elems : List Elem) (na nb : Nat) : Prop :=
  ∃ m : MForm, m.op = i ∧ m.id = s.nextId ∧ m.who = s.sel.who ∧ m.issued = s.t ∧ m.started = false ∧ m.need = na + nb ∧ m.ovt = s.ovt ∧
    t.mem = s.mem ∧ t.pkts = s.pkts ∧ (∀ w, w ≠ s.sel.who → t.ctx w = s.ctx w) ∧
    t.cur = { s.cur with busy := s.cur.busy ++ elems.map (fun e => ⟨e, s.nextId, true⟩), owedA := s.cur.owedA + na, owedB := s.cur.owedB + nb } ∧
    t.core s.sel.who.coreId = { s.core s.sel.who.coreId with mq := (s.core s.sel.who.coreId).mq ++ [m] } ∧
    ∀ c, c ≠ s.sel.who.coreId → t.core c = s.core c
/-- t is s with an E command issued (R207, R233, R234, R281, R291, R331): it holds what it read at issue and stands last in the E
queue, among what is on its way to the overflow ring while the queue has entries there, or, with external effect inside a
segment, among what the commit releases; d is undefined from now on, unless it is none. Its packets are numbered in their flow as
it enters the queue, and the pieces of the context's earlier loads stand as read. -/
def State.commandIssued (s t : State) (i : Instr) (o : EOp) (d : Dest) (ext : Bool) : Prop :=
  let c := s.cur
  let u := t.cur
  ∃ k : ECmd, k.op = i ∧ k.id = s.nextId ∧ k.ea = s.rd64 .e 0 (.e o.ea) ∧ k.eb = s.rd64 .e 1 (.e o.eb) ∧ k.flow = s.flowCur ∧
    k.slack = (if o.ext.skv then o.ext.sk else BitVec.ofNat 12 s.slackDef) ∧ k.inst = c.inst ∧
    t.mem = s.mem ∧ t.pkts = s.pkts ∧ t.cores = s.cores ∧ (∀ w, w ≠ s.sel.who → t.ctx w = s.ctx w) ∧
    u.regs = c.regs ∧ u.pc = c.pc ∧ u.busy = c.busy ∧ u.cq0 = c.cq0 ∧ u.cq1 = c.cq1 ∧ u.rq = c.rq ∧
    (if d = .none then u.flight = c.fixLoads.flight
     else ∃ x, u.flight = c.fixLoads.flight ++ [x] ∧ x.dest = d ∧ x.id = s.nextId ∧ x.bound = 2 ^ 64) ∧ u.ring = c.ring ∧
    (if ext && c.inSeg then u.closing = c.closing ++ [k] ∧ u.eq = c.eq ∧ u.ovfWait = c.ovfWait
     else u.closing = c.closing ∧
       (if c.inRing 0 then u.eq = c.eq ∧ u.ovfWait = c.ovfWait ++ [.e k] else u.eq = c.eq ++ [k] ∧ u.ovfWait = c.ovfWait) ∧
       ∀ f n, k.lane = some (f, n) → k.seq = c.seqs.get (n, f) 0 ∧ u.seqs.get (n, f) 0 = (k.seq + k.parts) % 4096)

/-! ## Numbers (R64 to R77) -/

/-- The rational number that a finite value stands for; 0 for the others. -/
def FVal.q : FVal → ℚ
  | .fin n m e => (if n then -1 else 1) * m * 2 ^ e
  | _ => 0
/-- A floating-point format as R65 and R66 tabulate it: its code, the widths of E and M, the bias, the largest finite value and the
canonical NaN. -/
structure FRow where
  code : BitVec 4
  ew : Nat
  mw : Nat
  bias : Nat
  max : Nat
  nan : Nat
  deriving DecidableEq, Repr
/-- f32, bf16, f16, f8e4 and f8e5 (R65, R66). -/
def fTable : List FRow :=
  [⟨0, 8, 23, 127, 0x7F7FFFFF, 0x7FC00000⟩, ⟨1, 8, 7, 127, 0x7F7F, 0x7FC0⟩, ⟨2, 5, 10, 15, 0x7BFF, 0x7E00⟩,
   ⟨3, 4, 3, 7, 0x7E, 0x7F⟩, ⟨4, 5, 2, 15, 0x7B, 0x7E⟩]
/-- The integer formats of R64: code, bits, and whether it is signed. -/
def iTable : List (BitVec 4 × Nat × Bool) :=
  [(7, 8, true), (6, 16, true), (5, 32, true), (0xB, 64, true), (0xA, 8, false), (9, 16, false), (8, 32, false), (0xC, 64, false)]
/-- The least and the greatest value of an integer format (R64). -/
def iLow (w : Nat) (sg : Bool) : Int := if sg then -2 ^ (w - 1) else 0
def iHigh (w : Nat) (sg : Bool) : Int := if sg then 2 ^ (w - 1) - 1 else 2 ^ w - 1
/-- The sign bit in place. -/
def FRow.sign (p : FRow) (neg : Bool) : Nat := if neg then 2 ^ (p.ew + p.mw) else 0
/-- The pattern of an infinity, in f8e4 its canonical NaN (R65, R74). -/
def FRow.inf (p : FRow) (neg : Bool) : Nat := if p.code = 3 then p.nan else p.sign neg + (2 ^ p.ew - 1) * 2 ^ p.mw
/-- What an overflow gives: by the mode in f32, by the table's entry elsewhere (R74, R77). -/
def FRow.over (p : FRow) (ovt : BitVec 10) (rm : BitVec 2) (neg : Bool) : Nat :=
  if p.code = 0 then
    (if rm = 0 ∨ (rm = 2 ∧ neg = false) ∨ (rm = 3 ∧ neg = true) then p.inf neg else p.sign neg + p.max)
  else
    let entry := ovt.extractLsb' (match p.code.toNat with | 3 => 0 | 4 => 2 | 2 => 4 | _ => 6) 2
    if entry = 0 then p.sign neg + p.max else if entry = 1 then p.inf neg else p.nan
/-- The magnitude of pattern k, its exponent field without bound (R65, R73). -/
def FRow.grid (p : FRow) (k : Nat) : ℚ :=
  if k < 2 ^ p.mw then k * 2 ^ (1 - (p.bias : Int) - p.mw) else (2 ^ p.mw + k % 2 ^ p.mw : Nat) * 2 ^ (((k / 2 ^ p.mw : Nat) : Int) - p.bias - p.mw)
/-- r is what the magnitude a > 0 with a sign gives when it is rounded once into a format: the neighbour on the grid that the mode
names, or what its overflow gives, with OF (R71 to R74). -/
def roundsTo (p : FRow) (ovt : BitVec 10) (rm : BitVec 2) (neg : Bool) (a : ℝ) (r : Nat × Flags) : Prop :=
  ∃ k c : Nat, (p.grid k : ℝ) ≤ a ∧ a < (p.grid (k + 1) : ℝ) ∧ (c = k ∨ c = k + 1) ∧ (a = (p.grid k : ℝ) → c = k) ∧
    (a ≠ (p.grid k : ℝ) →
      (rm = 0 → (a - p.grid k < p.grid (k + 1) - a → c = k) ∧ (p.grid (k + 1) - a < a - p.grid k → c = k + 1) ∧
        (a - p.grid k = p.grid (k + 1) - a → c % 2 = 0)) ∧
      (rm = 1 → c = k) ∧ (rm = 2 → c = if neg then k else k + 1) ∧ (rm = 3 → c = if neg then k + 1 else k)) ∧
    r = if c ≤ p.max then (p.sign neg + c, 0) else (p.over ovt rm neg, 4)
/-- n is the rational x rounded to an integer in a mode (R71, R76). -/
def roundsToInt (rm : BitVec 2) (x : ℚ) (n : Int) : Prop :=
  (rm = 0 → |x - n| ≤ 1 / 2 ∧ (|x - n| = 1 / 2 → n % 2 = 0)) ∧ (rm = 1 → n = if x < 0 then ⌈x⌉ else ⌊x⌋) ∧ (rm = 2 → n = ⌈x⌉) ∧ (rm = 3 → n = ⌊x⌋)
/-- One f32 accumulator element after a row of products: the groups of 32 in order, each summed exactly and rounded once, then added
with one rounding (R83, R84). -/
def groupSums (n : Nat) (acc : Nat) (p : Nat → FVal × FVal) : Nat :=
  (List.range n).foldl (fun s g =>
    let l := (List.range 32).map (fun i => mulF (p (32 * g + i)).1 (p (32 * g + i)).2)
    let q := if l.any (·.2) then 0x7FC00000 else (sumRound 0 0 0 (l.map (·.1))).1
    (sumRound 0 0 0 [decodeF 0 s, decodeF 0 q]).1) acc
/-- One i32 accumulator element after g groups of products: saturated after each (R85). -/
def satSums (acc : Int) (p : Nat → Int) : Nat → Int
  | 0 => acc
  | g + 1 => max (-2147483648) (min 2147483647 (satSums acc p g + ((List.range 32).map (fun i => p (32 * g + i))).sum))

/-- Operations whose whole effect is fixed-latency results (R30): all of them are rules of registers alone. -/
def landsOnly (i : Instr) : Bool :=
  match i with
  | .add _ | .sub _ | .mul _ | .mulh _ | .mulhn _ | .div _ | .divn _ | .rem _ | .remn _ | .and _ | .or _ | .xor _ | .andn _ | .shl _
  | .shr _ | .sar _ | .rotl _ | .min _ | .max _ | .minn _ | .maxn _ | .clz _ | .ctz _ | .popc _ | .sext _ | .zext _ | .bfx _ | .bfi _
  | .lea _ | .sel _ | .addi _ | .andi _ | .ori _ | .xori _ | .shli _ | .shri _ | .sari _ | .li _ | .lih _ | .cmp _ | .pset _ | .pand _
  | .por _ | .pnot _ | .fadd _ | .fsub _ | .fmul _ | .fma _ | .fmin _ | .fmax _ | .fcmp _ | .fcvt _ | .rrbSet _ | .rrbClr _ | .nop _
  | .idr _ | .cp _ | .vadd _ | .vsub _ | .vmul _ | .vfma _ | .vfms _ | .vfnma _ | .vmin _ | .vmax _ | .vabs _ | .vneg _ | .vsatadd _
  | .vsatsub _ | .vclamp _ | .vdot4 _ | .vand _ | .vor _ | .vxor _ | .vandn _ | .vnot _ | .vshl _ | .vshr _ | .vsar _ | .vcmp _ | .vsel _
  | .vmov _ | .vbcast _ | .viota _ | .vcvt _ | .vpack _ | .vunpack _ | .vperm _ | .vshuf _ | .vslide _ | .vcompress _ | .vexpand _
  | .vredadd _ | .vredmax _ | .vredmin _ | .vscanAdd _ | .vscanMax _ | .vsegscan _ | .vcp _ | .mand _ | .mor _ | .mnot _ | .mpopc _
  | .sfrcp _ | .sfrsq _ | .sfrcpr _ | .sfrsqr _ | .sfexp2 _ | .sflog2 _ | .sfsin _ | .sfcos _ | .sftanh _ | .sfsigm _ | .sferf _
  | .sfsqrt _ | .sfdiv _ | .sfcp _ => true
  | _ => false
/-- Control transfers that put results in flight and set the next-bundle target, and do nothing else (R113 to R118): call, which also
brings the landing of earlier writes of a31 forward, is not among them. -/
def transfersOnly (i : Instr) : Bool :=
  match i with
  | .br _ | .bc _ | .ret _ | .jr _ | .loop _ | .lbrk _ => true
  | _ => false

end Sys2Proof.Machine
end

