-- ==== Sys2Proof/Certificates/Slice0/Obligations.lean ====
section
/-! DEFINITION. Sys2Proof/Certificates/Slice0/Obligations.lean: the statements for the provers. -/

open Sys2Proof Sys2Proof.Machine

/-! ## Scalar forms (spec/05) -/

/-- R102: the integer arithmetic of layout SR; no flag is set. -/
def Obligations.ScalarArithmetic : Prop :=
  ∀ (o : SR) (s : State),
    let a := s.rd64 o.slot.slot 0 (sReg o.slot o.a)
    let b := s.rd64 o.slot.slot 1 (sReg o.slot o.b)
    let R := fun (i : Instr) (v : BitVec 64) (lat : Nat) => s.gives64 i o.slot.slot o.g (sReg o.slot o.d) v lat 0
    R (.add o) (BitVec.ofInt 64 (a.toInt + b.toInt)) 2 ∧
    R (.sub o) (BitVec.ofInt 64 (a.toInt - b.toInt)) 2 ∧
    R (.mul o) (BitVec.ofNat 64 (a.toNat * b.toNat)) 4 ∧
    R (.mulh o) ((BitVec.ofInt 128 (a.toInt * b.toInt)).extractLsb' 64 64) 4 ∧
    R (.mulhn o) ((BitVec.ofNat 128 (a.toNat * b.toNat)).extractLsb' 64 64) 4 ∧
    R (.lea o) (a + b <<< (o.fn.extractLsb' 0 3).toNat) 2 ∧
    R (.min o) (if a.slt b then a else b) 2 ∧ R (.max o) (if a.slt b then b else a) 2 ∧
    R (.minn o) (if a.ult b then a else b) 2 ∧ R (.maxn o) (if a.ult b then b else a) 2

/-- R104: quotient, remainder and DZ, the zero divisor and the overflowing quotient among them; and the identity that
R104 states. -/
def Obligations.ScalarDivision : Prop :=
  ∀ (o : SR) (s : State),
    let a := s.rd64 o.slot.slot 0 (sReg o.slot o.a)
    let b := s.rd64 o.slot.slot 1 (sReg o.slot o.b)
    let dz : Flags := if b = 0 ∧ a ≠ 0 then fDZ else 0
    let R := fun (i : Instr) (v : BitVec 64) => s.gives64 i o.slot.slot o.g (sReg o.slot o.d) v 24 dz
    ∃ q r qn rn : BitVec 64, R (.div o) q ∧ R (.rem o) r ∧ R (.divn o) qn ∧ R (.remn o) rn ∧
      (b = 0 → q = BitVec.allOnes 64 ∧ r = a ∧ qn = BitVec.allOnes 64 ∧ rn = a) ∧
      (b ≠ 0 → qn.toNat = a.toNat / b.toNat ∧ rn.toNat = a.toNat - a.toNat / b.toNat * b.toNat) ∧
      (b ≠ 0 → a = 0x8000000000000000#64 → b.toInt = -1 → q = a ∧ r = 0) ∧
      (b ≠ 0 → ¬ (a = 0x8000000000000000#64 ∧ b.toInt = -1) →
        q.toInt = a.toInt.tdiv b.toInt ∧ r.toInt = a.toInt - a.toInt.tdiv b.toInt * b.toInt) ∧
      (b ≠ 0 → q * b + r = a ∧ qn * b + rn = a)

/-- R102, R106: logic, shifts and rotation by the low six bits of SB, the bit counts, and the bit fields: bfx extracts and
bfi inserts the field of LEN bits at POS. -/
def Obligations.ScalarBits : Prop :=
  (∀ (o : SR) (s : State),
     let a := s.rd64 o.slot.slot 0 (sReg o.slot o.a)
     let b := s.rd64 o.slot.slot 1 (sReg o.slot o.b)
     let n := (b &&& 63#64).toNat
     let R := fun (i : Instr) (v : BitVec 64) => s.gives64 i o.slot.slot o.g (sReg o.slot o.d) v 2 0
     R (.and o) (a &&& b) ∧ R (.or o) (a ||| b) ∧ R (.xor o) (a ^^^ b) ∧ R (.andn o) (a &&& ~~~b) ∧
     R (.shl o) (a <<< n) ∧ R (.shr o) (a >>> n) ∧ R (.sar o) (a.sshiftRight n) ∧ R (.rotl o) (a <<< n ||| a >>> (64 - n)) ∧
     (∃ v : BitVec 64, R (.clz o) v ∧ v.toNat ≤ 64 ∧ (∀ k < v.toNat, a.getLsbD (63 - k) = false) ∧
       (v.toNat < 64 → a.getLsbD (63 - v.toNat) = true)) ∧
     (∃ v : BitVec 64, R (.ctz o) v ∧ v.toNat ≤ 64 ∧ (∀ k < v.toNat, a.getLsbD k = false) ∧
       (v.toNat < 64 → a.getLsbD v.toNat = true)) ∧
     R (.popc o) (BitVec.ofNat 64 ((List.range 64).filter (fun i => a.getLsbD i)).length) ∧
     (∀ w, (w = 8 ∧ o.fn = 0 ∨ w = 16 ∧ o.fn = 1 ∨ w = 32 ∧ o.fn = 2) →
       R (.sext o) ((a.setWidth w).signExtend 64) ∧ R (.zext o) ((a.setWidth w).setWidth 64)) ∧
     (let p := (s.rd o.slot.slot 3 (sPred o.slot (o.fn.extractLsb' 0 3))).getLsbD 0
      R (.sel o) (if p ^^ o.fn.getLsbD 3 then a else b))) ∧
  (∀ (o : SRX) (s : State),
     let a := s.rd64 o.slot.slot 0 (sReg o.slot o.a)
     let d := s.rd64 o.slot.slot 2 (sReg o.slot o.d)
     let pos := (o.x.extractLsb' 6 6).toNat
     let len := (o.x.extractLsb' 0 6).toNat + 1
     let R := fun (i : Instr) (v : BitVec 64) => s.gives64 i o.slot.slot o.g (sReg o.slot o.d) v 2 0
     (Instr.wf (.bfx o) = true → pos + len ≤ 64 ∧
       R (.bfx o) (if o.fn.getLsbD 0 then (a.extractLsb' pos len).signExtend 64 else (a.extractLsb' pos len).setWidth 64)) ∧
     (Instr.wf (.bfi o) = true → pos + len ≤ 64 ∧
       ∃ v : BitVec 64, R (.bfi o) v ∧
         ∀ i < 64, v.getLsbD i = if pos ≤ i ∧ i < pos + len then a.getLsbD (i - pos) else d.getLsbD i))

/-- R105: the immediate forms, with the extension that each states. -/
def Obligations.ScalarImmediates : Prop :=
  ∀ (o : SI) (l : SL) (s : State),
    let a := s.rd64 o.slot.slot 0 (sReg o.slot o.a)
    let sx : BitVec 64 := match o.imm with | .short v => v.signExtend 64 | .long v => v.signExtend 64
    let zx : BitVec 64 := match o.imm with | .short v => v.setWidth 64 | .long v => v.setWidth 64
    let n := (zx &&& 63#64).toNat
    let R := fun (i : Instr) (v : BitVec 64) => s.gives64 i o.slot.slot o.g (sReg o.slot o.d) v 2 0
    R (.addi o) (BitVec.ofInt 64 (a.toInt + sx.toInt)) ∧
    R (.andi o) (a &&& zx) ∧ R (.ori o) (a ||| zx) ∧ R (.xori o) (a ^^^ zx) ∧
    R (.shli o) (a <<< n) ∧ R (.shri o) (a >>> n) ∧ R (.sari o) (a.sshiftRight n) ∧
    s.gives64 (.li l) l.slot.slot l.g (sReg l.slot l.d)
      (match l.imm with | .short v => v.signExtend 64 | .long v => v.signExtend 64) 2 0 ∧
    (∀ v : BitVec 32, l.imm = .long v →
      s.gives64 (.lih l) l.slot.slot l.g (sReg l.slot l.d)
        (v ++ (s.rd64 l.slot.slot 2 (sReg l.slot l.d)).setWidth 32) 2 0)

/-- R107, R108, R110: comparisons and predicate forms write one predicate, with a bound of one cycle. -/
def Obligations.ScalarPredicates : Prop :=
  ∀ (o : SC) (q : SP) (s : State),
    let a := s.rd64 o.slot.slot 0 (sReg o.slot o.a)
    let b : BitVec 64 := match o.rhs with
      | .reg r => s.rd64 o.slot.slot 1 (sReg o.slot r)
      | .imm v => v.signExtend 64
    let P := fun (i : Instr) (sl : SSlot) (g : Guard) (pd : BitVec 3) (v : Bool) =>
      s.gives i sl.slot g (sPred sl pd) (if v then 1 else 0) 1 1 0
    let x := (s.rd q.slot.slot 0 (sPred q.slot q.pa)).getLsbD 0
    let y := (s.rd q.slot.slot 1 (sPred q.slot q.pb)).getLsbD 0
    (o.cond = 0 → P (.cmp o) o.slot o.g o.pd (a == b)) ∧ (o.cond = 1 → P (.cmp o) o.slot o.g o.pd (a != b)) ∧
    (o.cond = 2 → P (.cmp o) o.slot o.g o.pd (a.slt b)) ∧ (o.cond = 3 → P (.cmp o) o.slot o.g o.pd (a.sle b)) ∧
    (o.cond = 4 → P (.cmp o) o.slot o.g o.pd (a.ult b)) ∧ (o.cond = 5 → P (.cmp o) o.slot o.g o.pd (a.ule b)) ∧
    P (.pset q) q.slot q.g q.pd q.v ∧ P (.pand q) q.slot q.g q.pd (x && y) ∧ P (.por q) q.slot q.g q.pd (x || y) ∧
    P (.pnot q) q.slot q.g q.pd (!x) ∧
    (∃ v : Bool, P (.fcmp o) o.slot o.g o.pd v ∧
      let fa := f32Of a
      let fb := f32Of b
      (fa = .nan ∨ fb = .nan → v = (o.cond == 1)) ∧
      (fa ≠ .nan → fb ≠ .nan →
        (o.cond = 0 → v = (cmpF fa fb == .eq)) ∧ (o.cond = 1 → v = (cmpF fa fb != .eq)) ∧
        (o.cond = 2 → v = (cmpF fa fb == .lt)) ∧ (o.cond = 3 → v = (cmpF fa fb != .gt))))

/-- R109, R110, R111: the f32 forms round once, in the mode of FN, and conversion goes through the format codes. -/
def Obligations.ScalarFloat : Prop :=
  ∀ (o : SR) (s : State),
    let a := s.rd64 o.slot.slot 0 (sReg o.slot o.a)
    let b := s.rd64 o.slot.slot 1 (sReg o.slot o.b)
    let d := s.rd64 o.slot.slot 2 (sReg o.slot o.d)
    let rm := o.fn.extractLsb' 0 2
    let R := fun (i : Instr) (r : Nat × Flags) (lat : Nat) => s.gives64 i o.slot.slot o.g (sReg o.slot o.d) (BitVec.ofNat 64 r.1) lat r.2
    R (.fadd o) (sumRound s.ovt 0 rm [f32Of a, f32Of b]) 4 ∧
    R (.fsub o) (sumRound s.ovt 0 rm [f32Of a, (f32Of b).negate]) 4 ∧
    R (.fmul o) (mulRound s.ovt 0 rm (f32Of a) (f32Of b)) 4 ∧
    R (.fma o) (fmaRound s.ovt 0 rm (f32Of a) (f32Of b) (f32Of d)) 5 ∧
    R (.fmin o) (minBits 0 (a.extractLsb' 0 32).toNat (b.extractLsb' 0 32).toNat, 0) 4 ∧
    R (.fmax o) (maxBits 0 (a.extractLsb' 0 32).toNat (b.extractLsb' 0 32).toNat, 0) 4 ∧
    (∀ src dst : BitVec 3, o.b.extractLsb' 2 3 = src → o.fn.extractLsb' 2 3 = dst → src ≠ 7 → dst ≠ 7 →
      let r := convert s.ovt (fcvtFmt src) (fcvtFmt dst) (o.b.extractLsb' 0 2) (a.toNat % 2 ^ fmtBits (fcvtFmt src))
      (dst = 3 → s.gives64 (.fcvt o) o.slot.slot o.g (sReg o.slot o.d) ((BitVec.ofNat 32 r.1).signExtend 64) 3 r.2) ∧
      (dst ≠ 3 → R (.fcvt o) r 3))

/-! ## Control, traps and system forms (spec/05) -/

/-- R113 to R115: where each branch goes when it executes, the condition of bc, and the a31 of call, whose earlier writes in flight
land by the next cycle, so that a31 is defined at the target. -/
def Obligations.BranchTargets : Prop :=
  ∀ (b : SB) (c : SBC) (n : SN) (j : SJ) (s : State),
    let rel := fun {k : Nat} (i : Imm k) => s.cur.pc + (match i with | .short v => v.signExtend 64 | .long v => v.signExtend 64) * 4#64
    let reg := fun (v : BitVec 64) => v &&& ~~~3#64
    s.does (.br b) b.slot.slot b.g (fun x => { x with next := some (rel b.off, false) }) ∧
    (let taken := s.guard c.slot.slot c.g && ((s.rd c.slot.slot 0 (sPred c.slot c.p)).getLsbD 0 ^^ c.pinv)
     exec (.bc c) s = .next (if taken then s.upd (fun x => { x with next := some (rel c.off, false) }) else s)) ∧
    s.does (.call b) b.slot.slot b.g (fun x =>
      { x with flight := x.flight.map (fun l => if l.dest = .a 31 then { l with bound := min l.bound (s.t + 1) } else l) ++
                 [s.result (.a 31) (s.cur.fall.setWidth 4096) 0xFFFFFFFFFFFFFFFF#4096 1 0],
               next := some (rel b.off, false) }) ∧
    s.does (.ret n) n.slot.slot n.g (fun x => { x with next := some (reg (s.rd64 n.slot.slot 0 (.a 31)), false) }) ∧
    s.does (.jr j) j.slot.slot j.g (fun x => { x with next := some (reg (s.rd64 j.slot.slot 0 (.a j.a)), false) })

/-- R117, R118, R119, R122: one loop rotates the named bases, counts down to zero and no further, and branches while the counter is
not zero; lbrk sets its counter to 0 and branches, and writes no base; rrb.set and rrb.clr write each named base within two
cycles; nop does nothing. -/
def Obligations.LoopForm : Prop :=
  (∀ (o : SLP) (s : State),
     let n := s.lc o.lc
     let base := fun (f : BitVec 2) (on : Bool) => if on then [s.result (.rb f) ((s.rb f + 1).setWidth 4096) 0xF 1 0] else []
     s.does (.loop o) o.slot.slot o.g (fun c =>
       { c with
         flight := c.flight ++ base 0 (o.rot.getLsbD 0) ++ base 1 (o.rot.getLsbD 1) ++ base 2 (o.rot.getLsbD 2) ++
           [s.result (.lc o.lc) ((if n = 0 then 0 else n - 1).setWidth 4096) 0xFFFFFFFF#4096 1 0],
         next := if n.toNat ≤ 1 then c.next else some (s.cur.pc + o.off.signExtend 64 * 4#64, false) })) ∧
  (∀ (o : SLP) (s : State),
     s.does (.lbrk o) o.slot.slot o.g (fun c =>
       { c with flight := c.flight ++ [s.result (.lc o.lc) 0 0xFFFFFFFF#4096 1 0],
                next := some (s.cur.pc + o.off.signExtend 64 * 4#64, false) })) ∧
  (∀ (o : SRRB) (n : SN) (s : State),
     let base := fun (f : BitVec 2) (on : Bool) (v : BitVec 4) => if on then [s.result (.rb f) (v.setWidth 4096) 0xF 2 0] else []
     let all := fun (v : BitVec 4) => base 0 (o.rot.getLsbD 0) v ++ base 1 (o.rot.getLsbD 1) v ++ base 2 (o.rot.getLsbD 2) v
     (o.rot ≠ 0 → s.does (.rrbSet o) o.slot.slot o.g (fun c => { c with flight := c.flight ++ all o.v })) ∧
     (o.rot ≠ 0 → s.does (.rrbClr o) o.slot.slot o.g (fun c => { c with flight := c.flight ++ all 0 })) ∧
     exec (.nop n) s = .next s)

/-- R64 to R68, R71 to R77, R79, R110, R142, R161: what the formats and the rounding functions of the arithmetic statements compute.
The value of every pattern; the exact sum and product with their zeros, infinities and NaNs; one rounding of an exact result in
the four modes, with what an overflow gives; conversion to and from integers; wrapping and saturation; minimum, maximum and
comparison; quotient and square root. That a sum with a NaN and both infinities sets no IV is the model's choice (log 49). -/
def Obligations.RoundingAndFormats : Prop :=
  -- the values of the patterns (R64, R65, R70)
  (∀ p ∈ fTable, ∀ v < 2 ^ (1 + p.ew + p.mw),
     let m : Nat := v % 2 ^ p.mw
     let e : Nat := v / 2 ^ p.mw % 2 ^ p.ew
     let neg := decide (2 ^ (p.ew + p.mw) ≤ v)
     let top := e = 2 ^ p.ew - 1 ∧ (p.code = 3 → m = 7)
     (top → decodeF p.code v = if p.code = 3 ∨ m ≠ 0 then .nan else .inf neg) ∧
     (¬ top → ∃ k x, decodeF p.code v = .fin neg k x ∧
       (decodeF p.code v).q = (if neg then -1 else 1) *
         (if e = 0 then (2 : ℚ) ^ (1 - (p.bias : Int)) * (m / 2 ^ p.mw) else (2 : ℚ) ^ ((e : Int) - p.bias) * (1 + m / 2 ^ p.mw)))) ∧
  (∀ q ∈ iTable, ∀ (v : Nat) (i : Int),
     decodeI q.1 v = (if q.2.2 then (BitVec.ofNat q.2.1 v).toInt else ((v % 2 ^ q.2.1 : Nat) : Int)) ∧
     wrapI q.1 i = (i % 2 ^ q.2.1).toNat ∧ satI q.1 i = (max (iLow q.2.1 q.2.2) (min (iHigh q.2.1 q.2.2) i) % 2 ^ q.2.1).toNat) ∧
  (∀ v, (v % 4 = 0 → decodeT2 v = (0, 0)) ∧ (v % 4 = 1 → decodeT2 v = (1, 0)) ∧ (v % 4 = 2 → decodeT2 v = (0, 64)) ∧ (v % 4 = 3 → decodeT2 v = (-1, 0))) ∧
  -- exact sums and products (R67, R68, R79)
  (∀ (rm : BitVec 2) (l : List FVal),
     let zero := fun (neg : Bool) => ∀ x ∈ l, ∃ e, x = .fin neg 0 e
     ((∀ x ∈ l, ∃ n m e, x = .fin n m e) → ∃ n m e, sumF rm l = (.fin n m e, false) ∧ (FVal.fin n m e).q = (l.map FVal.q).sum ∧
       (m = 0 → (zero false → n = false) ∧ (l ≠ [] → zero true → n = true) ∧ (¬ zero false → ¬ zero true → n = decide (rm = 3)))) ∧
     (.nan ∈ l → sumF rm l = (.nan, false)) ∧
     (.nan ∉ l → .inf true ∈ l → .inf false ∈ l → sumF rm l = (.nan, true)) ∧
     (∀ neg, .nan ∉ l → .inf neg ∈ l → .inf (!neg) ∉ l → sumF rm l = (.inf neg, false))) ∧
  (∀ (a b : Bool) (m n : Nat) (d e : Int) (x : FVal),
     (∃ k f, mulF (.fin a m d) (.fin b n e) = (.fin (a != b) k f, false) ∧ (FVal.fin (a != b) k f).q = (FVal.fin a m d).q * (FVal.fin b n e).q) ∧
     mulF .nan x = (.nan, false) ∧ mulF x .nan = (.nan, false) ∧ mulF (.inf a) (.inf b) = (.inf (a != b), false) ∧
     mulF (.inf a) (.fin b n e) = (if n = 0 then (.nan, true) else (.inf (a != b), false)) ∧
     mulF (.fin a m d) (.inf b) = (if m = 0 then (.nan, true) else (.inf (a != b), false))) ∧
  -- one rounding into a format (R71 to R75, R77)
  (∀ p ∈ fTable, ∀ (ovt : BitVec 10) (rm : BitVec 2),
     roundF ovt p.code rm .nan = (p.nan, 0) ∧
     (∀ neg, roundF ovt p.code rm (.inf neg) = if p.code = 3 then (p.over ovt rm neg, 4) else (p.inf neg, 0)) ∧
     (∀ neg e, roundF ovt p.code rm (.fin neg 0 e) = (p.sign neg, 0)) ∧
     (∀ (neg : Bool) (m : Nat) (e : Int), 0 < m → roundsTo p ovt rm neg ((m : ℝ) * (2 : ℝ) ^ e) (roundF ovt p.code rm (.fin neg m e))) ∧
     (∀ l : List FVal, let x := sumF rm l; let r := roundF ovt p.code rm x.1
       sumRound ovt p.code rm l = (r.1, r.2 ||| if x.2 then 1 else 0)) ∧
     (∀ a b : FVal, let x := mulF a b; let r := roundF ovt p.code rm x.1
       mulRound ovt p.code rm a b = (r.1, r.2 ||| if x.2 then 1 else 0)) ∧
     (∀ a b c : FVal,
       ((mulF a b).2 = true → fmaRound ovt p.code rm a b c = (p.nan, 1)) ∧
       ((mulF a b).2 = false → a = .nan ∨ b = .nan ∨ c = .nan → fmaRound ovt p.code rm a b c = (p.nan, 0)) ∧
       ((mulF a b).2 = false → a ≠ .nan → b ≠ .nan → c ≠ .nan → fmaRound ovt p.code rm a b c = sumRound ovt p.code rm [(mulF a b).1, c]))) ∧
  -- conversions (R73, R75, R76)
  (∀ (ovt : BitVec 10) (rm : BitVec 2) (v : Nat), ∀ p ∈ fTable,
     (∀ p' ∈ fTable, convert ovt p.code p'.code rm v = roundF ovt p'.code rm (decodeF p.code v)) ∧
     ∀ q ∈ iTable,
       let fit := fun (n : Int) (r : Nat × Flags) =>
         let pat := fun (i : Int) => (i % 2 ^ q.2.1).toNat
         r = if iLow q.2.1 q.2.2 ≤ n ∧ n ≤ iHigh q.2.1 q.2.2 then (pat n, 0)
             else if q.1 = 7 ∧ ovt.extractLsb' 8 2 = 1 then (pat n, 8)
             else (pat (if n < iLow q.2.1 q.2.2 then iLow q.2.1 q.2.2 else iHigh q.2.1 q.2.2), 8)
       (∃ n m e, convert ovt q.1 p.code rm v = roundF ovt p.code rm (.fin n m e) ∧ (FVal.fin n m e).q = decodeI q.1 v ∧ (m = 0 → n = false)) ∧
       (∀ q' ∈ iTable, fit (decodeI q'.1 v) (convert ovt q'.1 q.1 rm v)) ∧
       (decodeF p.code v = .nan → convert ovt p.code q.1 rm v = (0, 1)) ∧
       (∀ neg, decodeF p.code v = .inf neg →
         convert ovt p.code q.1 rm v = (((if neg then iLow q.2.1 q.2.2 else iHigh q.2.1 q.2.2) % 2 ^ q.2.1).toNat, 8)) ∧
       (∀ neg m e, decodeF p.code v = .fin neg m e →
         ∃ n : Int, roundsToInt rm (FVal.fin neg m e).q n ∧ fit n (convert ovt p.code q.1 rm v))) ∧
  -- order (R110, R142)
  (∀ p ∈ fTable, ∀ a b : Nat,
     let x := decodeF p.code a
     let y := decodeF p.code b
     (x = .nan ∨ y = .nan → minBits p.code a b = p.nan ∧ maxBits p.code a b = p.nan) ∧
     (∀ n m e n' m' e', x = .fin n m e → y = .fin n' m' e' →
       (cmpF x y = .lt ↔ x.q < y.q) ∧ (cmpF x y = .eq ↔ x.q = y.q) ∧
       (x.q < y.q → minBits p.code a b = a ∧ maxBits p.code a b = b) ∧ (y.q < x.q → minBits p.code a b = b ∧ maxBits p.code a b = a) ∧
       (m = 0 → m' = 0 → n = true → n' = false → minBits p.code a b = a ∧ maxBits p.code a b = b) ∧
       (m = 0 → m' = 0 → n = false → n' = true → minBits p.code a b = b ∧ maxBits p.code a b = a))) ∧
  -- quotient and square root (R79, R161)
  (∀ p ∈ fTable, p.code.toNat ≤ 2 → ∀ (ovt : BitVec 10) (rm : BitVec 2) (a b : Nat),
     (∀ n m e n' m' e', decodeF p.code a = .fin n m e → decodeF p.code b = .fin n' m' e' → 0 < m → 0 < m' →
       roundsTo p ovt rm (n != n') ((|(FVal.fin n m e).q / (FVal.fin n' m' e').q| : ℚ) : ℝ) (sfDivElem ovt p.code rm a b)) ∧
     (∀ m e, decodeF p.code a = .fin false m e → 0 < m →
       roundsTo p ovt rm false (Real.sqrt ((FVal.fin false m e).q : ℝ)) (sfElem ovt 11 p.code rm a)))

/-- R123: a wait below its threshold blocks the context and takes nothing; one that is reached subtracts the threshold. R122,
R226, R124: halt outside a segment parks the context, Halted or Dormant by CTX_HDL, and gives up its core; inside one it waits for
the commit (R329). A yield blocks until the ready contexts of the core have issued. -/
def Obligations.Waits : Prop :=
  (∀ (o : SWT) (r : SWR) (s : State),
     let W := fun (i : Instr) (sl : Slot) (g : Guard) (cc : BitVec 4) (thr : BitVec 32) =>
       let v := s.cur.csr.ccnt[cc.toNat]
       (s.guard sl g = false → exec i s = .next s) ∧
       (s.guard sl g = true → thr.toNat ≤ v.toNat → ∃ t, exec i s = .next t ∧ onlyCtx s.sel.who s t ∧
         t.cur = { s.cur with csr := { s.cur.csr with ccnt := t.cur.csr.ccnt } } ∧
         ∀ k : Fin 16, t.cur.csr.ccnt[k] = if k.val = cc.toNat then v - thr else s.cur.csr.ccnt[k]) ∧
       (s.guard sl g = true → v.toNat < thr.toNat → ∃ t, exec i s = .next t ∧ t.mem = s.mem ∧
         t.cur = { s.cur with st := .blocked, block := .counter cc.toNat thr.toNat, moved := true })
     W (.wait o) o.slot.slot o.g o.cc (o.thr.setWidth 32) ∧
     W (.waitReg r) r.slot.slot r.g r.cc ((s.rd64 r.slot.slot 0 (sReg r.slot r.a)).setWidth 32)) ∧
  (∀ (o : SN) (s : State), s.guard o.slot.slot o.g = true →
     (s.cur.inSeg = true → exec (.halt o) s = .next (s.upd (fun c => { c with halting := true }))) ∧
     (s.cur.inSeg = false → ∃ t, exec (.halt o) s = .next t ∧ t.mem = s.mem ∧
       (t.core s.sel.who.coreId).run ≠ some s.sel.who.ctx ∧ t.cur.regs = s.cur.regs ∧ t.cur.csr.revCur = 0x8000000000000000#64 ∧
       (s.cur.flight.all (fun l => l.dest ≠ .csr 0x044) = true →
         t.cur.flight = s.cur.flight ∧
         (s.cur.csr.ctxHdl.getLsbD 0 = false → s.cur.csr.ctxHdl.getLsbD 1 = false → t.cur.st = .halted) ∧
         (s.cur.csr.ctxHdl.getLsbD 0 = true ∨ s.cur.csr.ctxHdl.getLsbD 1 = true → t.cur.st = .dormant))) ∧
     ((∀ k < 4, k ≠ s.sel.who.ctx → (s.ctx { s.sel.who with ctx := k }).st ≠ .ready) → exec (.yield o) s = .next s) ∧
     (∀ k < 4, k ≠ s.sel.who.ctx → (s.ctx { s.sel.who with ctx := k }).st = .ready →
       ∃ t, exec (.yield o) s = .next t ∧ t.mem = s.mem ∧ t.cur.st = .blocked ∧ t.cur.block = .yield ∧ k ∈ t.cur.yieldFor ∧
         (t.core s.sel.who.coreId).run ≠ some s.sel.who.ctx))

/-- R126, R35: what taking a trap does. A retryable cause freezes the context in place; another reaches TVEC when EN is 1
and VALID was 0, after the open segment has committed (R329); else it is terminal. Memory and registers stay. TVEC and VALID are
those that a trap at this cycle sees, old or new while a csrw of them is in flight (R133). R125: trap raises cause 0x06 at its
bundle with CODE, and its issue counts for the repeat count. -/
def Obligations.Traps : Prop :=
  (∀ (s : State) (a : TrapArgs),
     let c := s.cur
     let t := raiseTrap s a
     let n := t.cur
     let tv := c.tvecAt s.t s.free
     let held := c.validAt s.t s.free
     let quiet := ∀ l ∈ c.flight, l.dest ≠ .csr 0x006 ∧ l.dest ≠ .csr 0x008
     let written := n.trap.pc = a.pc ∧ n.trap.info = a.info ∧ n.trap.valid = true ∧ n.trap.code = a.code ∧
       n.trap.retry = retryable a.code ∧ n.trap.reason = a.reason ∧ n.trap.slots = a.slots
     t.mem = s.mem ∧ n.regs = c.regs ∧ (∀ l ∈ n.flight, l ∈ c.flight) ∧
     (quiet → tv = c.csr.tvec ∧ held = c.trap.valid ∧ n.flight = c.flight) ∧
     (retryable a.code = true ↔ a.code = 0x08 ∨ a.code = 0x0A ∨ a.code = 0x0B) ∧
     (retryable a.code = true → n.pc = c.pc ∧ n.retry = some ⟨a.code, a.pc, a.info⟩ ∧ n.csr = c.csr ∧
       (c.st ≠ .halted → n.st = .frozen) ∧ (held = true → n.trap = c.trap) ∧ (held = false → written)) ∧
     (retryable a.code = false → tv.getLsbD 0 = true → held = false → c.st ≠ .halted → c.inSeg = false →
       written ∧ n.trap.sig = c.sig ∧ n.csr.pmode = c.csr.mode ∧ n.csr.mode = true ∧ n.pc = tv &&& ~~~3#64 ∧
       n.arrive = .taken ∧ n.entryNext = false ∧ onlyCtx s.sel.who s t) ∧
     (retryable a.code = false → tv.getLsbD 0 = true → held = false → c.st ≠ .halted → c.inSeg = true →
       t = s.upd (fun c => { c with pend := some ⟨a, c.segInst⟩, moved := true })) ∧
     (retryable a.code = false → tv.getLsbD 0 = false ∨ held = true →
       n.st = .halted ∧ n.inSeg = false ∧ (held = true → n.trap = c.trap) ∧ (held = false → written))) ∧
  (∀ (o : STR) (s : State),
     let tv := s.cur.tvecAt s.t s.free
     let held := s.cur.validAt s.t s.free
     (s.guard o.slot.slot o.g = false → exec (.trap o) s = .next s) ∧
     (s.guard o.slot.slot o.g = true → ∃ t, exec (.trap o) s = .next t ∧ t.mem = s.mem ∧ t.cur.regs = s.cur.regs ∧
       (tv.getLsbD 0 = true → held = false → s.cur.st ≠ .halted → s.cur.inSeg = false →
         t.cur.trap.code = 0x06 ∧ t.cur.trap.pc = s.cur.pc ∧ t.cur.trap.info = o.code.setWidth 64 ∧ t.cur.trap.valid = true ∧
         t.cur.trap.rep = s.cur.rep - 1 ∧ t.cur.csr.pmode = s.cur.csr.mode ∧ t.cur.csr.mode = true ∧
         t.cur.pc = tv &&& ~~~3#64) ∧
       (tv.getLsbD 0 = false → t.cur.st = .halted ∧
         (held = false → t.cur.trap.code = 0x06 ∧ t.cur.trap.info = o.code.setWidth 64))))

/-- R127, R55: rfe restores the mode, clears VALID and returns; in user mode it raises PRIV instead. TRAP_PC and PMODE are those
that an operation at this cycle sees, old or new while a csrw of them is in flight (R133). That rfe.skip adds the bundle's length
to a TRAP_PC with low bits set, as it stands, is the model's choice (log 50, DESIGN CHOICE); it reads that bundle as a fetch
does, and takes that fetch's fault, POISON of its line among them (log 43). -/
def Obligations.ReturnFromException : Prop :=
  ∀ (o : SRF) (s : State),
    let pc := s.trapPc
    ((∀ l ∈ s.cur.flight, l.dest ≠ .csr 0x004 ∧ l.dest ≠ .csr 0x005) → pc = s.cur.trap.pc ∧ s.trapMode = s.cur.csr.pmode) ∧
    (s.guard o.slot.slot o.g = true → s.cur.csr.mode = false →
      exec (.rfe o) s = .next (raiseTrap s { code := 0x07, info := BitVec.ofNat 64 (o.slot.slot.index + 16 * 0x4E), pc := s.cur.pc,
                                             reason := 0, slots := 0, freeze := .none })) ∧
    (s.guard o.slot.slot o.g = true → s.cur.csr.mode = true → o.skip = false → ∃ t, exec (.rfe o) s = .next t ∧ onlyCtx s.sel.who s t ∧
      t.cur.csr = { s.cur.csr with mode := s.trapMode } ∧ t.cur.trap = { s.cur.trap with valid := false } ∧
      t.cur.regs = s.cur.regs ∧
      (pc = s.cur.trap.recorded → t.cur.next = some (pc, true) ∧ t.cur.sig = s.cur.trap.sig ∧ t.cur.rep = s.cur.trap.rep) ∧
      (pc ≠ s.cur.trap.recorded → t.cur.next = some (pc &&& ~~~3#64, false))) ∧
    (s.guard o.slot.slot o.g = true → s.cur.csr.mode = true → o.skip = true → s.skipFault pc.toNat = none →
      ∃ t, exec (.rfe o) s = .next t ∧ onlyCtx s.sel.who (s.skipRead pc.toNat) t ∧ t.mem = s.mem ∧
        t.cur.csr = { s.cur.csr with mode := s.trapMode } ∧ t.cur.trap = { s.cur.trap with valid := false } ∧
        t.cur.rep = 0 ∧ t.cur.regs = s.cur.regs ∧
        t.cur.next = some (pc + BitVec.ofNat 64 (4 * (s.rawAt s.sel.who pc.toNat).len), false)) ∧
    (s.guard o.slot.slot o.g = true → s.cur.csr.mode = true → o.skip = true →
      (∀ a, s.skipFault pc.toNat = some a → exec (.rfe o) s = .next (raiseTrap s a)) ∧
      ((s.bundleFault pc.toNat).isSome = true → s.skipFault pc.toNat = s.bundleFault pc.toNat))

/-- R130, R134: idr writes the identifier of its code; cp copies into a file, whole, one lane, or every lane. -/
def Obligations.IdentifiersAndCopies : Prop :=
  ∀ (o : SR) (s : State),
    let v := s.rd64 o.slot.slot 0 (sReg o.slot o.a)
    let fc : BitVec 4 := o.fn.extractLsb' 0 4
    let ids := s.cur.ids
    (∀ k x, (k, x) ∈ [(0, ids.core), (1, ids.clus), (2, ids.chip), (3, ids.stage), (4, ids.ctx), (5, ids.gang), (6, ids.nchips),
        (7, ids.nstages), (8, ids.ncores)] → o.fn.toNat = k →
      s.gives64 (.idr o) o.slot.slot o.g (sReg o.slot o.d) x 2 0) ∧
    (fc = 0 ∨ fc = 1 ∨ fc = 6 ∨ fc = 7 ∨ fc = 8 → s.gives64 (.cp o) o.slot.slot o.g (s.fileReg fc o.d) v 3 0) ∧
    (fc = 2 ∨ fc = 3 ∨ fc = 4 ∨ fc = 5 →
      (o.fn.getLsbD 4 = false →
        let lane := 64 * (o.b.extractLsb' 0 4).toNat
        s.gives (.cp o) o.slot.slot o.g (s.fileReg fc o.d) (v.setWidth 4096 <<< lane) (0xFFFFFFFFFFFFFFFF#4096 <<< lane) 3 0) ∧
      (o.fn.getLsbD 4 = true → ∃ x : BitVec 4096,
        s.gives (.cp o) o.slot.slot o.g (s.fileReg fc o.d) x (BitVec.ofNat 4096 (2 ^ 1024 - 1)) 3 0 ∧
          ∀ k < 16, x.extractLsb' (64 * k) 64 = v))

/-- R132, R133, R55: csrr reads the register at issue, csrw lands a write within three cycles, csrx does both; in user mode
an access that only supervisor mode has raises PRIV and does nothing else. R135, R77: ovt.ld replaces the overflow table at once,
reserved codes stored as 0; in user mode it raises PRIV. -/
def Obligations.CsrAccess : Prop :=
  (∀ (o : SRX) (s : State), s.guard o.slot.slot o.g = true →
     let n := o.x
     let v := (s.rd64 o.slot.slot 0 (sReg o.slot o.a)).setWidth 4096
     let out := s.result (sReg o.slot o.d) ((s.csrRead n).setWidth 4096) 0xFFFFFFFFFFFFFFFF#4096 3 0
     let inn : List Landing :=
       if 0x018 ≤ n.toNat ∧ n.toNat < 0x01B then []
       else if 0x010 ≤ n.toNat ∧ n.toNat < 0x016 then [s.result (.lc (BitVec.ofNat 3 (n.toNat - 0x010))) v 0xFFFFFFFF#4096 3 0]
       else [s.result (.csr n) v 0xFFFFFFFFFFFFFFFF#4096 3 0]
     let add : List Landing → Out := fun l => .next (s.upd (fun c => { c with flight := c.flight ++ l }))
     let priv : Nat → Out := fun op => .next (raiseTrap s
       { code := 0x07, info := BitVec.ofNat 64 (o.slot.slot.index + 16 * op), pc := s.cur.pc, reason := 0, slots := 0, freeze := .none })
     let user := s.cur.csr.mode = false
     exec (.csrr o) s = (if user ∧ csrSuperRead n = true then priv 0x51 else add [out]) ∧
     exec (.csrw o) s = (if user ∧ csrSuperWrite n = true then priv 0x52 else if inn = [] then .next s else add inn) ∧
     exec (.csrx o) s = (if user ∧ (csrSuperRead n = true ∨ csrSuperWrite n = true) then priv 0x53 else add (inn ++ [out]))) ∧
  (∀ (o : SR) (s : State), s.guard o.slot.slot o.g = true →
     let v := s.rd64 o.slot.slot 0 (sReg o.slot o.a)
     (s.cur.csr.mode = false →
       exec (.ovtLd o) s = .next (raiseTrap s { code := 0x07, info := BitVec.ofNat 64 (o.slot.slot.index + 16 * 0x55), pc := s.cur.pc,
                                                reason := 0, slots := 0, freeze := .none })) ∧
     (s.cur.csr.mode = true → ∃ t, exec (.ovtLd o) s = .next t ∧ onlyCtx s.sel.who s t ∧
       t.cur = { s.cur with csr := { s.cur.csr with ovt := t.cur.csr.ovt } } ∧
       ∀ i < 5, let code := (v.extractLsb' (2 * i) 2).toNat
         (t.cur.csr.ovt.extractLsb' (2 * i) 2).toNat = if code = 3 ∨ (i = 4 ∧ code = 2) then 0 else code))


/-! ## Vector and special-function forms (spec/06) -/

/-- R38, R138: where the elements of a result lie, which bits are written, and whose flags count. -/
def Obligations.ElementPlacement : Prop :=
  ∀ (s : State) (d : Dest) (w : Nat) (m : List Bool) (r : List (Nat × Flags)) (lat : Nat),
    0 < w → m.length * w ≤ 4096 → r.length = m.length →
    ∃ (v en : BitVec 4096) (fl : Flags), landElems s d w m r lat = s.land d v en lat fl ∧
      (∀ k < r.length, elemN v.toNat k w = (r.getD k (0, 0)).1 % 2 ^ w) ∧
      (∀ i < 4096, en.getLsbD i = m.getD (i / w) false) ∧
      (∀ b < 7, fl.getLsbD b = true ↔ ∃ k < r.length, m.getD k false = true ∧ (r.getD k (0, 0)).2.getLsbD b = true)

/-- R141 to R143: the elementwise arithmetic, rounded once in a float format, wrapped or saturated in an integer one. -/
def Obligations.VectorArithmetic : Prop :=
  ∀ (o : VOp) (s : State),
    let f := o.ext.fmt
    let rm := o.ext.rm
    let flt := isFloatFmt f
    let el := fun (pos k : Nat) => s.vSrc o pos k
    let x := fun (pos k : Nat) => decodeF f (el pos k)
    let n := fun (pos k : Nat) => decodeI f (el pos k)
    let short := if flt then 4 else 2
    let R := fun (i : Instr) (lat : Nat) (ff : Nat → Nat × Flags) (fi : Nat → Int) =>
      s.givesLanes i o lat (fun k => if flt then ff k else (wrapI f (fi k), 0))
    R (.vadd o) short (fun k => sumRound s.ovt f rm [x 0 k, x 1 k]) (fun k => n 0 k + n 1 k) ∧
    R (.vsub o) short (fun k => sumRound s.ovt f rm [x 0 k, (x 1 k).negate]) (fun k => n 0 k - n 1 k) ∧
    R (.vmul o) 4 (fun k => mulRound s.ovt f rm (x 0 k) (x 1 k)) (fun k => n 0 k * n 1 k) ∧
    R (.vfma o) 5 (fun k => fmaRound s.ovt f rm (x 0 k) (x 1 k) (x 2 k)) (fun k => n 0 k * n 1 k + n 2 k) ∧
    R (.vfms o) 5 (fun k => fmaRound s.ovt f rm (x 0 k) (x 1 k) (x 2 k).negate) (fun k => n 0 k * n 1 k - n 2 k) ∧
    R (.vfnma o) 5 (fun k => fmaRound s.ovt f rm (x 0 k).negate (x 1 k) (x 2 k)) (fun k => n 2 k - n 0 k * n 1 k) ∧
    s.givesLanes (.vmin o) o short (fun k => (minElem f (el 0 k) (el 1 k), 0)) ∧
    s.givesLanes (.vmax o) o short (fun k => (maxElem f (el 0 k) (el 1 k), 0)) ∧
    s.givesLanes (.vclamp o) o short (fun k => (minElem f (maxElem f (el 0 k) (el 1 k)) (el 2 k), 0)) ∧
    R (.vabs o) short (fun k => (signTo f (el 0 k) (fun _ => false), 0)) (fun k => (n 0 k).natAbs) ∧
    R (.vneg o) short (fun k => (signTo f (el 0 k) (fun neg => !neg), 0)) (fun k => -n 0 k) ∧
    s.givesLanes (.vsatadd o) o 2 (fun k => (satI f (n 0 k + n 1 k), 0)) ∧
    s.givesLanes (.vsatsub o) o 2 (fun k => (satI f (n 0 k - n 1 k), 0))

/-- R144: vdot4 adds four products to each 32-bit element of its destination, with one rounding or one wrap. -/
def Obligations.VectorDotProduct : Prop :=
  ∀ (o : VOp) (s : State),
    let w := fmtBits o.ext.fmt
    let n := lanesOf o.w o.ext.fmt2
    let el := fun (pos k : Nat) => (s.vElems o.slot pos (if pos = 0 then o.a else o.b) (4 * n) w).getD k 0
    let d := fun (j : Nat) => (s.vElems o.slot 3 o.d n 32).getD j 0
    (o.ext.fmt2 = 5 → s.givesElems (.vdot4 o) o 32 (s.vMaskBits o n) ((upTo n).map (fun j =>
      let i := fun (k : Nat) => decodeI o.ext.fmt (el 0 (4 * j + k)) * decodeI o.ext.fmt (el 1 (4 * j + k))
      (wrapI 5 (decodeI 5 (d j) + (i 0 + i 1 + i 2 + i 3)), 0))) 5) ∧
    (o.ext.fmt2 ≠ 5 → s.givesElems (.vdot4 o) o 32 (s.vMaskBits o n) ((upTo n).map (fun j =>
      let g := groupProducts ((upTo 4).map (fun k => (decodeF o.ext.fmt (el 0 (4 * j + k)), decodeF o.ext.fmt (el 1 (4 * j + k)))))
      let r := sumRound s.ovt 0 o.ext.rm (decodeF 0 (d j) :: g.1)
      (r.1, r.2 ||| g.2))) 5)

/-- R145: logic, complement, and shifts by IMM16[5:0] or by the element of SB modulo the element width. -/
def Obligations.VectorLogicAndShifts : Prop :=
  ∀ (o : VOp) (s : State),
    let w := fmtBits o.ext.fmt
    let a := s.vSrc o 0
    let b := s.vSrc o 1
    let inv := fun (v : Nat) => 2 ^ w - 1 - v % 2 ^ w
    let c := fun (k : Nat) => if o.ext.imm16.getLsbD 15 then (o.ext.imm16.extractLsb' 0 6).toNat else b k % w
    let R := fun (i : Instr) (r : Nat → Nat) => s.givesLanes i o 2 (fun k => (r k, 0))
    R (.vand o) (fun k => a k &&& b k) ∧ R (.vor o) (fun k => a k ||| b k) ∧ R (.vxor o) (fun k => a k ^^^ b k) ∧
    R (.vandn o) (fun k => a k &&& inv (b k)) ∧ R (.vnot o) (fun k => inv (a k)) ∧
    R (.vshl o) (fun k => a k * 2 ^ c k % 2 ^ w) ∧ R (.vshr o) (fun k => a k / 2 ^ c k) ∧
    R (.vsar o) (fun k => wrapN (sInt (a k) w / 2 ^ c k) w)

/-- R146 to R150: comparison into a lane mask (bits past the lanes written 0, masked-off bits kept), selection, moves,
prefix counts, and conversions. -/
def Obligations.VectorCompareSelectConvert : Prop :=
  ∀ (o : VOp) (s : State),
    let f := o.ext.fmt
    let n := (vLanes o)
    let a := s.vSrc o 0
    let b := s.vSrc o 1
    let m := s.vMaskBits o n
    let cvt := fun (v : Nat) => convertElem s.ovt f o.ext.fmt2 o.ext.rm v
    let wt := fmtBits o.ext.fmt2
    (∃ v en : BitVec 4096, s.gives (.vcmp o) o.slot.slot o.g (vMask o.slot (o.d.setWidth 3)) v en 2 0 ∧
      ∀ k < 128, (k < n → v.getLsbD k = vcond f (o.ext.imm16.extractLsb' 0 3).toNat (a k) (b k) ∧ en.getLsbD k = m.getD k false) ∧
        (n ≤ k → v.getLsbD k = false ∧ en.getLsbD k = true)) ∧
    s.givesElems (.vsel o) o (fmtBits f) (List.replicate n true) ((upTo n).map (fun k => (if m.getD k false then a k else b k, 0))) 2 ∧
    s.givesLanes (.vmov o) o 2 (fun k => (a k, 0)) ∧
    s.givesLanes (.vbcast o) o 2 (fun _ => (a (o.ext.imm16.extractLsb' 0 7).toNat, 0)) ∧
    s.givesLanes (.viota o) o 2 (fun k =>
      let src := (s.rd o.slot.slot 5 (vMask o.slot (o.a.setWidth 3))).toNat
      (wrapI f (((upTo k).filter (fun j => src.testBit j)).length : Nat), 0)) ∧
    (let l := wBits o.w / max (fmtBits f) wt
     s.givesElems (.vcvt o) o wt (s.vMaskBits o l) ((s.vElems o.slot 0 o.a l (fmtBits f)).map cvt) 3) ∧
    s.givesElems (.vpack o) o wt (s.vMaskBits o (2 * n))
      ((s.vElems o.slot 0 o.a n (fmtBits f) ++ s.vElems o.slot 1 o.b n (fmtBits f)).map cvt) 3 ∧
    (let l := lanesOf o.w o.ext.fmt2
     let h := (o.ext.imm16.extractLsb' 0 1).toNat
     s.givesElems (.vunpack o) o wt (s.vMaskBits o l)
       ((((s.vElems o.slot 0 o.a (2 * l) (fmtBits f)).drop (h * l)).take l).map cvt) 3)

/-- R151, R152: permutation, the four shuffles, the slide over a pair, and compaction by the mask. -/
def Obligations.VectorPermutation : Prop :=
  ∀ (o : VOp) (s : State),
    let n := (vLanes o)
    let w := fmtBits o.ext.fmt
    let a := s.vSrc o 0
    let b := s.vSrc o 1
    let m := s.vMaskBits o n
    let h := n / 2
    let p := (o.ext.imm16.extractLsb' 0 2).toNat
    let k0 := (o.ext.imm16.extractLsb' 0 8).toNat
    let below := fun (k : Nat) => ((m.take k).filter id).length
    let kept := selected m (s.vElems o.slot 0 o.a n w)
    let R := fun (i : Instr) (r : Nat → Nat) => s.givesLanes i o 3 (fun k => (r k, 0))
    R (.vperm o) (fun k => a (b k % n)) ∧
    (p = 0 → R (.vshuf o) (fun k => if k % 2 = 0 then a (k / 2) else b (k / 2))) ∧
    (p = 1 → R (.vshuf o) (fun k => if k % 2 = 0 then a (h + k / 2) else b (h + k / 2))) ∧
    (p = 2 → R (.vshuf o) (fun k => if k < h then a (2 * k) else b (2 * (k - h)))) ∧
    (p = 3 → R (.vshuf o) (fun k => if k < h then a (2 * k + 1) else b (2 * (k - h) + 1))) ∧
    R (.vslide o) (fun k => if k + k0 < n then a (k + k0) else b (k + k0 - n)) ∧
    s.givesElems (.vcompress o) o w (List.replicate n true) ((upTo n).map (fun k => (kept.getD k 0, 0))) 6 ∧
    kept.length = below n ∧
    (∀ k < n, m.getD k false = true → kept.getD (below k) 0 = a k) ∧
    s.givesElems (.vexpand o) o w m ((upTo n).map (fun k => (a (below k), 0))) 6

/-- R153 to R155: reductions write element 0 alone; scans write the selected elements; a segmented scan restarts at each
head and takes the carry of element 0 of SB before the first. -/
def Obligations.VectorReduceAndScan : Prop :=
  ∀ (o : VOp) (s : State),
    let f := o.ext.fmt
    let n := (vLanes o)
    let w := fmtBits f
    let m := s.vMaskBits o n
    let a := s.vElems o.slot 0 o.a n w
    let sum := sumElems s.ovt f o.ext.rm
    let top := fun (l : List Nat) => (l.foldl (maxElem f) (lowest f), (0 : Flags))
    let bot := fun (l : List Nat) => (l.foldl (minElem f) (highest f), (0 : Flags))
    let upToK := fun (k : Nat) => selected (m.take (k + 1)) (a.take (k + 1))
    s.givesElems (.vredadd o) o w [true] [sum (selected m a)] 6 ∧
    s.givesElems (.vredmax o) o w [true] [top (selected m a)] 6 ∧
    s.givesElems (.vredmin o) o w [true] [bot (selected m a)] 6 ∧
    s.givesElems (.vscanAdd o) o w m ((upTo n).map (fun k => sum (upToK k))) 8 ∧
    s.givesElems (.vscanMax o) o w m ((upTo n).map (fun k => top (upToK k))) 8 ∧
    (∃ start : Nat → Nat,
      (∀ k, start k ≤ k ∧ (m.getD (start k) false = true ∨ start k = 0) ∧ ∀ j, start k < j → j ≤ k → m.getD j false = false) ∧
      s.givesElems (.vsegscan o) o w (List.replicate n true) ((upTo n).map (fun k =>
        let l := (a.take (k + 1)).drop (start k)
        sum (if m.getD (start k) false then l else l ++ [(s.vElems o.slot 1 o.b 1 w).getD 0 0]))) 8)

/-- R156, R157, R162, R206: lane-mask logic, the mask's count, copies between files, and the scale registers. -/
def Obligations.MasksCopiesAndScales : Prop :=
  ∀ (o : VOp) (c : FCp) (ks : KSet) (km : KMov) (s : State),
    let mk := fun (pos : Nat) (r : BitVec 5) => (s.rd o.slot.slot pos (vMask o.slot (r.setWidth 3))).setWidth 128
    let d := vMask o.slot (o.d.setWidth 3)
    let M := fun (i : Instr) (v : BitVec 128) => s.gives i o.slot.slot o.g d (v.setWidth 4096) d.full 2 0
    let fc : BitVec 4 := o.ext.imm16.extractLsb' 0 4
    let lane := (o.ext.imm16.extractLsb' 4 4).toNat
    M (.mand o) (mk 0 o.a &&& mk 1 o.b) ∧ M (.mor o) (mk 0 o.a ||| mk 1 o.b) ∧ M (.mnot o) (~~~ mk 0 o.a) ∧
    s.gives (.mpopc o) o.slot.slot o.g (s.vReg o.slot o.d)
      (BitVec.ofNat 4096 ((upTo (vLanes o)).filter (fun k => (s.rd o.slot.slot 0 (vMask o.slot (o.a.setWidth 3))).getLsbD k)).length)
      0xFFFFFFFFFFFFFFFF#4096 3 0 ∧
    (fc = 2 ∨ fc = 3 ∨ fc = 4 ∨ fc = 5 →
      exec (.vcp o) s = .next (if s.guard o.slot.slot o.g then
        landElems s (s.fileReg fc o.d) (fmtBits o.ext.fmt) (s.vMaskBits o (vLanes o)) ((s.vElems o.slot 0 o.a (vLanes o) (fmtBits o.ext.fmt)).map (fun v => (v, 0))) 3
        else s)) ∧
    (¬ (fc = 2 ∨ fc = 3 ∨ fc = 4 ∨ fc = 5) →
      s.gives64 (.vcp o) o.slot.slot o.g (s.fileReg fc o.d)
        (BitVec.ofNat 64 (elemN (s.rd o.slot.slot 0 (s.vReg o.slot o.a)).toNat lane 64)) 3 0) ∧
    s.gives (.sfcp c) .f c.g (s.fileReg c.fc c.d) (s.rd .f 0 (.w c.a)) (BitVec.ofNat 4096 (2 ^ wBits c.w - 1)) (if c.w = 2 then 5 else 4) 0 ∧
    (∃ v : BitVec 4096, s.gives (.kset ks) .k ks.g (.c ks.c) v (BitVec.allOnes 4096) 2 0 ∧
      ∀ j < 128, v.extractLsb' (32 * j) 32 = ks.val) ∧
    s.gives (.kmov km) .k km.g (.c km.c) (s.rd .k 0 (.c km.src)) (BitVec.allOnes 4096) 2 0

/-- R158 to R161: every F form computes each element of its w registers; a 1,024-bit form lands one cycle later (R16). -/
def Obligations.SpecialFunctions : Prop :=
  ∀ (o : FA) (s : State),
    let w := fmtBits o.fmt
    let n := lanesOf o.w o.fmt
    let el := fun (pos : Nat) (r : BitVec 4) (k : Nat) => (elemsOf (s.rd .f pos (.w r)).toNat n w).getD k 0
    let R := fun (i : Instr) (lat : Nat) (r : Nat → Nat → Nat → Nat × Flags) =>
      exec i s = .next (if s.guard .f o.g then
        landElems s (.w o.d) w (List.replicate n true) ((upTo n).map (fun k => r (el 2 o.d k) (el 0 o.a k) (el 1 o.b k)))
          (if o.w = 2 then lat + 1 else lat) else s)
    let T := fun (i : Instr) (lat op : Nat) => R i lat (fun _ a _ => sfElem s.ovt op o.fmt o.rm a)
    R (.sfrcp o) 6 (fun _ a _ => sfRcpElem s.ovt o.fmt a) ∧ R (.sfrsq o) 6 (fun _ a _ => sfRsqElem s.ovt o.fmt a) ∧
    R (.sfrcpr o) 8 (fun d a _ => sfRefineElem s.ovt o.fmt o.rm false d a) ∧
    R (.sfrsqr o) 8 (fun d a _ => sfRefineElem s.ovt o.fmt o.rm true d a) ∧
    T (.sfexp2 o) 10 4 ∧ T (.sflog2 o) 10 5 ∧ T (.sfsin o) 14 6 ∧ T (.sfcos o) 14 7 ∧ T (.sftanh o) 14 8 ∧ T (.sfsigm o) 14 9 ∧
    T (.sferf o) 14 10 ∧ T (.sfsqrt o) 20 11 ∧ R (.sfdiv o) 20 (fun _ a b => sfDivElem s.ovt o.fmt o.rm a b)

/-! ## Memory forms (spec/07) -/

/-- R165, R166, R168, R169: scratchpad loads read at issue, land at their bound, and change no memory; an effective address at
or above the limit raises XLAT_RANGE with KIND 1 and that address. R254: a load of several 64-byte pieces notes where each piece
lies, for the pieces that its landing may read later. R179, R183: a read is the pool's bytes, with the context's own
stores that are not performed yet over them. That of several bad elements of gth the trap names the first is the model's choice
(log 51). R205: kld fills a scale register from 512-byte-aligned scratchpad bytes, widening 16-bit values exactly; bytes past the
limit raise XLAT_RANGE. -/
def Obligations.ScratchpadLoads : Prop :=
  (∀ (o : DA) (s : State), s.guard o.slot.slot o.g = true →
     let e := 2 ^ o.sz.toNat
     let w := wBits o.sz / 8
     let ea := s.eaRaw o.slot o.base
     let rd := fun (a n : Nat) => ofBytes (scratchRead s s.sel.who a n)
     let trap := fun (a : Nat) => ({ code := 0x09, info := memInfo o.slot.slot.index 1 a, pc := s.cur.pc, reason := 0, slots := 0, freeze := .none } : TrapArgs)
     let ok := fun (i : Instr) (v : Nat) (en : BitVec 4096) (lat : Nat) (pieces : List PoolSrc) =>
       ∃ t, exec i s = .next t ∧ t.mem = s.mem ∧ t.pkts = s.pkts ∧ t.cur.regs = s.cur.regs ∧ t.cur.pc = s.cur.pc ∧
         t.cur.flight = s.cur.flight ++ [{ s.result (s.fileReg o.fc o.dreg) (BitVec.ofNat 4096 v) en lat 0 with pool := pieces }]
     let piece := fun (off n bit a : Nat) => ({ off := off, n := n, bit := bit, fmt := 0, slot := o.slot.slot.index, at_ := a } : PoolSrc)
     let L := fun (i : Instr) (v : Nat) (en : BitVec 4096) (lat : Nat) (pieces : List PoolSrc) =>
       (s.cur.limit ≤ ea → exec i s = .next (raiseTrap s (trap ea))) ∧ (ea < s.cur.limit → ok i v en lat pieces)
     (∀ n, 0 < n → s.eaDA o n ≤ ea ∧ ea < s.eaDA o n + n ∧ n ∣ s.eaDA o n) ∧
     L (.ldv o) (rd (s.eaDA o w) w) (BitVec.ofNat 4096 (2 ^ wBits o.sz - 1)) 6
       (if w ≤ 64 then [] else [piece (s.eaDA o w) 64 0 (s.eaDA o w), piece (s.eaDA o w + 64) 64 512 (s.eaDA o w)]) ∧
     L (.lds o) (rd (s.eaDA o e) e) 0xFFFFFFFFFFFFFFFF#4096 4 [] ∧
     L (.ldb o) (packElems (8 * e) (List.replicate (128 / e) (rd (s.eaDA o e) e))) (BitVec.ofNat 4096 (2 ^ 1024 - 1)) 6 [] ∧
     ((∀ a ∈ s.eaElems o, a < s.cur.limit) →
       ok (.gth o) (packElems (8 * e) ((s.eaIdx o).map (fun a => rd a e))) (BitVec.ofNat 4096 (2 ^ 1024 - 1)) 10
         (if ∀ a ∈ s.eaIdx o, a / 64 = (s.eaIdx o).headD 0 / 64 then [] else (s.eaIdx o).mapIdx (fun i a => piece a e (8 * e * i) a))) ∧
     (∀ a, (s.eaElems o).find? (fun a => s.cur.limit ≤ a) = some a → exec (.gth o) s = .next (raiseTrap s (trap a)))) ∧
  (∀ (s : State) (w : Who) (a n : Nat),
     ((∀ p ∈ s.pkts, p.who ≠ w ∨ p.performed = true) → scratchRead s w a n = s.peek (poolKey w.coreId a) n) ∧
     (∀ (p : Pkt) (b : List Byte), p.who = w → p.performed = false → b.length = n →
       (p.op = .pool [(a, b)] ∨ (p.op = .store b ∧ p.target = .pool w.clus w.core a ∧ p.dst = w.chip ∧ p.pieces = [])) →
       scratchRead { s with pkts := s.pkts ++ [p] } w a n = b)) ∧
  (∀ (o : KLd) (s : State), s.guard .k o.g = true →
       let a := o.addr.toNat * 512
       let n := if o.fmt = 0 then 512 else 256
       (s.cur.limit < a + n → exec (.kld o) s = .next (raiseTrap s
         { code := 0x09, info := memInfo 9 1 a, pc := s.cur.pc, reason := 0, slots := 0, freeze := .none })) ∧
       (a + n ≤ s.cur.limit → ∃ (t : State) (v : BitVec 4096), exec (.kld o) s = .next t ∧ t.mem = s.mem ∧ t.cur.regs = s.cur.regs ∧
         t.cur.flight = s.cur.flight ++ [{ s.result (.c o.c) v (BitVec.allOnes 4096) 8 0 with
           pool := (upTo 128).map (fun i => { off := a + fmtBits o.fmt / 8 * i, n := fmtBits o.fmt / 8, bit := 32 * i, fmt := o.fmt, slot := 9, at_ := a }) }] ∧
         ∀ j < 128, elemN v.toNat j 32 =
           let x := elemN (ofBytes (scratchRead s s.sel.who a n)) j (fmtBits o.fmt)
           (if o.fmt = 0 then x else (convert 0 o.fmt 0 0 x).1) % 2 ^ 32))

/-- R168, R169, R182, R183: a scratchpad store writes exactly its bytes at issue, outside a segment, when its order allows it
(Access.lean's mayLeave); R254: of a store of several 64-byte pieces those that a free choice picks (laterPieces, log 40) are left
for a later step and their bytes stay as they were; one that an earlier fence still holds back waits, and inside a segment it is
buffered: memory then does not change. Of scattered elements with one address the highest wins; that of several bad elements
the trap names the first is the model's choice (log 51). -/
def Obligations.ScratchpadStores : Prop :=
  ∀ (o : DA) (s : State), s.guard o.slot.slot o.g = true → Memory.wf s.mem = true →
    let e := 2 ^ o.sz.toNat
    let w := wBits o.sz / 8
    let ea := s.eaRaw o.slot o.base
    let me := s.sel.who
    let src := s.daSrc o
    let s0 := (daClamp o s).upd Ctx.fixLoads
    let may := fun (l : List (Nat × List Byte)) => s0.mayLeave (s0.mkPkt o.slot.slot o.x 0 (.pool me.clus me.core 0, me.chip, 0) (.pool l))
    let waits := fun (i : Instr) (st : Stage) (l : List (Nat × List Byte)) => ∃ t p, exec i s = .next t ∧ t.mem = s.mem ∧
      t.cur.regs = s.cur.regs ∧ t.cur.flight = s.cur.fixLoads.flight ∧ t.pkts = s.pkts ++ [p] ∧ p.id = s.nextId ∧ p.who = me ∧ p.stage = st ∧
      p.performed = false ∧ p.op = .pool l
    let key := fun (a : Nat) => poolKey s.sel.who.coreId a
    let left := fun (l : List (Nat × List Byte)) (x : Nat) => (laterPieces s.free l).any (fun q => q.1 / 64 = x / 64)
    let done := fun (t : State) (l : List (Nat × List Byte)) => t.cur.regs = s.cur.regs ∧ t.cur.flight = s.cur.fixLoads.flight ∧
      (laterPieces s.free l = [] → t.pkts = s.pkts) ∧
      (laterPieces s.free l ≠ [] → t.pkts.length = s.pkts.length + 1 ∧
        ∃ p ∈ t.pkts, p.id = s.nextId ∧ p.op = .pool (laterPieces s.free l) ∧ p.stage = .core ∧ p.told = 1)
    let S := fun (i : Instr) (a n : Nat) =>
      (s.cur.inSeg = false → may [(a, bytesOf src n)] = true → ∃ t, exec i s = .next t ∧ done t [(a, bytesOf src n)] ∧
        memSameBut s t (key a) n ∧
        ∀ k < n, memGet t.mem (key a + k) = if left [(a, bytesOf src n)] (a + k) then memGet s.mem (key a + k) else BitVec.ofNat 8 (src / 2 ^ (8 * k))) ∧
      (s.cur.inSeg = false → may [(a, bytesOf src n)] = false → waits i .core [(a, bytesOf src n)]) ∧
      (s.cur.inSeg = true → waits i .buffered [(a, bytesOf src n)])
    let trap := fun (a : Nat) => ({ code := 0x09, info := memInfo o.slot.slot.index 1 a, pc := s.cur.pc, reason := 0, slots := 0, freeze := .none } : TrapArgs)
    let els := (s.eaIdx o).mapIdx (fun i a => (a, bytesOf (elemN src i (8 * e)) e))
    (s.cur.limit ≤ ea → exec (.sts o) s = .next (raiseTrap s (trap ea))) ∧
    (isWindow (s.eaDA o w) = false → s.cur.limit ≤ ea → exec (.stv o) s = .next (raiseTrap s (trap ea))) ∧
    (∀ a, (s.eaElems o).find? (fun a => s.cur.limit ≤ a) = some a → exec (.sct o) s = .next (raiseTrap s (trap a))) ∧
    (ea < s.cur.limit → S (.sts o) (s.eaDA o e) e) ∧
    (isWindow (s.eaDA o w) = false → ea < s.cur.limit → S (.stv o) (s.eaDA o w) w) ∧
    ((∀ a ∈ s.eaElems o, a < s.cur.limit) → s.cur.inSeg = false → may els = true → ∃ t, exec (.sct o) s = .next t ∧ done t els ∧
      (∀ x, (∀ a ∈ s.eaIdx o, ¬ (key a ≤ x ∧ x < key a + e)) → memGet t.mem x = memGet s.mem x) ∧
      ∀ k < 128 / e, (∀ j < 128 / e, k < j → (s.eaIdx o).getD j 0 ≠ (s.eaIdx o).getD k 0) →
        let a := (s.eaIdx o).getD k 0
        ∀ b < e, memGet t.mem (key a + b) = if left els a then memGet s.mem (key a + b) else BitVec.ofNat 8 (elemN src k (8 * e) / 2 ^ (8 * b))) ∧
    ((∀ a ∈ s.eaElems o, a < s.cur.limit) → s.cur.inSeg = false → may els = false → waits (.sct o) .core els) ∧
    ((∀ a ∈ s.eaElems o, a < s.cur.limit) → s.cur.inSeg = true → waits (.sct o) .buffered els)

/-- R164, R170, R242, R296: a window store takes one unit of its allowance and becomes one packet; with none left its context
blocks; an unbound window, or an offset past the limit, raises XLAT_RANGE. No memory changes at issue. -/
def Obligations.WindowStores : Prop :=
  ∀ (o : DA) (s : State), s.guard o.slot.slot o.g = true → s.poolIdle →
    let w := wBits o.sz / 8
    let a := s.eaDA o w
    let n := winOf a
    let bound := (s.cur.winBinding n).getLsbD 63
    isWindow a = true →
    (bound = false ∨ s.cur.limit < winOff a + w →
      exec (.stv o) s = .next (raiseTrap s { code := 0x09, info := memInfo o.slot.slot.index 1 (s.eaRaw o.slot o.base), pc := s.cur.pc, reason := 0, slots := 0, freeze := .none })) ∧
    (bound = true → winOff a + w ≤ s.cur.limit → s.cur.csr.winAvail.toList.getD n 0 = 0 → exec (.stv o) s = .next (blockOn s (.window n))) ∧
    (bound = true → winOff a + w ≤ s.cur.limit → s.cur.csr.winAvail.toList.getD n 0 ≠ 0 → ∃ t, exec (.stv o) s = .next t ∧ t.mem = s.mem ∧
      t.cur.regs = s.cur.regs ∧
      (∀ k < 16, t.cur.csr.winAvail.toList.getD k 0 = if k = n then s.cur.csr.winAvail.toList.getD k 0 - 1 else s.cur.csr.winAvail.toList.getD k 0) ∧
      t.pkts.length = s.pkts.length + 1 ∧
      ∃ p ∈ t.pkts, p.id = s.nextId ∧ p.who = s.sel.who ∧ p.win = some n ∧ p.op = .store (bytesOf (s.daSrc o) w) ∧ p.target = (s.windowTarget a).1)

/-- R176 to R178: global loads, stores and atomics issue one access each, with a busy bit for a destination; a failed
translation is taken as its trap in place of the access; and what each atomic writes in both of its sizes, acas only on a match,
afadd by one rounded f32 sum and afmax by the larger f32 value. -/
def Obligations.GlobalAccesses : Prop :=
  (∀ (o : DA) (m : DM) (s : State), s.guard o.slot.slot o.g = true → s.guard m.slot.slot m.g = true → s.poolIdle →
     let e := 2 ^ o.sz.toNat
     let a := s.eaDA o e
     let am := s.eaBase m.slot m.base (atomicSize m)
     let ea := s.eaRaw o.slot o.base
     let eam := s.eaReg m.slot m.base
     let dm := s.fileReg m.fc m.dreg
     let A := fun (i : Instr) (flt : Option TrapArgs) (ea va : Nat) (op : AccOp) (d : Option Dest) =>
       (∀ f, flt = some f → exec i s = .next (raiseTrap s f)) ∧
       (flt = none → ∃ t, exec i s = .next t ∧ t.mem = s.mem ∧ t.cur.regs = s.cur.regs ∧ t.cur.flight = s.cur.fixLoads.flight ∧
         t.pkts.length = s.pkts.length + 1 ∧ (∃ p ∈ t.pkts, p.id = s.nextId ∧ p.who = s.sel.who ∧ p.va = va ∧ p.ea = ea ∧ p.op = op) ∧
         (∀ r, d = some r → ⟨.reg r, s.nextId, false⟩ ∈ t.cur.busy) ∧ (d = none → t.cur.busy = s.cur.busy))
     let F := fun (f : Nat) => AccOp.atomic f (atomicSize m) (s.rd64 m.slot.slot 1 (s.fileReg m.fc m.vreg))
       (s.rd64 m.slot.slot 2 (s.fileReg m.fc ((s.extOf m.x).step.extractLsb' 4 5))) dm
     let M := fun (i : Instr) (f : Nat) => A i (s.xlatFault m.slot.slot.index eam true true false) eam am (F f) (some dm)
     A (.ldg o) (s.xlatFault o.slot.slot.index ea true false false) ea a (.load e (s.fileReg o.fc o.dreg)) (some (s.fileReg o.fc o.dreg)) ∧
     A (.stg o) (s.xlatFault o.slot.slot.index ea false true false) ea a (.store (bytesOf (s.daSrc o) e)) none ∧
     M (.aadd m) 0x18 ∧ M (.amin m) 0x19 ∧ M (.amax m) 0x1A ∧ M (.aminn m) 0x1B ∧ M (.amaxn m) 0x1C ∧ M (.aand m) 0x1D ∧
     M (.aor m) 0x1E ∧ M (.axor m) 0x1F ∧ M (.aswp m) 0x20 ∧ M (.acas m) 0x21 ∧ M (.afadd m) 0x22 ∧ M (.afmax m) 0x23) ∧
  (∀ (n : Nat) (v w : BitVec (8 * n)) (x c : BitVec 64), n = 4 ∨ n = 8 → w = x.setWidth (8 * n) →
     let A := fun (f : Nat) => atomicNew f n v.toNat x.toNat c.toNat
     A 0x18 = (some (v + w).toNat, 0) ∧ A 0x19 = (some (if v.sle w then v else w).toNat, 0) ∧ A 0x1A = (some (if v.sle w then w else v).toNat, 0) ∧
     A 0x1B = (some (if v.ule w then v else w).toNat, 0) ∧ A 0x1C = (some (if v.ule w then w else v).toNat, 0) ∧
     A 0x1D = (some (v &&& w).toNat, 0) ∧ A 0x1E = (some (v ||| w).toNat, 0) ∧ A 0x1F = (some (v ^^^ w).toNat, 0) ∧
     A 0x20 = (some w.toNat, 0) ∧ A 0x21 = (if v = c.setWidth (8 * n) then some w.toNat else none, 0)) ∧
  (∀ (v : BitVec 32) (x c : BitVec 64), let w := (x.setWidth 32).toNat
     let r := sumRound 0 0 0 [decodeF 0 v.toNat, decodeF 0 w]
     atomicNew 0x22 4 v.toNat x.toNat c.toNat = (some r.1, r.2) ∧ atomicNew 0x23 4 v.toNat x.toNat c.toNat = (some (maxBits 0 v.toNat w), 0))

/-- R172 to R175: a tile transfer becomes one 128-byte access per line of its descriptor; ldt and stt mark the tile busy; a
malformed descriptor or a line that cannot be translated raises its trap in place of the transfer. -/
def Obligations.TileTransfers : Prop :=
  ∀ (o : DT) (s : State), s.guard o.slot.slot o.g = true → s.poolIdle →
    let id := s.nextId
    let T := fun (i : Instr) (flt : Option TrapArgs) (P : State → Prop) =>
      (∀ f, flt = some f → exec i s = .next (raiseTrap s f)) ∧
      (flt = none → ∃ t, exec i s = .next t ∧ t.mem = s.mem ∧ t.cur.regs = s.cur.regs ∧ P t)
    let line := fun (t : State) (xf va : Nat) (op : AccOp) => ∃ p ∈ t.pkts, p.who = s.sel.who ∧ p.xfer = xf ∧ p.va = va ∧ p.op = op
    T (.ldt o) (dtFault o s true false) (fun t =>
      t.xfers = s.xfers ++ [⟨id, s.sel.who, false, o.tile.toNat, s.cur.inst, false, []⟩] ∧ ⟨.tile o.tile.toNat, id, false⟩ ∈ t.cur.busy ∧
      t.pkts.length = s.pkts.length + (s.dtLines o).length ∧ ∀ q ∈ s.dtLines o, line t id q.2 (.row 128 q.1)) ∧
    T (.stt o) (dtFault o s false true) (fun t =>
      t.xfers = s.xfers ++ [⟨id, s.sel.who, true, o.tile.toNat, s.cur.inst, s.cur.inSeg, []⟩] ∧ ⟨.tile o.tile.toNat, id, false⟩ ∈ t.cur.busy ∧
      t.pkts.length = s.pkts.length + (s.dtLines o).length ∧
      ∀ q ∈ s.dtLines o, line t id q.2 (if s.cur.inSeg then
        .store (s.peek (poolKey s.sel.who.coreId (s.cur.tileAt o.tile.toNat) + q.1) 128) else .sttRow 128 q.1)) ∧
    T (.ldtp o) (dtFault o s false false) (fun t =>
      t.xfers = s.xfers ∧ t.cur.busy = s.cur.busy ∧
      ∀ q ∈ s.dtLines o, s.xlatFault o.slot.slot.index q.2 true false false = none → line t 0 q.2 (.prefetch 128))

/-- R182, R185, R171: a fence takes its place in program order; an L2 control form is posted as one access; wwait passes when
no earlier store to its window is outstanding and holds its bundle otherwise. That a store of wwait's own bundle is not waited for
is the model's choice (log 51). -/
def Obligations.FencesAndCacheControl : Prop :=
  ∀ (f : DF) (l : DL) (w : DW) (s : State), s.guard f.slot.slot f.g = true → s.guard l.slot.slot l.g = true → s.guard w.slot.slot w.g = true → s.poolIdle →
    let L := fun (i : Instr) (kind : Nat) =>
      (∀ x, dlFault l s = some x → exec i s = .next (raiseTrap s x)) ∧
      (dlFault l s = none → ∃ t, exec i s = .next t ∧ t.mem = s.mem ∧ t.cur.regs = s.cur.regs ∧ ∃ p ∈ t.pkts, p.id = s.nextId ∧
        p.va = (s.rd64 l.slot.slot 0 (dBase l.slot l.base)).toNat ∧ p.op = .l2 kind (s.dlLen l) l.ret.toNat)
    (∃ t x, exec (.fence f) s = .next t ∧ t.mem = s.mem ∧ t.pkts = s.pkts ∧ t.cur.regs = s.cur.regs ∧
      t.cur.fences = s.cur.fences ++ [x] ∧ x.kind = f.kind.toNat ∧ x.scope = s.scopeAs f.scope) ∧
    L (.l2pin l) 0 ∧ L (.l2unpin l) 1 ∧ L (.l2inv l) 2 ∧
    (s.windowOut s.sel.who w.win.toNat s.cur.po = false → exec (.wwait w) s = .next s) ∧
    (s.windowOut s.sel.who w.win.toNat s.cur.po = true → ∃ t, exec (.wwait w) s = .next t ∧ t.mem = s.mem ∧ t.pkts = s.pkts ∧
      t.cur = { s.cur with moved := true } ∧ (t.core s.sel.who.coreId).clk = (s.core s.sel.who.coreId).clk + 1)

/-! ## Matrix, scale and engine forms (spec/08) -/

/-- R192 gives the M queue 16 entries for the forms that wait; R189, R193: a form that issues stands last in its core's M queue
with its claim on a FIFO and its busy bits, and nothing else of the state changes; on a FIFO with no unclaimed entry it
blocks, on a full queue it stalls. What it computes is its completion's (EngineEvents). -/
def Obligations.MatrixIssue : Prop :=
  ∀ (r : MRow) (d : MDrain) (a : MLd) (k : MKat) (c : MChk) (s : State),
    let waiting := ((s.core s.sel.who.coreId).mq.filter (fun m => !m.started)).length
    let hasA := s.cur.owedA < s.cur.fifoA.length
    let hasB := s.cur.owedB < s.cur.fifoB.length
    let rows := if r.nrow = 0 then 128 else r.nrow.toNat
    let full := fun (i : Instr) (g : Guard) => s.guard .m g = true → 16 ≤ waiting → exec i s = .next (stallCycle s)
    (s.guard .m r.g = true → waiting < 16 →
      ∃ t, exec (.mzero r) s = .next t ∧ s.formIssued t (.mzero r) [.acc r.acc.toNat] 0 0) ∧
    (s.guard .m r.g = true → hasB → waiting < 16 →
      ∃ t, exec (.mlat r) s = .next t ∧ s.formIssued t (.mlat r) [.lat r.lat.toNat] 0 128) ∧
    (s.guard .m r.g = true → hasA → waiting < 16 →
      ∃ t, exec (.mma r) s = .next t ∧ s.formIssued t (.mma r) [.acc r.acc.toNat, .lat r.lat.toNat] rows 0) ∧
    (s.guard .m r.g = true → hasA → waiting < 16 →
      ∃ t, exec (.mter r) s = .next t ∧ s.formIssued t (.mter r) [.acc r.acc.toNat, .lat r.lat.toNat] (4 * rows) 0) ∧
    (s.guard .m d.g = true → waiting < 16 →
      ∃ t, exec (.mdrain d) s = .next t ∧ s.formIssued t (.mdrain d) (.acc d.acc.toNat :: drainTiles d.fmt d.tile) 0 0) ∧
    (s.guard .m a.g = true → waiting < 16 →
      ∃ t, exec (.maccLd a) s = .next t ∧
        s.formIssued t (.maccLd a) [.acc a.acc.toNat, .tile a.tile.toNat, .tile (a.tile.toNat + 1)] 0 0) ∧
    (s.guard .m k.g = true → waiting < 16 → ∃ t, exec (.mkat k) s = .next t ∧ s.formIssued t (.mkat k) [] 0 0) ∧
    (s.guard .m c.g = true → waiting < 16 → ∃ t, exec (.mchk c) s = .next t ∧ s.formIssued t (.mchk c) [.acc c.acc.toNat] 0 0) ∧
    (s.guard .m r.g = true → ¬ hasB → exec (.mlat r) s = .next (blockOn s (.fifo true))) ∧
    (s.guard .m r.g = true → ¬ hasA →
      exec (.mma r) s = .next (blockOn s (.fifo false)) ∧ exec (.mter r) s = .next (blockOn s (.fifo false))) ∧
    full (.mzero r) r.g ∧ full (.mdrain d) d.g ∧ full (.maccLd a) a.g ∧ full (.mkat k) k.g ∧ full (.mchk c) c.g ∧
    (hasB → full (.mlat r) r.g) ∧ (hasA → full (.mma r) r.g ∧ full (.mter r) r.g)

/-- R82 to R86, R191, R194, R195, R197 to R203: what a matrix form has computed and written once it completes, from the entries it
popped, the latch or tiles it read and the accumulator as it stood: mzero, mlat, mma, mter, mdrain, macc.ld, mkat and mchk, with
the checksum column, the row flags and the tag; nothing else of memory differs, and no register. The rounding functions are those
of RoundingAndFormats. The known-answer hash and the check of a row follow. That a row of tag 1 with a NaN sum is UNCHECKED and that
an f32 column starts from a checksum of the other kind rounded to f32 are the model's choices (log 49). -/
def Obligations.MatrixResults : Prop :=
  (∀ (s : State) (m : MForm) (seen : FormRead),
    let w := s.sel.who
    let c := w.coreId
    let q := s.core c
    let acc := fun (n : Nat) => poolKey c (s.cur.accAt n)
    let el := fun (t : State) (n i j : Nat) => ofBytes (t.peek (acc n + 512 * i + 4 * j) 4)
    let ck := fun (t : State) (n i : Nat) => (ckOf (t.core c) n i).1
    let uf := fun (t : State) (n i : Nat) => (ckOf (t.core c) n i).2
    let inf := fun (v : Nat) => v / 2 ^ 23 % 256 = 255
    let done := clearBusy (s.updCore c (fun k => { k with mq := k.mq.filter (fun f => f.id ≠ m.id) })) w m.id
    let ends := fun (P : State → Prop) => ∃ t, exec .matrixOpComplete s = .next t ∧ t.cur.regs = s.cur.regs ∧ P t
    let fails := fun (u : State) (code : BitVec 8) (info : BitVec 64) => exec .matrixOpComplete s = .next (raiseCause u w
      { code := code, info := info, pc := s.cur.issueNext, reason := 0, slots := 0, freeze := .none } false m.inst).settle
    q.mq.find? (fun f => f.id = s.sel.id) = some m → m.who = w → s.sel.val = 0 → mayComplete (formsBefore q.mq m.id) m = true →
    s.unitsReady c (formRanges s.cur m.op) = true → m.moved = [] → m.early = [] → m.old = none →
    (readFirst m.op ≠ [] → m.read = some seen) → s.poolIdle → Memory.wf s.mem = true →
    -- mzero
    (∀ o, m.op = .mzero o → let n := o.acc.toNat
      ends (fun t => memSameBut s t (acc n) 65536 ∧ (∀ k < 65536, memGet t.mem (acc n + k) = 0) ∧ t.tag c n = 0 ∧
        ∀ i < 128, ck t n i = .fin false 0 0 ∧ uf t n i = false)) ∧
    -- mlat
    (∀ o, m.op = .mlat o →
      let b := m.got.flatMap (fun e => e.bytes)
      let lat := o.lat.toNat
      let x := fun (k j : Nat) => elemN (ofBytes b) (128 * k + j) (fmtBits o.fmt)
      let depth := if o.fmt = 13 then 1024 else if o.fmt = 1 ∨ o.fmt = 2 then 128 else 256
      b.length = 32768 → o.fmt ∈ ([1, 2, 3, 4, 7, 13] : List (BitVec 4)) →
      ends (fun t => memSameBut s t (latKey w lat 0) 32768 ∧ t.peek (latKey w lat 0) 32768 = b ∧ t.cur.latDef.getLsbD lat = true ∧
        t.cur.latFmt.toList[lat]? = some o.fmt ∧
        (∀ k < depth, let v := (t.cur.bsum.get lat []).getD k .nan
          (o.fmt = 7 → v = intF ((List.range 128).map (fun j => decodeI 7 (x k j))).sum) ∧
          (o.fmt = 13 → v = intF ((List.range 128).map (fun j => (decodeT2 (x k j)).1)).sum) ∧
          (o.fmt ≠ 7 → o.fmt ≠ 13 → (∀ j < 128, ∃ g n e, decodeF o.fmt (x k j) = .fin g n e) →
            v.q = ((List.range 128).map (fun j => (decodeF o.fmt (x k j)).q)).sum)) ∧
        (o.fmt = 13 → (∃ k < depth, ∃ j < 128, x k j = 2) → t.cur.csr.flags.getLsbD 6 = true))) ∧
    -- mma of a float format
    (∀ o, m.op = .mma o → o.fmt ∈ ([1, 2, 3, 4] : List (BitVec 4)) →
      let n := o.acc.toNat
      let rows := if o.nrow = 0 then 128 else o.nrow.toNat
      let groups := if o.fmt = 1 ∨ o.fmt = 2 then 4 else 8
      let a := fun (r k : Nat) => decodeF o.fmt (elemN (ofBytes (m.got.getD r ⟨[], false, 0, 0⟩).bytes) k (fmtBits o.fmt))
      let b := fun (k j : Nat) => decodeF o.fmt (elemN (ofBytes seen.bytes) (128 * k + j) (fmtBits o.fmt))
      ends (fun t => memSameBut s t (acc n) (512 * rows) ∧ t.tag c n = 1 ∧
        (∀ r < rows, (∀ j < 128, el t n r j = groupSums groups (el s n r j) (fun k => (a r k, b k j))) ∧
          (∀ g x e, ck s n r = .fin g x e →
            ck t n r = decodeF 0 (groupSums groups (roundF 0 0 0 (.fin g x e)).1 (fun k => (a r k, seen.bsum.getD k (.fin false 0 0))))) ∧
          (uf s n r = true ∨ (∃ j < 128, inf (el t n r j)) → uf t n r = true)) ∧
        (∀ r < 128, rows ≤ r → ck t n r = ck s n r ∧ uf t n r = uf s n r))) ∧
    -- mma of i8, and mter
    (∀ (n rows per : Nat) (lat : BitVec 4),
      (∃ o, m.op = .mma o ∧ o.fmt = 7 ∧ n = o.acc.toNat ∧ rows = (if o.nrow = 0 then 128 else o.nrow.toNat) ∧ per = 1 ∧ lat = 7) ∨
      (∃ o, m.op = .mter o ∧ n = o.acc.toNat ∧ rows = (if o.nrow = 0 then 128 else o.nrow.toNat) ∧ per = 4 ∧ lat = 13) →
      m.got.length = per * rows → (∀ e ∈ m.got, e.bytes.length = 256) →
      let depth := 256 * per
      let a := fun (r k : Nat) => decodeI 7 (elemN (ofBytes (m.got.getD (per * r + k / 256) ⟨[], false, 0, 0⟩).bytes) (k % 256) 8)
      let code := fun (k j : Nat) => elemN (ofBytes seen.bytes) (128 * k + j) (fmtBits lat)
      let b := fun (k j : Nat) => if lat = 13 then (decodeT2 (code k j)).1 else decodeI 7 (code k j)
      let sum := fun (r j g : Nat) => satSums (decodeI 5 (el s n r j)) (fun k => a r k * b k j) g
      let ovf := fun (r : Nat) => ∃ j < 128, ∃ g < depth / 32, let v := sum r j g + ((List.range 32).map (fun i => a r (32 * g + i) * b (32 * g + i) j)).sum
        v < -2147483648 ∨ 2147483647 < v
      ends (fun t => memSameBut s t (acc n) (512 * rows) ∧ t.tag c n = 2 ∧
        (∀ r < rows, (∀ j < 128, decodeI 5 (el t n r j) = sum r j (depth / 32)) ∧
          (uf s n r = true ∨ ovf r → uf t n r = true) ∧ (ovf r → t.cur.csr.flags.getLsbD 5 = true) ∧
          (∀ (z : Int) (bs : Nat → Int), ck s n r = intF z → seen.bsum = (List.range depth).map (fun k => intF (bs k)) →
            ck t n r = intF (z + ((List.range depth).map (fun k => a r k * bs k)).sum))) ∧
        (lat = 13 → 0 < rows → (∃ k < depth, ∃ j < 128, code k j = 2) → t.cur.csr.flags.getLsbD 6 = true) ∧
        (∀ r < 128, rows ≤ r → ck t n r = ck s n r ∧ uf t n r = uf s n r))) ∧
    -- mdrain
    (∀ o, m.op = .mdrain o → o.fmt ∈ ([0, 1, 2, 3, 4, 5, 7] : List (BitVec 4)) → seen.tag ≠ 3 →
      let sz := fmtBits o.fmt / 8
      let e := o.x.getD ⟨0, 0, false⟩
      let src : BitVec 4 := if seen.tag = 1 then 0 else 5
      let v := fun (i j : Nat) => if seen.tag = 0 then 0 else elemN (ofBytes seen.bytes) (128 * i + j) 32
      let f := fun (x : Nat) => if seen.tag = 1 then x else (convert 0 5 0 0 x).1
      let mul := fun (x y : Nat) => (mulRound 0 0 0 (decodeF 0 x) (decodeF 0 y)).1
      let out := fun (i j : Nat) =>
        if e.scl then
          let x := mul (mul (f (v i j)) (elemN m.ka.toNat i 32)) (elemN m.kb.toNat j 32)
          if o.fmt = 0 then x else (convert m.ovt 0 o.fmt o.rm x).1
        else if o.fmt = src then v i j else (convert m.ovt src o.fmt o.rm (v i j)).1
      let at_ := poolKey c (s.cur.tileAt o.tile.toNat)
      ends (fun t => memSameBut s t at_ (16384 * sz) ∧
        ∀ i < 128, ∀ j < 128, ofBytes (t.peek (at_ + (128 * i + j) * sz) sz) = out i j % 2 ^ (8 * sz))) ∧
    -- macc.ld
    (∀ o, m.op = .maccLd o → o.fmt = 0 ∨ o.fmt = 5 → seen.bytes.length = 65536 →
      let n := o.acc.toNat
      let v := fun (i j : Nat) => elemN (ofBytes seen.bytes) (128 * i + j) 32
      ends (fun t => memSameBut s t (acc n) 65536 ∧ t.peek (acc n) 65536 = seen.bytes ∧ t.tag c n = (if o.fmt = 0 then 1 else 2) ∧
        ∀ i < 128,
          (o.fmt = 5 → ck t n i = intF ((List.range 128).map (fun j => decodeI 5 (v i j))).sum ∧ uf t n i = false) ∧
          (o.fmt = 0 → ck t n i = decodeF 0 (sumRound 0 0 0 ((List.range 128).map (fun j => decodeF 0 (v i j)))).1 ∧
            (uf t n i = true ↔ (∃ j < 128, inf (v i j)) ∨ ∃ g, ck t n i = .inf g)))) ∧
    -- mkat
    (∀ o, m.op = .mkat o → let h := katHash o.seed.toNat
      (h = o.hash → ends (fun t => t.mem = s.mem ∧ t.cur = { s.cur with busy := s.cur.busy.filter (fun b => b.id ≠ m.id) })) ∧
      (h ≠ o.hash → fails done 0x03 (h.setWidth 64))) ∧
    -- mchk
    (∀ o, m.op = .mchk o →
      let n := o.acc.toNat
      let res := fun (i : Nat) => rowCheck (s.tag c n) ((List.range 128).map (fun j => el s n i j)) (ck s n i) (uf s n i) o.tol.toNat
      let counted := fun (t : State) => t.mem = s.mem ∧ t.cur.csr.mchkN = (if s.cur.csr.mchkN = 0xFFFF then 0xFFFF else s.cur.csr.mchkN + 1) ∧
        t.cur.csr.mchkUnchk.toNat = min 0xFFFF (s.cur.csr.mchkUnchk.toNat + ((List.range 128).filter (fun i => res i = none)).length)
      ((∀ i < 128, res i ≠ some true) → ends (fun t => counted t ∧ t.cur.csr.mchkFrow = s.cur.csr.mchkFrow)) ∧
      (∀ r < 128, res r = some true → (∀ i < r, res i ≠ some true) →
        ∃ u, counted u ∧ u.cur.csr.mchkFrow = BitVec.ofNat 8 r ∧ fails u 0x04 (BitVec.ofNat 64 (n + 16 * r))))) ∧
  -- the check of a row (R203)
  (∀ (tag : BitVec 2) (row : List Nat) (ck : FVal) (uf : Bool) (tol : Nat),
    (tag = 3 ∨ uf = true → rowCheck tag row ck uf tol = none) ∧
    (∀ g n e, ck = .fin g n e → uf = false →
      (tag = 2 ∨ tag = 0 →
        let sum : Int := (row.map (fun v => if tag = 0 then 0 else decodeI 5 v)).sum
        rowCheck tag row ck uf tol = some (decide ((tol : ℚ) < |(sum : ℚ) - ck.q|))) ∧
      (tag = 1 →
        let x := decodeF 0 (sumRound 0 0 0 (row.map (decodeF 0))).1
        let top := max |x.q| |ck.q|
        (x = .nan ∨ x = .inf true ∨ x = .inf false → rowCheck tag row ck uf tol = none) ∧
        (∀ (g' : Bool) (n' : Nat) (e' : Int) (ulp : ℚ), x = .fin g' n' e' → (top = 0 → ulp = 2 ^ (-149 : Int)) →
          (∀ k : Int, (2 : ℚ) ^ k ≤ top → top < (2 : ℚ) ^ (k + 1) → ulp = 2 ^ (max k (-126) - 23)) →
          rowCheck tag row ck uf tol = some (decide ((tol : ℚ) * ulp < |x.q - ck.q|)))))) ∧
  -- the known-answer product (R202)
  (∀ (seed : Nat) (x : Nat → Nat), x 0 = seed → (∀ n, x (n + 1) = (25173 * x n + 13849) % 65536) →
    let next := fun (n : Nat) => (BitVec.ofNat 4 (x (n + 1) / 4096)).toInt
    katHash seed = crc32c ((List.range 8).flatMap (fun i => (List.range 128).flatMap (fun j =>
      let r := ((List.range 32).map (fun k => next (32 * i + k) * next (256 + 128 * k + j))).sum
      (List.range 4).map (fun n => BitVec.ofInt 8 (r / 256 ^ n))))))

/-- R207, R233 to R236: every E command issues when its guard is true, a privileged one is in supervisor mode, no fault of its
own is met, and its queue or the ring takes it: it then stands last there with what it read at issue. R331: inside a segment one
with external effect waits for the commit instead. R55, R235, R236: otherwise PRIV, its own fault, QUOTA, or a block. That a full
queue raises QUOTA as soon as the ring lacks room for a whole spill of 32 entries is the model's inference (log 41, DEDUCED). -/
def Obligations.EngineCommands : Prop :=
  ∀ (o : EOp) (s : State), s.guard .e o.g = true →
    let c := s.cur
    let n := s.sel.who.chip
    let used := c.ring.length + c.ovfWait.length
    let room := if c.inRing 0 then used < c.csr.ovfQuota.toNat else c.eq.length < 64
    let noQuota := if c.inRing 0 then c.csr.ovfQuota.toNat ≤ used else 64 ≤ c.eq.length ∧ c.csr.ovfQuota.toNat < used + 32
    let stops := fun (i : Instr) (priv : Bool) (own : Option TrapArgs) =>
      (priv = true → c.csr.mode = false → ∃ a, a.code = 0x07 ∧ a.pc = c.pc ∧ exec i s = .next (raiseTrap s a)) ∧
      ((priv = true → c.csr.mode = true) → ∀ a, own = some a → exec i s = .next (raiseTrap s a)) ∧
      ((priv = true → c.csr.mode = true) → own = none → noQuota →
        ∃ a, a.code = 0x0A ∧ a.freeze = .quota ∧ a.pc = c.pc ∧ exec i s = .next (raiseTrap s a)) ∧
      ((priv = true → c.csr.mode = true) → own = none → ¬ room → ¬ noQuota → exec i s = .next (blockOn s (.queue 0)))
    (room → amsgFault o s = none → ∃ t, exec (.amsg o) s = .next t ∧ s.commandIssued t (.amsg o) o .none true) ∧
    (room → ∃ t, exec (.taskPost o) s = .next t ∧ s.commandIssued t (.taskPost o) o .none true) ∧
    (room → taskDecFault o s = none → ∃ t, exec (.taskDec o) s = .next t ∧ s.commandIssued t (.taskDec o) o .none true) ∧
    (room → ∃ t, exec (.clbar o) s = .next t ∧ s.commandIssued t (.clbar o) o .none true) ∧
    (room → ∃ t, exec (.chbar o) s = .next t ∧ s.commandIssued t (.chbar o) o .none true) ∧
    (room → ∃ t, exec (.gbar o) s = .next t ∧ s.commandIssued t (.gbar o) o .none true) ∧
    (room → ∃ t, exec (.fork o) s = .next t ∧ s.commandIssued t (.fork o) o (.e o.ed) true) ∧
    (room → ∃ t, exec (.spawn o) s = .next t ∧ s.commandIssued t (.spawn o) o (.e o.ed) true) ∧
    (room → ∃ t, exec (.join o) s = .next t ∧ s.commandIssued t (.join o) o (.e o.ed) true) ∧
    (room → ∃ t, exec (.revSt o) s = .next t ∧ s.commandIssued t (.revSt o) o (.e o.ed) false) ∧
    (room → fmFault o s = none → ∃ t, exec (.flowMode o) s = .next t ∧ s.commandIssued t (.flowMode o) o .none false ∧
      ∀ d ∈ fmChips o s, t.cur.modes.get (d, fmFlow o) 0 = o.opt.setWidth 2) ∧
    (room → ∃ t, exec (.slk o) s = .next t ∧ s.commandIssued t (.slk o) o .none false) ∧
    (room → collFault o s = none → ∃ t x, exec (.coll o) s = .next t ∧ s.commandIssued t (.coll o) o (.e o.ed) true ∧
      (t.chip n).colls = (s.chip n).colls ++ [x] ∧ x.id = s.nextId ∧ x.who = s.sel.who ∧
      x.desc = scratchRead s s.sel.who ((s.rd64 .e 0 (.e o.ea)).toNat / 64 * 64) 64) ∧
    (room → esendFault o s = none → ∃ t, exec (.esend o) s = .next t ∧ s.commandIssued t (.esend o) o (esendDest o) true) ∧
    (room → ringFault o true s = none → ∃ t, exec (.erel o) s = .next t ∧ s.commandIssued t (.erel o) o .none true) ∧
    (room → ringFault o (o.opt.getLsbD 0) s = none →
      ∃ t, exec (.eprobe o) s = .next t ∧ s.commandIssued t (.eprobe o) o (.e o.ed) false) ∧
    (room → c.csr.mode = true → ∃ t, exec (.xtloadFull o) s = .next t ∧ s.commandIssued t (.xtloadFull o) o (.e o.ed) true) ∧
    (room → c.csr.mode = true → ∃ t, exec (.xtloadEntry o) s = .next t ∧ s.commandIssued t (.xtloadEntry o) o (.e o.ed) true) ∧
    (room → c.csr.mode = true → ∃ t, exec (.xtloadPage o) s = .next t ∧ s.commandIssued t (.xtloadPage o) o (.e o.ed) true) ∧
    (room → c.csr.mode = true → ∃ t, exec (.almw o) s = .next t ∧ s.commandIssued t (.almw o) o (.e o.ed) true) ∧
    (room → c.csr.mode = true → ∃ t, exec (.almwLen o) s = .next t ∧ s.commandIssued t (.almwLen o) o (.e o.ed) true) ∧
    (room → c.csr.mode = true → ∃ t, exec (.migCtlStart o) s = .next t ∧ s.commandIssued t (.migCtlStart o) o (.e o.ed) true) ∧
    (room → c.csr.mode = true → ∃ t, exec (.migCtlDone o) s = .next t ∧ s.commandIssued t (.migCtlDone o) o (.e o.ed) true) ∧
    stops (.amsg o) false (amsgFault o s) ∧ stops (.taskPost o) false none ∧ stops (.taskDec o) false (taskDecFault o s) ∧
    stops (.clbar o) false none ∧ stops (.chbar o) false none ∧ stops (.gbar o) false none ∧ stops (.fork o) false none ∧
    stops (.spawn o) false none ∧ stops (.join o) false none ∧ stops (.revSt o) false none ∧ stops (.flowMode o) false (fmFault o s) ∧
    stops (.slk o) false none ∧ stops (.coll o) false (collFault o s) ∧ stops (.esend o) false (esendFault o s) ∧
    stops (.erel o) false (ringFault o true s) ∧ stops (.eprobe o) false (ringFault o (o.opt.getLsbD 0) s) ∧
    stops (.xtloadFull o) true none ∧ stops (.xtloadEntry o) true none ∧ stops (.xtloadPage o) true none ∧
    stops (.almw o) true none ∧ stops (.almwLen o) true none ∧ stops (.migCtlStart o) true none ∧ stops (.migCtlDone o) true none

/-- R209 to R212: cpy reads its descriptor at issue and enters its engine's queue or goes on its way to the ring (R233, R234),
marking the tiles and latches it names; R211, R234 to R236 where it does not, QUOTA where the ring lacks room for a whole spill of
32 entries being the model's inference (log 41, DEDUCED). R213: ecnt.add and ecnt.set change one completion counter at issue. -/
def Obligations.CopyAndCounterIssue : Prop :=
  ∀ (o : EOp) (s : State), s.guard .e o.g = true →
    let c := s.cur
    let eng := o.opt.toNat % 2
    let len := if eng = 0 then c.cq0.length else c.cq1.length
    let used := c.ring.length + c.ovfWait.length
    let room := if c.inRing (1 + eng) then used < c.csr.ovfQuota.toNat else len < 64
    let noQuota := if c.inRing (1 + eng) then c.csr.ovfQuota.toNat ≤ used else 64 ≤ len ∧ c.csr.ovfQuota.toNat < used + 32
    let v : BitVec 32 := if o.opt.getLsbD 1 then o.ext.imm.setWidth 32 else (s.rd64 .e 0 (.e o.ea)).setWidth 32
    let a := (s.rd64 .e 0 (.e o.ea)).toNat / 32 * 32
    (cpyFault o s = none → room → ∃ t k, exec (.cpy o) s = .next t ∧ t.mem = s.mem ∧ t.pkts = s.pkts ∧
      t.cur.regs = c.regs ∧ t.cur.flight = c.flight ∧ (∀ w, w ≠ s.sel.who → t.ctx w = s.ctx w) ∧
      k.id = s.nextId ∧ k.who = s.sel.who ∧ k.cc = o.cc.toNat ∧
      { k with after := none } = readCpy (scratchRead s s.sel.who a 96) s.nextId s.sel.who o.cc.toNat c.inst ∧
      t.cur.busy = c.busy ++ k.elems.map (fun e => ⟨e, s.nextId, false⟩) ∧
      t.cur.ring = c.ring ∧
      (if c.inRing (1 + eng) then t.cur.ovfWait = c.ovfWait ++ [.copy eng k] ∧ t.cur.cq0 = c.cq0 ∧ t.cur.cq1 = c.cq1
       else t.cur.ovfWait = c.ovfWait ∧ t.cur.cq0 = (if eng = 0 then c.cq0 ++ [k] else c.cq0) ∧
         t.cur.cq1 = (if eng = 0 then c.cq1 else c.cq1 ++ [k]))) ∧
    (∀ f, cpyFault o s = some f → exec (.cpy o) s = .next (raiseTrap s f)) ∧
    (cpyFault o s = none → noQuota → ∃ f, f.code = 0x0A ∧ f.freeze = .quota ∧ f.pc = c.pc ∧ exec (.cpy o) s = .next (raiseTrap s f)) ∧
    (cpyFault o s = none → ¬ room → ¬ noQuota → exec (.cpy o) s = .next (blockOn s (.queue (1 + eng)))) ∧
    (∃ t, exec (.ecntAdd o) s = .next t ∧ onlyCtx s.sel.who s t ∧ t.cur = { c with csr := { c.csr with ccnt := t.cur.csr.ccnt } } ∧
      ∀ n : Fin 16, t.cur.csr.ccnt[n] = if n.val = o.cc.toNat then c.csr.ccnt[n] + v else c.csr.ccnt[n]) ∧
    (∃ t, exec (.ecntSet o) s = .next t ∧ onlyCtx s.sel.who s t ∧ t.cur = { c with csr := { c.csr with ccnt := t.cur.csr.ccnt } } ∧
      ∀ n : Fin 16, t.cur.csr.ccnt[n] = if n.val = o.cc.toNat then v else c.csr.ccnt[n])

/-! ## Issue and landing (spec/01) -/

/-- R34, R24, R26, R28, R131: a bundle that nothing holds back, whose lines are there and not poisoned (R244, R409) and for which
no fault of its context is still to be raised (R436), issues whole, its operations acting on its held-operation memories
as its issue finds them; one cycle passes, two with a wide special-function form, and the next bundle is the transfer's
target, the same bundle while it repeats, or the one that follows. A Ready context takes its free core first. -/
def Obligations.BundleIssue : Prop :=
  (∀ (s : State) (r : Raw), let w := s.sel.who
    let f := (s.fetchLines (s.cur.pc.toNat % 2 ^ 40) r.len).firstDecode r
    let s1 := if s.cur.arrive = .again then s else f.1
    let u := s1.uses r
    let ops := opsOf u
    s.mayIssue w.chip = true → (s.core w.coreId).run = some w.ctx → (∀ l ∈ s.cur.flight, s.t < l.bound) → s.cur.late = [] →
    s.cur.mustCommit = false →
    s.bundleFault s.cur.pc.toNat = none → s.rawAt w s.cur.pc.toNat = r →
    (s.cur.arrive = .again ∨ (s.unitHeld (s.fetchAt (s.cur.pc.toNat % 2 ^ 40) r.len) = [] ∧
      (s.fetchLines (s.cur.pc.toNat % 2 ^ 40) r.len).fetchPoison s.cur.pc.toNat r.len = none ∧ f.2 = none)) →
    (s1.illegal r).1 = 0 → (s1.look u).entryWanted r ops = false → (s1.look u).stalls ops = false →
    (r.rdv.isSome && !s1.cur.holds.isEmpty) = false → (s1.look u).blocks ops = none → (s1.look u).firstTouch ops = none →
    (s1.look u).faults ops = [] → (∀ q ∈ ops, (slotOf q.2).isSome = true) →
    ∃ m, runOps (runOrder ops) (beginIssue r u s1) = .next m ∧ exec .bundleIssue s = .next (endIssue r ops m)) ∧
  (∀ s : State, let w := s.sel.who
    (s.core w.coreId).run = none → s.nextReady w.coreId = some w.ctx →
    exec .bundleIssue s = exec .bundleIssue (takeCore s w) ∧ (takeCore s w).cur = { s.cur with st := .running }) ∧
  (∀ (r : Raw) (ops : List (Slot × Instr)) (m : State), let t := endIssue r ops m
    t.mem = m.mem ∧ t.pkts = m.pkts ∧ t.cur.regs = m.cur.regs ∧ t.cur.po = m.cur.po + 4 ∧
    (t.core m.sel.who.coreId).clk = (m.core m.sel.who.coreId).clk + (if ops.any (fun p => wideF p.2) then 2 else 1) ∧
    (m.cur.moved = true → t.cur.pc = m.cur.pc) ∧
    (m.cur.moved = false → (∀ x again, m.cur.next = some (x, again) → t.cur.pc = x) ∧
      (m.cur.next = none → 0 < m.cur.rep → t.cur.pc = m.cur.pc ∧ t.cur.rep = m.cur.rep - 1 ∧ t.cur.repOn = true) ∧
      (m.cur.next = none → m.cur.rep = 0 → t.cur.pc = m.cur.fall ∧ t.cur.repOn = false)))

/-- A step is the chosen candidate that is enabled (log 5), every other one before it being passed over; nothing enabled, a
cycle passes. A bundle of one present slot whose syllables decode to an instruction runs that instruction's meaning. -/
def Obligations.StepRunsDecoded : Prop :=
  (∀ (s t : State) (pre post : List Cand) (q : Cand), candidates s.ready (s.choices.headD 0 / 2 ^ 32) = pre ++ q :: post →
    (pre.filter (fun c => c.takes s.ready)).length = s.choices.headD 0 % 2 ^ 32 → (∀ c ∈ pre, ∀ e, exec c.op (c.at s.ready) ≠ .refused e) →
    exec q.op (q.at s.ready) = .next t → step s = .next t.settleClock) ∧
  (∀ s : State, (∀ c ∈ candidates s.ready (s.choices.headD 0 / 2 ^ 32), exec c.op (c.at s.ready) = .fault .notEnabled) → step s = .next (idleCycle s.ready)) ∧
  (∀ (s : State) (r : Raw) (g : Group) (i : Instr), let w := s.sel.who
    let u : List BundleSlot := [⟨g.slot, some i, false, none⟩]
    let ops := [(g.slot, i)]
    s.mayIssue w.chip = true → (s.core w.coreId).run = some w.ctx → (∀ l ∈ s.cur.flight, s.t < l.bound) → s.cur.late = [] →
    s.cur.arrive = .again → s.cur.inSeg = false → s.cur.holds = [] → s.cur.noMatrix = false →
    s.bundleFault s.cur.pc.toNat = none → s.rawAt w s.cur.pc.toNat = r → r.groups = [g] → (∀ sl, holdBit r.hdr sl = false) →
    decodeSlot g.slot g.w g.x = .ok i → (slotOf i).isSome = true → beyondPool s.cur i s = false → (s.illegal r).1 = 0 →
    (s.look u).stalls ops = false → (s.look u).blocks ops = none → (s.look u).firstTouch ops = none → (s.look u).faults ops = [] →
    ∃ m, exec i (beginIssue r u s) = .next m ∧ exec .bundleIssue s = .next (endIssue r ops m))

/-- R10, R30, R31, R81: a source is its register's value once no result for it is in flight; a result whose bound has passed
shows at the bits it writes and lands there with its flags. Inside its bound those bits are open (log 3); that only they are is
the model's inference (log 11, DEDUCED). R254: a piece of a load that has several may be read after the others. -/
def Obligations.ResultsLand : Prop :=
  (∀ (s : State) (sl : Slot) (pos : Nat) (d : Dest),
    (∀ v, d.fixed = some v → s.rd sl pos d = v) ∧
    (d.fixed = none → (∀ l ∈ s.cur.flight, l.dest = d → s.t ≤ l.issued) → s.rd sl pos d = s.cur.regs.get d) ∧
    (d.fixed = none → ∀ l, s.cur.flight = [l] → l.dest = d → l.issued < s.t →
      (l.bound ≤ s.t → s.rd sl pos d = merge (s.cur.regs.get d) l.val l.en) ∧
      (s.t < l.bound → s.rd sl pos d &&& ~~~l.en = s.cur.regs.get d &&& ~~~l.en))) ∧
  (∀ (s : State) (pre post : List Landing) (l : Landing), s.sel.val = 0 → s.cur.flight = pre ++ l :: post → l.bound ≤ s.t → (∀ k ∈ pre, k.dest ≠ l.dest) →
    ∃ t, exec .resultLand s = .next t ∧ t.mem = s.mem ∧ t.pkts = s.pkts) ∧
  (∀ (s : State) (i piece : Nat) (l : Landing), s.sel.val.toNat = piece + 1 → s.sel.reg = i → s.cur.flight[i]? = some l →
    (∃ q ∈ l.pool, q.off / 64 = piece) →
    ∃ t v, exec .resultLand s = .next t ∧ onlyCtx s.sel.who s t ∧ t.cur.regs = s.cur.regs ∧ t.cur.csr = s.cur.csr ∧
      t.cur.flight = s.cur.flight.set i { l with val := v, pool := l.pool.filter (fun q => q.off / 64 ≠ piece) } ∧
      ∀ b < 4096, (∀ q ∈ l.pool, q.off / 64 = piece → ¬ (q.bit ≤ b ∧ b < q.bit + (if q.fmt = 0 then 8 * q.n else 32))) → v.getLsbD b = l.val.getLsbD b) ∧
  (∀ (s : State) (l : Landing), s.sel.val = 0 → s.cur.flight = [l] → l.bound ≤ s.t → (∀ n, l.dest ≠ .csr n) →
    ∃ t, exec .resultLand s = .next t ∧ onlyCtx s.sel.who s t ∧ t.cur.flight = [] ∧ t.cur.pc = s.cur.pc ∧
      t.cur.regs = s.cur.regs.set l.dest (merge (s.cur.regs.get l.dest) l.val l.en) ∧
      t.cur.csr = { s.cur.csr with flags := s.cur.csr.flags ||| l.flags })

/-- R19, R20, R123, R124, R207, R234, R329, R333, R334, R340, R390, R436: what the events of a context do: a block ends, a late
fault is raised in the order it was found, a full queue spills its 32 youngest entries to the ring, an entry on its way enters the
ring, a queue that has fallen to 16 entries is refilled, the oldest command leaves its queue, an instance commits, a hold ends, and
a context stops for a vote. -/
def Obligations.ContextEvents : Prop :=
  ∀ s : State, let w := s.sel.who
    (s.unblocked w = true → exec .blockRelease s = .next (s.upd (fun c => { c with st := .ready, block := .none, yieldFor := [] }))) ∧
    (∀ l r, s.cur.late = l :: r → s.cur.st ≠ .frozen →
      exec .lateFault s = .next (raiseCause (s.upd (fun c => { c with late := r })) w (l.args s.cur) l.stale l.inst)) ∧
    (s.sel.val = 0 → s.sel.id < 4 → 64 ≤ s.cur.queueLen s.sel.id → s.cur.inRing s.sel.id = false →
      s.cur.ring.length + s.cur.ovfWait.length + 32 ≤ s.cur.csr.ovfQuota.toNat → s.cur.block = .queue s.sel.id →
      ovfMeets s w ((upTo 32).map (fun i => s.cur.ring.length + i)) true = (none, none) → ∃ t, exec .queueSpill s = .next t ∧ onlyCtx w s t ∧
        t.cur.queueOf s.sel.id = (s.cur.queueOf s.sel.id).take (s.cur.queueLen s.sel.id - 32) ∧ t.cur.block = .none ∧
        t.cur.ring = s.cur.ring ++ (s.cur.queueOf s.sel.id).drop (s.cur.queueLen s.sel.id - 32)) ∧
    (s.sel.val = 1 → ∀ e r, s.cur.ovfWait = e :: r → ovfMeets s w [s.cur.ring.length] true = (none, none) → ∃ t, exec .queueSpill s = .next t ∧
      onlyCtx w s t ∧ t.cur = { s.cur with ring := s.cur.ring ++ [e], ovfWait := r, ovfTold := 0 }) ∧
    (s.sel.val = 2 → s.sel.id < 4 → s.cur.queueLen s.sel.id ≤ 16 → (∃ e ∈ s.cur.ring, e.queue = s.sel.id) →
      (∀ g k, RingEntry.copy g k ∈ s.cur.ring → g < 2) →
      ovfMeets s w (s.cur.refillSlots s.sel.id) false = (none, none) → ∃ t, exec .queueSpill s = .next t ∧ onlyCtx w s t ∧
        (let back := s.cur.ring.filter (fun e => e.queue = s.sel.id)
         t.cur.queueOf s.sel.id = s.cur.queueOf s.sel.id ++ back.take (64 - s.cur.queueLen s.sel.id) ∧
         t.cur.ring.filter (fun e => e.queue = s.sel.id) = back.drop (64 - s.cur.queueLen s.sel.id) ∧
         t.cur.ring.filter (fun e => e.queue ≠ s.sel.id) = s.cur.ring.filter (fun e => e.queue ≠ s.sel.id))) ∧
    (∀ k r, s.cur.eq = k :: r → s.cur.eHead = none → ((toUnit k.op || sendsAtHead k.op) = true → s.mayRequest w.coreId 1 = true) →
      ∃ t, exec .eQueueHead s = .next t ∧ t = headGo (s.upd (fun c => { c with eq := r })) w k ∧
        (s.poolIdle → toUnit k.op = true → t.mem = s.mem ∧ ∃ p ∈ t.pkts, p.id = k.id ∧ p.who = w ∧ p.dst = w.chip ∧ p.op = .cmd k)) ∧
    (s.cur.endDue = true ∨ (s.entryDue = true ∧ s.cur.segIssues < 4096) → s.commitReady w = true →
      ∃ t, exec .segmentCommit s = .next t ∧ t.cur.inSeg = false ∧ t.cur.segRetry = false ∧ t.cur.closing = [] ∧
        (s.cur.endDue = false → t.cur.entryNext = true)) ∧
    (s.cur.endDue = false → s.entryDue = true → 4096 ≤ s.cur.segIssues → s.commitReady w = true →
      ∃ t, exec .segmentIssueLimit s = .next t ∧ t.cur.inSeg = false ∧ t.cur.segRetry = false ∧ t.cur.entryNext = true) ∧
    (s.endedHolds w ≠ [] → exec .holdRelease s = .next (s.upd (fun c => { c with holds := c.holds.filter (fun k => !(s.endedHolds w).contains k) }))) ∧
    (∀ g, (s.chip w.chip).vote.member = some g → (s.chip w.chip).vote.stopped.contains w = false → (s.ctxsOf w.chip).contains w = true →
      (s.cur.inSeg = false → exec .preemptionRequest s = .next (stopFor s w g)) ∧
      (s.cur.inSeg = true → s.cur.segSafe = true → exec .preemptionRequest s = .next (stopFor (rewind s w 1 false) w g)) ∧
      (s.cur.inSeg = true → s.cur.segSafe = false → s.cur.entryNext = true → exec .preemptionRequest s = .next (stopFor s w g)) ∧
      (s.cur.inSeg = true → s.cur.segSafe = false → s.cur.entryNext = false → s.commitReady w = true →
        exec .preemptionRequest s = .next (stopFor (commitNow s) w g)))

/-- R188, R189, R192, R193, R197, R210, R212: a matrix form starts behind those of its core and completes once it has its entries;
mzero leaves its accumulator zero; a copy leaves its queue for an engine, pushes FIFO entries of 256 bytes in order, and its
counter moves when it completes. That one byte of a copy may move ahead of the others in a step of its own is the model's choice
(log 40), and so is that a FIFO is served entry by entry and what is left of a copy moves in the step that completes it (log 45). -/
def Obligations.EngineEvents : Prop :=
  ∀ s : State, let w := s.sel.who
    let c := w.coreId
    let q := s.core c
    (∀ m, q.mq.find? (fun m => m.id = s.sel.id) = some m →
      (m.started = false → mayStart (formsBefore q.mq m.id) m = true → s.unitsReady c (formRanges (s.ctx m.who) m.op) = true →
        exec .matrixOpStart s = .next (feedForms (s.updCore c (fun k =>
          { k with mq := updWhere (fun f => f.id = m.id) (fun f => { f with started := true }) k.mq })) c)) ∧
      (mayComplete (formsBefore q.mq m.id) m = true → s.unitsReady c (formRanges (s.ctx m.who) m.op) = true →
        (s.sel.val = 0 → readFirst m.op = [] ∨ m.read ≠ none →
          exec .matrixOpComplete s = .next (formEffect (clearBusy (s.updCore c (fun k => { k with mq := k.mq.filter (fun f => f.id ≠ m.id) })) m.who m.id) m).settle) ∧
        (m.who = w → readFirst m.op ≠ [] → m.read = none → ∃ u,
          exec .matrixOpComplete { s with sel := { s.sel with val := 1 } } = .next u ∧ u.mem = s.mem ∧
          (∀ b ∈ u.cur.busy, b ∈ s.cur.busy ∧ ¬ (b.id = m.id ∧ b.elem ∈ readFirst m.op)) ∧
          (s.sel.val = 0 → exec .matrixOpComplete s = exec .matrixOpComplete { u with sel := s.sel })) ∧
        (∀ o, m.op = .mzero o → m.who = w → m.moved = [] → s.sel.val = 0 → s.poolIdle → Memory.wf s.mem = true →
          ∃ t, exec .matrixOpComplete s = .next t ∧ memSameBut s t (poolKey c (s.cur.accAt o.acc.toNat)) 65536 ∧
            ∀ k < 65536, memGet t.mem (poolKey c (s.cur.accAt o.acc.toNat) + k) = 0))) ∧
    (∀ k r, s.sel.id < 2 → (if s.sel.id = 0 then s.cur.cq0 else s.cur.cq1) = k :: r → q.engine s.sel.id = none →
      q.mq.all (fun m => some m.id ≠ k.after) = true → s.storesBefore w k.id = false → s.unitsReady c (copyRanges s.cur k) = true →
      ∃ t, exec .copyStart s = .next t ∧ t.mem = s.mem ∧
        (t.core c).engine s.sel.id = some { cmd := k, pos := 0, part := [], poison := false, moved := [] }) ∧
    (∀ r, q.engine s.sel.id = some r → s.unitsReady c (copyRanges (s.ctx r.cmd.who) r.cmd) = true →
      (r.cmd.toFifo = true → r.pos < r.cmd.total → ((if r.cmd.dk = 3 then (s.ctx r.cmd.who).fifoB else (s.ctx r.cmd.who).fifoA).length < 64) →
        ∃ t, exec .fifoEntryPush s = .next t ∧ t.mem = s.mem ∧
          (t.core c).engine s.sel.id = some { r with pos := r.pos + 256 / r.cmd.esz, moved := [] }) ∧
      (∀ i < r.cmd.total * r.cmd.esz, s.sel.val.toNat = i + 1 → (∀ q ∈ r.moved, q.1 ≠ i) →
        (if r.cmd.toFifo then r.pos * r.cmd.esz ≤ i ∧ i < r.pos * r.cmd.esz + 256 else r.cmd.mayAhead (r.moved.map (·.1)) i = true) →
        ∃ t, exec .copyComplete s = .next t ∧ (t.core c).engine s.sel.id = some { r with moved := (i, copySees s r.cmd i) :: r.moved }) ∧
      (s.sel.val = 0 → r.cmd.toFifo = false ∨ r.cmd.total ≤ r.pos →
        ∃ t, exec .copyComplete s = .next t ∧ (t.core c).engine s.sel.id = none ∧
          (r.cmd.cc < 16 → (t.ctx r.cmd.who).csr.ccnt.toList.getD r.cmd.cc 0 = (s.ctx r.cmd.who).csr.ccnt.toList.getD r.cmd.cc 0 + 1)))

/-! ## Accesses and packets (spec/07, spec/10, spec/12, spec/18, spec/21) -/

/-- R280, R282, R283, R294, R299, R315, R393: a packet that its arbiter chooses is charged a slack unit for every 16 cycles it
waited and moves to its next stage; of two of one class in the arbiter's queue, of 32 places at an output of the router and 64
elsewhere, the chosen one has no more slack than the other, and a critical one stands back only for the eighth grant. A copy with a
bad tag is sent again when its arbiter chooses it. A packet for another chip leaves through a port that is live, a critical one
through a port and its partner, a chunk of a collective through the port its member keeps (that it waits while that one is not live
is the model's choice, log 27), and one for a member that has been reset is answered at its own chip. -/
def Obligations.Arbitration : Prop :=
  (∀ (p : Pkt) (now : Nat) (st : Stage), let q := p.grant now st; let c := (p.sub + (now - p.since)) / 16
    q.slack = p.slack - c ∧ q.sub = (p.sub + (now - p.since)) % 16 ∧ q.stage = st ∧ q.since = now ∧
    (q.exh = true ↔ p.exh = true ∨ (p.slack ≤ c ∧ 0 < p.slack) ∨ (0 < c ∧ p.slack = 0))) ∧
  (∀ (s : State) (n d fl seq : Nat) (crit : Bool) (via : Option Nat), let l := s.portsFor n d fl seq crit via
    (∀ k ∈ l, s.portLive n k d = true) ∧ l.length ≤ 2 ∧ (l.length = 2 → crit = true ∧ ∃ k < 24, l = [k, k + 24]) ∧
    (via = none → (∃ k < 48, s.portLive n k d = true) → l ≠ []) ∧ (∀ v, via = some v → s.portLive n v d = true → l = [v])) ∧
  (∀ (s : State) (p q : Pkt) (a : Nat × Nat), s.wins p = true → s.arbiterOf p = some a → s.arbiterOf q = some a → q ∈ s.pkts →
    s.eligible q = true →
    ((s.atArbiter a).filter (fun y => y.older ⟨q.crit, s.rank a q⟩)).length < (if a.2 < 3000 then 32 else 64) →
    (q.crit = p.crit → (p.charged s.now).1 ≤ (q.charged s.now).1) ∧
    (q.crit = true → p.crit = false → (s.chip a.1).grants.get a.2 0 % 8 = 7)) ∧
  (∀ (s : State) (w : Wire) (a : Nat × Nat) (k : Nat), s.sel.val = 1 → s.theWire false = some w → s.wireArbiter w = some a →
    s.againPort w = some k → s.wireEligible w = true → s.chosen a ⟨w.crit, s.wireRank a w⟩ = true →
    let c := w.charged s.now
    s.portLive w.leaves k w.goes = true ∧ ∃ t, exec .arbiterGrant s = .next t ∧ t.mem = s.mem ∧ t.pkts = s.pkts ∧
      t.wires = (s.dropWire w).wires ++ [{ w with out := true, port := k, since := s.now, slack := c.1, sub := c.2.1, exh := c.2.2 }]) ∧
  (∀ (s : State) (p : Pkt), s.thePkt = some p → s.sel.val ≠ 1 → s.eligible p = true → s.wins p = true → let s1 := s.countGrant p
    (p.stage = .router ∨ p.stage = .inRouter ∨ p.stage = .replyRouter ∨ p.stage = .replyOut →
      exec .arbiterGrant s = .next (arriveAtStage s1 (p.grant s.now (s.nextStage p))) ∧
        s.nextStage p = if s.crosses p p.stage.leg then .bridge p.stage.leg else p.legEnd p.stage.leg) ∧
    (∀ k, p.stage = .bridge k → exec .arbiterGrant s = .next (arriveAtStage s1 (p.grant s.now (p.legEnd k)))) ∧
    (p.stage = .egress → s.toReset p = true → exec .arbiterGrant s = .next (answerReset s1 (p.grant s.now .egress))) ∧
    (p.stage = .egress → s.toReset p = false →
      exec .arbiterGrant s = .next (sendOut (countS s1 p) (p.grant s.now .link) (s.pktPorts p)) ∧ s.pktPorts p ≠ []) ∧
    (p.stage = .replyEgress →
      exec .arbiterGrant s = .next (sendOut (countS s1 p) (p.grant s.now .replyLink) (s.pktPorts p)) ∧ s.pktPorts p ≠ []) ∧
    (p.stage = .ingress → exec .arbiterGrant s = .next (s1.putPkt (p.grant s.now (if s.inTurn p then .inRouter else .reorder)))) ∧
    (p.stage = .reorder → exec .arbiterGrant s = .next (s1.putPkt (p.grant s.now .inRouter)) ∧ s.inTurn p = true) ∧
    (p.stage = .replyIngress → exec .arbiterGrant s = .next (s1.putPkt (p.grant s.now .replyOut))))

/-- R279, R280, R285, R291, R294 to R301, R362, R380, R387: a copy arrives, counted: sent again on a first bad tag, discarded with
a reserved field set or when its packet has been accepted, else accepted; a packet of a gang that does not run is captured and
a request is held through a vote; a window store writes its bytes at its target, a peer access is translated there; a reply or an
acknowledgement reaches its issuer; link states change; a drained flow takes its new mode. -/
def Obligations.Packets : Prop :=
  ∀ s : State, let n := s.sel.who.chip
    (∀ w, s.theWire true = some w → let s0 := s.dropWire w
      let tag := countPort s0 w.goes w.port (fun q => { q with tag := inc16 q.tag })
      (s.sel.val = 2 ∨ (∃ p ∈ s.pkts, p.id = w.pkt ∧ p.resv = true) →
        exec .packetArrival s = .next (countPort s0 w.goes w.port (fun q => { q with resv := inc16 q.resv }))) ∧
      ((∀ p ∈ s.pkts, p.id = w.pkt → p.resv = false) →
        (s.sel.val = 1 → w.tried = false →
          exec .packetArrival s = .next { tag with wires := tag.wires ++ [{ w with tried := true, out := false, since := s.now }] }) ∧
        (s.sel.val = 1 → w.tried = true → exec .packetArrival s = .next (takeWire tag w true)) ∧
        (s.sel.val = 0 → exec .packetArrival s = .next (takeWire s0 w false)))) ∧
    (∀ w bad, (s.wireSeen w = true → takeWire s w bad = countPort s w.goes w.port (fun q => { q with dup := inc16 q.dup })) ∧
      (s.wireSeen w = false → ∀ p, s.pkts.find? (fun p => p.id = w.pkt) = some p →
        let q := { p with port := w.port, slack := w.slack, sub := w.sub, exh := w.exh, since := s.now, poison := p.poison || bad }
        takeWire s w bad = intoIngress (countR (acceptWire s w) q) w.goes q)) ∧
    (∀ p, p.isVote = false →
      (p.isBack = true → (s.chip n).running ≠ some p.gctx → intoIngress s n p = capture s n p.gctx p false) ∧
      (p.isBack = false → (s.gang n p.gctx).resetDone = false →
        ((s.chip n).running ≠ some p.gctx → intoIngress s n p = capture s n p.gctx p false) ∧
        ((s.chip n).running = some p.gctx → s.voteOpen n p.gctx = true →
          ((intoIngress s n p).chip n).vote.held = (s.chip n).vote.held ++ [p.id]) ∧
        ((s.chip n).running = some p.gctx → s.voteOpen n p.gctx = false → intoIngress s n p = s.putPkt { p with stage := .ingress }))) ∧
    (∀ p, s.thePkt = some p → s.mayPerform p = true → s.sel.val = 0 →
      (∀ cl co off b, p.target = .pool cl co off → p.op = .store b → s.wantedIn ⟨p.dst, cl, co⟩ off b.length = none → p.pieces = [] →
        s.poolIdle → Memory.wf s.mem = true → ∃ t, exec .requestPerform s = .next t ∧ t.ctxs = s.ctxs ∧
          memSameBut s t (poolKey ⟨p.dst, cl, co⟩ off) b.length ∧ ∀ k < b.length, memGet t.mem (poolKey ⟨p.dst, cl, co⟩ off + k) = b.getD k 0) ∧
      (∀ va, p.target = .peer va → p.poison = false → p.isPrefetch = false →
        (∀ a rv, s.targetLookup p va = .dpa a rv → exec .requestPerform s = .next (s.putPkt { p with stage := .slice, since := s.now })) ∧
        (s.targetLookup p va = .range → exec .requestPerform s = .next (answer s { p with fault := 0x09 })) ∧
        (s.targetLookup p va = .cap → exec .requestPerform s = .next (answer s { p with fault := 0x0C })) ∧
        (∀ e pg, s.targetLookup p va = .absent e pg →
          exec .requestPerform s = .next ((pktFault s p 0x08 (.absent p.dst e pg)).putPkt { p with stage := .absent })))) ∧
    (∀ p, s.thePkt = some p → s.atHome p = true → let s1 := countExh s p
      (isReply p = true → p.fault ≠ 0 → exec .replyLand s = .next (pktFault (endPkt s1 p) p p.fault .none)) ∧
      (isReply p = true → p.fault = 0 → (∀ k d, p.op = .load k d → exec .replyLand s = .next (s1.putPkt { p with stage := .landing }).settle) ∧
        (∀ i k cc, p.op = .taskDec i k cc → exec .replyLand s = .next (ackCommand (endPkt s1 p) p))) ∧
      (isReply p = true → s.poolIdle → ∃ t, exec .replyLand s = .next t ∧ t.mem = s.mem) ∧
      (∀ w, p.win = some w → s.poolIdle → ∃ t, exec .windowAck s = .next t ∧ t.mem = s.mem ∧ (t.ctx p.who).regs = (s.ctx p.who).regs ∧
        ∀ k < 16, (t.ctx p.who).csr.winAvail.toList.getD k 0 =
          let v := (s.ctx p.who).csr.winAvail.toList.getD k 0
          if k = w ∧ v.toNat < ((s.ctx p.who).csr.winMax.toList.getD w 0).toNat then v + 1 else v)) ∧
    exec .portLinkChange s = .next (countPort s n s.sel.reg (fun q => { q with up := s.sel.val.getLsbD 0 })) ∧
    (∃ t, exec .linkStateNotice s = .next t ∧ t.mem = s.mem ∧ t.ctxs = s.ctxs ∧
      ∀ k < 48, (t.chip n).notices.get (s.sel.id, k) false = s.sel.val.getLsbD k) ∧
    (let busy := fun (f : FlowWait) =>
       (∃ q ∈ s.flights, q.who = s.sel.who ∧ q.flow = f.flow ∧ f.dsts.contains q.dst = true ∧ q.po < f.po ∧ q.stage ≠ .landing ∧ q.isPool = false) ∨
       (∃ k ∈ s.cur.cmds, k.po < f.po ∧ ∃ d, k.lane = some (f.flow, d) ∧ f.dsts.contains d = true)
     ∀ pre f post, s.cur.flowWait = pre ++ f :: post → f.atHead = true → ¬ busy f → (∀ g ∈ pre, g.atHead = false ∨ busy g) →
       exec .flowModeDrained s = .next (s.upd (fun c => { c.incCC f.cc f.inst 1 with flowWait := c.flowWait.filter (fun g => g.id ≠ f.id) })).settle)

/-- R176, R177, R180, R244, R247, R334, R361, R363, R369, R401, R409, R410, R411: an access meets its home slice, whose dirty victim
is written back, then memory, where a stale request is counted and sent again; it is performed in its turn once its page's dirty
record and its revision's copies exist, and what it brings back lands, zero-extended, with the end of its busy bit. An address at or
above the capacity limit reports CAP_RANGE (R411). That a writeback is a request whose end changes no memory, the bytes having been
in memory since their write, is the model's choice (log 45, DESIGN CHOICE). -/
def Obligations.MemoryEvents : Prop :=
  ∀ (s : State) (p : Pkt), s.thePkt = some p →
    let a := s.pktDpa p
    let m := (s.chip p.dst).mig
    (p.stage = .slice → s.eligible p = true → s.wins p = true → let s1 := s.countGrant p; let q := p.grant s.now .slice
      (s.capLimit p.dst ≤ a → p.isPrefetch = false →
        (p.dst = p.who.chip → exec .homeSliceAccess s = .next (answer (pktFault s1 q 0x0C .none) q)) ∧
        (p.dst ≠ p.who.chip → exec .homeSliceAccess s = .next (answer s1 { q with fault := 0x0C }))) ∧
      (a < s.capLimit p.dst → ∃ t, exec .homeSliceAccess s = .next t ∧ t.mem = s.mem ∧ t.ctxs = s.ctxs ∧
        (∀ r ∈ t.pkts, r.id = p.id → r.isWriteBack = false →
          r = p.grant s.now (if s.buffers p.dst a || (touchLine s1 p.dst a p.who p.ef p.isWrite).2 then .ready else mcStage m a)) ∧
        (s.buffers p.dst a = false → ∀ b g, s1.dirtyOut p.dst a p.who = some (b, g) →
          ∃ r ∈ t.pkts, r.op = .writeBack g ∧ r.va = b ∧ r.dst = p.dst ∧ r.slack = q.slack ∧ r.stage = mcStage m b))) ∧
    (s.sel.val = 3 → exec .mcRequestAccept s = .next (s.lineFails s.sel.who.chip s.sel.reg)) ∧
    (∀ ph mk, p.stage = .mc ph mk → s.eligible p = true → s.wins p = true → s.sel.val ≠ 3 →
      let stale := decide (ph ≠ m.phase.toNat % 256) || decide (mk ≠ m.maskAt a) || (m.active && m.marked && m.wm = periodOf a)
      let line := hbmKey p.dst (a / 128 * 128)
      (stale = false → s.sel.val = 0 → p.isWriteBack = false → s.uncorr.contains line = false → s.sunk.contains line = false →
        exec .mcRequestAccept s = .next ((s.countGrant p).putPkt (p.grant s.now .ready))) ∧
      (stale = false → s.sel.val = 0 → p.isWriteBack = false → s.uncorr.contains line = true →
        ∃ t, exec .mcRequestAccept s = .next t ∧ t.mem = s.mem ∧ (∀ i < 128, line + i ∈ t.poison) ∧
          (let st := stackOf (m.maskAt a) a; (t.chip p.dst).mig.ue.get st 0 = inc32 (m.ue.get st 0))) ∧
      (stale = false → p.isWriteBack = true → ∃ t, exec .mcRequestAccept s = .next t ∧ t.mem = s.mem ∧ t.poison = s.poison ∧
        t.pkts = s.pkts.filter (fun q => q.id ≠ p.id)) ∧
      (∃ t, exec .mcRequestAccept s = .next t ∧ t.mem = s.mem ∧ (∀ q ∈ t.pkts, q.id = p.id → q = p.grant s.now (if stale then mcStage m a else .ready)) ∧
        (stale = true → (t.chip p.dst).mig.replays = inc32 m.replays ∧
          (t.chip p.dst).mig.stalls = if mcStage m a = .wmHold then inc32 m.stalls else m.stalls))) ∧
    (p.stage = .ready → p.isPool = false → s.hostDown p = false → s.voteStops p = false → s.inTurn p = true → s.sel.val = 0 →
      (∀ e pg, s.needsLog p = some (e, pg) → exec .accessPerformed s = .next (askDirty (s.putPkt { p with stage := .dlog }) p.dst p.gctx p.who e pg)) ∧
      (s.needsLog p = none → s.revTouch p = none → (∀ k l r, p.op ≠ .l2 k l r) → exec .accessPerformed s = .next (performNow s p)) ∧
      (s.needsLog p = none → ∀ k l r, p.op = .l2 k l r → s.poolMeets p.dst p.gctx (s.l2Copies p l) = .no → k ≠ 0 →
        exec .accessPerformed s = .next (performNow s p)) ∧
      (s.needsLog p = none → ∀ rev gran, s.revTouch p = some (rev, gran) →
        (s.sorrelMeets p rev gran = .no → p.writes = false → exec .accessPerformed s = .next (performNow s p)) ∧
        (s.sorrelMeets p rev gran = .no → p.writes = true →
          s.unitHeld (s.copyLines p.dst p.gctx rev gran ((s.gang p.dst p.gctx).needCount rev gran)) = [] →
          ∀ s1, prepareWrite s p.dst p.gctx rev gran p.who = some s1 → exec .accessPerformed s = .next (performNow s1 p)) ∧
        (s.sorrelMeets p rev gran ≠ .no → s.poolIdle → ∃ t, exec .accessPerformed s = .next t ∧ t.mem = s.mem))) ∧
    (p.stage = .sorrel → s.voteStops p = false → ∀ rev gran, s.revTouch p = some (rev, gran) → s.sorrelMeets p rev gran = .no →
      (p.writes = false → exec .sorrelSlotGrant s = .next (performNow s p)) ∧
      (p.writes = true → s.unitHeld (s.copyLines p.dst p.gctx rev gran ((s.gang p.dst p.gctx).needCount rev gran)) = [] →
        ∀ s1, prepareWrite s p.dst p.gctx rev gran p.who = some s1 → exec .sorrelSlotGrant s = .next (performNow s1 p))) ∧
    (∀ k d, p.op = .load k d → s.mayLand p = true → p.dropLanding = false → p.poison = false → s.poolIdle →
      (∀ l ∈ (s.ctx p.who).flight, l.dest ≠ d) →
      ∃ t, exec .globalLoadLand s = .next t ∧ t.mem = s.mem ∧ (t.ctx p.who).pc = (s.ctx p.who).pc ∧
        (t.ctx p.who).regs = (s.ctx p.who).regs.set d (merge ((s.ctx p.who).regs.get d) (BitVec.ofNat 4096 (ofBytes p.result)) d.full) ∧
        (t.ctx p.who).busy = (s.ctx p.who).busy.filter (fun b => b.id ≠ p.id)) ∧
    (∀ b, p.op = .store b → p.poison = false → p.pieces = [] → Memory.wf s.mem = true → let r := (memEffect s p).1
      memSameBut s r (s.pktKey p) b.length ∧ ∀ k < b.length, memGet r.mem (s.pktKey p + k) = b.getD k 0) ∧
    (∀ f k v c d, p.op = .atomic f k v c d → (memEffect s p).2.result = s.peek (s.pktKey p) k) ∧
    (∀ x, s.xfers.find? (fun x => x.id = s.sel.id) = some x → x.out = true → x.buffered = false → s.sel.val = 0 → s.poolIdle →
      s.unitsReady x.who.coreId [((s.ctx x.who).tileAt x.tile, 32768)] = true → (∀ q ∈ s.linesOf x, q.stage = .readout) →
      ∃ t, exec .tileRowsDone s = .next t ∧ t.mem = s.mem ∧ t.xfers = s.xfers.filter (fun y => y.id ≠ x.id) ∧
        (t.ctx x.who).busy = (s.ctx x.who).busy.filter (fun b => b.id ≠ x.id)) ∧
    (∀ x, s.xfers.find? (fun x => x.id = s.sel.id) = some x → x.out = false → x.buffered = false → s.sel.val = 0 →
      s.unitsReady x.who.coreId [((s.ctx x.who).tileAt x.tile, 32768)] = true → (∀ q ∈ s.linesOf x, s.mayLand q = true) →
      (∀ y ∈ s.xfers, ¬ (y.out = true ∧ y.buffered = false ∧ y.who = x.who ∧ y.tile = x.tile)) →
      (s.core x.who.coreId).mq = [] → ∃ t, exec .tileRowsDone s = .next t ∧ t.xfers = s.xfers.filter (fun y => y.id ≠ x.id) ∧
        (t.ctx x.who).busy = (s.ctx x.who).busy.filter (fun b => b.id ≠ x.id))

/-! ## Messages, tasks, barriers, revisions and the commands at their heads (spec/08, spec/09, spec/11, spec/12, spec/13, spec/19, spec/21) -/

/-- R302, R322 to R324, R368, R395, R413, R214, R207: what a command does at the head of its queue: a message or a slot leaves
with the bytes that its address holds then, a full ring answers 0, releases and probes count, slk sets its defaults, and a
status command answers in its destination; the head is free afterwards. -/
def Obligations.QueueHeads : Prop :=
  ∀ (s : State) (k : ECmd), s.cur.eHead = some k →
    let w := s.sel.who
    let n := w.chip
    let s1 := clearHead s w
    let fin := fun (s : State) (o : EOp) (v : BitVec 64) => finishCmd s w k.id k.inst o.cc.toNat v
    let view := fun (o : EOp) => s.cur.view (ringOf o)
    let key := poolKey w.coreId (alignTo k.ea.toNat 64)
    s.sel.val = 0 → s.poolIdle → (∀ b ∈ s.cur.taken, b.1 ≠ k.id) →
    (∀ o, k.op = .amsg o → k.flow < 256 → s.mayRead w k = true → let b := s.peek key (amsgBytes o)
      ∃ t, exec .amsgSend s = .next t ∧ t.mem = s.mem ∧ t.cur.eHead = none ∧ t.cur.regs = s.cur.regs ∧
        ∀ i < packetsOf (amsgBytes o), ∃ p ∈ t.pkts, p.who = w ∧ p.dst = k.dst ∧ p.flow = k.flow ∧ p.seq % 4096 = (k.seq + i) % 4096 ∧
          p.slack = k.slack.toNat ∧
          p.op = .amsg ((b.drop (256 * i)).take 256) (natFld k.eb.toNat 18 2) o.ext.imm.toNat o.cc.toNat k.id i k.parts ∧
          p.target = .pool (natFld k.eb.toNat 10 5) (natFld k.eb.toNat 15 3) (natFld k.eb.toNat 22 16 * 64 + 256 * i)) ∧
    (∀ o r, k.op = .esend o → s.myRing n w (ringOf o) false = some r →
      ((view o).free r.nslot = 0 → ∃ t, exec .esendSlot s = .next t ∧ onlyCtx w s t ∧ t.cur.eHead = none ∧ t.cur.eager = s.cur.eager) ∧
      ((view o).free r.nslot ≠ 0 → s.mayRead w k = true → let size := r.slotsz * 64; let idx := (view o).sent.toNat % r.nslot
        ∃ t, exec .esendSlot s = .next t ∧ t.mem = s.mem ∧ t.cur.eHead = none ∧ (t.cur.view (ringOf o)).sent = (view o).sent + 1 ∧
          ∀ i < packetsOf size, ∃ p ∈ t.pkts, p.who = w ∧ p.va = r.base + idx * size + 256 * i ∧
            p.op = .slot (ringOf o) idx (((s.peek key size).drop (256 * i)).take 256) o.cc.toNat k.id i (packetsOf size))) ∧
    (∀ o r, k.op = .erel o → s.myRing n w (ringOf o) true = some r → s.mayRequest w.coreId 1 = true →
      let want := (o.ext.imm.extractLsb' 5 8).toNat
      let m := min want (view o).pending.toNat
      ∃ t, exec .erelNotice s = .next t ∧ t.mem = s.mem ∧ t.cur.eHead = none ∧ (t.cur.view (ringOf o)).rel = (view o).rel + BitVec.ofNat 32 m ∧
        t.cur.csr.eagerOvrel = (s.cur.csr.eagerOvrel || decide (m < want)) ∧ ∃ p ∈ t.pkts, p.id = k.id ∧ p.op = .notice (ringOf o) m o.cc.toNat) ∧
    (∀ o, k.op = .eprobe o → exec .eprobeRead s = .next (fin s1 o (eprobeValue s w o))) ∧
    (∀ o, k.op = .slk o → exec .slkApply s = .next (s1.updCtx w (fun c => (slkSet o k.inst c).incCC o.cc.toNat k.inst 1))) ∧
    (∀ o, k.op = .almw o → let a := (s.chip n).alm; let slot := natFld o.ext.imm.toNat 0 4
      (almwOk false a.nslots slot k.ea = false → exec .almwApply s = .next (fin s1 o (BitVec.allOnes 64))) ∧
      (almwOk false a.nslots slot k.ea = true → exec .almwApply s = .next (fin (s1.updChip n (fun c =>
        { c with alm := { c.alm with stagedCells := c.alm.stagedCells.set slot k.ea } })) o (a.stagedCells.get slot (a.cells.get slot 0))))) ∧
    (∀ o, k.op = .almwLen o → let a := (s.chip n).alm; let slot := natFld o.ext.imm.toNat 0 4
      (almwOk true a.nslots slot k.ea = false → exec .almwApply s = .next (fin s1 o (BitVec.allOnes 64))) ∧
      (almwOk true a.nslots slot k.ea = true → exec .almwApply s = .next (fin (s1.updChip n (fun c =>
        { c with alm := { c.alm with stagedLens := c.alm.stagedLens.set slot k.ea.toNat } })) o (BitVec.ofNat 64 (a.stagedLens.get slot (a.len slot)))))) ∧
    (∀ mode imm val, xtFields k.op = some (mode, imm, val) →
      let old := fun (x : Nat) => s.oldBitUses n (k.eb.toNat % 65536) (imm % 4096) (natFld imm 12 7) x
      let r := xtApply s n (s.vf n) mode k.eb.toNat k.ea.toNat imm val
      (k.stamp = 0 → (mode = 2 ∧ val = true ∧ r.2 = 0 → old s.nextId = false) →
        exec .xtloadApply s = .next (finishCmd (clearHead r.1 w) w k.id k.inst (ccOf k.op) (BitVec.ofNat 64 r.2))) ∧
      (k.stamp = 0 → mode = 2 → val = true → r.2 = 0 → old s.nextId = true →
        exec .xtloadApply s = .next (r.1.updCtx w (fun c => { c with eHead := some { k with stamp := s.nextId } }))) ∧
      (k.stamp ≠ 0 → old k.stamp = false → exec .xtloadApply s = .next (finishCmd s1 w k.id k.inst (ccOf k.op) 0))) ∧
    (∀ o, k.op = .migCtlStart o → let stack := natFld o.ext.imm.toNat 0 4
      (s.migPermit n (s.vf n) = false → exec .migStartApply s = .next (fin s1 o 1)) ∧
      (s.migPermit n (s.vf n) = true → s.migCheck n stack ≠ 0 → exec .migStartApply s = .next (fin s1 o (BitVec.ofNat 64 (s.migCheck n stack)))) ∧
      (s.migPermit n (s.vf n) = true → s.migCheck n stack = 0 → exec .migStartApply s =
        .next (fin (clearHead (startMig s n stack false) w) o (BitVec.ofNat 64 ((startMig s n stack false).migReg n 5 * 2 ^ 16))))) ∧
    (∀ o, k.op = .migCtlDone o → (s.chip n).mig.active = false →
      exec .migDoneApply s = .next (fin s1 o (BitVec.ofNat 64 ((s.chip n).mig.last.toNat + (s.chip n).mig.stack * 2 ^ 32))))

/-- R214, R215, R227, R235, R322, R323, R394: what arrives at a chip in its turn: a message lands whole and queues its record, a
decrement lowers its task's count, a slot fills and moves HEAD and its counter, a notice moves TAIL, and a gang arrival counts
at the coordinator. -/
def Obligations.Arrivals : Prop :=
  ∀ (s : State) (p : Pkt), s.thePkt = some p → s.mayPerform p = true → s.sel.val = 0 → s.poolIdle → Memory.wf s.mem = true →
    (∀ b x hoff cc msg part parts cl co off, p.op = .amsg b x hoff cc msg part parts → p.target = .pool cl co off → p.pieces = [] →
      s.wantedIn ⟨p.dst, cl, co⟩ off b.length = none →
      let y : Who := ⟨p.dst, cl, co, x⟩
      let l := (s.gang p.dst p.gctx).landed p.who msg b.length
      let key := poolKey ⟨p.dst, cl, co⟩ off
      (parts ≤ l.1 → (s.ctx y).room 3 = .ok) →
      ∃ t, exec .amsgLand s = .next t ∧ memSameBut s t key b.length ∧ (∀ k < b.length, memGet t.mem (key + k) = b.getD k 0) ∧
        (l.1 < parts → t.ctx y = s.ctx y) ∧
        (parts ≤ l.1 → (s.ctx y).inRing 3 = false →
          (t.ctx y).rq = putArrival ⟨BitVec.ofNat 64 (off - 256 * part), sourceWord s p (l.2 / 64), hoff, s.now⟩ (s.ctx y).rq)) ∧
    (∀ i k cc, p.op = .taskDec i k cc → s.dispatchDue p.dst i = false → let g := s.gang p.dst p.gctx; let v := satCount ((g.task i).c - k)
      let s2 := s.updGang p.dst p.gctx (fun _ => ({ g with tasks := g.tasks.set i { g.task i with c := v.1 } }).noteReady i s.now)
      exec .taskDecApply s = .next (answer (if v.2 then setEng s2 p.who p.inst 4 else s2) p)) ∧
    (∀ ring i b cc msg part parts r a rv, p.op = .slot ring i b cc msg part parts → (s.rings p.dst)[ring]? = some r →
      slotMeets s p b.length = .dpa a rv → (∀ x ∈ [p.va, p.va + b.length - 1], s.pageClean p.dst p.gctx x = none) →
      p.pieces = [] → p.poison = false → s.unitHeld (s.slotLines p b.length) = [] →
      let y := s.ringRx p.dst p.gctx r
      let l := (s.gang p.dst p.gctx).landed p.who msg b.length
      let key := fun (k : Nat) => hbmKey p.dst (s.dpaOf p.dst p.gctx 0 (p.va + k))
      ∃ t, exec .esendSlotPerform s = .next t ∧ (∀ x, (∀ k < b.length, x ≠ key k) → memGet t.mem x = memGet s.mem x) ∧
        ((∀ i < b.length, ∀ k < b.length, key i = key k → i = k) → ∀ k < b.length, memGet t.mem (key k) = b.getD k 0) ∧
        (l.1 < parts → t.ctx y = s.ctx y) ∧
        (parts ≤ l.1 → ((t.ctx y).view ring).head = ((s.ctx y).view ring).head + 1 ∧
          (r.hcc < 16 → (t.ctx y).csr.ccnt.toList.getD r.hcc 0 = (s.ctx y).csr.ccnt.toList.getD r.hcc 0 + 1))) ∧
    (∀ ring k cc r, p.op = .notice ring k cc → (s.rings p.dst)[ring]? = some r →
      exec .erelNoticeArrival s = .next (answer (s.updCtx (s.ringTx p.dst p.gctx r) (fun c => c.setView ring (fun v => { v with tail := v.tail + BitVec.ofNat 32 k }))) p)) ∧
    (∀ i k cc, p.op = .gbar i k cc → ((s.gang p.dst p.gctx).bar (2000 + i)).any Barrier.full = false →
      ∃ t, exec .gbarArrival s = .next t ∧ t.mem = s.mem ∧ (t.gang p.dst p.gctx).bars.get (2000 + i) ⟨0, []⟩ = (arriveAt ((s.gang p.dst p.gctx).bar (2000 + i)) k p.who cc).1)

/-- R215, R217, R225 to R231, R223, R260, R268, R394: a parked context starts its oldest arrival's handler; a post enters its index
or is dropped with TDUP; the oldest task of the window goes to the first free context, which starts it; an arrival counts at
its barrier, which completes every counter when it is full; a member whose work is done finishes its kernel. -/
def Obligations.TasksAndBarriers : Prop :=
  ∀ s : State, let w := s.sel.who
    let n := w.chip
    let g := s.rgang n
    (∀ r l, s.cur.rq = r :: l → s.cur.takesAm = true → s.cur.pend = none → (∀ q ∈ g.picked, q.1 ≠ w) →
      exec .handlerStart s = .next (startAt (s.upd (fun c => { c with rq := l })) w
        (s.cur.imageBase + (s.cur.csr.ctxHdl >>> 2) * 4 + BitVec.ofNat 64 (4 * r.hoff)) r.e0 r.e1)) ∧
    (∀ (v : Who) (pc e0 e1 : BitVec 64), let t := startAt s v pc e0 e1
      onlyCtx v s t ∧ (t.ctx v).st = .ready ∧ (t.ctx v).pc = regTarget pc ∧ (t.ctx v).regs.e[0] = e0 ∧ (t.ctx v).regs.e[1] = e1 ∧ (t.ctx v).csr = (s.ctx v).csr) ∧
    (∀ q o, s.theReq = some q → q.cmd.op = .taskPost o → s.released q.who q.cmd.po 3 = true → s.reqTurn q = true →
      let i := natFld o.ext.imm.toNat 0 12
      let r := (s.rgang q.who.chip).post i (natFld o.ext.imm.toNat 12 7) q.cmd.ea q.cmd.eb 0 s.now
      (((s.rgang q.who.chip).task i).posted = true → exec .taskPostAccept s = .next (answerReq (setEng s q.who q.cmd.inst 1) q 0)) ∧
      (((s.rgang q.who.chip).task i).posted = false → exec .taskPostAccept s =
        .next (answerReq (let s1 := s.updRgang q.who.chip (fun _ => r.1); if r.2 then setEng s1 q.who q.cmd.inst 4 else s1) q 0))) ∧
    (∀ t r v, g.window = t :: r → (rotated n g.ptr).find? s.freeForTasks = some v →
      ∃ u, exec .dispatchDecision s = .next u ∧ u.mem = s.mem ∧ u.ctxs = s.ctxs ∧ (u.rgang n).picked = g.picked ++ [(v, t)] ∧
        (u.rgang n).window = r ++ g.waiting.take 1 ∧ (u.rgang n).ptr = (v.clus * 32 + v.core * 4 + v.ctx + 1) % 1024) ∧
    (∀ q, g.picked.find? (fun q => q.1 = w) = some q → s.cur.st = .dormant →
      ∃ u, exec .taskStart s = .next u ∧ u.mem = s.mem ∧ u.cur.st = .ready ∧ u.cur.pc = regTarget q.2.entry ∧ u.cur.regs.e[0] = q.2.arg ∧
        (∀ i, q.2.idx = some i → q.2.rev = 0 → u.cur.regs.e[1] = BitVec.ofNat 64 i) ∧ (q.2.rev = 0 → u.cur.csr.revCur = 0x8000000000000000)) ∧
    (∀ q o, s.theReq = some q → (q.cmd.op = .clbar o ∧ s.released q.who q.cmd.po 2 = true) ∨ (q.cmd.op = .chbar o ∧ s.released q.who q.cmd.po 3 = true) →
      let key := barKey q.cmd.op q.who.clus
      ((s.rgang q.who.chip).bar key).any Barrier.full = false →
      ∃ t, exec .barrierArrival s = .next t ∧ t.mem = s.mem ∧ t.reqs = s.reqs.filter (fun r => r.id ≠ q.id) ∧
        (t.rgang q.who.chip).bars.get key ⟨0, []⟩ = (arriveAt ((s.rgang q.who.chip).bar key) (natFld o.ext.imm.toNat 0 16) q.who (ccOf q.cmd.op)).1) ∧
    (∀ b, g.bar s.sel.id = some b → b.full = true → let op := if s.sel.id < 2000 then Instr.barrierComplete else .gbarComplete
      ∃ t, exec op s = .next t ∧ t.mem = s.mem ∧ t.ctxs = s.ctxs ∧ (t.rgang n).bar s.sel.id = none ∧
        (∀ p ∈ s.pkts, p.stage = .parked → p.dst = n → p.gctx = s.gctxOf n → p.va = s.sel.id → p.toReply s.now ∈ t.pkts) ∧
        ∀ p ∈ t.pkts, p.stage = .parked → p.dst = n → p.gctx = s.gctxOf n → p.va ≠ s.sel.id) ∧
    ((s.chip n).running.isSome = true → g.kernel.any (fun k => k.phase = 1) = true → s.finished n (s.gctxOf n) = true → s.stopPending n (s.gctxOf n) = false →
      exec .memberFinish s = .next (endKernel s n (s.gctxOf n) 0))

/-- R258, R260, R261, R263, R265 to R268, R270 to R275: Sorrel answers a fork or a spawn with its child's handle or a status, a join with a
status or its report, and rev.st with what stands; an element that one side alone changed takes that side's value. The order in which
Sorrel serves the joins of one parent (each in its parent's queue, log 35), which of several statuses a spawn is answered (log 35),
and that a handle whose VALID is 0 is STALE (log 25) are the model's choices. -/
def Obligations.Revisions : Prop :=
  (∀ (q : Region) (p c a : Nat), (c = a → mergeOne q p c a = (p, false, 0)) ∧ (c ≠ a → p = a → mergeOne q p c a = (c, false, 0)) ∧
    (c ≠ a → p ≠ a → (mergeOne q p c a).2.1 = true ∧ (q.merge = 1 → (mergeOne q p c a).1 = p) ∧ (q.merge = 2 → (mergeOne q p c a).1 = c))) ∧
  (∀ (s : State) (q : UnitReq), s.theReq = some q → s.firstRevReq q = true →
    let n := q.who.chip
    let g := s.rgang n
    let F := fun (post : Option (Nat × Nat)) => s.released q.who q.cmd.po 3 = true →
      let st := forkStatus g (natFld q.cmd.rev.toNat 12 4) (post.map (·.1))
      let r := g.addChild q.cmd.rev q.cmd.ea q.cmd.eb post s.now
      (st ≠ 0 → exec .forkPerform s = .next (answerReq (if st = 4 then setEng s q.who q.cmd.inst 1 else s) q (statusWord st))) ∧
      (st = 0 → exec .forkPerform s = .next (answerReq (let s1 := s.updRgang n (fun _ => r.1); if r.2.2 then setEng s1 q.who q.cmd.inst 4 else s1) q r.2.1.handle))
    (∀ o, q.cmd.op = .fork o → F none) ∧
    (∀ o, q.cmd.op = .spawn o → F (some (natFld o.ext.imm.toNat 0 12, natFld o.ext.imm.toNat 12 7))) ∧
    (∀ o, q.cmd.op = .revSt o → exec .revStPerform s = .next (answerReq s q (revStatus s n q.cmd.ea))) ∧
    (∀ o, q.cmd.op = .join o → q.who.chip = s.sel.who.chip →
      (g.byHandle q.cmd.ea = none → exec .joinPerform s = .next (answerReq s q (statusWord (if isRoot q.cmd.ea then 6 else 5)))) ∧
      (∀ v, g.byHandle q.cmd.ea = some v →
        (v.parent ≠ natFld q.cmd.rev.toNat 0 7 → exec .joinPerform s = .next (answerReq s q (statusWord 6))) ∧
        (v.parent = natFld q.cmd.rev.toNat 0 7 → v.joining = true → exec .joinPerform s = .next (answerReq s q (statusWord 7))) ∧
        (v.parent = natFld q.cmd.rev.toNat 0 7 → v.joining = false → ∃ t, exec .joinPerform s = .next t ∧ t.mem = s.mem ∧ t.ctxs = s.ctxs ∧
          ∃ j, (t.rgang n).joins = g.joins ++ [j] ∧ j.id = q.id ∧ j.child = v.num ∧ j.parent = v.parent)))) ∧
  (∀ (s : State) (j : JoinRec) (v : Rev), let n := s.sel.who.chip; let g := s.rgang n
    s.theReq = none → g.joins.find? (fun j => j.id = s.sel.id) = some j → g.revs.find? (fun v => v.num = j.child) = some v →
    (g.joins.find? (fun k => k.parent = j.parent)).map (·.id) = some j.id → s.childDone n (s.gctxOf n) v = true → g.kids v.num = [] →
    ((∀ x ∈ g.ownGrans v.num, j.done.contains x = true) → exec .joinPerform s = .next (joinEnd s n j.id)) ∧
    (∀ x s1, (g.ownGrans v.num).find? (fun x => !j.done.contains x) = some x → s.sel.val = 0 →
      s.unitHeld (s.granLines n (s.gctxOf n) 0 (g.mergeReads v x ++ g.mergeWrites v x (g.needCount v.parent x))) = [] →
      joinGran s n (s.gctxOf n) j v x 256 = .done s1 → exec .joinPerform s = .next s1))

/-! ## Collectives, gangs and the platform (spec/13, spec/18, spec/19, spec/21, spec/22) -/

/-- R307, R311, R313 to R318: a collective leaves its queue with its contexts or a status; its flit goes to the coordinator, which
decides once it has every member's and tells one member after the other; go starts it and abort ends it with the decision's
status; its chunks leave in order and come as packets, its output is written where every page of it may be used, and its end
frees its ports and moves its counter. The order of the chunks, their number on the ring and the output that DST cuts short are
the model's choices (log 27), as is how a unit's access meets a line whose requests the slices hold (log 45). -/
def Obligations.Collectives : Prop :=
  (∀ (s : State) (k : Coll), s.theColl = some k → s.sel.val = 0 →
    let n := s.sel.who.chip
    (∀ e, (s.ctx k.who).eHead = some e → e.id = k.id → k.phase = 0 →
      let s1 := clearHead s k.who
      let ps := collPorts s n k.d
      (s.dupTag n k = true → exec .collContextTake s = .next (collDone s1 n k 6)) ∧
      (s.dupTag n k = false → s.released k.who k.cmd.po 5 = true →
        (k.bad = true → exec .collContextTake s = .next (updColl s1 n k.id (fun q => { q with phase := 1, status := 3 }))) ∧
        (k.bad = false → k.d.tree = true → exec .collContextTake s = .next (updColl s1 n k.id (fun q => { q with phase := 1 }))) ∧
        (k.bad = false → k.d.tree = false → (portsFree s n ps && !s.loses n k ps) = true →
          exec .collContextTake s = .next (takePorts (updColl s1 n k.id (fun q => { q with phase := 1, ports := ps.filterMap id })) n k ps)) ∧
        (k.bad = false → k.d.tree = false → (portsFree s n ps && !s.loses n k ps) = false → k.d.waitq = false →
          exec .collContextTake s = .next (updColl s1 n k.id (fun q => { q with phase := 1, status := 1 }))))) ∧
    (∀ m v r, k.phase ≠ 1 → k.tell = (m, v) :: r → s.mayRequest k.who.coreId 1 = true → exec .collStartFlit s = .next (collSend
      (updColl s n k.id (fun q => { q with tell := r })) k m (.flit k.tag (if v = 0 then 1 else 2) m v 0) flitFlow id)) ∧
    (k.phase = 1 → s.mayRequest k.who.coreId 1 = true → (k.mesh (s.nchipsOf n)).contains k.member = false → exec .collStartFlit s =
      .next (updColl (updColl s n k.id (fun q => { q with phase := 2 })) n k.id (fun q => { q with decision := some 3 }))) ∧
    (k.phase = 1 → s.mayRequest k.who.coreId 1 = true → (k.mesh (s.nchipsOf n)).contains k.member = true → s.poolIdle → ∃ t, exec .collStartFlit s = .next t ∧ t.mem = s.mem ∧
      ∃ p ∈ t.pkts, p.id = s.nextId ∧ p.who = k.who ∧ p.dst = s.memberOfWho k.who k.d.mbase ∧ p.flow = flitFlow ∧ p.crit = true ∧
        p.op = .flit k.tag 0 k.member k.status k.crc) ∧
    (k.phase = 2 → k.decision = some 0 → s.rangeMeets k.who.chip k.gctx (k.readAt 0) (k.count 0 * k.d.esz) (decide (2 ^ 20 ≤ k.told)) = none →
      s.unitHeld (s.vaLines k.who.chip k.gctx (k.readAt 0) (k.count 0 * k.d.esz)) = [] → exec .collGo s = .next (readInput (updColl s k.who.chip k.id (fun q => { q with phase := 3 })) { k with phase := 3 } 0 [])) ∧
    (∀ v, k.phase = 2 → k.decision = some v → v ≠ 0 → exec .collAbort s = .next (collDone s n k v)) ∧
    (∀ st i out, (plan k.d)[k.step]? = some st → k.outs.find? (fun o => o.1 = k.step) = some (i, out) → k.phase = 3 → s.peerGone k = false →
      let h := k.d.holdsAt k.step
      let next := (stepCuts k.d (stepBlocks k.d (k.key k.step) st h k.me))[k.sub]?
      let got := k.got.get k.step 0
      (∀ c, next = some c → stepNeeds k.d (k.key k.step) st h k.me c.block ≤ got → s.mayRequest k.who.coreId (packetsOf c.len) = true →
        exec .collChunk s = .next (sendChunk s k st k.sub c)) ∧
      (next = none → stepComes k.d (k.key k.step) st h k.me (fun _ _ => true) ≤ got →
        s.rangeMeets k.who.chip k.gctx k.d.dst k.output.length (decide (2 ^ 20 ≤ k.told)) = none →
        s.rangeClean k.who.chip k.gctx k.d.dst k.output.length = none → s.unitHeld (s.vaLines k.who.chip k.gctx k.d.dst k.output.length) = [] → exec .collChunk s = .next (readInput ((vaWrite s k.who.chip k.gctx k.who k.d.dst k.output).updCtx k.who (fun c =>
          c.setFlags (s.clkOf k.who) 0 out.2)) k (k.step + 1) (out.1.map (·.2))))) ∧
    (s.peerGone k = true → 1 ≤ k.phase → k.tell = [] → (k.decision = none ∨ k.decision = some 0) → ∃ b : List (Byte × Bool), b.length = k.d.bytes k.d.dlay ∧
      exec .collComplete s = .next (collDone (if k.phase = 3 then vaWrite s k.who.chip k.gctx k.who k.d.dst b else s) k.who.chip k 5)) ∧
    (s.peerGone k = false → k.phase = 3 → k.step = (plan k.d).length → k.owed = 0 → plan k.d ≠ [] →
      exec .collComplete s = .next (collDone s k.who.chip k (if (k.ins.get k.step []).any (·.2) then 2 else 0))) ∧
    (let b := elemBytes k.d ((k.ins.get 0 []).map (·.1)) (k.inBad.get 0 [])
     s.peerGone k = false → k.phase = 3 → k.step = 0 → k.owed = 0 → plan k.d = [] →
      s.rangeMeets k.who.chip k.gctx k.d.dst b.length (decide (2 ^ 20 ≤ k.told)) = none → s.rangeClean k.who.chip k.gctx k.d.dst b.length = none →
      s.unitHeld (s.vaLines k.who.chip k.gctx k.d.dst b.length) = [] →
      exec .collComplete s = .next (collDone (vaWrite s k.who.chip k.gctx k.who k.d.dst b) k.who.chip k 0))) ∧
  (∀ (gone : Bool) (l : List (Nat × BitVec 32)),
    (decide_ gone l = 0 ↔ gone = false ∧ (∀ a ∈ l, ∀ b ∈ l, a.2 = b.2) ∧ ∀ a ∈ l, a.1 ≠ 3 ∧ a.1 ≠ 1) ∧ (gone = true → decide_ gone l = 5)) ∧
  (∀ (s : State) (p : Pkt), s.theColl = none → s.thePkt = some p → s.mayPerform p = true →
    (∀ tag m st crc, p.op = .flit tag 0 m st crc → exec .collStartFlit s = .next (collDecide (answer
      (s.updChip p.dst (fun c => { c with flits := c.flits ++ [(p.gctx, tag, m, st, crc)] })) p) p.dst p.gctx tag)) ∧
    (∀ tag m st crc k, p.op = .flit tag 1 m st crc → s.taggedColl p.dst p.gctx tag = some k →
      exec .collGo s = .next (answer (updColl s p.dst k.id (fun q => { q with decision := some 0 })) p)) ∧
    (∀ tag m v crc k, p.op = .flit tag 2 m v crc → s.taggedColl p.dst p.gctx tag = some k →
      exec .collAbort s = .next (answer (collDone s p.dst k v) p)) ∧
    (∀ tag step n, p.op = .chunk tag step n → exec .collChunk s = .next (answer (chunkComes s p tag step) p)))

/-- R404 to R409, R425: the period at the watermark is marked, its lines may show errors as they are read, then it moves, the watermark
going down until the stack leaves the map; each line that could not be corrected is counted and lost no more than once. That the
period is marked in one step and moved whole in another, where R408 has a wait for the requests accepted before, is the model's
reading (log 33); each second the policy may ask for the stack whose counts call for it, and a request refused for room is tried
again. -/
def Obligations.Retirement : Prop :=
  ∀ s : State, let n := s.sel.who.chip
    let m := (s.chip n).mig
    (m.active = true → m.marked = false → exec .periodMark s = .next (s.updChip n (fun c => { c with mig := { c.mig with marked := true } }))) ∧
    (let lo := hbmKey n (m.wm * periodBytes)
     let lost := s.uncorr.filter (fun k => decide (lo ≤ k ∧ k < lo + periodBytes))
     m.active = true → m.marked = true → s.sel.val = 0 → ∃ t, exec .periodDrained s = .next t ∧ t.mem = s.mem ∧
      (t.chip n).mig.last = m.last + BitVec.ofNat 32 lost.length ∧ (∀ k ∈ lost, t.uncorr.contains k = false) ∧
      (0 < m.wm → (t.chip n).mig.wm = m.wm - 1 ∧ (t.chip n).mig.marked = false ∧ (t.chip n).mig.active = true ∧ (t.chip n).mig.mask = m.mask) ∧
      (m.wm = 0 → (t.chip n).mig.active = false ∧ (t.chip n).mig.wmValid = false ∧ (t.chip n).mig.mask = m.newMask)) ∧
    (m.active = true → m.marked = true → ∀ i < periodBytes / 128, s.sel.val = BitVec.ofNat 64 (i + 1) → ∃ t, exec .periodDrained s = .next t ∧
      t.mem = s.mem ∧ t.poison = s.poison ∧ t.uncorr.contains (hbmKey n (m.wm * periodBytes + i * 128)) = true ∧ (t.chip n).mig = m) ∧
    ((s.chip n).polClk + secCycles ≤ s.now → ∃ t, exec .policyEvaluation s = .next t ∧ t.mem = s.mem ∧ t.ctxs = s.ctxs ∧
      (t.chip n).polClk = (s.chip n).polClk + secCycles ∧ (s.worstStack n = none → (t.chip n).mig.request = none)) ∧
    (∀ i, m.request = some i → (s.chip n).fwClk + secCycles / 10 ≤ s.now → exec .firmwareRetireRetry s = .next (askRetire s n i)) ∧
    (∀ i, s.migCheck n i = 0 → let t := askRetire s n i
      (t.chip n).mig.active = true ∧ (t.chip n).mig.stack = i ∧ (t.chip n).mig.phase = m.phase + 1 ∧ (t.chip n).mig.request = none)

/-- R375 to R379: a slot ends at its boundary and the next begins, at the last one of a frame with the staged column and at the
first one with the pod time base, whose epoch it then takes (the model's reading, log 31); the master hears of an ended frame's
run cycles, cells and length, and sends changes of slot lengths, which a column that adjusts takes. -/
def Obligations.Almanac : Prop :=
  (∀ s : State, let n := s.sel.who.chip
    let a := (s.chip n).alm
    let b := a.advance ((s.podBase n).getD ⟨0, 0⟩)
    (a.run = true → (a.begun = true → a.due ≤ s.now) → (a.begun = false → s.podBase n ≠ none) → ∃ t, exec .slotBoundary s = .next t ∧
      t.ctxs = s.ctxs ∧ (t.chip n).alm.idx = b.idx ∧ (t.chip n).alm.epoch = b.epoch ∧ (t.chip n).alm.cells = b.cells ∧ (t.chip n).alm.due = b.due) ∧
    (a.ended = true → ∃ t, exec .frameEndReport s = .next t ∧ t.mem = s.mem ∧ t.ctxs = s.ctxs ∧ (t.chip n).alm.ended = false ∧
      (∀ m, s.masterChip = some m → m = n → ∃ cells, t.votes = s.votes ++ [(n, .report n a.lastRun cells
        ((upTo (a.lastN + 1)).foldl (fun k i => k + a.lastLens.get i 1 * msCycles) 0))]) ∧
      (s.masterChip = none → t = s.updChip n (fun c => { c with alm := { c.alm with ended := false } }))) ∧
    (∀ d s1, takeMsg s n VoteMsg.isDeltas = some (.deltas d, s1) →
      exec .almanacDeltas s = .next (s1.updChip n (fun c => { c with alm := { c.alm with deltas := if c.alm.adj then c.alm.deltas ++ [(2, d)] else c.alm.deltas } }))) ∧
    (takeMsg s n VoteMsg.isDeltas = none → ∀ ch run cells frame s1, takeMsg s n VoteMsg.isReport = some (.report ch run cells frame, s1) →
      exec .almanacDeltas s = .next (s1.updChip n (fun c => { c with alm := { c.alm with reports := c.alm.reports ++ [(ch, run, cells, frame)] } }))) ∧
    (takeMsg s n VoteMsg.isDeltas = none → takeMsg s n VoteMsg.isReport = none → a.master = true → a.reports ≠ [] →
      (∀ c ∈ s.columns, a.reports.any (fun r => r.1 = c) = true) →
      exec .almanacDeltas s = .next (postAll (s.updChip n (fun c => { c with alm := { c.alm with reports := [] } })) n s.columns (.deltas (deltasOf a (s.tenants n)))))) ∧
  (∀ (a : Alm) (p : Base), let b := a.advance p
    (a.begun = false → b.begun = true ∧ b.idx = 0 ∧ b.epoch = p.epoch ∧ b.due = p.clk + b.len 0 * msCycles) ∧
    (a.begun = true → a.idx < a.nslots → b.idx = a.idx + 1 ∧ b.epoch = a.epoch ∧ b.cells = a.cells ∧ b.due = a.due + b.len b.idx * msCycles) ∧
    (a.begun = true → a.nslots ≤ a.idx → b.idx = 0 ∧ b.epoch = a.epoch + 1 ∧ b.ended = true ∧ b.lastRun = a.runCyc ∧ b.lastCells = a.cells ∧
      b.lastN = a.nslots ∧ b.due = a.due + b.len 0 * msCycles ∧ b.cells = a.stagedCells.foldl (fun m q => m.set q.1 q.2) a.cells))

/-- R379 to R387, R393: PREPARE is answered by REFUSE, an empty ACK, or a stop of the member's contexts; drained counts or every ACK at the
timeout give COMMIT, a refusal or a missing ACK ABORT; a member switches out or goes on; READY from all gives GO, anything else
HALT, and GO starts or resumes the gang it was answered for. That the first message of a kind is the one taken (log 37), that an
answer to a start waits for the coordinator's own boundary (log 6) and that the saves wait for their dirty records and for a
period that moves are the model's choices. -/
def Obligations.Votes : Prop :=
  ∀ (s : State), let n := s.sel.who.chip
    let v := (s.chip n).vote
    (∀ g e i s1, takeMsg s n VoteMsg.isPrepare = some (.prepare g e i, s1) → exec .prepare s = .next (prepare s1 n g e i)) ∧
    (∀ g e i, (s.refusal n g e i ≠ 0 → ∃ u, prepare s n g e i = post u n (s.coordOf n g) (.refuse g e i (s.gcMember n g) (s.refusal n g e i)) ∧
          u = s.updGang n g (fun k => { k with lreason := BitVec.ofNat 4 (s.refusal n g e i) })) ∧
      (s.refusal n g e i = 0 → (s.chip n).running ≠ some g → prepare s n g e i = post s n (s.coordOf n g) (.ack g e i (s.gcMember n g) [] [])) ∧
      (s.refusal n g e i = 0 → (s.chip n).running = some g → ((prepare s n g e i).chip n).vote.member = some g)) ∧
    (∀ g e i m sc rc s1, takeMsg s n VoteMsg.isAck = some (.ack g e i m sc rc, s1) →
      (v.opened g e i = false → exec .ack s = .next s1) ∧
      (v.opened g e i = true → let l := v.acks.filter (fun a => a.1 ≠ m) ++ [(m, sc, rc)]; let s2 := s1.updVote n (fun v => { v with acks := l })
        (drained (s.gcNchips n g) l = true → exec .ack s = .next (closeVote s2 n g (.commit g e i))) ∧
        (drained (s.gcNchips n g) l = false → exec .ack s = .next s2))) ∧
    (∀ k (l : List (Nat × AMap Nat Nat × AMap Nat Nat)), drained k l = true → ∀ m < k, ∀ p < k, ∃ a ∈ l, ∃ b ∈ l, a.1 = m ∧ b.1 = p ∧ a.2.1.get p 0 = b.2.2.get m 0) ∧
    (∀ g, v.member = some g → v.acked = true → v.ackClk + 700 ≤ s.cycNow n → (v.lastS ≠ (s.gang n g).sCnt ∨ v.lastR ≠ (s.gang n g).rCnt) →
      exec .ackResend s = .next (post (s.updVote n (fun v => { v with ackClk := s.cycNow n, lastS := (s.gang n g).sCnt, lastR := (s.gang n g).rCnt })) n (s.coordOf n g)
        (.ack g v.epoch v.slotIdx (s.gcMember n g) (s.gang n g).sCnt (s.gang n g).rCnt))) ∧
    (∀ g e i m r s1, takeMsg s n VoteMsg.isRefuse = some (.refuse g e i m r, s1) → let s2 := s1.updGang n g (fun k => { k with lreason := BitVec.ofNat 4 r })
      (v.opened g e i = false → exec .refuse s = .next s2) ∧ (v.opened g e i = true → exec .refuse s = .next (closeVote s2 n g (.abort g e i 2)))) ∧
    (∀ g, v.coord = some g → v.prepClk + 14000 ≤ s.cycNow n → exec .voteTimeout s = .next (closeVote s n g
      (if (upTo (s.gcNchips n g)).all (fun m => v.acks.any (fun a => a.1 = m)) then .commit g v.cEpoch v.cSlot else .abort g v.cEpoch v.cSlot 3))) ∧
    (∀ g e i s1, takeMsg s n VoteMsg.isCommit = some (.commit g e i, s1) →
      (v.member ≠ some g → (s.chip n).running = some g → exec .commit s = .next s1) ∧
      ((s.chip n).running ≠ some g → exec .commit s = .next (s1.updGang n g (fun k => { k with lout := 1 }))) ∧
      (v.member = some g → (s.chip n).running = some g → s.settled n g = true → s.savePage n = none →
        s.unitHeld ((s.ctxsOf n).flatMap (fun w => (s.areaLines n g w).map (fun a => (n, a)))) = [] →
        exec .commit s = .next (startIncoming (switchOut s1 n g) n false))) ∧
    (∀ g e i why s1, takeMsg s n VoteMsg.isAbort = some (.abort g e i why, s1) → ∃ t, exec .abort s = .next t ∧ t.mem = s.mem ∧ t.ctxs = s.ctxs ∧
      (t.chip n).running = (s.chip n).running ∧ (t.gang n g).lout = BitVec.ofNat 8 why ∧
      (t.gang n g).aborts = (if (s.gang n g).aborts = 0xFFFF then 0xFFFF else (s.gang n g).aborts + 1) ∧
      (v.member = some g → (t.chip n).vote.member = none ∧ ∀ p ∈ t.pkts, p.stage = .voteHold → p.dst = n → p.gctx ≠ g) ∧
      (v.member ≠ some g → (t.chip n).vote.member = v.member)) ∧
    (∀ g e i m s1, takeAnswer s n VoteMsg.isReady VoteMsg.bound = some (.ready g e i m, s1) →
      let l := if v.readies.contains m then v.readies else v.readies ++ [m]; let s2 := s1.updVote n (fun v => { v with readies := l })
      ((s.chip n).alm.past e i = true → exec .ready s = .next s1) ∧
      ((s.chip n).alm.past e i = false → v.starting g e i = false → exec .ready s = .next (post s1 n (s.memberChip n g m) (.halt g e i))) ∧
      ((s.chip n).alm.past e i = false → v.starting g e i = true → v.decided = true → exec .ready s = .next s1) ∧
      ((s.chip n).alm.past e i = false → v.starting g e i = true → v.decided = false →
        ((∀ k < s.gcNchips n g, k ∈ l) → exec .ready s = .next (decideStart s2 n g (.go g e i ((s.memberChips n g).any (fun c => (s.gang c g).ovf))))) ∧
        ((∃ k < s.gcNchips n g, k ∉ l) → exec .ready s = .next s2))) ∧
    (∀ g e i m s1, takeAnswer s n VoteMsg.isNotready VoteMsg.bound = some (.notready g e i m, s1) →
      exec .notready s = .next (if v.starting g e i && !v.decided then haltStart s1 n g e i else s1)) ∧
    (∀ g, v.inGang = some g → v.decided = false → v.startClk + 14000 ≤ s.cycNow n → exec .startTimeout s = .next (haltStart s n g v.inEpoch v.inSlot)) ∧
    (∀ g e i stop s1, takeMsg s n VoteMsg.isGo = some (.go g e i stop, s1) →
      (v.sentReady = some (g, e, i) → (s.chip n).running = none → (s.gang n g).ckState ≠ 1 → (s.gang n g).ckState ≠ 2 → exec .go s = .next (goNow s1 n g stop)) ∧
      (v.sentReady ≠ some (g, e, i) → exec .go s = .next s1)) ∧
    (∀ g e i s1, takeMsg s n VoteMsg.isHalt = some (.halt g e i, s1) → ∃ t, exec .voteHalt s = .next t ∧ t.mem = s.mem ∧ t.ctxs = s.ctxs ∧
      (t.chip n).running = (s.chip n).running ∧ (t.chip n).vote.sentReady = (if v.sentReady = some (g, e, i) then none else v.sentReady))

/-- R384, R386, R388, R389, R392, R393: GO makes the gang the chip's; a unit that something touches is spilled to its owner's block and
filled from its gang's, and contexts frozen for it resume; a function's reset discards its gangs, and a peer's reset answers
what was sent to it. -/
def Obligations.SwitchesAndResets : Prop :=
  ∀ (s : State), let n := s.sel.who.chip
    (∀ g k stop, (s.gang n g).kernel = some k → ((goNow s n g stop).chip n).running = some g) ∧
    (∀ g, (s.chip n).running = some g → let c := s.sel.who.coreId; let u := s.sel.id
      s.touched c u = true → s.unitHeld (s.unitLines n (((s.core c).units.get u ⟨none, false, false⟩).owner.toList ++ [g]) c u) = [] →
      ∃ t, exec .unitFillDone s = .next t ∧ (t.core c).units.get u ⟨none, false, false⟩ = ⟨some g, false, false⟩) ∧
    (s.sel.id < 126 → (s.chip n).resetting.contains s.sel.id = false → exec .vfReset s = .next ((s.gangsOf n s.sel.id).foldl (fun s g => resetGang s n g)
      (emptyQueues (s.updChip n (fun c => { c with resetting := c.resetting ++ [s.sel.id] })) n s.sel.id))) ∧
    (∀ g, let t := resetGang s n g
      (t.chip n).running ≠ some g ∧ (t.gang n g).kernel = none ∧ (t.gang n g).loaded = false ∧ (t.gang n g).resetDone = true ∧
      (∀ p ∈ t.pkts, p.isVote = false → ¬ (p.who.chip = n ∧ p.gctx = g)) ∧
      ∀ d ∈ s.memberChips n g, d ≠ n → ∃ p ∈ t.pkts, p.op = .vote (.peerReset g (s.gcMember n g)) ∧ p.who = voteWho n ∧ p.dst = d ∧ p.stage = .router) ∧
    ((s.chip n).resetting.contains s.sel.id = true →
      exec .vfResetEnd s = .next (s.updChip n (fun c => { c with resetting := c.resetting.filter (fun v => v ≠ s.sel.id) }))) ∧
    (∀ g m s1, takeMsg s n VoteMsg.isPeerReset = some (.peerReset g m, s1) → ∃ t, exec .peerReset s = .next t ∧ t.mem = s.mem ∧ t.ctxs = s.ctxs ∧
      (t.gang n g).peersReset = (s.gang n g).peersReset ++ [m])

/-- R126, R223, R353, R357, R360, R364, R365, R368, R369: the command processor takes the next record and reports its launch, or installs it; the
reporting engine writes one record to its ring; FR_RESUME thaws a QUOTA or MERGE_LIMIT freeze; GANG_KILL stops a kernel;
a dirty record is written before its page's first write goes on. That the completion of a translation record carries the status
that xtload would give is the model's reading (log 26). -/
def Obligations.LaunchesAndReports : Prop :=
  ∀ (s : State), let n := s.sel.who.chip
    (∀ vf q b, s.nextRecord n = some (vf, q, b) →
      let s1 := takeRecord s n vf q
      (recKind b ≠ 1 → s.launchStatus n vf b = 0 → exec .launchRecord s = .next (acceptLaunch s1 n vf q b)) ∧
      (recKind b ≠ 1 → s.launchStatus n vf b ≠ 0 → s.launchStatus n vf b ≠ 7 → exec .launchRecord s = .next (failLaunch s1 n vf q b (s.launchStatus n vf b))) ∧
      (recKind b ≠ 1 → ∃ t, exec .launchRecord s = .next t) ∧
      (recKind b = 1 → s.sel.id ≠ 1 → recordBad s n vf b = true → exec .translationRecord s = .next (failLaunch s1 n vf q b 1)) ∧
      (recKind b = 1 → s.sel.id ≠ 1 → recordBad s n vf b = false → natFld (fieldAt b 40 8) 0 2 ≠ 2 →
        let r := xtApply s1 n vf (natFld (fieldAt b 40 8) 0 2) (fieldAt b 16 2) (fieldAt b 0 8) (natFld (fieldAt b 40 8) 3 19) ((fieldAt b 40 8).testBit 2)
        exec .translationRecord s = .next (xtComplete r.1 n vf q b r.2)) ∧
      (recKind b = 1 → s.sel.id ≠ 1 → ∃ t, exec .translationRecord s = .next t)) ∧
    (∀ st vf q b r, (s.chip n).xtWait = (st, vf, q, b) :: r → s.sel.id = 1 →
      s.oldBitUses n (fieldAt b 16 2) (natFld (fieldAt b 40 8) 3 19 % 4096) (natFld (natFld (fieldAt b 40 8) 3 19) 12 7) st = false →
      exec .translationRecord s = .next ((xtComplete s n vf q b 0).updChip n (fun c => { c with xtWait := r }))) ∧
    (∀ r l, s.ringRoom n 0 0x50100 = true → (s.chip n).hpending = r :: l →
      exec .faultReportWrite s = .next ((ringPut s n 0 0x50100 r.bytes).updChip n (fun c => { c with hpending := c.hpending.tail }))) ∧
    (∀ v left r, (s.chip n).hpending = [] → s.nextReporter n = some (v, left) → s.nextFault n v = some r →
      let s1 := (ringPut s n (v + 1) r.ring r.bytes).updChip n (fun c =>
        { c with pending := c.pending.set v (dropFirst r (c.pending.get v [])), repPtr := v, repLeft := left })
      exec .faultReportWrite s = .next (if r.terminal then afterTerminal s1 n v r else s1)) ∧
    (∀ g w, natFld s.sel.val.toNat 16 16 = g → whoOf n s.sel.val.toNat = w →
      (s.gcVf n g ≠ s.sel.id → exec .frResume s = .next s) ∧
      (s.gcVf n g = s.sel.id → (s.chip n).running = some g →
        exec .frResume s = .next (s.updCtx w (fun c => if c.st = .frozen && resumable c.freeze then c.thaw else c)))) ∧
    (∀ g, natFld s.sel.val.toNat 0 16 = g →
      exec .gangKill s = .next (if g < 256 && s.gcVf n g = s.sel.id then stopKernel s n g 9 else s)) ∧
    (∀ r, (s.chip n).dlogWait.find? (fun r => r.id = s.sel.id) = some r →
      (s.ringRoom n 0 (vfBlock r.vf + 0x20) = true → ((s.chip n).dlogWait.find? (fun q => q.vf = r.vf)).map (·.id) = some r.id → ∃ t, exec .dirtyLogRecord s = .next t ∧ (r.ext, r.page) ∈ (t.gang n r.gctx).dirty) ∧
      (s.ringRoom n 0 (vfBlock r.vf + 0x20) = false → r.told = false → exec .dirtyLogRecord s = .next (dirtyFull s n r))) ∧
    (s.sel.reg < 126 → s.sel.val.getLsbD 6 = true → ∃ t, exec .dlClear s = .next t ∧ t.mem = s.mem ∧ t.ctxs = s.ctxs ∧
      ∀ q ∈ (t.chip n).gangs, s.gcVf n q.1 = s.sel.reg → q.2.dirty = [])

/-- R245, R264, R297, R365, R369 to R372, R374, R378, R425: ASSIGN, FREE and QUERY report the frame's state and an error; a scrub leaves zeros; GC_CTL takes
EN only over the VF's own frames, and a write of EN ends the reset flag; S2_BASE is fixed while a table is loaded; other registers
take their writable bits; a write of a context's pool, window or retention register lands as an event. That a command of
FRAME_CMD is done and FRAME_STAT written in one step is the model's choice (log 20). -/
def Obligations.RegistersAndFrames : Prop :=
  ∀ (s : State), let n := s.sel.who.chip
    let v := s.sel.val
    let f := cmdFrame v
    (cmdOp v = 1 → exec .frameAssign s = .next (frameDone s n f (s.assignRes n f (cmdVf v)).2 (s.assignRes n f (cmdVf v)).1)) ∧
    (s.frameNow n f = .free → (f + 1) * 2 ^ 28 ≤ s.capLimit n → cmdVf v < 126 → s.assignRes n f (cmdVf v) = (0, .assigned (cmdVf v))) ∧
    (s.frameNow n f ≠ .free → s.assignRes n f (cmdVf v) = (2, s.frameNow n f)) ∧
    (cmdOp v = 2 → exec .frameFree s = .next (frameDone s n f (s.freeRes n f).2 (s.freeRes n f).1)) ∧
    (∀ w, s.frameNow n f = .assigned w → s.freeRes n f = if s.frameNamed n f then (1, .assigned w) else (0, .scrubbing)) ∧
    (cmdOp v = 3 → exec .frameQuery s = .next (frameDone s n f (s.frameNow n f) 0)) ∧
    (∀ st err, let t := frameDone s n f st err
      (t.chip n).frames.get f .free = st ∧ t.barN n 0 0x50008 = frameStat st err f % 2 ^ 64 ∧ t.mem = s.mem ∧ t.ctxs = s.ctxs) ∧
    (s.frame n s.sel.id = .scrubbing → Memory.wf s.mem = true →
      s.unitHeld (((s.chip n).mig.linesIn (s.sel.id * 2 ^ 28) (2 ^ 28)).map (fun a => (n, a))) = [] → ∃ t, exec .scrubEnd s = .next t ∧ t.frame n s.sel.id = .free ∧
      memSameBut s t (hbmKey n (s.sel.id * 2 ^ 28)) (2 ^ 28) ∧ ∀ k < 2 ^ 28, memGet t.mem (hbmKey n (s.sel.id * 2 ^ 28) + k) = 0) ∧
    (s.sel.reg < 256 → let g := s.sel.reg
      (natFld (s.gcCtl n g) 0 1 = 0 → v.getLsbD 0 = true → s.gcOwned n g (natFld v.toNat 1 7) (natFld v.toNat 18 11) = false →
        ∃ t, exec .gcCtlWrite s = .next t ∧ natFld (t.gcCtl n g) 0 1 = 0 ∧ natFld (t.gcStat n g) 0 1 = 1 ∧ natFld (t.gcStat n g) 3 1 = 0 ∧ t.mem = s.mem) ∧
      (natFld (s.gcCtl n g) 0 1 = 0 → v.getLsbD 0 = true → s.gcOwned n g (natFld v.toNat 1 7) (natFld v.toNat 18 11) = true →
        ∃ t, exec .gcCtlWrite s = .next t ∧ t.gcCtl n g = (keepBits v 0x1FFFFFFF).toNat ∧ natFld (t.gcStat n g) 0 1 = 0 ∧ natFld (t.gcStat n g) 3 1 = 0 ∧
          t.mem = s.mem) ∧
      (natFld (s.gcCtl n g) 0 1 = 1 → ∃ t, exec .gcCtlWrite s = .next t ∧ t.mem = s.mem ∧ t.ctxs = s.ctxs)) ∧
    (s.sel.reg < 126 → exec .s2BaseWrite s = .next (if s.vfLoaded n s.sel.reg then s else s.setBar n 0 (vfBlock s.sel.reg + 8) (keepBits v 0xFFFFFFF000))) ∧
    (s.sel.id = 200 → exec .registerWrite s = .next (runtimeLoad s s.sel.who s.sel.reg v)) ∧
    (s.sel.id = 0 → ownEvent 0 s.sel.reg v = false → exec .registerWrite s = .next (pfWrite s n s.sel.reg v)) ∧
    (1 ≤ s.sel.id → s.sel.id ≤ 126 → s.sel.reg < 0x240 → exec .registerWrite s = .next (s.setBar n s.sel.id s.sel.reg (ringStore (s.sel.reg % 0x20) (s.bar n s.sel.id s.sel.reg) v))) ∧
    (∀ (l : Landing) (k : BitVec 12), s.cur.flight = [l] → l.dest = .csr k → l.bound ≤ s.t →
      let t := landStatus s.sel.who (s.upd (fun c => { c with flight := [] })) l
      (0x080 ≤ k.toNat → k.toNat < 0x090 → exec .winAllowMaxWrite s = .next t) ∧ (0x070 ≤ k.toNat → k.toNat < 0x078 → exec .retwWaysWrite s = .next t) ∧
      (k = 0x04D → exec .ancPoolWrite s = .next t) ∧ (k = 0x04E → exec .ancBaseWrite s = .next t))

/-- R415 to R421, R424, R426, R427, R429 to R433: checkpoint commands, attestation, scans, sags, links, freeze, power-on and device
reset. What an IFS_CMD that names nothing to scan does and what survives POWER_ON and DEVICE_RESET (log 28), a RESTORE that may
not begin, which fails with one code or another, and one that runs in two steps (logs 3, 32), and a second ATT_CMD (log 34) are
the model's choices. -/
def Obligations.Platform : Prop :=
  ∀ (s : State), let n := s.sel.who.chip
    (ckOp s.sel.val = some 1 → s.sel.reg < 256 → exec .ckTake s = .next (s.updGang n s.sel.reg (fun k => if k.ckState = 0 then { k with ckState := 1 } else { k with ckErr := 7 }))) ∧
    ((s.gang n s.sel.id).ckState = 1 → (s.chip n).running ≠ some s.sel.id → s.unitHeld (s.ckLines n s.sel.id) = [] → ∃ t, exec .checkpointWrite s = .next t ∧ t.ctxs = s.ctxs ∧
      ((t.gang n s.sel.id).ckState = 0 ∨ ((t.gang n s.sel.id).ckState = 2 ∧ (s.chip n).hostUp.getLsbD (s.ckPort n s.sel.id ((s.gang n s.sel.id).ckGood && !(s.gang n s.sel.id).ckSlot)) = true))) ∧
    (∀ j, (s.chip n).ckJobs.find? (fun j => j.g = s.sel.id) = some j →
      (s.sel.val = 1 → exec .checkpointComplete s = .next (ckFail s n s.sel.id 2)) ∧
      (s.sel.val ≠ 1 → (s.gang n s.sel.id).ckState ≠ 3 → s.unitHeld (s.ckLines n s.sel.id) = [] → ∃ t, exec .checkpointComplete s = .next t ∧
        t.ctxs = s.ctxs ∧ (t.gang n s.sel.id).ckState = 0 ∧ ((t.gang n s.sel.id).ckErr = 2 ∨
          ((t.gang n s.sel.id).ckErr = 0 ∧ (t.gang n s.sel.id).ckGood = true ∧ (t.gang n s.sel.id).ckSlot = j.slot))) ∧
      (s.sel.val ≠ 1 → (s.gang n s.sel.id).ckState = 3 → s.mayRestore n s.sel.id = true → s.unitHeld (s.ckLines n s.sel.id) = [] →
        exec .checkpointComplete s = .next (restoreSlot s n s.sel.id j.slot)) ∧
      (s.sel.val ≠ 1 → (s.gang n s.sel.id).ckState = 3 → s.mayRestore n s.sel.id = false → ∃ v, 1 ≤ v ∧ v ≤ 7 ∧
        exec .checkpointComplete s = .next (ckFail s n s.sel.id v))) ∧
    (ckOp s.sel.val = some 2 → s.sel.reg < 256 →
      ((s.gang n s.sel.reg).ckState ≠ 0 → exec .ckRestore s = .next (s.updGang n s.sel.reg (fun k => { k with ckErr := 7 }))) ∧
      ((s.gang n s.sel.reg).ckState = 0 → s.mayRestore n s.sel.reg = false → ∃ v, 1 ≤ v ∧ v ≤ 7 ∧ exec .ckRestore s = .next (ckFail s n s.sel.reg v)) ∧
      ((s.gang n s.sel.reg).ckState = 0 → natFld (s.gcCtl n s.sel.reg) 0 1 = 1 → (s.gang n s.sel.reg).kernel.any (fun q => q.phase < 2) = false →
        ∃ t, exec .ckRestore s = .next t ∧ t.mem = s.mem ∧ t.ctxs = s.ctxs ∧ (t.gang n s.sel.reg).ckState = 3 ∧
          ∃ j ∈ (t.chip n).ckJobs, j.g = s.sel.reg ∧ j.slot = s.sel.val.getLsbD 2)) ∧
    exec .attestationRequest s = .next (s.updChip n (fun c => { c with att := some (s.sel.val.toNat / 4096 * 4096) })) ∧
    (∀ a, (s.chip n).att = some a → s.fnUp n 0 = true → let k := hostKey n (portOfFn 0) a
      exec .attestationReportWrite s = .next ((s.poke k (attReport s n (s.peek k 48))).updChip n (fun c => { c with att := none }))) ∧
    (∀ v c, s.sel.val.toNat = v → scanCore n v = c →
      ((!v.testBit 8 || (s.chip n).ifs = 1 || !s.isLogical n c.clus c.core) = true → exec .ifsScan s = .next s) ∧
      ((!v.testBit 8 || (s.chip n).ifs = 1 || !s.isLogical n c.clus c.core) = false →
        ((s.rgang n).kernel.any (fun k => k.phase = 1) && (s.chip n).running.isSome) = true → exec .ifsScan s = .next (s.updChip n (fun h => { h with ifs := 5 }))) ∧
      ((!v.testBit 8 || (s.chip n).ifs = 1 || !s.isLogical n c.clus c.core) = false →
        ((s.rgang n).kernel.any (fun k => k.phase = 1) && (s.chip n).running.isSome) = false →
        ∃ t, exec .ifsScan s = .next t ∧ (t.chip n).ifs = 1 ∧ (t.chip n).ifsCore = v % 256 ∧ (t.chip n).ifsEnd = s.cycNow n + 140000)) ∧
    ((s.chip n).ifs = 1 → (s.chip n).ifsEnd ≤ s.cycNow n → exec .ifsComplete s =
      .next (if Config.scanPass s.free then s.updChip n (fun h => { h with ifs := 2 }) else (remap s n (s.chip n).ifsCore).updChip n (fun h => { h with ifs := 3 }))) ∧
    (∃ t, exec .supplySag s = .next t ∧ t.mem = s.mem ∧ t.ctxs = s.ctxs ∧ (t.chip n).sagHalf = true ∧ (t.chip n).sagFrom = s.cycNow n ∧
      ((s.chip n).sagHalf = false → (t.chip n).sagEvents = inc32 (s.chip n).sagEvents)) ∧
    ((s.chip n).sagHalf = true → (s.chip n).sagFrom + 1400 ≤ s.cycNow n → exec .sagRecover s = .next (s.updChip n (fun c =>
      { c with sagHalf := false, sagTherm := false, lost := c.lost + (s.now - c.halfFrom) / 2 }))) ∧
    exec .hostLinkChange s = .next (setHost s n s.sel.reg (s.sel.val.getLsbD 0)) ∧
    (∃ t, exec .freeze s = .next t ∧ (t.chip n).frozen = true ∧ t.ctxs = s.ctxs ∧ ∀ q ∈ (t.chip n).ports, q.2.up = false) ∧
    (∃ t, exec .powerOn s = .next t ∧ t.mem = s.mem ∧ (t.chip n).running = none ∧ (t.chip n).gangs = [] ∧ (t.chip n).bar = [] ∧
      (t.chip n).failStep = powerStep n s.sel.val.toNat (Config.image s.sel.reg) ∧ (t.chip n).frozen = decide ((t.chip n).failStep ≠ 0) ∧
      (bootAccepts n (Config.image s.sel.reg) = false → (t.chip n).failStep = 1) ∧
      ((t.chip n).failStep = 0 → (t.chip n).mig.mask = Config.stacks n ∧ (t.chip n).hostUp = 3 ∧ (t.chip n).trust = (Config.image s.sel.reg).trust.take 16) ∧
      (∀ w, w.chip = n → t.ctx w = Ctx.reset w) ∧
      (∀ p ∈ t.pkts, p.who.chip ≠ n ∧ p.dst ≠ n) ∧ ∀ x ∈ t.wires, x.who.chip ≠ n ∧ x.dst ≠ n) ∧
    (∃ t, exec .deviceReset s = .next t ∧ t.mem = s.mem ∧ (t.chip n).running = none ∧ (t.chip n).gangs = [] ∧ (t.chip n).bar = [] ∧
      (t.chip n).mig.mask = (s.chip n).mig.mask ∧ (∀ w, w.chip = n → t.ctx w = Ctx.reset w) ∧
      (∀ p ∈ t.pkts, p.who.chip ≠ n ∧ p.dst ≠ n) ∧ ∀ x ∈ t.wires, x.who.chip ≠ n ∧ x.dst ≠ n)

/-! ## Every operation: guards, frames, reset, invariant and encodings (spec/00, spec/01, spec/03, spec/22) -/

/-- R14: an operation whose guard is false has no effect, whatever slot it stands in. -/
def Obligations.GuardOff : Prop :=
  ∀ (i : Instr) (sl : Slot) (g : Guard) (s : State), slotGuard i = some (sl, g) → s.guard sl g = false → exec i s = .next s

/-- R30, R113 to R118: an operation of fixed latency changes nothing but the results its context has in flight, a transfer besides
them only the next bundle: no register, flag, special register, memory byte or other context at issue. call is a transfer that also
brings the landing of earlier writes of a31 forward (R114). All of them always complete. -/
def Obligations.FixedLatencyFrame : Prop :=
  (∀ (i : Instr) (s : State), landsOnly i = true → ∃ t, exec i s = .next t ∧ onlyFlight s t) ∧
  (∀ (i : Instr) (s : State), transfersOnly i = true → ∃ t, exec i s = .next t ∧ onlyFlightAndNext s t) ∧
  (∀ (o : SB) (s : State), ∃ t, exec (.call o) s = .next t ∧ onlyCtx s.sel.who s t ∧
    t.cur = { s.cur with flight := t.cur.flight, next := t.cur.next } ∧ ∀ l ∈ s.cur.flight, l.dest ≠ .a 31 → l ∈ t.cur.flight)

/-- R55, R126 to R128: no operation that a user-mode context issues leaves it in supervisor mode, unless a trap has taken it to
the address of TVEC, old or new while a csrw of it is in flight (R133). -/
def Obligations.UserModeHolds : Prop :=
  ∀ (i : Instr) (s t : State), (slotGuard i).isSome = true → s.cur.csr.mode = false → exec i s = .next t →
    t.cur.csr.mode = false ∨ (t.cur.trap.valid = true ∧ t.cur.csr.pmode = false ∧ t.cur.pc = s.cur.tvecAt s.t s.free &&& ~~~3#64)

/-- R77, R80, R128, R129, R186, R194, R213, R216, R225, R242, R246, R287, R297 (tables of the registers): the values that special-purpose
registers hold at reset, in every context of the pod. That general registers hold 0 and that contexts are Halted
is this model's choice (log 1). -/
def Obligations.ResetState : Prop :=
  State.reset.Inv ∧ ∀ w : Who, let s : State := { State.reset with sel := { State.reset.sel with who := w } }
    s.cur.st = .halted ∧ s.cur.regs = Regs.zero ∧ s.cur.csr.mode = false ∧ s.cur.flight = [] ∧ s.cur.inSeg = false ∧
    (∀ k ∈ [0x000, 0x001, 0x003, 0x004, 0x005, 0x006, 0x007, 0x008, 0x040, 0x042, 0x043, 0x044, 0x04B, 0x078, 0x079, 0x07A, 0x090, 0x091, 0x092, 0x093],
      s.csrRead (BitVec.ofNat 12 k) = 0) ∧
    s.csrRead 0x002 = 0xFFF ∧ s.csrRead 0x041 = 0xFFFFFFFF ∧ s.csrRead 0x048 = 0xFFFFFFFF00000000 ∧ s.csrRead 0x04C = 0x8000000000000000 ∧
    ∀ k < 16, s.csrRead (BitVec.ofNat 12 (0x050 + k)) = 0 ∧ s.csrRead (BitVec.ofNat 12 (0x060 + k)) = 0 ∧
      s.csrRead (BitVec.ofNat 12 (0x080 + k)) = 0x200020

/-- Every step keeps memory in its canonical form: keys rise and no entry equals what an unlisted byte reads as. It holds at
reset (ResetState) and in every state this states it of, reached or not. -/
def Obligations.StepKeepsInv : Prop :=
  ∀ s t : State, s.Inv → step s = .next t → t.Inv

/-- R39 to R56: decoding gives back every well-formed slot operation from its words, every operand at every value the
encoding has; a step or event of the device has no encoding. -/
def Obligations.DecodeEncode : Prop :=
  ∀ i : Instr,
    (∀ sl, i.wf = true → slotOf i = some sl → ∃ w x, encode i = some (w, x) ∧ decodeSlot sl w x = .ok i) ∧
    (slotOf i = none → encode i = none)

/-- Words written out from the encoding tables (R39 to R54, R112): every layout, with and without its second syllable where it has
one, and the instruction that the word stands for. -/
def Obligations.DecodeWords : Prop :=
  let t : Guard := ⟨0, false⟩
  -- SR, SI, SL, SC, SP
  decodeSlot .s0 0x00718440 none = .ok (.add ⟨.s0, ⟨3, true⟩, 3, 1, 2, 0⟩) ∧
  decodeSlot .s0 0xD2000800 (some 0x10) = .ok (.csrw ⟨.s0, t, 0, 2, 0, 0, 0x10⟩) ∧
  decodeSlot .s1 0x204217FF none = .ok (.addi ⟨.s1, ⟨2, false⟩, 4, 5, .short 0x3FF⟩) ∧
  decodeSlot .s0 0xA2021400 (some 0xDEADBEEF) = .ok (.ori ⟨.s0, t, 4, 5, .long 0xDEADBEEF⟩) ∧
  decodeSlot .s0 0x2703C000 none = .ok (.li ⟨.s0, t, 7, .short 0x4000⟩) ∧
  decodeSlot .s0 0x30061140 none = .ok (.cmp ⟨.s0, t, 3, 1, .reg 2, 4⟩) ∧
  decodeSlot .s0 0xB0061010 (some 0xFFFFFFFE) = .ok (.cmp ⟨.s0, t, 3, 1, .imm 0xFFFFFFFE, 1⟩) ∧
  decodeSlot .s1 0x310C0400 none = .ok (.pset ⟨.s1, t, 6, 0, 0, true⟩) ∧
  decodeSlot .s1 0x32029800 none = .ok (.pand ⟨.s1, t, 1, 2, 3, false⟩) ∧
  -- SB, SBC, SLP, SX
  decodeSlot .s0 0x400FFFFC none = .ok (.br ⟨.s0, t, .short 0xFFFFC⟩) ∧
  decodeSlot .s0 0xC2000000 (some 0x12345) = .ok (.call ⟨.s0, t, .long 0x12345⟩) ∧
  decodeSlot .s0 0x4105FFF0 none = .ok (.bc ⟨.s0, t, 2, true, .short 0xFFF0⟩) ∧
  decodeSlot .s0 0x45027FF0 none = .ok (.loop ⟨.s0, t, 1, 1, 0x3FF0⟩) ∧
  decodeSlot .s0 0x46042001 none = .ok (.lbrk ⟨.s0, t, 2, 0, 0x2001⟩) ∧
  decodeSlot .s0 0x43000000 none = .ok (.ret ⟨.s0, t⟩) ∧
  decodeSlot .s0 0x44002400 none = .ok (.jr ⟨.s0, t, 9⟩) ∧
  decodeSlot .s1 0x470AC000 none = .ok (.rrbSet ⟨.s1, t, 5, 6⟩) ∧
  decodeSlot .s0 0x4B010001 none = .ok (.wait ⟨.s0, t, 1, 1⟩) ∧
  decodeSlot .s0 0x4B028C00 none = .ok (.waitReg ⟨.s0, t, 2, 3⟩) ∧
  decodeSlot .s0 0x4D0ABCDE none = .ok (.trap ⟨.s0, t, 0xABCDE⟩) ∧
  decodeSlot .s0 0x4E000001 none = .ok (.rfe ⟨.s0, t, true⟩) ∧
  -- the vector class, FA, FC
  decodeSlot .v0 0x800514C7 (some 0x70000000) = .ok (.vadd ⟨.v0, t, 1, 2, 5, 6, 7, some ⟨7, 0, 0, 0, 0⟩⟩) ∧
  decodeSlot .f 0x0004C400 none = .ok (.sfrcp ⟨t, 1, 3, 1, 0, 0, 0⟩) ∧
  decodeSlot .f 0x10094D20 none = .ok (.sfcp ⟨t, 2, 5, 3, 9⟩) ∧
  -- DA, DT, DM, DF, DL, DW
  decodeSlot .d0 0x80012A21 (some 2) = .ok (.ldv ⟨.d0, t, 1, 2, 20, 1, 1, some ⟨0, 0, 0, false, false, 0, 2⟩⟩) ∧
  decodeSlot .d1 0x88034500 (some 0x556247FF) = .ok (.ldt ⟨.d1, t, 3, 17, 4, some ⟨5, 1, 2, true, true, 0x123, 0x1FF⟩⟩) ∧
  decodeSlot .d0 0x1802031D none = .ok (.aadd ⟨.d0, t, 2, 0, 6, 7, 1, none⟩) ∧
  decodeSlot .d0 0xA102131C (some 0x0E000090) = .ok (.acas ⟨.d0, t, 2, 1, 6, 7, 0, some ⟨0, 3, 4, false, false, 0, 0x90⟩⟩) ∧
  decodeSlot .d1 0x28070000 none = .ok (.fence ⟨.d1, t, 3, 2⟩) ∧
  decodeSlot .d0 0x29012600 none = .ok (.l2pin ⟨.d0, t, 1, 2, 3⟩) ∧
  decodeSlot .d0 0x2C090000 none = .ok (.wwait ⟨.d0, t, 9⟩) ∧
  -- M
  decodeSlot .m 0x000B0000 none = .ok (.mzero ⟨t, 11, 0, 0, 0⟩) ∧
  decodeSlot .m 0x01009C00 none = .ok (.mlat ⟨t, 0, 2, 7, 0⟩) ∧
  decodeSlot .m 0x02038428 none = .ok (.mma ⟨t, 3, 2, 1, 5⟩) ∧
  decodeSlot .m 0x03035FF8 none = .ok (.mter ⟨t, 3, 1, 7, 127⟩) ∧
  decodeSlot .m 0x84020460 (some 0x2A000000) = .ok (.mdrain ⟨t, 2, 0, 1, 6, 0, some ⟨1, 2, true⟩⟩) ∧
  decodeSlot .m 0x050414C0 none = .ok (.maccLd ⟨t, 4, 0, 5, 12⟩) ∧
  decodeSlot .m 0x860BEEF0 (some 0x12345678) = .ok (.mkat ⟨t, 0xBEEF, 0x12345678⟩) ∧
  decodeSlot .m 0x07060084 none = .ok (.mchk ⟨t, 6, 0, 0, 0x21⟩) ∧
  -- K, E
  decodeSlot .k 0x00042123 none = .ok (.kld ⟨t, 2, 1, 0x123⟩) ∧
  decodeSlot .k 0x81060000 (some 0x3F800000) = .ok (.kset ⟨t, 3, 0, 0x3F800000⟩) ∧
  decodeSlot .k 0x02034000 none = .ok (.kmov ⟨t, 1, 5⟩) ∧
  decodeSlot .e 0x89072900 (some 0x2011) = .ok (.spawn ⟨t, 3, 4, 5, 2, 0, some ⟨0, false, 0x2011⟩⟩) ∧
  decodeSlot .e 0x91000092 (some 0x0C880006) = .ok (.slk ⟨t, 0, 0, 0, 1, 0x12, some ⟨0xC8, true, 6⟩⟩)
end

