-- ==== Sys2Proof/Laws/State.lean ====
section
/-! SUPPORT. Sys2Proof/Laws/State.lean: one lemma per field per update of the state, and the laws of keyed maps. -/

namespace Sys2Proof

/-- Reading a key just written. -/
@[simp] theorem AMap.get_set_same {κ α : Type} [DecidableEq κ] (m : AMap κ α) (k : κ) (v d : α) : (m.set k v).get k d = v := by
  induction m with
  | nil => simp [AMap.set, AMap.get]
  | cons p r ih =>
    obtain ⟨k', v'⟩ := p
    by_cases h : k' = k <;> simp [AMap.set, AMap.get, h]
    exact ih

/-- Reading another key. -/
theorem AMap.get_set_other {κ α : Type} [DecidableEq κ] (m : AMap κ α) (k j : κ) (v d : α) (h : j ≠ k) :
    (m.set k v).get j d = m.get j d := by
  induction m with
  | nil => simp [AMap.set, AMap.get, Ne.symm h]
  | cons p r ih =>
    obtain ⟨k', v'⟩ := p
    by_cases h1 : k' = k
    · subst h1; simp [AMap.set, AMap.get, Ne.symm h]
    · simp only [AMap.set, h1, if_false, AMap.get]; rw [ih]

/-- Reading any key of a map with one written. -/
theorem AMap.get_set {κ α : Type} [DecidableEq κ] (m : AMap κ α) (k j : κ) (v d : α) :
    (m.set k v).get j d = if j = k then v else m.get j d := by
  by_cases h : j = k
  · subst h; simp
  · rw [AMap.get_set_other m k j v d h, if_neg h]

/-- Reading a key that has been removed. -/
@[simp] theorem AMap.get_del_same {κ α : Type} [DecidableEq κ] (m : AMap κ α) (k : κ) (d : α) : (m.del k).get k d = d := by
  induction m with
  | nil => rfl
  | cons p r ih =>
    obtain ⟨k', v'⟩ := p
    by_cases h : k' = k
    · simp only [AMap.del, h, if_true]; exact ih
    · simp only [AMap.del, h, if_false, AMap.get]; exact ih

/-- Writing a key twice. -/
@[simp] theorem AMap.set_set {κ α : Type} [DecidableEq κ] (m : AMap κ α) (k : κ) (v v' : α) : (m.set k v).set k v' = m.set k v' := by
  induction m with
  | nil => simp [AMap.set]
  | cons p r ih =>
    obtain ⟨k', x⟩ := p
    by_cases h : k' = k
    · simp [AMap.set, h]
    · simp only [AMap.set, h, if_false]; rw [ih]

namespace Machine

/-! ### setCtx -/

@[simp] theorem State.setCtx_cores (s : State) (w : Who) (c : Ctx) : (s.setCtx w c).cores = s.cores := rfl
@[simp] theorem State.setCtx_chips (s : State) (w : Who) (c : Ctx) : (s.setCtx w c).chips = s.chips := rfl
@[simp] theorem State.setCtx_nchips (s : State) (w : Who) (c : Ctx) : (s.setCtx w c).nchips = s.nchips := rfl
@[simp] theorem State.setCtx_mem (s : State) (w : Who) (c : Ctx) : (s.setCtx w c).mem = s.mem := rfl
@[simp] theorem State.setCtx_poison (s : State) (w : Who) (c : Ctx) : (s.setCtx w c).poison = s.poison := rfl
@[simp] theorem State.setCtx_uncorr (s : State) (w : Who) (c : Ctx) : (s.setCtx w c).uncorr = s.uncorr := rfl
@[simp] theorem State.setCtx_sunk (s : State) (w : Who) (c : Ctx) : (s.setCtx w c).sunk = s.sunk := rfl
@[simp] theorem State.setCtx_pkts (s : State) (w : Who) (c : Ctx) : (s.setCtx w c).pkts = s.pkts := rfl
@[simp] theorem State.setCtx_xfers (s : State) (w : Who) (c : Ctx) : (s.setCtx w c).xfers = s.xfers := rfl
@[simp] theorem State.setCtx_reqs (s : State) (w : Who) (c : Ctx) : (s.setCtx w c).reqs = s.reqs := rfl
@[simp] theorem State.setCtx_votes (s : State) (w : Who) (c : Ctx) : (s.setCtx w c).votes = s.votes := rfl
@[simp] theorem State.setCtx_snaps (s : State) (w : Who) (c : Ctx) : (s.setCtx w c).snaps = s.snaps := rfl
@[simp] theorem State.setCtx_nextId (s : State) (w : Who) (c : Ctx) : (s.setCtx w c).nextId = s.nextId := rfl
@[simp] theorem State.setCtx_free (s : State) (w : Who) (c : Ctx) : (s.setCtx w c).free = s.free := rfl
@[simp] theorem State.setCtx_choices (s : State) (w : Who) (c : Ctx) : (s.setCtx w c).choices = s.choices := rfl
@[simp] theorem State.setCtx_inputs (s : State) (w : Who) (c : Ctx) : (s.setCtx w c).inputs = s.inputs := rfl
@[simp] theorem State.setCtx_sel (s : State) (w : Who) (c : Ctx) : (s.setCtx w c).sel = s.sel := rfl
@[simp] theorem State.setCtx_now (s : State) (w : Who) (c : Ctx) : (s.setCtx w c).now = s.now := rfl

/-! ### updCtx -/

@[simp] theorem State.updCtx_cores (s : State) (w : Who) (f : Ctx → Ctx) : (s.updCtx w f).cores = s.cores := rfl
@[simp] theorem State.updCtx_chips (s : State) (w : Who) (f : Ctx → Ctx) : (s.updCtx w f).chips = s.chips := rfl
@[simp] theorem State.updCtx_nchips (s : State) (w : Who) (f : Ctx → Ctx) : (s.updCtx w f).nchips = s.nchips := rfl
@[simp] theorem State.updCtx_mem (s : State) (w : Who) (f : Ctx → Ctx) : (s.updCtx w f).mem = s.mem := rfl
@[simp] theorem State.updCtx_poison (s : State) (w : Who) (f : Ctx → Ctx) : (s.updCtx w f).poison = s.poison := rfl
@[simp] theorem State.updCtx_uncorr (s : State) (w : Who) (f : Ctx → Ctx) : (s.updCtx w f).uncorr = s.uncorr := rfl
@[simp] theorem State.updCtx_sunk (s : State) (w : Who) (f : Ctx → Ctx) : (s.updCtx w f).sunk = s.sunk := rfl
@[simp] theorem State.updCtx_pkts (s : State) (w : Who) (f : Ctx → Ctx) : (s.updCtx w f).pkts = s.pkts := rfl
@[simp] theorem State.updCtx_xfers (s : State) (w : Who) (f : Ctx → Ctx) : (s.updCtx w f).xfers = s.xfers := rfl
@[simp] theorem State.updCtx_reqs (s : State) (w : Who) (f : Ctx → Ctx) : (s.updCtx w f).reqs = s.reqs := rfl
@[simp] theorem State.updCtx_votes (s : State) (w : Who) (f : Ctx → Ctx) : (s.updCtx w f).votes = s.votes := rfl
@[simp] theorem State.updCtx_snaps (s : State) (w : Who) (f : Ctx → Ctx) : (s.updCtx w f).snaps = s.snaps := rfl
@[simp] theorem State.updCtx_nextId (s : State) (w : Who) (f : Ctx → Ctx) : (s.updCtx w f).nextId = s.nextId := rfl
@[simp] theorem State.updCtx_free (s : State) (w : Who) (f : Ctx → Ctx) : (s.updCtx w f).free = s.free := rfl
@[simp] theorem State.updCtx_choices (s : State) (w : Who) (f : Ctx → Ctx) : (s.updCtx w f).choices = s.choices := rfl
@[simp] theorem State.updCtx_inputs (s : State) (w : Who) (f : Ctx → Ctx) : (s.updCtx w f).inputs = s.inputs := rfl
@[simp] theorem State.updCtx_sel (s : State) (w : Who) (f : Ctx → Ctx) : (s.updCtx w f).sel = s.sel := rfl
@[simp] theorem State.updCtx_now (s : State) (w : Who) (f : Ctx → Ctx) : (s.updCtx w f).now = s.now := rfl

/-! ### upd -/

@[simp] theorem State.upd_cores (s : State) (f : Ctx → Ctx) : (s.upd f).cores = s.cores := rfl
@[simp] theorem State.upd_chips (s : State) (f : Ctx → Ctx) : (s.upd f).chips = s.chips := rfl
@[simp] theorem State.upd_nchips (s : State) (f : Ctx → Ctx) : (s.upd f).nchips = s.nchips := rfl
@[simp] theorem State.upd_mem (s : State) (f : Ctx → Ctx) : (s.upd f).mem = s.mem := rfl
@[simp] theorem State.upd_poison (s : State) (f : Ctx → Ctx) : (s.upd f).poison = s.poison := rfl
@[simp] theorem State.upd_uncorr (s : State) (f : Ctx → Ctx) : (s.upd f).uncorr = s.uncorr := rfl
@[simp] theorem State.upd_sunk (s : State) (f : Ctx → Ctx) : (s.upd f).sunk = s.sunk := rfl
@[simp] theorem State.upd_pkts (s : State) (f : Ctx → Ctx) : (s.upd f).pkts = s.pkts := rfl
@[simp] theorem State.upd_xfers (s : State) (f : Ctx → Ctx) : (s.upd f).xfers = s.xfers := rfl
@[simp] theorem State.upd_reqs (s : State) (f : Ctx → Ctx) : (s.upd f).reqs = s.reqs := rfl
@[simp] theorem State.upd_votes (s : State) (f : Ctx → Ctx) : (s.upd f).votes = s.votes := rfl
@[simp] theorem State.upd_snaps (s : State) (f : Ctx → Ctx) : (s.upd f).snaps = s.snaps := rfl
@[simp] theorem State.upd_nextId (s : State) (f : Ctx → Ctx) : (s.upd f).nextId = s.nextId := rfl
@[simp] theorem State.upd_free (s : State) (f : Ctx → Ctx) : (s.upd f).free = s.free := rfl
@[simp] theorem State.upd_choices (s : State) (f : Ctx → Ctx) : (s.upd f).choices = s.choices := rfl
@[simp] theorem State.upd_inputs (s : State) (f : Ctx → Ctx) : (s.upd f).inputs = s.inputs := rfl
@[simp] theorem State.upd_sel (s : State) (f : Ctx → Ctx) : (s.upd f).sel = s.sel := rfl
@[simp] theorem State.upd_now (s : State) (f : Ctx → Ctx) : (s.upd f).now = s.now := rfl

/-! ### updCore -/

@[simp] theorem State.updCore_ctxs (s : State) (c : CoreId) (f : Core → Core) : (s.updCore c f).ctxs = s.ctxs := rfl
@[simp] theorem State.updCore_chips (s : State) (c : CoreId) (f : Core → Core) : (s.updCore c f).chips = s.chips := rfl
@[simp] theorem State.updCore_nchips (s : State) (c : CoreId) (f : Core → Core) : (s.updCore c f).nchips = s.nchips := rfl
@[simp] theorem State.updCore_mem (s : State) (c : CoreId) (f : Core → Core) : (s.updCore c f).mem = s.mem := rfl
@[simp] theorem State.updCore_poison (s : State) (c : CoreId) (f : Core → Core) : (s.updCore c f).poison = s.poison := rfl
@[simp] theorem State.updCore_uncorr (s : State) (c : CoreId) (f : Core → Core) : (s.updCore c f).uncorr = s.uncorr := rfl
@[simp] theorem State.updCore_sunk (s : State) (c : CoreId) (f : Core → Core) : (s.updCore c f).sunk = s.sunk := rfl
@[simp] theorem State.updCore_pkts (s : State) (c : CoreId) (f : Core → Core) : (s.updCore c f).pkts = s.pkts := rfl
@[simp] theorem State.updCore_xfers (s : State) (c : CoreId) (f : Core → Core) : (s.updCore c f).xfers = s.xfers := rfl
@[simp] theorem State.updCore_reqs (s : State) (c : CoreId) (f : Core → Core) : (s.updCore c f).reqs = s.reqs := rfl
@[simp] theorem State.updCore_votes (s : State) (c : CoreId) (f : Core → Core) : (s.updCore c f).votes = s.votes := rfl
@[simp] theorem State.updCore_snaps (s : State) (c : CoreId) (f : Core → Core) : (s.updCore c f).snaps = s.snaps := rfl
@[simp] theorem State.updCore_nextId (s : State) (c : CoreId) (f : Core → Core) : (s.updCore c f).nextId = s.nextId := rfl
@[simp] theorem State.updCore_free (s : State) (c : CoreId) (f : Core → Core) : (s.updCore c f).free = s.free := rfl
@[simp] theorem State.updCore_choices (s : State) (c : CoreId) (f : Core → Core) : (s.updCore c f).choices = s.choices := rfl
@[simp] theorem State.updCore_inputs (s : State) (c : CoreId) (f : Core → Core) : (s.updCore c f).inputs = s.inputs := rfl
@[simp] theorem State.updCore_sel (s : State) (c : CoreId) (f : Core → Core) : (s.updCore c f).sel = s.sel := rfl
@[simp] theorem State.updCore_now (s : State) (c : CoreId) (f : Core → Core) : (s.updCore c f).now = s.now := rfl

/-! ### updChip -/

@[simp] theorem State.updChip_ctxs (s : State) (n : Nat) (f : Chip → Chip) : (s.updChip n f).ctxs = s.ctxs := rfl
@[simp] theorem State.updChip_cores (s : State) (n : Nat) (f : Chip → Chip) : (s.updChip n f).cores = s.cores := rfl
@[simp] theorem State.updChip_nchips (s : State) (n : Nat) (f : Chip → Chip) : (s.updChip n f).nchips = s.nchips := rfl
@[simp] theorem State.updChip_mem (s : State) (n : Nat) (f : Chip → Chip) : (s.updChip n f).mem = s.mem := rfl
@[simp] theorem State.updChip_poison (s : State) (n : Nat) (f : Chip → Chip) : (s.updChip n f).poison = s.poison := rfl
@[simp] theorem State.updChip_uncorr (s : State) (n : Nat) (f : Chip → Chip) : (s.updChip n f).uncorr = s.uncorr := rfl
@[simp] theorem State.updChip_sunk (s : State) (n : Nat) (f : Chip → Chip) : (s.updChip n f).sunk = s.sunk := rfl
@[simp] theorem State.updChip_pkts (s : State) (n : Nat) (f : Chip → Chip) : (s.updChip n f).pkts = s.pkts := rfl
@[simp] theorem State.updChip_xfers (s : State) (n : Nat) (f : Chip → Chip) : (s.updChip n f).xfers = s.xfers := rfl
@[simp] theorem State.updChip_reqs (s : State) (n : Nat) (f : Chip → Chip) : (s.updChip n f).reqs = s.reqs := rfl
@[simp] theorem State.updChip_votes (s : State) (n : Nat) (f : Chip → Chip) : (s.updChip n f).votes = s.votes := rfl
@[simp] theorem State.updChip_snaps (s : State) (n : Nat) (f : Chip → Chip) : (s.updChip n f).snaps = s.snaps := rfl
@[simp] theorem State.updChip_nextId (s : State) (n : Nat) (f : Chip → Chip) : (s.updChip n f).nextId = s.nextId := rfl
@[simp] theorem State.updChip_free (s : State) (n : Nat) (f : Chip → Chip) : (s.updChip n f).free = s.free := rfl
@[simp] theorem State.updChip_choices (s : State) (n : Nat) (f : Chip → Chip) : (s.updChip n f).choices = s.choices := rfl
@[simp] theorem State.updChip_inputs (s : State) (n : Nat) (f : Chip → Chip) : (s.updChip n f).inputs = s.inputs := rfl
@[simp] theorem State.updChip_sel (s : State) (n : Nat) (f : Chip → Chip) : (s.updChip n f).sel = s.sel := rfl
@[simp] theorem State.updChip_now (s : State) (n : Nat) (f : Chip → Chip) : (s.updChip n f).now = s.now := rfl

/-! ### updGang -/

@[simp] theorem State.updGang_ctxs (s : State) (n g : Nat) (f : Gang → Gang) : (s.updGang n g f).ctxs = s.ctxs := rfl
@[simp] theorem State.updGang_cores (s : State) (n g : Nat) (f : Gang → Gang) : (s.updGang n g f).cores = s.cores := rfl
@[simp] theorem State.updGang_nchips (s : State) (n g : Nat) (f : Gang → Gang) : (s.updGang n g f).nchips = s.nchips := rfl
@[simp] theorem State.updGang_mem (s : State) (n g : Nat) (f : Gang → Gang) : (s.updGang n g f).mem = s.mem := rfl
@[simp] theorem State.updGang_poison (s : State) (n g : Nat) (f : Gang → Gang) : (s.updGang n g f).poison = s.poison := rfl
@[simp] theorem State.updGang_uncorr (s : State) (n g : Nat) (f : Gang → Gang) : (s.updGang n g f).uncorr = s.uncorr := rfl
@[simp] theorem State.updGang_sunk (s : State) (n g : Nat) (f : Gang → Gang) : (s.updGang n g f).sunk = s.sunk := rfl
@[simp] theorem State.updGang_pkts (s : State) (n g : Nat) (f : Gang → Gang) : (s.updGang n g f).pkts = s.pkts := rfl
@[simp] theorem State.updGang_xfers (s : State) (n g : Nat) (f : Gang → Gang) : (s.updGang n g f).xfers = s.xfers := rfl
@[simp] theorem State.updGang_reqs (s : State) (n g : Nat) (f : Gang → Gang) : (s.updGang n g f).reqs = s.reqs := rfl
@[simp] theorem State.updGang_votes (s : State) (n g : Nat) (f : Gang → Gang) : (s.updGang n g f).votes = s.votes := rfl
@[simp] theorem State.updGang_snaps (s : State) (n g : Nat) (f : Gang → Gang) : (s.updGang n g f).snaps = s.snaps := rfl
@[simp] theorem State.updGang_nextId (s : State) (n g : Nat) (f : Gang → Gang) : (s.updGang n g f).nextId = s.nextId := rfl
@[simp] theorem State.updGang_free (s : State) (n g : Nat) (f : Gang → Gang) : (s.updGang n g f).free = s.free := rfl
@[simp] theorem State.updGang_choices (s : State) (n g : Nat) (f : Gang → Gang) : (s.updGang n g f).choices = s.choices := rfl
@[simp] theorem State.updGang_inputs (s : State) (n g : Nat) (f : Gang → Gang) : (s.updGang n g f).inputs = s.inputs := rfl
@[simp] theorem State.updGang_sel (s : State) (n g : Nat) (f : Gang → Gang) : (s.updGang n g f).sel = s.sel := rfl
@[simp] theorem State.updGang_now (s : State) (n g : Nat) (f : Gang → Gang) : (s.updGang n g f).now = s.now := rfl

/-! ### updRgang -/

@[simp] theorem State.updRgang_ctxs (s : State) (n : Nat) (f : Gang → Gang) : (s.updRgang n f).ctxs = s.ctxs := rfl
@[simp] theorem State.updRgang_cores (s : State) (n : Nat) (f : Gang → Gang) : (s.updRgang n f).cores = s.cores := rfl
@[simp] theorem State.updRgang_nchips (s : State) (n : Nat) (f : Gang → Gang) : (s.updRgang n f).nchips = s.nchips := rfl
@[simp] theorem State.updRgang_mem (s : State) (n : Nat) (f : Gang → Gang) : (s.updRgang n f).mem = s.mem := rfl
@[simp] theorem State.updRgang_poison (s : State) (n : Nat) (f : Gang → Gang) : (s.updRgang n f).poison = s.poison := rfl
@[simp] theorem State.updRgang_uncorr (s : State) (n : Nat) (f : Gang → Gang) : (s.updRgang n f).uncorr = s.uncorr := rfl
@[simp] theorem State.updRgang_sunk (s : State) (n : Nat) (f : Gang → Gang) : (s.updRgang n f).sunk = s.sunk := rfl
@[simp] theorem State.updRgang_pkts (s : State) (n : Nat) (f : Gang → Gang) : (s.updRgang n f).pkts = s.pkts := rfl
@[simp] theorem State.updRgang_xfers (s : State) (n : Nat) (f : Gang → Gang) : (s.updRgang n f).xfers = s.xfers := rfl
@[simp] theorem State.updRgang_reqs (s : State) (n : Nat) (f : Gang → Gang) : (s.updRgang n f).reqs = s.reqs := rfl
@[simp] theorem State.updRgang_votes (s : State) (n : Nat) (f : Gang → Gang) : (s.updRgang n f).votes = s.votes := rfl
@[simp] theorem State.updRgang_snaps (s : State) (n : Nat) (f : Gang → Gang) : (s.updRgang n f).snaps = s.snaps := rfl
@[simp] theorem State.updRgang_nextId (s : State) (n : Nat) (f : Gang → Gang) : (s.updRgang n f).nextId = s.nextId := rfl
@[simp] theorem State.updRgang_free (s : State) (n : Nat) (f : Gang → Gang) : (s.updRgang n f).free = s.free := rfl
@[simp] theorem State.updRgang_choices (s : State) (n : Nat) (f : Gang → Gang) : (s.updRgang n f).choices = s.choices := rfl
@[simp] theorem State.updRgang_inputs (s : State) (n : Nat) (f : Gang → Gang) : (s.updRgang n f).inputs = s.inputs := rfl
@[simp] theorem State.updRgang_sel (s : State) (n : Nat) (f : Gang → Gang) : (s.updRgang n f).sel = s.sel := rfl
@[simp] theorem State.updRgang_now (s : State) (n : Nat) (f : Gang → Gang) : (s.updRgang n f).now = s.now := rfl

/-! ### poke -/

@[simp] theorem State.poke_ctxs (s : State) (k : Nat) (b : List Byte) : (s.poke k b).ctxs = s.ctxs := rfl
@[simp] theorem State.poke_cores (s : State) (k : Nat) (b : List Byte) : (s.poke k b).cores = s.cores := rfl
@[simp] theorem State.poke_chips (s : State) (k : Nat) (b : List Byte) : (s.poke k b).chips = s.chips := rfl
@[simp] theorem State.poke_nchips (s : State) (k : Nat) (b : List Byte) : (s.poke k b).nchips = s.nchips := rfl
@[simp] theorem State.poke_uncorr (s : State) (k : Nat) (b : List Byte) : (s.poke k b).uncorr = s.uncorr := rfl
@[simp] theorem State.poke_sunk (s : State) (k : Nat) (b : List Byte) : (s.poke k b).sunk = s.sunk := rfl
@[simp] theorem State.poke_pkts (s : State) (k : Nat) (b : List Byte) : (s.poke k b).pkts = s.pkts := rfl
@[simp] theorem State.poke_xfers (s : State) (k : Nat) (b : List Byte) : (s.poke k b).xfers = s.xfers := rfl
@[simp] theorem State.poke_reqs (s : State) (k : Nat) (b : List Byte) : (s.poke k b).reqs = s.reqs := rfl
@[simp] theorem State.poke_votes (s : State) (k : Nat) (b : List Byte) : (s.poke k b).votes = s.votes := rfl
@[simp] theorem State.poke_snaps (s : State) (k : Nat) (b : List Byte) : (s.poke k b).snaps = s.snaps := rfl
@[simp] theorem State.poke_nextId (s : State) (k : Nat) (b : List Byte) : (s.poke k b).nextId = s.nextId := rfl
@[simp] theorem State.poke_free (s : State) (k : Nat) (b : List Byte) : (s.poke k b).free = s.free := rfl
@[simp] theorem State.poke_choices (s : State) (k : Nat) (b : List Byte) : (s.poke k b).choices = s.choices := rfl
@[simp] theorem State.poke_inputs (s : State) (k : Nat) (b : List Byte) : (s.poke k b).inputs = s.inputs := rfl
@[simp] theorem State.poke_sel (s : State) (k : Nat) (b : List Byte) : (s.poke k b).sel = s.sel := rfl
@[simp] theorem State.poke_now (s : State) (k : Nat) (b : List Byte) : (s.poke k b).now = s.now := rfl

/-! ### setPoison -/

@[simp] theorem State.setPoison_ctxs (s : State) (k n : Nat) : (s.setPoison k n).ctxs = s.ctxs := rfl
@[simp] theorem State.setPoison_cores (s : State) (k n : Nat) : (s.setPoison k n).cores = s.cores := rfl
@[simp] theorem State.setPoison_chips (s : State) (k n : Nat) : (s.setPoison k n).chips = s.chips := rfl
@[simp] theorem State.setPoison_nchips (s : State) (k n : Nat) : (s.setPoison k n).nchips = s.nchips := rfl
@[simp] theorem State.setPoison_mem (s : State) (k n : Nat) : (s.setPoison k n).mem = s.mem := rfl
@[simp] theorem State.setPoison_uncorr (s : State) (k n : Nat) : (s.setPoison k n).uncorr = s.uncorr := rfl
@[simp] theorem State.setPoison_sunk (s : State) (k n : Nat) : (s.setPoison k n).sunk = s.sunk := rfl
@[simp] theorem State.setPoison_pkts (s : State) (k n : Nat) : (s.setPoison k n).pkts = s.pkts := rfl
@[simp] theorem State.setPoison_xfers (s : State) (k n : Nat) : (s.setPoison k n).xfers = s.xfers := rfl
@[simp] theorem State.setPoison_reqs (s : State) (k n : Nat) : (s.setPoison k n).reqs = s.reqs := rfl
@[simp] theorem State.setPoison_votes (s : State) (k n : Nat) : (s.setPoison k n).votes = s.votes := rfl
@[simp] theorem State.setPoison_snaps (s : State) (k n : Nat) : (s.setPoison k n).snaps = s.snaps := rfl
@[simp] theorem State.setPoison_nextId (s : State) (k n : Nat) : (s.setPoison k n).nextId = s.nextId := rfl
@[simp] theorem State.setPoison_free (s : State) (k n : Nat) : (s.setPoison k n).free = s.free := rfl
@[simp] theorem State.setPoison_choices (s : State) (k n : Nat) : (s.setPoison k n).choices = s.choices := rfl
@[simp] theorem State.setPoison_inputs (s : State) (k n : Nat) : (s.setPoison k n).inputs = s.inputs := rfl
@[simp] theorem State.setPoison_sel (s : State) (k n : Nat) : (s.setPoison k n).sel = s.sel := rfl
@[simp] theorem State.setPoison_now (s : State) (k n : Nat) : (s.setPoison k n).now = s.now := rfl

/-! ### fresh -/

@[simp] theorem State.fresh_ctxs (s : State) : (s.fresh).ctxs = s.ctxs := rfl
@[simp] theorem State.fresh_cores (s : State) : (s.fresh).cores = s.cores := rfl
@[simp] theorem State.fresh_chips (s : State) : (s.fresh).chips = s.chips := rfl
@[simp] theorem State.fresh_nchips (s : State) : (s.fresh).nchips = s.nchips := rfl
@[simp] theorem State.fresh_mem (s : State) : (s.fresh).mem = s.mem := rfl
@[simp] theorem State.fresh_poison (s : State) : (s.fresh).poison = s.poison := rfl
@[simp] theorem State.fresh_uncorr (s : State) : (s.fresh).uncorr = s.uncorr := rfl
@[simp] theorem State.fresh_sunk (s : State) : (s.fresh).sunk = s.sunk := rfl
@[simp] theorem State.fresh_pkts (s : State) : (s.fresh).pkts = s.pkts := rfl
@[simp] theorem State.fresh_xfers (s : State) : (s.fresh).xfers = s.xfers := rfl
@[simp] theorem State.fresh_reqs (s : State) : (s.fresh).reqs = s.reqs := rfl
@[simp] theorem State.fresh_votes (s : State) : (s.fresh).votes = s.votes := rfl
@[simp] theorem State.fresh_snaps (s : State) : (s.fresh).snaps = s.snaps := rfl
@[simp] theorem State.fresh_free (s : State) : (s.fresh).free = s.free := rfl
@[simp] theorem State.fresh_choices (s : State) : (s.fresh).choices = s.choices := rfl
@[simp] theorem State.fresh_inputs (s : State) : (s.fresh).inputs = s.inputs := rfl
@[simp] theorem State.fresh_sel (s : State) : (s.fresh).sel = s.sel := rfl
@[simp] theorem State.fresh_now (s : State) : (s.fresh).now = s.now := rfl

/-! ### land -/

@[simp] theorem State.land_cores (s : State) (d : Dest) (v en : BitVec 4096) (lat : Nat) (fl : Flags) : (s.land d v en lat fl).cores = s.cores := rfl
@[simp] theorem State.land_chips (s : State) (d : Dest) (v en : BitVec 4096) (lat : Nat) (fl : Flags) : (s.land d v en lat fl).chips = s.chips := rfl
@[simp] theorem State.land_nchips (s : State) (d : Dest) (v en : BitVec 4096) (lat : Nat) (fl : Flags) : (s.land d v en lat fl).nchips = s.nchips := rfl
@[simp] theorem State.land_mem (s : State) (d : Dest) (v en : BitVec 4096) (lat : Nat) (fl : Flags) : (s.land d v en lat fl).mem = s.mem := rfl
@[simp] theorem State.land_poison (s : State) (d : Dest) (v en : BitVec 4096) (lat : Nat) (fl : Flags) : (s.land d v en lat fl).poison = s.poison := rfl
@[simp] theorem State.land_uncorr (s : State) (d : Dest) (v en : BitVec 4096) (lat : Nat) (fl : Flags) : (s.land d v en lat fl).uncorr = s.uncorr := rfl
@[simp] theorem State.land_sunk (s : State) (d : Dest) (v en : BitVec 4096) (lat : Nat) (fl : Flags) : (s.land d v en lat fl).sunk = s.sunk := rfl
@[simp] theorem State.land_pkts (s : State) (d : Dest) (v en : BitVec 4096) (lat : Nat) (fl : Flags) : (s.land d v en lat fl).pkts = s.pkts := rfl
@[simp] theorem State.land_xfers (s : State) (d : Dest) (v en : BitVec 4096) (lat : Nat) (fl : Flags) : (s.land d v en lat fl).xfers = s.xfers := rfl
@[simp] theorem State.land_reqs (s : State) (d : Dest) (v en : BitVec 4096) (lat : Nat) (fl : Flags) : (s.land d v en lat fl).reqs = s.reqs := rfl
@[simp] theorem State.land_votes (s : State) (d : Dest) (v en : BitVec 4096) (lat : Nat) (fl : Flags) : (s.land d v en lat fl).votes = s.votes := rfl
@[simp] theorem State.land_snaps (s : State) (d : Dest) (v en : BitVec 4096) (lat : Nat) (fl : Flags) : (s.land d v en lat fl).snaps = s.snaps := rfl
@[simp] theorem State.land_nextId (s : State) (d : Dest) (v en : BitVec 4096) (lat : Nat) (fl : Flags) : (s.land d v en lat fl).nextId = s.nextId := rfl
@[simp] theorem State.land_free (s : State) (d : Dest) (v en : BitVec 4096) (lat : Nat) (fl : Flags) : (s.land d v en lat fl).free = s.free := rfl
@[simp] theorem State.land_choices (s : State) (d : Dest) (v en : BitVec 4096) (lat : Nat) (fl : Flags) : (s.land d v en lat fl).choices = s.choices := rfl
@[simp] theorem State.land_inputs (s : State) (d : Dest) (v en : BitVec 4096) (lat : Nat) (fl : Flags) : (s.land d v en lat fl).inputs = s.inputs := rfl
@[simp] theorem State.land_sel (s : State) (d : Dest) (v en : BitVec 4096) (lat : Nat) (fl : Flags) : (s.land d v en lat fl).sel = s.sel := rfl
@[simp] theorem State.land_now (s : State) (d : Dest) (v en : BitVec 4096) (lat : Nat) (fl : Flags) : (s.land d v en lat fl).now = s.now := rfl

/-! ### fileFault -/

@[simp] theorem State.fileFault_ctxs (s : State) (n vf : Nat) (r : FaultRec) : (s.fileFault n vf r).ctxs = s.ctxs := rfl
@[simp] theorem State.fileFault_cores (s : State) (n vf : Nat) (r : FaultRec) : (s.fileFault n vf r).cores = s.cores := rfl
@[simp] theorem State.fileFault_nchips (s : State) (n vf : Nat) (r : FaultRec) : (s.fileFault n vf r).nchips = s.nchips := rfl
@[simp] theorem State.fileFault_mem (s : State) (n vf : Nat) (r : FaultRec) : (s.fileFault n vf r).mem = s.mem := rfl
@[simp] theorem State.fileFault_poison (s : State) (n vf : Nat) (r : FaultRec) : (s.fileFault n vf r).poison = s.poison := rfl
@[simp] theorem State.fileFault_uncorr (s : State) (n vf : Nat) (r : FaultRec) : (s.fileFault n vf r).uncorr = s.uncorr := rfl
@[simp] theorem State.fileFault_sunk (s : State) (n vf : Nat) (r : FaultRec) : (s.fileFault n vf r).sunk = s.sunk := rfl
@[simp] theorem State.fileFault_pkts (s : State) (n vf : Nat) (r : FaultRec) : (s.fileFault n vf r).pkts = s.pkts := rfl
@[simp] theorem State.fileFault_xfers (s : State) (n vf : Nat) (r : FaultRec) : (s.fileFault n vf r).xfers = s.xfers := rfl
@[simp] theorem State.fileFault_reqs (s : State) (n vf : Nat) (r : FaultRec) : (s.fileFault n vf r).reqs = s.reqs := rfl
@[simp] theorem State.fileFault_votes (s : State) (n vf : Nat) (r : FaultRec) : (s.fileFault n vf r).votes = s.votes := rfl
@[simp] theorem State.fileFault_snaps (s : State) (n vf : Nat) (r : FaultRec) : (s.fileFault n vf r).snaps = s.snaps := rfl
@[simp] theorem State.fileFault_nextId (s : State) (n vf : Nat) (r : FaultRec) : (s.fileFault n vf r).nextId = s.nextId := rfl
@[simp] theorem State.fileFault_free (s : State) (n vf : Nat) (r : FaultRec) : (s.fileFault n vf r).free = s.free := rfl
@[simp] theorem State.fileFault_choices (s : State) (n vf : Nat) (r : FaultRec) : (s.fileFault n vf r).choices = s.choices := rfl
@[simp] theorem State.fileFault_inputs (s : State) (n vf : Nat) (r : FaultRec) : (s.fileFault n vf r).inputs = s.inputs := rfl
@[simp] theorem State.fileFault_sel (s : State) (n vf : Nat) (r : FaultRec) : (s.fileFault n vf r).sel = s.sel := rfl
@[simp] theorem State.fileFault_now (s : State) (n vf : Nat) (r : FaultRec) : (s.fileFault n vf r).now = s.now := rfl

/-! ### What the updates change -/

@[simp] theorem State.ctx_setCtx_same (s : State) (w : Who) (c : Ctx) : (s.setCtx w c).ctx w = c := AMap.get_set_same _ _ _ _
theorem State.ctx_setCtx (s : State) (w v : Who) (c : Ctx) : (s.setCtx w c).ctx v = if v = w then c else s.ctx v := by
  unfold State.setCtx State.ctx
  by_cases h : v = w
  · subst h; simp
  · rw [if_neg h]; exact AMap.get_set_other _ _ _ _ _ h |>.trans rfl
@[simp] theorem State.ctx_updCtx_same (s : State) (w : Who) (f : Ctx → Ctx) : (s.updCtx w f).ctx w = f (s.ctx w) :=
  State.ctx_setCtx_same s w _
theorem State.ctx_updCtx (s : State) (w v : Who) (f : Ctx → Ctx) :
    (s.updCtx w f).ctx v = if v = w then f (s.ctx w) else s.ctx v := State.ctx_setCtx s w v _
/-- Changing a context twice. -/
@[simp] theorem State.updCtx_updCtx (s : State) (w : Who) (f g : Ctx → Ctx) : (s.updCtx w f).updCtx w g = s.updCtx w (fun c => g (f c)) := by
  have h : ((s.updCtx w f).ctx w) = f (s.ctx w) := State.ctx_updCtx_same s w f
  show { s with ctxs := (s.ctxs.set w _).set w (g ((s.updCtx w f).ctx w)) } = _
  rw [h, AMap.set_set]; rfl
@[simp] theorem State.upd_upd (s : State) (f g : Ctx → Ctx) : (s.upd f).upd g = s.upd (fun c => g (f c)) := State.updCtx_updCtx s _ f g
@[simp] theorem State.cur_upd (s : State) (f : Ctx → Ctx) : (s.upd f).cur = f s.cur := State.ctx_updCtx_same s _ f
@[simp] theorem State.cur_updCore (s : State) (c : CoreId) (f : Core → Core) : (s.updCore c f).cur = s.cur := rfl
@[simp] theorem State.cur_updChip (s : State) (n : Nat) (f : Chip → Chip) : (s.updChip n f).cur = s.cur := rfl
@[simp] theorem State.core_updCore_same (s : State) (c : CoreId) (f : Core → Core) : (s.updCore c f).core c = f (s.core c) := AMap.get_set_same _ _ _ _
theorem State.core_updCore (s : State) (c d : CoreId) (f : Core → Core) :
    (s.updCore c f).core d = if d = c then f (s.core c) else s.core d := AMap.get_set _ _ _ _ _
@[simp] theorem State.chip_updChip_same (s : State) (n : Nat) (f : Chip → Chip) : (s.updChip n f).chip n = f (s.chip n) := AMap.get_set_same _ _ _ _
theorem State.chip_updChip (s : State) (n m : Nat) (f : Chip → Chip) :
    (s.updChip n f).chip m = if m = n then f (s.chip n) else s.chip m := AMap.get_set _ _ _ _ _
@[simp] theorem State.gang_updGang_same (s : State) (n g : Nat) (f : Gang → Gang) : (s.updGang n g f).gang n g = f (s.gang n g) := by
  simp [State.gang, State.updGang]
theorem State.ctx_upd (s : State) (f : Ctx → Ctx) (v : Who) :
    (s.upd f).ctx v = if v = s.sel.who then f s.cur else s.ctx v := State.ctx_updCtx s _ v f
@[simp] theorem State.core_upd (s : State) (f : Ctx → Ctx) (c : CoreId) : (s.upd f).core c = s.core c := rfl
@[simp] theorem State.chip_upd (s : State) (f : Ctx → Ctx) (n : Nat) : (s.upd f).chip n = s.chip n := rfl
@[simp] theorem State.core_updCtx (s : State) (w : Who) (f : Ctx → Ctx) (c : CoreId) : (s.updCtx w f).core c = s.core c := rfl
@[simp] theorem State.chip_updCtx (s : State) (w : Who) (f : Ctx → Ctx) (n : Nat) : (s.updCtx w f).chip n = s.chip n := rfl
@[simp] theorem State.ctx_updCore (s : State) (c : CoreId) (f : Core → Core) (w : Who) : (s.updCore c f).ctx w = s.ctx w := rfl
@[simp] theorem State.ctx_updChip (s : State) (n : Nat) (f : Chip → Chip) (w : Who) : (s.updChip n f).ctx w = s.ctx w := rfl

end Machine
end Sys2Proof
end

