-- ==== Sys2Proof/Laws/Memory.lean ====
section
/-! SUPPORT. Sys2Proof/Laws/Memory.lean: reads after writes, and that every memory operation keeps the canonical form. -/

namespace Sys2Proof.Machine

/-- A lower limit may be lowered. -/
theorem memOk_lower (m : List Host.Cell) (p q : Nat) (h : q ≤ p) (hm : memOk (some p) m = true) : memOk (some q) m = true := by
  cases m with
  | nil => rfl
  | cons c r =>
    obtain ⟨k, b⟩ := c
    simp only [memOk, Bool.and_eq_true, decide_eq_true_eq, ne_eq, BitVec.ofNat_eq_ofNat] at hm ⊢
    exact ⟨⟨by omega, hm.1.2⟩, hm.2⟩
/-- No lower limit is the weakest one. -/
theorem memOk_none (m : List Host.Cell) (p : Nat) (hm : memOk (some p) m = true) : memOk none m = true := by
  cases m with
  | nil => rfl
  | cons c r =>
    obtain ⟨k, b⟩ := c
    simp only [memOk, Bool.and_eq_true, decide_eq_true_eq, ne_eq, BitVec.ofNat_eq_ofNat] at hm ⊢
    exact ⟨hm.1.2, hm.2⟩
/-- Below its lower limit memory lists nothing. -/
theorem memGet_below (m : List Host.Cell) (p a : Nat) (hm : memOk (some p) m = true) (h : a ≤ p) : memGet m a = 0 := by
  cases m with
  | nil => rfl
  | cons c r =>
    obtain ⟨k, b⟩ := c
    simp only [memOk, Bool.and_eq_true, decide_eq_true_eq, ne_eq, BitVec.ofNat_eq_ofNat] at hm
    have h1 : k ≠ a := by omega
    have h2 : a < k := by omega
    simp [memGet, h1, h2]
/-- A write keeps the form above a limit it respects. -/
theorem memOk_memSet (m : List Host.Cell) (a : Nat) (v : Byte) (p : Nat) (hp : p < a) (hm : memOk (some p) m = true) :
    memOk (some p) (memSet m a v) = true := by
  induction m generalizing p with
  | nil =>
    unfold memSet
    split <;> simp_all [memOk]
  | cons c r ih =>
    obtain ⟨k, b⟩ := c
    simp only [memOk, Bool.and_eq_true, decide_eq_true_eq, ne_eq, BitVec.ofNat_eq_ofNat] at hm
    unfold memSet
    by_cases h1 : k = a
    · subst h1
      by_cases hv : v = 0#8
      · simp [hv]; exact memOk_lower r k p (by omega) hm.2
      · simp [hv, memOk, hm.2, hp]
    · by_cases h2 : a < k
      · by_cases hv : v = 0#8
        · simp [h1, h2, hv, memOk, hm]
        · simp [h1, h2, hv, memOk, hm, hp]
      · simp only [h1, h2, if_false, memOk, Bool.and_eq_true, decide_eq_true_eq, ne_eq, BitVec.ofNat_eq_ofNat]
        exact ⟨hm.1, ih k (by omega) hm.2⟩
/-- A write keeps the canonical form. -/
theorem wf_memSet (m : List Host.Cell) (a : Nat) (v : Byte) (hm : Memory.wf m = true) : Memory.wf (memSet m a v) = true := by
  unfold Memory.wf at hm ⊢
  cases m with
  | nil =>
    unfold memSet
    split <;> simp_all [memOk]
  | cons c r =>
    obtain ⟨k, b⟩ := c
    simp only [memOk, Bool.and_eq_true, decide_eq_true_eq, ne_eq, BitVec.ofNat_eq_ofNat] at hm
    unfold memSet
    by_cases h1 : k = a
    · subst h1
      by_cases hv : v = 0#8
      · simp [hv]; exact memOk_none r k hm.2
      · simp [hv, memOk, hm.2]
    · by_cases h2 : a < k
      · by_cases hv : v = 0#8
        · simp [h1, h2, hv, memOk, hm]
        · simp [h1, h2, hv, memOk, hm]
      · simp only [h1, h2, if_false, memOk, Bool.and_eq_true, decide_eq_true_eq, ne_eq, BitVec.ofNat_eq_ofNat]
        exact ⟨hm.1, memOk_memSet r a v k (by omega) hm.2⟩
/-- Writing a list of bytes keeps the canonical form. -/
theorem wf_memPut (b : List Byte) : ∀ (m : List Host.Cell) (a : Nat), Memory.wf m = true → Memory.wf (memPut m a b) = true := by
  induction b with
  | nil => intro m a h; exact h
  | cons x r ih => intro m a h; exact ih _ _ (wf_memSet m a x h)
/-- Storing bytes keeps the canonical form. -/
theorem wf_poke (s : State) (k : Nat) (b : List Byte) (h : Memory.wf s.mem = true) : Memory.wf (s.poke k b).mem = true :=
  wf_memPut b s.mem k h
/-- Dropping listed bytes keeps the form above a limit. -/
theorem memOk_filter (f : Host.Cell → Bool) : ∀ (m : List Host.Cell) (p : Nat),
    memOk (some p) m = true → memOk (some p) (m.filter f) = true := by
  intro m
  induction m with
  | nil => intro p h; exact h
  | cons c r ih =>
    obtain ⟨k, b⟩ := c
    intro p hm
    simp only [memOk, Bool.and_eq_true, decide_eq_true_eq, ne_eq, BitVec.ofNat_eq_ofNat] at hm
    by_cases hf : f (k, b) = true
    · simp only [List.filter_cons, hf, if_true, memOk, Bool.and_eq_true, decide_eq_true_eq, ne_eq, BitVec.ofNat_eq_ofNat]
      exact ⟨hm.1, ih k hm.2⟩
    · simp only [List.filter_cons, hf]
      exact ih p (memOk_lower r k p (by omega) hm.2)
/-- Dropping listed bytes keeps the canonical form. -/
theorem wf_filter (f : Host.Cell → Bool) (m : List Host.Cell) (hm : Memory.wf m = true) : Memory.wf (m.filter f) = true := by
  unfold Memory.wf at hm ⊢
  cases m with
  | nil => rfl
  | cons c r =>
    obtain ⟨k, b⟩ := c
    simp only [memOk, Bool.and_eq_true, decide_eq_true_eq, ne_eq, BitVec.ofNat_eq_ofNat] at hm
    by_cases hf : f (k, b) = true
    · simp only [List.filter_cons, hf, if_true, memOk, Bool.and_eq_true, decide_eq_true_eq, ne_eq, BitVec.ofNat_eq_ofNat]
      exact ⟨hm.1, memOk_filter f r k hm.2⟩
    · simp only [List.filter_cons, hf]
      exact memOk_none _ k (memOk_filter f r k hm.2)

/-- A byte read after a write above a limit the memory respects. -/
theorem memGet_memSet_lim (m : List Host.Cell) (a : Nat) (v : Byte) (x p : Nat) (hm : memOk (some p) m = true) :
    memGet (memSet m a v) x = if x = a then v else memGet m x := by
  induction m generalizing p with
  | nil =>
    unfold memSet
    by_cases hv : v = 0#8
    · by_cases hx : x = a <;> simp [hv, memGet, hx]
    · by_cases hx : x = a
      · simp [hv, memGet, hx]
      · have : a ≠ x := fun h => hx h.symm
        simp [hv, memGet, hx, this]
  | cons c r ih =>
    obtain ⟨k, b⟩ := c
    simp only [memOk, Bool.and_eq_true, decide_eq_true_eq, ne_eq, BitVec.ofNat_eq_ofNat] at hm
    unfold memSet
    by_cases h1 : k = a
    · subst h1
      by_cases hv : v = 0#8
      · subst hv
        by_cases hx : x = k
        · subst hx; simp [memGet_below r x x hm.2 (Nat.le_refl x)]
        · have hk : k ≠ x := fun h => hx h.symm
          by_cases h2 : x < k
          · simp [memGet, hx, hk, h2, memGet_below r k x hm.2 (by omega)]
          · simp [memGet, hx, hk, h2]
      · by_cases hx : x = k
        · simp [hv, memGet, hx]
        · have hk : k ≠ x := fun h => hx h.symm
          simp [hv, memGet, hx, hk]
    · by_cases h2 : a < k
      · by_cases hv : v = 0#8
        · by_cases hx : x = a
          · subst hx; simp [h1, h2, hv, memGet]
          · simp [h1, h2, hv, hx]
        · by_cases hx : x = a
          · subst hx; simp [h1, h2, hv, memGet]
          · have ha : a ≠ x := fun h => hx h.symm
            by_cases h3 : x < a
            · have h4 : x < k := by omega
              have h5 : k ≠ x := by omega
              simp [h1, h2, hv, memGet, hx, ha, h3, h4, h5]
            · simp [h1, h2, hv, memGet, hx, ha, h3]
      · simp only [h1, h2, if_false, memGet]
        rw [ih k hm.2]
        by_cases hx : x = a
        · subst hx
          have h3 : ¬ x < k := h2
          simp [h1, h3]
        · simp [hx]
/-- A byte read after a write. -/
theorem memGet_memSet (m : List Host.Cell) (a : Nat) (v : Byte) (x : Nat) (hm : Memory.wf m = true) :
    memGet (memSet m a v) x = if x = a then v else memGet m x := by
  cases m with
  | nil => exact memGet_memSet_lim [] a v x 0 rfl
  | cons c r =>
    obtain ⟨k, b⟩ := c
    unfold Memory.wf at hm
    simp only [memOk, Bool.and_eq_true, decide_eq_true_eq, ne_eq, BitVec.ofNat_eq_ofNat] at hm
    by_cases hk : k = 0
    · subst hk
      unfold memSet
      by_cases h1 : 0 = a
      · subst h1
        by_cases hv : v = 0#8
        · subst hv
          by_cases hx : x = 0
          · subst hx; simp [memGet_below r 0 0 hm.2 (Nat.le_refl 0)]
          · simp [memGet, hx, Ne.symm hx]
        · by_cases hx : x = 0
          · simp [hv, memGet, hx]
          · simp [hv, memGet, hx, Ne.symm hx]
      · simp only [h1, Nat.not_lt_zero, if_false, memGet]
        rw [memGet_memSet_lim r a v x 0 hm.2]
        by_cases hx : x = a
        · subst hx; simp [h1]
        · simp [hx]
    · refine memGet_memSet_lim _ a v x (k - 1) ?_
      simp only [memOk, Bool.and_eq_true, decide_eq_true_eq, ne_eq, BitVec.ofNat_eq_ofNat]
      exact ⟨⟨by omega, hm.1⟩, hm.2⟩
/-- Below the place written nothing changes. -/
theorem memGet_memPut_below (b : List Byte) : ∀ (m : List Host.Cell) (a x : Nat), Memory.wf m = true → x < a →
    memGet (memPut m a b) x = memGet m x := by
  induction b with
  | nil => intro m a x _ _; rfl
  | cons y r ih =>
    intro m a x h hx
    rw [memPut, ih _ _ _ (wf_memSet m a y h) (by omega), memGet_memSet m a y x h, if_neg (by omega)]
/-- A byte read after a list of bytes is written. -/
theorem memGet_memPut (b : List Byte) : ∀ (m : List Host.Cell) (a x : Nat), Memory.wf m = true →
    memGet (memPut m a b) x = if a ≤ x ∧ x < a + b.length then b.getD (x - a) 0 else memGet m x := by
  induction b with
  | nil => intro m a x _; rw [memPut, if_neg (by simp)]
  | cons y r ih =>
    intro m a x h
    rw [memPut]
    by_cases hx : x = a
    · subst hx
      rw [memGet_memPut_below r _ _ _ (wf_memSet m x y h) (by omega), memGet_memSet m x y x h]
      simp
    · rw [ih _ _ _ (wf_memSet m a y h), memGet_memSet m a y x h, if_neg hx]
      by_cases h1 : a + 1 ≤ x ∧ x < a + 1 + r.length
      · obtain ⟨k, hk⟩ : ∃ k, x - a = k + 1 := ⟨x - a - 1, by omega⟩
        have hk' : x - (a + 1) = k := by omega
        have h2 : a ≤ x ∧ x < a + (y :: r).length := by simp only [List.length_cons]; omega
        rw [if_pos h1, if_pos h2, hk, hk']; simp
      · have h2 : ¬ (a ≤ x ∧ x < a + (y :: r).length) := by simp only [List.length_cons]; omega
        rw [if_neg h1, if_neg h2]

end Sys2Proof.Machine
end

