-- ==== Sys2Proof/Laws/Ops.lean ====
section
/-! SUPPORT. Sys2Proof/Laws/Ops.lean: what each shared operation does, said once: results in flight, guards, blocking, traps,
halting, and the parts of the pod that each leaves alone. -/

namespace Sys2Proof.Machine

/-! ## Maps over contexts -/

/-- A map that keeps every key reads as the mapped value. -/
theorem AMap.get_mapVal {κ α : Type} [DecidableEq κ] (m : AMap κ α) (f : κ → α → α) (k : κ) (d : α) (hd : f k d = d) :
    AMap.get (List.map (fun p => (p.1, f p.1 p.2)) m) k d = f k (AMap.get m k d) := by
  induction m with
  | nil => simp [AMap.get, hd]
  | cons p r ih =>
    obtain ⟨k', v⟩ := p
    by_cases h : k' = k
    · subst h; simp [AMap.get]
    · simp only [List.map_cons, AMap.get, h, if_false]; exact ih

/-! ## Results in flight -/

@[simp] theorem land_cur (s : State) (d : Dest) (v en : BitVec 4096) (lat : Nat) (fl : Flags) :
    (s.land d v en lat fl).cur = { s.cur with flight := s.cur.flight ++ [s.result d v en lat fl] } :=
  State.cur_upd s _
/-- A result in flight is a change of the acting context alone. -/
theorem land_eq (s : State) (d : Dest) (v en : BitVec 4096) (lat : Nat) (fl : Flags) :
    s.land d v en lat fl = s.upd (fun c => { c with flight := c.flight ++ [s.result d v en lat fl] }) := rfl
@[simp] theorem land_core (s : State) (d : Dest) (v en : BitVec 4096) (lat : Nat) (fl : Flags) (c : CoreId) :
    (s.land d v en lat fl).core c = s.core c := rfl
@[simp] theorem land_t (s : State) (d : Dest) (v en : BitVec 4096) (lat : Nat) (fl : Flags) : (s.land d v en lat fl).t = s.t := rfl
theorem land_onlyFlight (s : State) (d : Dest) (v en : BitVec 4096) (lat : Nat) (fl : Flags) : onlyFlight s (s.land d v en lat fl) := by
  refine ⟨⟨rfl, fun w hw => ?_⟩, ?_, ?_⟩
  · rw [land_eq, State.ctx_upd, if_neg hw]
  · rw [land_cur]
  · rw [land_cur]; exact List.prefix_append _ _
theorem onlyFlight_refl (s : State) : onlyFlight s s := ⟨⟨rfl, fun _ _ => rfl⟩, rfl, List.prefix_refl _⟩
theorem onlyFlight_trans {s t u : State} (h1 : onlyFlight s t) (h2 : onlyFlight t u) : onlyFlight s u := by
  obtain ⟨⟨a1, b1⟩, c1, d1⟩ := h1
  obtain ⟨⟨a2, b2⟩, c2, d2⟩ := h2
  have hs : t.sel = s.sel := by rw [a1]
  refine ⟨⟨?_, fun w hw => ?_⟩, ?_, d1.trans d2⟩
  · rw [a2, a1]
  · rw [b2 w (by rw [hs]; exact hw), b1 w hw]
  · rw [c2, c1]
/-- A result given by a value equal to the one stated. -/
theorem gives64_of {s : State} {i : Instr} {sl : Slot} {g : Guard} {d : Dest} {v v' : BitVec 64} {lat : Nat} {fl : Flags}
    (h : s.gives64 i sl g d v' lat fl) (hv : v' = v) : s.gives64 i sl g d v lat fl := by subst hv; exact h

/-! ## Leaving a core, blocking, stalling -/

@[simp] theorem leaveCore_ctx (s : State) (w v : Who) : (leaveCore s w).ctx v = s.ctx v := rfl
@[simp] theorem leaveCore_cur (s : State) (w : Who) : (leaveCore s w).cur = s.cur := rfl
@[simp] theorem leaveCore_mem (s : State) (w : Who) : (leaveCore s w).mem = s.mem := rfl
@[simp] theorem leaveCore_sel (s : State) (w : Who) : (leaveCore s w).sel = s.sel := rfl
@[simp] theorem leaveCore_chip (s : State) (w : Who) (n : Nat) : (leaveCore s w).chip n = s.chip n := rfl
theorem leaveCore_run (s : State) (w : Who) : ((leaveCore s w).core w.coreId).run ≠ some w.ctx := by
  unfold leaveCore
  rw [State.core_updCore_same]
  split
  · simp
  · assumption
@[simp] theorem blockOn_cur (s : State) (b : BlockCause) :
    (blockOn s b).cur = { s.cur with st := .blocked, block := b, moved := true } := State.cur_upd _ _
@[simp] theorem blockOn_mem (s : State) (b : BlockCause) : (blockOn s b).mem = s.mem := rfl
theorem blockOn_run (s : State) (b : BlockCause) : ((blockOn s b).core s.sel.who.coreId).run ≠ some s.sel.who.ctx :=
  leaveCore_run s s.sel.who
@[simp] theorem stallCycle_cur (s : State) : (stallCycle s).cur = { s.cur with moved := true } := State.cur_upd _ _
@[simp] theorem stallCycle_mem (s : State) : (stallCycle s).mem = s.mem := rfl

/-! ## Traps -/

@[simp] theorem fileFault_ctx (s : State) (n vf : Nat) (r : FaultRec) (w : Who) : (s.fileFault n vf r).ctx w = s.ctx w := rfl
@[simp] theorem endTask_ctx (s : State) (w v : Who) : (endTask s w).ctx v = s.ctx v := by unfold endTask; dsimp only; split <;> rfl
@[simp] theorem endTask_mem (s : State) (w : Who) : (endTask s w).mem = s.mem := by unfold endTask; dsimp only; split <;> rfl
@[simp] theorem endTask_sel (s : State) (w : Who) : (endTask s w).sel = s.sel := by unfold endTask; dsimp only; split <;> rfl
@[simp] theorem endTask_core (s : State) (w : Who) (c : CoreId) : (endTask s w).core c = s.core c := by unfold endTask; dsimp only; split <;> rfl
@[simp] theorem endTask_pkts (s : State) (w : Who) : (endTask s w).pkts = s.pkts := by unfold endTask; dsimp only; split <;> rfl
@[simp] theorem dropBuffered_mem (s : State) (w : Who) : (dropBuffered s w).mem = s.mem := rfl
@[simp] theorem dropBuffered_sel (s : State) (w : Who) : (dropBuffered s w).sel = s.sel := rfl
@[simp] theorem dropClosing_ctx (s : State) (w v : Who) : (dropClosing s w).ctx v = s.ctx v := by unfold dropClosing; dsimp only; split <;> rfl
@[simp] theorem dropClosing_mem (s : State) (w : Who) : (dropClosing s w).mem = s.mem := by unfold dropClosing; dsimp only; split <;> rfl
/-- What discarding the buffer changes of its context: the allowances of its windows alone. -/
theorem dropBuffered_ctx_same (s : State) (w : Who) :
    ∃ a, (dropBuffered s w).ctx w = { s.ctx w with csr := { (s.ctx w).csr with winAvail := a } } :=
  ⟨_, State.ctx_updCtx_same _ _ _⟩
@[simp] theorem releaseHolds_mem (s : State) (w : Who) (r : Bool) : (releaseHolds s w r).mem = s.mem := rfl
@[simp] theorem releaseHolds_sel (s : State) (w : Who) (r : Bool) : (releaseHolds s w r).sel = s.sel := rfl
/-- Releasing holds changes the hold list and RABT of a context at most. -/
theorem releaseHolds_ctx (s : State) (w v : Who) (r : Bool) :
    ∃ h b, (releaseHolds s w r).ctx v = { s.ctx v with holds := h, csr := { (s.ctx v).csr with segRabt := b } } := by
  let f : Who → Ctx → Ctx := fun k c =>
    if k.chip = w.chip ∧ k.clus = w.clus ∧ k.ctx = w.ctx ∧ c.holds.contains w.core then
      { c with holds := c.holds.filter (fun k => k ≠ w.core), csr := { c.csr with segRabt := c.csr.segRabt || r } }
    else c
  have e : (releaseHolds s w r).ctxs = List.map (fun p => (p.1, f p.1 p.2)) s.ctxs := by
    unfold releaseHolds
    refine List.map_congr_left (fun p _ => ?_)
    show _ = (p.1, if _ then _ else _)
    split <;> rfl
  have hd : f v (Ctx.reset v) = Ctx.reset v := by
    show (if _ then _ else _) = _
    rw [if_neg]; simp [Ctx.reset]
  have : (releaseHolds s w r).ctx v = f v (s.ctx v) := by
    show AMap.get (releaseHolds s w r).ctxs v _ = _
    rw [e]; exact AMap.get_mapVal s.ctxs f v _ hd
  rw [this]
  by_cases hc : v.chip = w.chip ∧ v.clus = w.clus ∧ v.ctx = w.ctx ∧ (s.ctx v).holds.contains w.core = true
  · exact ⟨_, _, if_pos hc⟩
  · exact ⟨(s.ctx v).holds, (s.ctx v).csr.segRabt, if_neg hc⟩

/-- A retryable trap: its context freezes in place. -/
theorem trapFreeze_ctx (s : State) (w : Who) (a : TrapArgs) :
    (trapFreeze s w a).ctx w =
      { (s.ctx w).record (s.clkOf w) s.free a with
        st := if (s.ctx w).st = .halted then .halted else .frozen,
        from_ := if (s.ctx w).st = .frozen then (s.ctx w).from_ else (s.ctx w).st,
        freeze := a.freeze, retry := some ⟨a.code, a.pc, a.info⟩ } := by
  unfold trapFreeze
  simp only [fileFault_ctx, leaveCore_ctx, State.ctx_updCtx_same]
@[simp] theorem trapFreeze_mem (s : State) (w : Who) (a : TrapArgs) : (trapFreeze s w a).mem = s.mem := rfl
/-- A trap to TVEC changes one context alone. -/
theorem trapVector_ctx (s : State) (w : Who) (a : TrapArgs) :
    (trapVector s w a).ctx w =
      { (s.ctx w).record (s.clkOf w) s.free a with
        csr := { (s.ctx w).csr with pmode := (s.ctx w).csr.mode, mode := true },
        st := if (s.ctx w).st = .blocked ∨ (s.ctx w).st = .dormant then .ready else (s.ctx w).st, block := .none, entryNext := false,
        pc := ((s.ctx w).tvecAt (s.clkOf w) s.free >>> 2) <<< 2, arrive := .taken, rep := 0, repOn := false,
        sig := { (s.ctx w).sig with live := false } } :=
  State.ctx_updCtx_same s w _
@[simp] theorem trapVector_mem (s : State) (w : Who) (a : TrapArgs) : (trapVector s w a).mem = s.mem := rfl
@[simp] theorem trapTerminal_mem (s : State) (w : Who) (a : TrapArgs) : (trapTerminal s w a).mem = s.mem := by
  show (releaseHolds (leaveCore _ w) w true).mem = s.mem
  simp [dropClosing_mem]
/-- A trap's record is made of nothing that the allowances of windows change. -/
theorem record_winAvail (c : Ctx) (v : Vector (BitVec 16) 16) (t free : Nat) (a : TrapArgs) :
    ({ c with csr := { c.csr with winAvail := v } } : Ctx).record t free a =
      { c.record t free a with csr := { c.csr with winAvail := v } } := by
  have e : ({ c with csr := { c.csr with winAvail := v } } : Ctx).validAt t free = c.validAt t free := rfl
  unfold Ctx.record
  rw [e]
  split <;> rfl
/-- A terminal trap: its context is Halted outside any segment, and the first trap's record is kept. -/
theorem trapTerminal_ctx (s : State) (w : Who) (a : TrapArgs) :
    ∃ (k : Csr) (h : List Nat), (trapTerminal s w a).ctx w =
      { ((s.ctx w).record (s.clkOf w) s.free a).dropSeg with st := .halted, from_ := .halted, csr := k, holds := h } := by
  unfold trapTerminal
  simp only [fileFault_ctx]
  obtain ⟨h, b, e⟩ := releaseHolds_ctx (leaveCore ((dropClosing (dropBuffered (endTask s w) w) w).updCtx w (fun c =>
    { (c.record (s.clkOf w) s.free a).dropSeg with st := .halted, from_ := .halted })) w) w w true
  rw [e]
  obtain ⟨m, e2⟩ := dropBuffered_ctx_same (endTask s w) w
  simp only [leaveCore_ctx, State.ctx_updCtx_same, dropClosing_ctx, e2, endTask_ctx]
  rw [record_winAvail]
  exact ⟨_, _, rfl⟩
@[simp] theorem takeTrap_mem (s : State) (w : Who) (a : TrapArgs) : (takeTrap s w a).mem = s.mem := by
  unfold takeTrap; split
  · simp
  · split <;> simp
@[simp] theorem raiseTrap_mem (s : State) (a : TrapArgs) : (raiseTrap s a).mem = s.mem := by
  unfold raiseTrap; dsimp only; split <;> simp

/-! ## Guards -/

/-- An operation under its guard answers a next state. -/
theorem guarded_next (sl : Slot) (g : Guard) (s : State) (f : State → State) : ∃ t, guarded sl g s f = .next t := ⟨_, rfl⟩
/-- So does one that may fault: the trap is a next state too. -/
theorem guardedFault_next (sl : Slot) (g : Guard) (s : State) (x : Option TrapArgs) (f : State → State) :
    ∃ t, guardedFault sl g s x f = .next t := ⟨_, rfl⟩
/-- Under a false guard nothing happens (R14). -/
theorem guarded_off (sl : Slot) (g : Guard) (s : State) (f : State → State) (h : s.guard sl g = false) : guarded sl g s f = .next s := by
  simp [guarded, h]
theorem guarded_on (sl : Slot) (g : Guard) (s : State) (f : State → State) (h : s.guard sl g = true) : guarded sl g s f = .next (f s) := by
  simp [guarded, h]
theorem guardedFault_off (sl : Slot) (g : Guard) (s : State) (x : Option TrapArgs) (f : State → State) (h : s.guard sl g = false) :
    guardedFault sl g s x f = .next s := by simp [guardedFault, h]
theorem guardedFault_trap (sl : Slot) (g : Guard) (s : State) (a : TrapArgs) (f : State → State) (h : s.guard sl g = true) :
    guardedFault sl g s (some a) f = .next (raiseTrap s a) := by simp [guardedFault, h]
theorem guardedFault_ok (sl : Slot) (g : Guard) (s : State) (f : State → State) (h : s.guard sl g = true) :
    guardedFault sl g s none f = .next (f s) := by simp [guardedFault, h]

/-! ## The meanings of slot operations -/

/-- Every slot operation answers a next state in every state. -/
theorem slotMeaning_next (i : Instr) (h : (slotOf i).isSome = true) (s : State) : ∃ t, slotMeaning i s = .next t := by
  cases i <;> first | (cases h; done) | exact ⟨_, rfl⟩
/-- A bundle runs an operation by the meaning that Dispatch gives it. -/
theorem slotMeaning_exec (i : Instr) (h : (slotOf i).isSome = true) (s : State) : slotMeaning i s = exec i s := by
  cases i <;> first | (cases h; done) | rfl
/-- So do operations in a row. -/
theorem runOps_next : ∀ (l : List Instr), (∀ i ∈ l, (slotOf i).isSome = true) → ∀ s, ∃ t, runOps l s = .next t
  | [], _, s => ⟨s, rfl⟩
  | i :: r, h, s => by
    obtain ⟨t, ht⟩ := slotMeaning_next i (h i List.mem_cons_self) s
    obtain ⟨u, hu⟩ := runOps_next r (fun j hj => h j (List.mem_cons_of_mem _ hj)) t
    exact ⟨u, by simp [runOps, ht, hu]⟩

/-! ## Halting -/

/-- A committed halt: the context is parked and its core free. -/
theorem enterHalt_ctx (s : State) (w : Who) :
    (enterHalt s w).ctx w =
      (let c := s.ctx w
       let t := s.clkOf w
       let h := hdlAfter t c.flight c.csr.ctxHdl
       let st := if h.getLsbD 0 || h.getLsbD 1 then CtxState.dormant else CtxState.halted
       { c with st := st, from_ := st, halting := false,
                flight := c.flight.filter (fun l => !(l.dest = .csr 0x044 ∧ l.issued < t)),
                csr := { c.csr with ctxHdl := h, revCur := 0x8000000000000000 } }) := by
  unfold enterHalt
  simp only [State.ctx_updCtx_same, leaveCore_ctx, endTask_ctx]
@[simp] theorem enterHalt_mem (s : State) (w : Who) : (enterHalt s w).mem = s.mem := by
  show (leaveCore (endTask s w) w).mem = s.mem
  simp
theorem enterHalt_run (s : State) (w : Who) : ((enterHalt s w).core w.coreId).run ≠ some w.ctx := leaveCore_run (endTask s w) w

end Sys2Proof.Machine
end

