-- ==== Sys2Proof/Laws/PerInstr.lean ====
section
/-! SUPPORT. Sys2Proof/Laws/PerInstr.lean: the family WordsLaw: an encoding has a second syllable exactly when its L bit
is 1 (spec/02 R40). -/

namespace Sys2Proof.Laws

/-- The L bit of a framed syllable. -/
@[simp] theorem lBit_frame (l : Bool) (op : BitVec 7) (g : Guard) (o : BitVec 20) : lBit (frame l op g o) = l := by
  have h : (frame l op g o).msb = l := by
    unfold frame
    rw [BitVec.msb_append, BitVec.msb_append, BitVec.msb_append, BitVec.msb_append]
    cases l <;> simp [BitVec.msb]
  rw [BitVec.msb_eq_getLsbD_last] at h
  exact h
/-- An immediate has a second syllable exactly when it is long. -/
@[simp] theorem isSome_second {n : Nat} (i : Imm n) : i.second.isSome = i.isLong := by cases i <;> rfl
/-- The operand of a comparison likewise. -/
@[simp] theorem isSome_rhs (r : SRhs) : r.second.isSome = (match r with | .reg _ => false | .imm _ => true) := by cases r <;> rfl

/-- The family's statement. -/
def WordsLaw.Statement (i : Instr) : Prop := ∀ q, encode i = some q → lBit q.1 = q.2.isSome

/-- A row without an encoding. -/
theorem words_none {i : Instr} (h : encode i = none) : WordsLaw.Statement i := by
  intro q hq; rw [h] at hq; cases hq
/-- A row with the words given. -/
theorem words_some {i : Instr} {p : Words} (h : encode i = some p) (hl : lBit p.1 = p.2.isSome) : WordsLaw.Statement i := by
  intro q hq; rw [h] at hq; cases hq; exact hl

theorem words_SR (o : SR) (op : BitVec 7) : lBit (o.words op).1 = (o.words op).2.isSome := by simp [SR.words]
theorem words_SRX (o : SRX) (op : BitVec 7) : lBit (o.words op).1 = (o.words op).2.isSome := by simp [SRX.words]
theorem words_SI (o : SI) (op : BitVec 7) : lBit (o.words op).1 = (o.words op).2.isSome := by simp [SI.words]
theorem words_SL (o : SL) (op : BitVec 7) : lBit (o.words op).1 = (o.words op).2.isSome := by simp [SL.words]
theorem words_SC (o : SC) (op : BitVec 7) : lBit (o.words op).1 = (o.words op).2.isSome := by simp [SC.words]
theorem words_SP (o : SP) (op : BitVec 7) : lBit (o.words op).1 = (o.words op).2.isSome := by simp [SP.words]
theorem words_SB (o : SB) (op : BitVec 7) : lBit (o.words op).1 = (o.words op).2.isSome := by simp [SB.words]
theorem words_SBC (o : SBC) (op : BitVec 7) : lBit (o.words op).1 = (o.words op).2.isSome := by simp [SBC.words]
theorem words_SLP (o : SLP) (op : BitVec 7) : lBit (o.words op).1 = (o.words op).2.isSome := by simp [SLP.words]
theorem words_SN (o : SN) (op : BitVec 7) : lBit (o.words op).1 = (o.words op).2.isSome := by simp [SN.words]
theorem words_SJ (o : SJ) (op : BitVec 7) : lBit (o.words op).1 = (o.words op).2.isSome := by simp [SJ.words]
theorem words_SRRB (o : SRRB) (op : BitVec 7) : lBit (o.words op).1 = (o.words op).2.isSome := by simp [SRRB.words]
theorem words_SWT (o : SWT) (op : BitVec 7) : lBit (o.words op).1 = (o.words op).2.isSome := by simp [SWT.words]
theorem words_SWR (o : SWR) (op : BitVec 7) : lBit (o.words op).1 = (o.words op).2.isSome := by simp [SWR.words]
theorem words_STR (o : STR) (op : BitVec 7) : lBit (o.words op).1 = (o.words op).2.isSome := by simp [STR.words]
theorem words_SRF (o : SRF) (op : BitVec 7) : lBit (o.words op).1 = (o.words op).2.isSome := by simp [SRF.words]
theorem words_VOp (o : VOp) (op : BitVec 7) : lBit (o.words op).1 = (o.words op).2.isSome := by simp [VOp.words]
theorem words_FA (o : FA) (op : BitVec 7) : lBit (o.words op).1 = (o.words op).2.isSome := by simp [FA.words]
theorem words_FCp (o : FCp) (op : BitVec 7) : lBit (o.words op).1 = (o.words op).2.isSome := by simp [FCp.words]
theorem words_DA (o : DA) (op : BitVec 7) : lBit (o.words op).1 = (o.words op).2.isSome := by simp [DA.words]
theorem words_DT (o : DT) (op : BitVec 7) : lBit (o.words op).1 = (o.words op).2.isSome := by simp [DT.words]
theorem words_DM (o : DM) (op : BitVec 7) : lBit (o.words op).1 = (o.words op).2.isSome := by simp [DM.words]
theorem words_DF (o : DF) (op : BitVec 7) : lBit (o.words op).1 = (o.words op).2.isSome := by simp [DF.words]
theorem words_DL (o : DL) (op : BitVec 7) : lBit (o.words op).1 = (o.words op).2.isSome := by simp [DL.words]
theorem words_DW (o : DW) (op : BitVec 7) : lBit (o.words op).1 = (o.words op).2.isSome := by simp [DW.words]
theorem words_MRow (o : MRow) (op : BitVec 7) : lBit (o.words op).1 = (o.words op).2.isSome := by simp [MRow.words]
theorem words_MDrain (o : MDrain) (op : BitVec 7) : lBit (o.words op).1 = (o.words op).2.isSome := by simp [MDrain.words]
theorem words_MLd (o : MLd) (op : BitVec 7) : lBit (o.words op).1 = (o.words op).2.isSome := by simp [MLd.words]
theorem words_MKat (o : MKat) (op : BitVec 7) : lBit (o.words op).1 = (o.words op).2.isSome := by simp [MKat.words]
theorem words_MChk (o : MChk) (op : BitVec 7) : lBit (o.words op).1 = (o.words op).2.isSome := by simp [MChk.words]
theorem words_KLd (o : KLd) (op : BitVec 7) : lBit (o.words op).1 = (o.words op).2.isSome := by simp [KLd.words]
theorem words_KSet (o : KSet) (op : BitVec 7) : lBit (o.words op).1 = (o.words op).2.isSome := by simp [KSet.words]
theorem words_KMov (o : KMov) (op : BitVec 7) : lBit (o.words op).1 = (o.words op).2.isSome := by simp [KMov.words]
theorem words_EOp (o : EOp) (op : BitVec 7) : lBit (o.words op).1 = (o.words op).2.isSome := by simp [EOp.words]

theorem WordsLaw.bundleIssue : WordsLaw.Statement .bundleIssue := words_none rfl
theorem WordsLaw.blockRelease : WordsLaw.Statement .blockRelease := words_none rfl
theorem WordsLaw.resultLand : WordsLaw.Statement .resultLand := words_none rfl
theorem WordsLaw.lateFault : WordsLaw.Statement .lateFault := words_none rfl
theorem WordsLaw.queueSpill : WordsLaw.Statement .queueSpill := words_none rfl
theorem WordsLaw.eQueueHead : WordsLaw.Statement .eQueueHead := words_none rfl
theorem WordsLaw.globalLoadLand : WordsLaw.Statement .globalLoadLand := words_none rfl
theorem WordsLaw.tileRowsDone : WordsLaw.Statement .tileRowsDone := words_none rfl
theorem WordsLaw.accessPerformed : WordsLaw.Statement .accessPerformed := words_none rfl
theorem WordsLaw.homeSliceAccess : WordsLaw.Statement .homeSliceAccess := words_none rfl
theorem WordsLaw.mcRequestAccept : WordsLaw.Statement .mcRequestAccept := words_none rfl
theorem WordsLaw.sorrelSlotGrant : WordsLaw.Statement .sorrelSlotGrant := words_none rfl
theorem WordsLaw.arbiterGrant : WordsLaw.Statement .arbiterGrant := words_none rfl
theorem WordsLaw.packetArrival : WordsLaw.Statement .packetArrival := words_none rfl
theorem WordsLaw.requestPerform : WordsLaw.Statement .requestPerform := words_none rfl
theorem WordsLaw.replyLand : WordsLaw.Statement .replyLand := words_none rfl
theorem WordsLaw.windowAck : WordsLaw.Statement .windowAck := words_none rfl
theorem WordsLaw.portLinkChange : WordsLaw.Statement .portLinkChange := words_none rfl
theorem WordsLaw.linkStateNotice : WordsLaw.Statement .linkStateNotice := words_none rfl
theorem WordsLaw.flowModeDrained : WordsLaw.Statement .flowModeDrained := words_none rfl
theorem WordsLaw.matrixOpStart : WordsLaw.Statement .matrixOpStart := words_none rfl
theorem WordsLaw.matrixOpComplete : WordsLaw.Statement .matrixOpComplete := words_none rfl
theorem WordsLaw.copyStart : WordsLaw.Statement .copyStart := words_none rfl
theorem WordsLaw.copyComplete : WordsLaw.Statement .copyComplete := words_none rfl
theorem WordsLaw.fifoEntryPush : WordsLaw.Statement .fifoEntryPush := words_none rfl
theorem WordsLaw.amsgSend : WordsLaw.Statement .amsgSend := words_none rfl
theorem WordsLaw.amsgLand : WordsLaw.Statement .amsgLand := words_none rfl
theorem WordsLaw.handlerStart : WordsLaw.Statement .handlerStart := words_none rfl
theorem WordsLaw.taskPostAccept : WordsLaw.Statement .taskPostAccept := words_none rfl
theorem WordsLaw.taskDecApply : WordsLaw.Statement .taskDecApply := words_none rfl
theorem WordsLaw.dispatchDecision : WordsLaw.Statement .dispatchDecision := words_none rfl
theorem WordsLaw.taskStart : WordsLaw.Statement .taskStart := words_none rfl
theorem WordsLaw.barrierArrival : WordsLaw.Statement .barrierArrival := words_none rfl
theorem WordsLaw.barrierComplete : WordsLaw.Statement .barrierComplete := words_none rfl
theorem WordsLaw.gbarArrival : WordsLaw.Statement .gbarArrival := words_none rfl
theorem WordsLaw.gbarComplete : WordsLaw.Statement .gbarComplete := words_none rfl
theorem WordsLaw.memberFinish : WordsLaw.Statement .memberFinish := words_none rfl
theorem WordsLaw.forkPerform : WordsLaw.Statement .forkPerform := words_none rfl
theorem WordsLaw.joinPerform : WordsLaw.Statement .joinPerform := words_none rfl
theorem WordsLaw.revStPerform : WordsLaw.Statement .revStPerform := words_none rfl
theorem WordsLaw.segmentCommit : WordsLaw.Statement .segmentCommit := words_none rfl
theorem WordsLaw.segmentIssueLimit : WordsLaw.Statement .segmentIssueLimit := words_none rfl
theorem WordsLaw.holdRelease : WordsLaw.Statement .holdRelease := words_none rfl
theorem WordsLaw.preemptionRequest : WordsLaw.Statement .preemptionRequest := words_none rfl
theorem WordsLaw.esendSlot : WordsLaw.Statement .esendSlot := words_none rfl
theorem WordsLaw.esendSlotPerform : WordsLaw.Statement .esendSlotPerform := words_none rfl
theorem WordsLaw.erelNotice : WordsLaw.Statement .erelNotice := words_none rfl
theorem WordsLaw.erelNoticeArrival : WordsLaw.Statement .erelNoticeArrival := words_none rfl
theorem WordsLaw.eprobeRead : WordsLaw.Statement .eprobeRead := words_none rfl
theorem WordsLaw.slkApply : WordsLaw.Statement .slkApply := words_none rfl
theorem WordsLaw.collContextTake : WordsLaw.Statement .collContextTake := words_none rfl
theorem WordsLaw.collStartFlit : WordsLaw.Statement .collStartFlit := words_none rfl
theorem WordsLaw.collGo : WordsLaw.Statement .collGo := words_none rfl
theorem WordsLaw.collAbort : WordsLaw.Statement .collAbort := words_none rfl
theorem WordsLaw.collChunk : WordsLaw.Statement .collChunk := words_none rfl
theorem WordsLaw.collComplete : WordsLaw.Statement .collComplete := words_none rfl
theorem WordsLaw.almwApply : WordsLaw.Statement .almwApply := words_none rfl
theorem WordsLaw.xtloadApply : WordsLaw.Statement .xtloadApply := words_none rfl
theorem WordsLaw.migStartApply : WordsLaw.Statement .migStartApply := words_none rfl
theorem WordsLaw.migDoneApply : WordsLaw.Statement .migDoneApply := words_none rfl
theorem WordsLaw.periodMark : WordsLaw.Statement .periodMark := words_none rfl
theorem WordsLaw.periodDrained : WordsLaw.Statement .periodDrained := words_none rfl
theorem WordsLaw.policyEvaluation : WordsLaw.Statement .policyEvaluation := words_none rfl
theorem WordsLaw.firmwareRetireRetry : WordsLaw.Statement .firmwareRetireRetry := words_none rfl
theorem WordsLaw.slotBoundary : WordsLaw.Statement .slotBoundary := words_none rfl
theorem WordsLaw.frameEndReport : WordsLaw.Statement .frameEndReport := words_none rfl
theorem WordsLaw.almanacDeltas : WordsLaw.Statement .almanacDeltas := words_none rfl
theorem WordsLaw.prepare : WordsLaw.Statement .prepare := words_none rfl
theorem WordsLaw.ack : WordsLaw.Statement .ack := words_none rfl
theorem WordsLaw.ackResend : WordsLaw.Statement .ackResend := words_none rfl
theorem WordsLaw.refuse : WordsLaw.Statement .refuse := words_none rfl
theorem WordsLaw.voteTimeout : WordsLaw.Statement .voteTimeout := words_none rfl
theorem WordsLaw.commit : WordsLaw.Statement .commit := words_none rfl
theorem WordsLaw.abort : WordsLaw.Statement .abort := words_none rfl
theorem WordsLaw.ready : WordsLaw.Statement .ready := words_none rfl
theorem WordsLaw.notready : WordsLaw.Statement .notready := words_none rfl
theorem WordsLaw.startTimeout : WordsLaw.Statement .startTimeout := words_none rfl
theorem WordsLaw.go : WordsLaw.Statement .go := words_none rfl
theorem WordsLaw.voteHalt : WordsLaw.Statement .voteHalt := words_none rfl
theorem WordsLaw.unitFillDone : WordsLaw.Statement .unitFillDone := words_none rfl
theorem WordsLaw.peerReset : WordsLaw.Statement .peerReset := words_none rfl
theorem WordsLaw.vfReset : WordsLaw.Statement .vfReset := words_none rfl
theorem WordsLaw.deviceReset : WordsLaw.Statement .deviceReset := words_none rfl
theorem WordsLaw.launchRecord : WordsLaw.Statement .launchRecord := words_none rfl
theorem WordsLaw.translationRecord : WordsLaw.Statement .translationRecord := words_none rfl
theorem WordsLaw.faultReportWrite : WordsLaw.Statement .faultReportWrite := words_none rfl
theorem WordsLaw.frResume : WordsLaw.Statement .frResume := words_none rfl
theorem WordsLaw.gangKill : WordsLaw.Statement .gangKill := words_none rfl
theorem WordsLaw.dirtyLogRecord : WordsLaw.Statement .dirtyLogRecord := words_none rfl
theorem WordsLaw.dlClear : WordsLaw.Statement .dlClear := words_none rfl
theorem WordsLaw.frameAssign : WordsLaw.Statement .frameAssign := words_none rfl
theorem WordsLaw.frameFree : WordsLaw.Statement .frameFree := words_none rfl
theorem WordsLaw.frameQuery : WordsLaw.Statement .frameQuery := words_none rfl
theorem WordsLaw.scrubEnd : WordsLaw.Statement .scrubEnd := words_none rfl
theorem WordsLaw.gcCtlWrite : WordsLaw.Statement .gcCtlWrite := words_none rfl
theorem WordsLaw.s2BaseWrite : WordsLaw.Statement .s2BaseWrite := words_none rfl
theorem WordsLaw.winAllowMaxWrite : WordsLaw.Statement .winAllowMaxWrite := words_none rfl
theorem WordsLaw.retwWaysWrite : WordsLaw.Statement .retwWaysWrite := words_none rfl
theorem WordsLaw.ancPoolWrite : WordsLaw.Statement .ancPoolWrite := words_none rfl
theorem WordsLaw.ancBaseWrite : WordsLaw.Statement .ancBaseWrite := words_none rfl
theorem WordsLaw.registerWrite : WordsLaw.Statement .registerWrite := words_none rfl
theorem WordsLaw.ckTake : WordsLaw.Statement .ckTake := words_none rfl
theorem WordsLaw.checkpointWrite : WordsLaw.Statement .checkpointWrite := words_none rfl
theorem WordsLaw.checkpointComplete : WordsLaw.Statement .checkpointComplete := words_none rfl
theorem WordsLaw.ckRestore : WordsLaw.Statement .ckRestore := words_none rfl
theorem WordsLaw.attestationRequest : WordsLaw.Statement .attestationRequest := words_none rfl
theorem WordsLaw.ifsScan : WordsLaw.Statement .ifsScan := words_none rfl
theorem WordsLaw.ifsComplete : WordsLaw.Statement .ifsComplete := words_none rfl
theorem WordsLaw.supplySag : WordsLaw.Statement .supplySag := words_none rfl
theorem WordsLaw.sagRecover : WordsLaw.Statement .sagRecover := words_none rfl
theorem WordsLaw.freeze : WordsLaw.Statement .freeze := words_none rfl
theorem WordsLaw.powerOn : WordsLaw.Statement .powerOn := words_none rfl
theorem WordsLaw.add (o : SR) : WordsLaw.Statement (.add o) := words_some rfl (words_SR o _)
theorem WordsLaw.sub (o : SR) : WordsLaw.Statement (.sub o) := words_some rfl (words_SR o _)
theorem WordsLaw.mul (o : SR) : WordsLaw.Statement (.mul o) := words_some rfl (words_SR o _)
theorem WordsLaw.mulh (o : SR) : WordsLaw.Statement (.mulh o) := words_some rfl (words_SR o _)
theorem WordsLaw.mulhn (o : SR) : WordsLaw.Statement (.mulhn o) := words_some rfl (words_SR o _)
theorem WordsLaw.div (o : SR) : WordsLaw.Statement (.div o) := words_some rfl (words_SR o _)
theorem WordsLaw.divn (o : SR) : WordsLaw.Statement (.divn o) := words_some rfl (words_SR o _)
theorem WordsLaw.rem (o : SR) : WordsLaw.Statement (.rem o) := words_some rfl (words_SR o _)
theorem WordsLaw.remn (o : SR) : WordsLaw.Statement (.remn o) := words_some rfl (words_SR o _)
theorem WordsLaw.and (o : SR) : WordsLaw.Statement (.and o) := words_some rfl (words_SR o _)
theorem WordsLaw.or (o : SR) : WordsLaw.Statement (.or o) := words_some rfl (words_SR o _)
theorem WordsLaw.xor (o : SR) : WordsLaw.Statement (.xor o) := words_some rfl (words_SR o _)
theorem WordsLaw.andn (o : SR) : WordsLaw.Statement (.andn o) := words_some rfl (words_SR o _)
theorem WordsLaw.shl (o : SR) : WordsLaw.Statement (.shl o) := words_some rfl (words_SR o _)
theorem WordsLaw.shr (o : SR) : WordsLaw.Statement (.shr o) := words_some rfl (words_SR o _)
theorem WordsLaw.sar (o : SR) : WordsLaw.Statement (.sar o) := words_some rfl (words_SR o _)
theorem WordsLaw.rotl (o : SR) : WordsLaw.Statement (.rotl o) := words_some rfl (words_SR o _)
theorem WordsLaw.min (o : SR) : WordsLaw.Statement (.min o) := words_some rfl (words_SR o _)
theorem WordsLaw.max (o : SR) : WordsLaw.Statement (.max o) := words_some rfl (words_SR o _)
theorem WordsLaw.minn (o : SR) : WordsLaw.Statement (.minn o) := words_some rfl (words_SR o _)
theorem WordsLaw.maxn (o : SR) : WordsLaw.Statement (.maxn o) := words_some rfl (words_SR o _)
theorem WordsLaw.clz (o : SR) : WordsLaw.Statement (.clz o) := words_some rfl (words_SR o _)
theorem WordsLaw.ctz (o : SR) : WordsLaw.Statement (.ctz o) := words_some rfl (words_SR o _)
theorem WordsLaw.popc (o : SR) : WordsLaw.Statement (.popc o) := words_some rfl (words_SR o _)
theorem WordsLaw.sext (o : SR) : WordsLaw.Statement (.sext o) := words_some rfl (words_SR o _)
theorem WordsLaw.zext (o : SR) : WordsLaw.Statement (.zext o) := words_some rfl (words_SR o _)
theorem WordsLaw.bfx (o : SRX) : WordsLaw.Statement (.bfx o) := words_some rfl (words_SRX o _)
theorem WordsLaw.bfi (o : SRX) : WordsLaw.Statement (.bfi o) := words_some rfl (words_SRX o _)
theorem WordsLaw.lea (o : SR) : WordsLaw.Statement (.lea o) := words_some rfl (words_SR o _)
theorem WordsLaw.sel (o : SR) : WordsLaw.Statement (.sel o) := words_some rfl (words_SR o _)
theorem WordsLaw.addi (o : SI) : WordsLaw.Statement (.addi o) := words_some rfl (words_SI o _)
theorem WordsLaw.andi (o : SI) : WordsLaw.Statement (.andi o) := words_some rfl (words_SI o _)
theorem WordsLaw.ori (o : SI) : WordsLaw.Statement (.ori o) := words_some rfl (words_SI o _)
theorem WordsLaw.xori (o : SI) : WordsLaw.Statement (.xori o) := words_some rfl (words_SI o _)
theorem WordsLaw.shli (o : SI) : WordsLaw.Statement (.shli o) := words_some rfl (words_SI o _)
theorem WordsLaw.shri (o : SI) : WordsLaw.Statement (.shri o) := words_some rfl (words_SI o _)
theorem WordsLaw.sari (o : SI) : WordsLaw.Statement (.sari o) := words_some rfl (words_SI o _)
theorem WordsLaw.li (o : SL) : WordsLaw.Statement (.li o) := words_some rfl (words_SL o _)
theorem WordsLaw.lih (o : SL) : WordsLaw.Statement (.lih o) := words_some rfl (words_SL o _)
theorem WordsLaw.cmp (o : SC) : WordsLaw.Statement (.cmp o) := words_some rfl (words_SC o _)
theorem WordsLaw.pset (o : SP) : WordsLaw.Statement (.pset o) := words_some rfl (words_SP o _)
theorem WordsLaw.pand (o : SP) : WordsLaw.Statement (.pand o) := words_some rfl (words_SP o _)
theorem WordsLaw.por (o : SP) : WordsLaw.Statement (.por o) := words_some rfl (words_SP o _)
theorem WordsLaw.pnot (o : SP) : WordsLaw.Statement (.pnot o) := words_some rfl (words_SP o _)
theorem WordsLaw.fadd (o : SR) : WordsLaw.Statement (.fadd o) := words_some rfl (words_SR o _)
theorem WordsLaw.fsub (o : SR) : WordsLaw.Statement (.fsub o) := words_some rfl (words_SR o _)
theorem WordsLaw.fmul (o : SR) : WordsLaw.Statement (.fmul o) := words_some rfl (words_SR o _)
theorem WordsLaw.fma (o : SR) : WordsLaw.Statement (.fma o) := words_some rfl (words_SR o _)
theorem WordsLaw.fmin (o : SR) : WordsLaw.Statement (.fmin o) := words_some rfl (words_SR o _)
theorem WordsLaw.fmax (o : SR) : WordsLaw.Statement (.fmax o) := words_some rfl (words_SR o _)
theorem WordsLaw.fcmp (o : SC) : WordsLaw.Statement (.fcmp o) := words_some rfl (words_SC o _)
theorem WordsLaw.fcvt (o : SR) : WordsLaw.Statement (.fcvt o) := words_some rfl (words_SR o _)
theorem WordsLaw.br (o : SB) : WordsLaw.Statement (.br o) := words_some rfl (words_SB o _)
theorem WordsLaw.bc (o : SBC) : WordsLaw.Statement (.bc o) := words_some rfl (words_SBC o _)
theorem WordsLaw.call (o : SB) : WordsLaw.Statement (.call o) := words_some rfl (words_SB o _)
theorem WordsLaw.ret (o : SN) : WordsLaw.Statement (.ret o) := words_some rfl (words_SN o _)
theorem WordsLaw.jr (o : SJ) : WordsLaw.Statement (.jr o) := words_some rfl (words_SJ o _)
theorem WordsLaw.loop (o : SLP) : WordsLaw.Statement (.loop o) := words_some rfl (words_SLP o _)
theorem WordsLaw.lbrk (o : SLP) : WordsLaw.Statement (.lbrk o) := words_some rfl (words_SLP o _)
theorem WordsLaw.rrbSet (o : SRRB) : WordsLaw.Statement (.rrbSet o) := words_some rfl (words_SRRB o _)
theorem WordsLaw.rrbClr (o : SRRB) : WordsLaw.Statement (.rrbClr o) := words_some rfl (words_SRRB o _)
theorem WordsLaw.nop (o : SN) : WordsLaw.Statement (.nop o) := words_some rfl (words_SN o _)
theorem WordsLaw.halt (o : SN) : WordsLaw.Statement (.halt o) := words_some rfl (words_SN o _)
theorem WordsLaw.wait (o : SWT) : WordsLaw.Statement (.wait o) := words_some rfl (words_SWT o _)
theorem WordsLaw.waitReg (o : SWR) : WordsLaw.Statement (.waitReg o) := words_some rfl (words_SWR o _)
theorem WordsLaw.yield (o : SN) : WordsLaw.Statement (.yield o) := words_some rfl (words_SN o _)
theorem WordsLaw.trap (o : STR) : WordsLaw.Statement (.trap o) := words_some rfl (words_STR o _)
theorem WordsLaw.rfe (o : SRF) : WordsLaw.Statement (.rfe o) := words_some rfl (words_SRF o _)
theorem WordsLaw.idr (o : SR) : WordsLaw.Statement (.idr o) := words_some rfl (words_SR o _)
theorem WordsLaw.csrr (o : SRX) : WordsLaw.Statement (.csrr o) := words_some rfl (words_SRX o _)
theorem WordsLaw.csrw (o : SRX) : WordsLaw.Statement (.csrw o) := words_some rfl (words_SRX o _)
theorem WordsLaw.csrx (o : SRX) : WordsLaw.Statement (.csrx o) := words_some rfl (words_SRX o _)
theorem WordsLaw.cp (o : SR) : WordsLaw.Statement (.cp o) := words_some rfl (words_SR o _)
theorem WordsLaw.ovtLd (o : SR) : WordsLaw.Statement (.ovtLd o) := words_some rfl (words_SR o _)
theorem WordsLaw.vadd (o : VOp) : WordsLaw.Statement (.vadd o) := words_some rfl (words_VOp o _)
theorem WordsLaw.vsub (o : VOp) : WordsLaw.Statement (.vsub o) := words_some rfl (words_VOp o _)
theorem WordsLaw.vmul (o : VOp) : WordsLaw.Statement (.vmul o) := words_some rfl (words_VOp o _)
theorem WordsLaw.vfma (o : VOp) : WordsLaw.Statement (.vfma o) := words_some rfl (words_VOp o _)
theorem WordsLaw.vfms (o : VOp) : WordsLaw.Statement (.vfms o) := words_some rfl (words_VOp o _)
theorem WordsLaw.vfnma (o : VOp) : WordsLaw.Statement (.vfnma o) := words_some rfl (words_VOp o _)
theorem WordsLaw.vmin (o : VOp) : WordsLaw.Statement (.vmin o) := words_some rfl (words_VOp o _)
theorem WordsLaw.vmax (o : VOp) : WordsLaw.Statement (.vmax o) := words_some rfl (words_VOp o _)
theorem WordsLaw.vabs (o : VOp) : WordsLaw.Statement (.vabs o) := words_some rfl (words_VOp o _)
theorem WordsLaw.vneg (o : VOp) : WordsLaw.Statement (.vneg o) := words_some rfl (words_VOp o _)
theorem WordsLaw.vsatadd (o : VOp) : WordsLaw.Statement (.vsatadd o) := words_some rfl (words_VOp o _)
theorem WordsLaw.vsatsub (o : VOp) : WordsLaw.Statement (.vsatsub o) := words_some rfl (words_VOp o _)
theorem WordsLaw.vclamp (o : VOp) : WordsLaw.Statement (.vclamp o) := words_some rfl (words_VOp o _)
theorem WordsLaw.vdot4 (o : VOp) : WordsLaw.Statement (.vdot4 o) := words_some rfl (words_VOp o _)
theorem WordsLaw.vand (o : VOp) : WordsLaw.Statement (.vand o) := words_some rfl (words_VOp o _)
theorem WordsLaw.vor (o : VOp) : WordsLaw.Statement (.vor o) := words_some rfl (words_VOp o _)
theorem WordsLaw.vxor (o : VOp) : WordsLaw.Statement (.vxor o) := words_some rfl (words_VOp o _)
theorem WordsLaw.vandn (o : VOp) : WordsLaw.Statement (.vandn o) := words_some rfl (words_VOp o _)
theorem WordsLaw.vnot (o : VOp) : WordsLaw.Statement (.vnot o) := words_some rfl (words_VOp o _)
theorem WordsLaw.vshl (o : VOp) : WordsLaw.Statement (.vshl o) := words_some rfl (words_VOp o _)
theorem WordsLaw.vshr (o : VOp) : WordsLaw.Statement (.vshr o) := words_some rfl (words_VOp o _)
theorem WordsLaw.vsar (o : VOp) : WordsLaw.Statement (.vsar o) := words_some rfl (words_VOp o _)
theorem WordsLaw.vcmp (o : VOp) : WordsLaw.Statement (.vcmp o) := words_some rfl (words_VOp o _)
theorem WordsLaw.vsel (o : VOp) : WordsLaw.Statement (.vsel o) := words_some rfl (words_VOp o _)
theorem WordsLaw.vmov (o : VOp) : WordsLaw.Statement (.vmov o) := words_some rfl (words_VOp o _)
theorem WordsLaw.vbcast (o : VOp) : WordsLaw.Statement (.vbcast o) := words_some rfl (words_VOp o _)
theorem WordsLaw.viota (o : VOp) : WordsLaw.Statement (.viota o) := words_some rfl (words_VOp o _)
theorem WordsLaw.vcvt (o : VOp) : WordsLaw.Statement (.vcvt o) := words_some rfl (words_VOp o _)
theorem WordsLaw.vpack (o : VOp) : WordsLaw.Statement (.vpack o) := words_some rfl (words_VOp o _)
theorem WordsLaw.vunpack (o : VOp) : WordsLaw.Statement (.vunpack o) := words_some rfl (words_VOp o _)
theorem WordsLaw.vperm (o : VOp) : WordsLaw.Statement (.vperm o) := words_some rfl (words_VOp o _)
theorem WordsLaw.vshuf (o : VOp) : WordsLaw.Statement (.vshuf o) := words_some rfl (words_VOp o _)
theorem WordsLaw.vslide (o : VOp) : WordsLaw.Statement (.vslide o) := words_some rfl (words_VOp o _)
theorem WordsLaw.vcompress (o : VOp) : WordsLaw.Statement (.vcompress o) := words_some rfl (words_VOp o _)
theorem WordsLaw.vexpand (o : VOp) : WordsLaw.Statement (.vexpand o) := words_some rfl (words_VOp o _)
theorem WordsLaw.vredadd (o : VOp) : WordsLaw.Statement (.vredadd o) := words_some rfl (words_VOp o _)
theorem WordsLaw.vredmax (o : VOp) : WordsLaw.Statement (.vredmax o) := words_some rfl (words_VOp o _)
theorem WordsLaw.vredmin (o : VOp) : WordsLaw.Statement (.vredmin o) := words_some rfl (words_VOp o _)
theorem WordsLaw.vscanAdd (o : VOp) : WordsLaw.Statement (.vscanAdd o) := words_some rfl (words_VOp o _)
theorem WordsLaw.vscanMax (o : VOp) : WordsLaw.Statement (.vscanMax o) := words_some rfl (words_VOp o _)
theorem WordsLaw.vsegscan (o : VOp) : WordsLaw.Statement (.vsegscan o) := words_some rfl (words_VOp o _)
theorem WordsLaw.vcp (o : VOp) : WordsLaw.Statement (.vcp o) := words_some rfl (words_VOp o _)
theorem WordsLaw.mand (o : VOp) : WordsLaw.Statement (.mand o) := words_some rfl (words_VOp o _)
theorem WordsLaw.mor (o : VOp) : WordsLaw.Statement (.mor o) := words_some rfl (words_VOp o _)
theorem WordsLaw.mnot (o : VOp) : WordsLaw.Statement (.mnot o) := words_some rfl (words_VOp o _)
theorem WordsLaw.mpopc (o : VOp) : WordsLaw.Statement (.mpopc o) := words_some rfl (words_VOp o _)
theorem WordsLaw.sfrcp (o : FA) : WordsLaw.Statement (.sfrcp o) := words_some rfl (words_FA o _)
theorem WordsLaw.sfrsq (o : FA) : WordsLaw.Statement (.sfrsq o) := words_some rfl (words_FA o _)
theorem WordsLaw.sfrcpr (o : FA) : WordsLaw.Statement (.sfrcpr o) := words_some rfl (words_FA o _)
theorem WordsLaw.sfrsqr (o : FA) : WordsLaw.Statement (.sfrsqr o) := words_some rfl (words_FA o _)
theorem WordsLaw.sfexp2 (o : FA) : WordsLaw.Statement (.sfexp2 o) := words_some rfl (words_FA o _)
theorem WordsLaw.sflog2 (o : FA) : WordsLaw.Statement (.sflog2 o) := words_some rfl (words_FA o _)
theorem WordsLaw.sfsin (o : FA) : WordsLaw.Statement (.sfsin o) := words_some rfl (words_FA o _)
theorem WordsLaw.sfcos (o : FA) : WordsLaw.Statement (.sfcos o) := words_some rfl (words_FA o _)
theorem WordsLaw.sftanh (o : FA) : WordsLaw.Statement (.sftanh o) := words_some rfl (words_FA o _)
theorem WordsLaw.sfsigm (o : FA) : WordsLaw.Statement (.sfsigm o) := words_some rfl (words_FA o _)
theorem WordsLaw.sferf (o : FA) : WordsLaw.Statement (.sferf o) := words_some rfl (words_FA o _)
theorem WordsLaw.sfsqrt (o : FA) : WordsLaw.Statement (.sfsqrt o) := words_some rfl (words_FA o _)
theorem WordsLaw.sfdiv (o : FA) : WordsLaw.Statement (.sfdiv o) := words_some rfl (words_FA o _)
theorem WordsLaw.sfcp (o : FCp) : WordsLaw.Statement (.sfcp o) := words_some rfl (words_FCp o _)
theorem WordsLaw.ldv (o : DA) : WordsLaw.Statement (.ldv o) := words_some rfl (words_DA o _)
theorem WordsLaw.stv (o : DA) : WordsLaw.Statement (.stv o) := words_some rfl (words_DA o _)
theorem WordsLaw.lds (o : DA) : WordsLaw.Statement (.lds o) := words_some rfl (words_DA o _)
theorem WordsLaw.sts (o : DA) : WordsLaw.Statement (.sts o) := words_some rfl (words_DA o _)
theorem WordsLaw.ldb (o : DA) : WordsLaw.Statement (.ldb o) := words_some rfl (words_DA o _)
theorem WordsLaw.gth (o : DA) : WordsLaw.Statement (.gth o) := words_some rfl (words_DA o _)
theorem WordsLaw.sct (o : DA) : WordsLaw.Statement (.sct o) := words_some rfl (words_DA o _)
theorem WordsLaw.ldt (o : DT) : WordsLaw.Statement (.ldt o) := words_some rfl (words_DT o _)
theorem WordsLaw.stt (o : DT) : WordsLaw.Statement (.stt o) := words_some rfl (words_DT o _)
theorem WordsLaw.ldtp (o : DT) : WordsLaw.Statement (.ldtp o) := words_some rfl (words_DT o _)
theorem WordsLaw.ldg (o : DA) : WordsLaw.Statement (.ldg o) := words_some rfl (words_DA o _)
theorem WordsLaw.stg (o : DA) : WordsLaw.Statement (.stg o) := words_some rfl (words_DA o _)
theorem WordsLaw.aadd (o : DM) : WordsLaw.Statement (.aadd o) := words_some rfl (words_DM o _)
theorem WordsLaw.amin (o : DM) : WordsLaw.Statement (.amin o) := words_some rfl (words_DM o _)
theorem WordsLaw.amax (o : DM) : WordsLaw.Statement (.amax o) := words_some rfl (words_DM o _)
theorem WordsLaw.aminn (o : DM) : WordsLaw.Statement (.aminn o) := words_some rfl (words_DM o _)
theorem WordsLaw.amaxn (o : DM) : WordsLaw.Statement (.amaxn o) := words_some rfl (words_DM o _)
theorem WordsLaw.aand (o : DM) : WordsLaw.Statement (.aand o) := words_some rfl (words_DM o _)
theorem WordsLaw.aor (o : DM) : WordsLaw.Statement (.aor o) := words_some rfl (words_DM o _)
theorem WordsLaw.axor (o : DM) : WordsLaw.Statement (.axor o) := words_some rfl (words_DM o _)
theorem WordsLaw.aswp (o : DM) : WordsLaw.Statement (.aswp o) := words_some rfl (words_DM o _)
theorem WordsLaw.acas (o : DM) : WordsLaw.Statement (.acas o) := words_some rfl (words_DM o _)
theorem WordsLaw.afadd (o : DM) : WordsLaw.Statement (.afadd o) := words_some rfl (words_DM o _)
theorem WordsLaw.afmax (o : DM) : WordsLaw.Statement (.afmax o) := words_some rfl (words_DM o _)
theorem WordsLaw.fence (o : DF) : WordsLaw.Statement (.fence o) := words_some rfl (words_DF o _)
theorem WordsLaw.l2pin (o : DL) : WordsLaw.Statement (.l2pin o) := words_some rfl (words_DL o _)
theorem WordsLaw.l2unpin (o : DL) : WordsLaw.Statement (.l2unpin o) := words_some rfl (words_DL o _)
theorem WordsLaw.l2inv (o : DL) : WordsLaw.Statement (.l2inv o) := words_some rfl (words_DL o _)
theorem WordsLaw.wwait (o : DW) : WordsLaw.Statement (.wwait o) := words_some rfl (words_DW o _)
theorem WordsLaw.mzero (o : MRow) : WordsLaw.Statement (.mzero o) := words_some rfl (words_MRow o _)
theorem WordsLaw.mlat (o : MRow) : WordsLaw.Statement (.mlat o) := words_some rfl (words_MRow o _)
theorem WordsLaw.mma (o : MRow) : WordsLaw.Statement (.mma o) := words_some rfl (words_MRow o _)
theorem WordsLaw.mter (o : MRow) : WordsLaw.Statement (.mter o) := words_some rfl (words_MRow o _)
theorem WordsLaw.mdrain (o : MDrain) : WordsLaw.Statement (.mdrain o) := words_some rfl (words_MDrain o _)
theorem WordsLaw.maccLd (o : MLd) : WordsLaw.Statement (.maccLd o) := words_some rfl (words_MLd o _)
theorem WordsLaw.mkat (o : MKat) : WordsLaw.Statement (.mkat o) := words_some rfl (words_MKat o _)
theorem WordsLaw.mchk (o : MChk) : WordsLaw.Statement (.mchk o) := words_some rfl (words_MChk o _)
theorem WordsLaw.kld (o : KLd) : WordsLaw.Statement (.kld o) := words_some rfl (words_KLd o _)
theorem WordsLaw.kset (o : KSet) : WordsLaw.Statement (.kset o) := words_some rfl (words_KSet o _)
theorem WordsLaw.kmov (o : KMov) : WordsLaw.Statement (.kmov o) := words_some rfl (words_KMov o _)
theorem WordsLaw.cpy (o : EOp) : WordsLaw.Statement (.cpy o) := words_some rfl (words_EOp o _)
theorem WordsLaw.amsg (o : EOp) : WordsLaw.Statement (.amsg o) := words_some rfl (words_EOp o _)
theorem WordsLaw.taskPost (o : EOp) : WordsLaw.Statement (.taskPost o) := words_some rfl (words_EOp o _)
theorem WordsLaw.taskDec (o : EOp) : WordsLaw.Statement (.taskDec o) := words_some rfl (words_EOp o _)
theorem WordsLaw.ecntAdd (o : EOp) : WordsLaw.Statement (.ecntAdd o) := words_some rfl (words_EOp o _)
theorem WordsLaw.ecntSet (o : EOp) : WordsLaw.Statement (.ecntSet o) := words_some rfl (words_EOp o _)
theorem WordsLaw.clbar (o : EOp) : WordsLaw.Statement (.clbar o) := words_some rfl (words_EOp o _)
theorem WordsLaw.chbar (o : EOp) : WordsLaw.Statement (.chbar o) := words_some rfl (words_EOp o _)
theorem WordsLaw.fork (o : EOp) : WordsLaw.Statement (.fork o) := words_some rfl (words_EOp o _)
theorem WordsLaw.spawn (o : EOp) : WordsLaw.Statement (.spawn o) := words_some rfl (words_EOp o _)
theorem WordsLaw.join (o : EOp) : WordsLaw.Statement (.join o) := words_some rfl (words_EOp o _)
theorem WordsLaw.revSt (o : EOp) : WordsLaw.Statement (.revSt o) := words_some rfl (words_EOp o _)
theorem WordsLaw.flowMode (o : EOp) : WordsLaw.Statement (.flowMode o) := words_some rfl (words_EOp o _)
theorem WordsLaw.slk (o : EOp) : WordsLaw.Statement (.slk o) := words_some rfl (words_EOp o _)
theorem WordsLaw.coll (o : EOp) : WordsLaw.Statement (.coll o) := words_some rfl (words_EOp o _)
theorem WordsLaw.esend (o : EOp) : WordsLaw.Statement (.esend o) := words_some rfl (words_EOp o _)
theorem WordsLaw.erel (o : EOp) : WordsLaw.Statement (.erel o) := words_some rfl (words_EOp o _)
theorem WordsLaw.eprobe (o : EOp) : WordsLaw.Statement (.eprobe o) := words_some rfl (words_EOp o _)
theorem WordsLaw.xtloadFull (o : EOp) : WordsLaw.Statement (.xtloadFull o) := words_some rfl (words_EOp o _)
theorem WordsLaw.xtloadEntry (o : EOp) : WordsLaw.Statement (.xtloadEntry o) := words_some rfl (words_EOp o _)
theorem WordsLaw.xtloadPage (o : EOp) : WordsLaw.Statement (.xtloadPage o) := words_some rfl (words_EOp o _)
theorem WordsLaw.gbar (o : EOp) : WordsLaw.Statement (.gbar o) := words_some rfl (words_EOp o _)
theorem WordsLaw.almw (o : EOp) : WordsLaw.Statement (.almw o) := words_some rfl (words_EOp o _)
theorem WordsLaw.almwLen (o : EOp) : WordsLaw.Statement (.almwLen o) := words_some rfl (words_EOp o _)
theorem WordsLaw.migCtlStart (o : EOp) : WordsLaw.Statement (.migCtlStart o) := words_some rfl (words_EOp o _)
theorem WordsLaw.migCtlDone (o : EOp) : WordsLaw.Statement (.migCtlDone o) := words_some rfl (words_EOp o _)
theorem WordsLaw.hostLinkChange : WordsLaw.Statement .hostLinkChange := words_none rfl
theorem WordsLaw.vfResetEnd : WordsLaw.Statement .vfResetEnd := words_none rfl
theorem WordsLaw.attestationReportWrite : WordsLaw.Statement .attestationReportWrite := words_none rfl

end Sys2Proof.Laws
end

