-- ==== Sys2Proof/Laws/Results.lean ====
section
/-! SUPPORT. Sys2Proof/Laws/Results.lean: what each shared form of the scalar, vector and F classes gives, in the terms of
Safety.lean, so that a result statement is proved without unfolding a state. -/

namespace Sys2Proof.Machine

theorem gives64_srOp {s : State} {i : Instr} {o : SR} {lat : Nat} {f : BitVec 64 → BitVec 64 → BitVec 64 → BitVec 64 × Flags}
    (h : exec i s = srOp o s lat f) {v : BitVec 64} {fl : Flags}
    (hv : f (s.rd64 o.slot.slot 0 (sReg o.slot o.a)) (s.rd64 o.slot.slot 1 (sReg o.slot o.b)) (s.rd64 o.slot.slot 2 (sReg o.slot o.d)) = (v, fl)) :
    s.gives64 i o.slot.slot o.g (sReg o.slot o.d) v lat fl := by
  show exec i s = _
  rw [h]; unfold srOp guarded; dsimp only; rw [hv]; rfl
theorem gives64_srInt {s : State} {i : Instr} {o : SR} {lat : Nat} {f : BitVec 64 → BitVec 64 → BitVec 64}
    (h : exec i s = srInt o s lat f) {v : BitVec 64}
    (hv : f (s.rd64 o.slot.slot 0 (sReg o.slot o.a)) (s.rd64 o.slot.slot 1 (sReg o.slot o.b)) = v) :
    s.gives64 i o.slot.slot o.g (sReg o.slot o.d) v lat 0 := gives64_srOp h (by rw [hv])
theorem gives64_srxOp {s : State} {i : Instr} {o : SRX} {lat : Nat} {f : BitVec 64 → BitVec 64 → BitVec 64}
    (h : exec i s = srxOp o s lat f) {v : BitVec 64}
    (hv : f (s.rd64 o.slot.slot 0 (sReg o.slot o.a)) (s.rd64 o.slot.slot 2 (sReg o.slot o.d)) = v) :
    s.gives64 i o.slot.slot o.g (sReg o.slot o.d) v lat 0 := by
  show exec i s = _
  rw [h]; unfold srxOp guarded; dsimp only; rw [hv]; rfl
theorem gives64_siOp {s : State} {i : Instr} {o : SI} {imm : BitVec 64} {f : BitVec 64 → BitVec 64 → BitVec 64}
    (h : exec i s = siOp o s imm f) {v : BitVec 64} (hv : f (s.rd64 o.slot.slot 0 (sReg o.slot o.a)) imm = v) :
    s.gives64 i o.slot.slot o.g (sReg o.slot o.d) v 2 0 := by
  show exec i s = _
  rw [h]; unfold siOp guarded; dsimp only; rw [hv]; rfl
/-- A predicate result. -/
theorem predLand_eq (sl : SSlot) (pd : BitVec 3) (v : Bool) (s : State) :
    predLand sl pd v s = s.land (sPred sl pd) (if v then 1 else 0) 1 1 0 := by cases sl <;> rfl

/-- A result per lane of an elementwise form. -/
theorem vElemwise_eq (o : VOp) (s : State) (lat : Nat) (f : Nat → Nat → Nat → Nat → Nat × Flags) :
    vElemwise o s lat f = .next (if s.guard o.slot.slot o.g then
      landElems s (s.vReg o.slot o.d) (fmtBits o.ext.fmt) (s.vMaskBits o (vLanes o))
        ((upTo (vLanes o)).map (fun k => f (s.vSrc o 0 k) (s.vSrc o 1 k) (s.vSrc o 2 k) (s.vSrc o 3 k))) lat else s) := by
  unfold vElemwise guarded; rfl
theorem givesLanes_elemwise {s : State} {i : Instr} {o : VOp} {lat : Nat} {f : Nat → Nat → Nat → Nat → Nat × Flags}
    (h : exec i s = vElemwise o s lat f) {r : Nat → Nat × Flags}
    (hr : ∀ k, f (s.vSrc o 0 k) (s.vSrc o 1 k) (s.vSrc o 2 k) (s.vSrc o 3 k) = r k) : s.givesLanes i o lat r := by
  show exec i s = _
  rw [h, vElemwise_eq]
  have e : (fun k => f (s.vSrc o 0 k) (s.vSrc o 1 k) (s.vSrc o 2 k) (s.vSrc o 3 k)) = r := funext hr
  rw [e]
theorem vArith_eq (o : VOp) (s : State) (lat : Nat) (ff : FVal → FVal → FVal → Nat × Flags) (fi : Int → Int → Int → Int) :
    vArith o s lat ff fi = vElemwise o s lat (fun a b c _ =>
      if isFloatFmt o.ext.fmt then ff (decodeF o.ext.fmt a) (decodeF o.ext.fmt b) (decodeF o.ext.fmt c)
      else (wrapI o.ext.fmt (fi (decodeI o.ext.fmt a) (decodeI o.ext.fmt b) (decodeI o.ext.fmt c)), 0)) := rfl
theorem givesLanes_arith {s : State} {i : Instr} {o : VOp} {lat : Nat} {ff : FVal → FVal → FVal → Nat × Flags} {fi : Int → Int → Int → Int}
    (h : exec i s = vArith o s lat ff fi) {r : Nat → Nat × Flags}
    (hr : ∀ k, (if isFloatFmt o.ext.fmt then
        ff (decodeF o.ext.fmt (s.vSrc o 0 k)) (decodeF o.ext.fmt (s.vSrc o 1 k)) (decodeF o.ext.fmt (s.vSrc o 2 k))
      else (wrapI o.ext.fmt (fi (decodeI o.ext.fmt (s.vSrc o 0 k)) (decodeI o.ext.fmt (s.vSrc o 1 k)) (decodeI o.ext.fmt (s.vSrc o 2 k))), 0)) = r k) :
    s.givesLanes i o lat r := givesLanes_elemwise (h.trans (vArith_eq o s lat ff fi)) hr
theorem givesLanes_whole {s : State} {i : Instr} {o : VOp} {lat : Nat} {f : Nat → List Nat → List Nat → List Nat}
    (h : exec i s = vWhole o s lat f) {r : Nat → Nat × Flags}
    (hr : (f (vLanes o) (s.vElems o.slot 0 o.a (vLanes o) (fmtBits o.ext.fmt)) (s.vElems o.slot 1 o.b (vLanes o) (fmtBits o.ext.fmt))).map
      (fun v => (v, (0 : Flags))) = (upTo (vLanes o)).map r) : s.givesLanes i o lat r := by
  show exec i s = _
  rw [h]; unfold vWhole guarded
  change Host.Outcome.next (if _ then landElems s _ _ (s.vMaskBits o (vLanes o)) (List.map _ (f (vLanes o)
    (s.vElems o.slot 0 o.a (vLanes o) (fmtBits o.ext.fmt)) (s.vElems o.slot 1 o.b (vLanes o) (fmtBits o.ext.fmt)))) lat else s) = _
  rw [hr]
/-- The elements of a source by number, as the list a whole form reads. -/
theorem vElems_getD (s : State) (o : VOp) (k : Nat) :
    (s.vElems o.slot 0 o.a (vLanes o) (fmtBits o.ext.fmt)).getD k 0 = s.vSrc o 0 k ∧
    (s.vElems o.slot 1 o.b (vLanes o) (fmtBits o.ext.fmt)).getD k 0 = s.vSrc o 1 k := ⟨rfl, rfl⟩
/-- An F form, element by element. -/
theorem fElemwise_eq (o : FA) (s : State) (lat : Nat) (f : Nat → Nat → Nat → Nat × Flags) :
    fElemwise o s lat f = .next (if s.guard .f o.g then
      landElems s (.w o.d) (fmtBits o.fmt) (List.replicate (lanesOf o.w o.fmt) true) ((upTo (lanesOf o.w o.fmt)).map (fun k =>
        f ((elemsOf (s.rd .f 2 (.w o.d)).toNat (lanesOf o.w o.fmt) (fmtBits o.fmt)).getD k 0)
          ((elemsOf (s.rd .f 0 (.w o.a)).toNat (lanesOf o.w o.fmt) (fmtBits o.fmt)).getD k 0)
          ((elemsOf (s.rd .f 1 (.w o.b)).toNat (lanesOf o.w o.fmt) (fmtBits o.fmt)).getD k 0))) (fLat o.w lat) else s) := by
  unfold fElemwise guarded; rfl
/-- Landing elements is one result in flight. -/
theorem landElems_onlyFlight (s : State) (d : Dest) (w : Nat) (m : List Bool) (r : List (Nat × Flags)) (lat : Nat) :
    onlyFlight s (landElems s d w m r lat) := land_onlyFlight s _ _ _ _ _
/-- Under a guard, results in flight alone. -/
theorem guarded_onlyFlight {sl : Slot} {g : Guard} {s t : State} {f : State → State} (h : guarded sl g s f = .next t)
    (hf : onlyFlight s (f s)) : onlyFlight s t := by
  unfold guarded at h
  injection h with h
  split at h
  · rw [← h]; exact hf
  · rw [← h]; exact onlyFlight_refl s

end Sys2Proof.Machine
end

