-- ==== Sys2Proof/Machine/BarRead.lean ====
section
/-! DEFINITION. Sys2Proof/Machine/BarRead.lean: what a read of a BAR register answers, from the parts of State that hold it
(spec/18 R372, spec/19 R374, R378, spec/21 R403, spec/22 R415, R422 to R431). A read changes nothing. -/

namespace Sys2Proof.Machine

/-- ALM_CTL (R378). -/
def Alm.ctl (a : Alm) : Nat :=
  a.epoch.toNat * 2 ^ 32 + a.step * 2 ^ 9 + bit a.adj * 2 ^ 8 + bit a.master * 2 ^ 7 + bit a.run * 2 ^ 4 + a.nslots
/-- PORT_STAT (R430). -/
def Port.stat (p : Port) : Nat := bit p.up * 2 ^ 48 + p.resv.toNat * 2 ^ 32 + p.tag.toNat * 2 ^ 16 + p.dup.toNat
/-- ECC_CNT of a stack (R425). -/
def Mig.ecc (m : Mig) (i : Nat) : Nat := (m.ue.get i 0).toNat * 2 ^ 32 + (m.ce.get i 0).toNat
/-- SAG_STAT (R431). -/
def Chip.sagStat (c : Chip) : Nat := c.sagEvents.toNat * 2 ^ 32 + bit c.sagTherm * 2 + bit c.sagHalf

/-- The registers that read 0 because they are write-only (R4): FRAME_CMD, IFS_CMD, ATT_CMD and the CK_CMD of a block. -/
def writeOnly (off : Nat) : Bool :=
  off = 0x50000 || off = 0x35200 || off = 0x38000 || (0x40000 ≤ off && off < 0x44000 && off % 0x40 = 0x28)

/-- A register of the PF's BAR. -/
def State.pfRead (s : State) (n off : Nat) : Nat :=
  let c := s.chip n
  if writeOnly off then 0
  else if 0x20000 ≤ off ∧ off < 0x24000 ∧ off % 0x40 = 0x30 then s.gcStat n ((off - 0x20000) / 0x40)
  else if off = 0x31000 then c.alm.ctl
  else if 0x32100 ≤ off ∧ off < 0x32160 ∧ off % 8 = 0 then c.mig.ecc ((off - 0x32100) / 8)
  else if 0x33000 ≤ off ∧ off < 0x33048 ∧ off % 8 = 0 then s.migReg n ((off - 0x33000) / 8)
  else if 0x34000 ≤ off ∧ off < 0x34180 ∧ off % 8 = 0 then (c.ports.get ((off - 0x34000) / 8) Port.reset).stat
  else if 0x35000 ≤ off ∧ off < 0x35100 ∧ off % 8 = 0 then (c.coreMap.get ((off - 0x35000) / 8) CoreMap.reset).reg
  else if off = 0x35208 then c.ifs
  else if off = 0x37000 then c.sagStat
  else if 0x40000 ≤ off ∧ off < 0x44000 ∧ off % 0x40 = 0x30 then (s.gang n ((off - 0x40000) / 0x40)).ckStat
  else s.barN n 0 off
/-- A register of a function's BAR: 0 the PF, v + 1 VF v. -/
def State.barRead (s : State) (n f off : Nat) : Nat := if f = 0 then s.pfRead n off else s.barN n f off

end Sys2Proof.Machine
end

