-- ==== Sys2Proof/Tests/Slice0.lean ====
section
/-! SUPPORT. Sys2Proof/Tests/Slice0.lean: words of the spec decoded, ill-formed terms refused, results of the spec's worked
examples, and for each statement a state that meets its hypotheses, clause by clause. -/

namespace Sys2Proof.Tests
open Sys2Proof Sys2Proof.Machine
set_option Elab.async false

/-! ## Decoding: words written out from the tables of spec/02, spec/08 and spec/13 -/

/-- The guard that is always true. -/
def on : Guard := ⟨0, false⟩
/-- A successful decoding. -/
def reads (sl : Slot) (w : Syl) (x : Option Syl) (i : Instr) : Bool := (decodeSlot sl w x).toOption = some i

theorem test_decode_scalar : reads .s0 0x00718440 none (.add ⟨.s0, ⟨3, true⟩, 3, 1, 2, 0⟩) = true ∧
    reads .s0 0x4B010001 none (.wait ⟨.s0, on, 1, 1⟩) = true ∧
    reads .s0 0xD2000800 (some 0x10) (.csrw ⟨.s0, on, 0, 2, 0, 0, 0x10⟩) = true := by decide
theorem test_decode_loop : reads .s0 0x45027FF0 none (.loop ⟨.s0, on, 1, 1, 0x3FF0⟩) = true := by decide
theorem test_decode_vadd : reads .v0 0x800514C7 (some 0x70000000) (.vadd ⟨.v0, on, 1, 2, 5, 6, 7, some ⟨7, 0, 0, 0, 0⟩⟩) = true := by decide
theorem test_decode_vsegscan : reads .v2 0xBD01A422 (some 0x50000000) (.vsegscan ⟨.v2, on, 0, 3, 9, 1, 2, some ⟨5, 0, 0, 0, 0⟩⟩) = true := by decide
theorem test_decode_sfrcp : reads .f 0x0004C400 none (.sfrcp ⟨on, 1, 3, 1, 0, 0, 0⟩) = true := by decide
theorem test_decode_ldv : reads .d0 0x80012A21 (some 2) (.ldv ⟨.d0, on, 1, 2, 20, 1, 1, some ⟨0, 0, 0, false, false, 0, 2⟩⟩) = true := by decide
theorem test_decode_ldg : reads .d0 0x900112C0 (some 1) (.ldg ⟨.d0, on, 1, 1, 5, 2, 0, some ⟨0, 0, 0, false, false, 0, 1⟩⟩) = true := by decide
theorem test_decode_mzero : reads .m 0x00050000 none (.mzero ⟨on, 5, 0, 0, 0⟩) = true := by decide
theorem test_decode_mdrain : reads .m 0x84020460 (some 0x2A000000) (.mdrain ⟨on, 2, 0, 1, 6, 0, some ⟨1, 2, true⟩⟩) = true := by decide
theorem test_decode_cpy : reads .e 0x00008081 none (.cpy ⟨on, 0, 2, 0, 1, 1, none⟩) = true := by decide
theorem test_decode_fork : reads .e 0x08072900 none (.fork ⟨on, 3, 4, 5, 2, 0, none⟩) = true := by decide
theorem test_decode_flow_mode : reads .e 0x90000283 (some 0x307) (.flowMode ⟨on, 0, 0, 0, 5, 3, some ⟨0, false, 0x307⟩⟩) = true := by decide
theorem test_decode_coll : reads .e 0x98030100 (some 7) (.coll ⟨on, 1, 4, 0, 2, 0, some ⟨0, false, 7⟩⟩) = true := by decide
theorem test_decode_xtload_page : reads .e 0xA0062102 (some 0x11005) (.xtloadPage ⟨on, 3, 0, 4, 2, 2, some ⟨0, false, 0x11005⟩⟩) = true := by decide
theorem test_decode_gbar : reads .e 0xA1000103 (some 0x400) (.gbar ⟨on, 0, 0, 0, 2, 3, some ⟨0, false, 0x400⟩⟩) = true := by decide
theorem test_decode_mig : reads .e 0x23060101 none (.migCtlDone ⟨on, 3, 0, 0, 2, 1, none⟩) = true := by decide
/-- A reserved opcode and an L bit that the opcode forbids. -/
theorem test_decode_refuses : (decodeSlot .s0 0x7F000000 none).toOption = none ∧ (decodeSlot .s0 0x80718440 (some 0)).toOption = none := by decide

/-! ## Ill-formed terms, one for each check of WellFormed.lean -/

/-- A scalar syllable of layout SR. -/
def sr (d a b fn : BitVec 5) : SR := ⟨.s0, on, d, a, b, fn⟩
/-- A vector syllable with a second one. -/
def vo (w : BitVec 2) (mask : BitVec 3) (d a b : BitVec 5) (x : VExt) : VOp := ⟨.v0, on, w, mask, d, a, b, some x⟩
/-- A memory syllable of layout DA. -/
def da (fc : BitVec 4) (d : BitVec 5) (sz : BitVec 2) (x : Option MExt) : DA := ⟨.d0, on, 1, fc, d, sz, 0, x⟩
/-- A memory extension with an order, a scope, EF, and slack. -/
def mx (ord : BitVec 2) (scope : BitVec 3) (ef : Bool) (sk : BitVec 12) (step : BitVec 9) : MExt := ⟨0, ord, scope, ef, false, sk, step⟩
/-- An engine syllable. -/
def eo (ed ea eb : BitVec 3) (opt : BitVec 7) (x : Option EExt) : EOp := ⟨on, ed, ea, eb, 0, opt, x⟩

theorem test_wf_scalar : [Instr.add (sr 1 2 3 1), .clz (sr 1 2 3 0), .sext (sr 1 2 0 3), .bfx ⟨.s0, on, 1, 2, 0, 0, 0xFFF⟩,
    .bfi ⟨.s0, on, 1, 2, 0, 1, 0⟩, .lea (sr 1 2 3 8), .sel (sr 1 2 3 16), .shli ⟨.s0, on, 1, 2, .short 64⟩,
    .sari ⟨.s0, on, 1, 2, .long 64⟩, .lih ⟨.s0, on, 1, .short 0⟩, .cmp ⟨.s0, on, 1, 2, .reg 3, 6⟩, .pset ⟨.s0, on, 1, 1, 0, true⟩,
    .pand ⟨.s0, on, 1, 1, 2, true⟩, .pnot ⟨.s0, on, 1, 1, 2, false⟩, .fadd (sr 1 2 3 4), .fmin (sr 1 2 3 1),
    .fcmp ⟨.s0, on, 1, 2, .reg 3, 4⟩, .fcmp ⟨.s0, on, 1, 2, .imm 0, 0⟩, .fcvt (sr 1 2 0 28), .fcvt (sr 1 2 28 0)].all (fun i => !i.wf) = true := by decide
theorem test_wf_control : [Instr.loop ⟨.s0, on, 6, 0, 0⟩, .lbrk ⟨.s0, on, 0, 1, 0⟩, .rrbSet ⟨.s0, on, 0, 1⟩, .rrbClr ⟨.s0, on, 1, 1⟩,
    .idr (sr 1 0 0 9), .csrr ⟨.s0, on, 1, 0, 0, 0, 0x049⟩, .csrw ⟨.s0, on, 1, 2, 0, 0, 0x000⟩, .csrx ⟨.s0, on, 1, 2, 1, 0, 0x000⟩,
    .cp (sr 8 2 0 8), .cp (sr 1 2 0 16), .cp (sr 1 2 16 2), .cp (sr 1 2 1 18), .cp (sr 1 2 0 9), .ovtLd (sr 1 2 0 0)].all (fun i => !i.wf) = true := by decide
theorem test_wf_vector : [Instr.vadd (vo 3 0 1 2 3 ⟨0, 0, 0, 0, 0⟩), .vadd (vo 0 0 1 2 3 ⟨3, 0, 0, 0, 0⟩), .vadd (vo 0 0 1 2 3 ⟨0, 0, 0, 1, 0⟩),
    .vmin (vo 0 0 1 2 3 ⟨0, 1, 0, 0, 0⟩), .vabs (vo 0 0 1 2 0 ⟨8, 0, 0, 0, 0⟩), .vneg (vo 0 0 1 2 3 ⟨0, 0, 0, 0, 0⟩),
    .vsatadd (vo 0 0 1 2 3 ⟨0, 0, 0, 0, 0⟩), .vdot4 (vo 0 0 1 2 3 ⟨7, 0, 0, 0, 0⟩), .vand (vo 0 0 1 2 3 ⟨13, 0, 0, 0, 0⟩),
    .vshl (vo 0 0 1 2 0 ⟨6, 0, 0, 0, 0x8010⟩), .vshr (vo 0 0 1 2 3 ⟨6, 0, 0, 0, 1⟩), .vcmp (vo 0 0 8 2 3 ⟨0, 0, 0, 0, 0⟩),
    .vcmp (vo 0 0 1 2 3 ⟨0, 0, 0, 0, 4⟩), .vbcast (vo 0 0 1 2 0 ⟨0, 0, 0, 0, 8⟩), .viota (vo 0 0 1 8 0 ⟨5, 0, 0, 0, 0⟩),
    .vcvt (vo 0 0 1 2 0 ⟨13, 0, 0, 0, 0⟩), .vpack (vo 0 0 1 2 3 ⟨0, 0, 0, 0, 0⟩), .vunpack (vo 0 0 1 2 0 ⟨1, 0, 0, 0, 2⟩),
    .vshuf (vo 0 0 1 2 3 ⟨0, 0, 0, 0, 4⟩), .vslide (vo 0 0 1 2 3 ⟨0, 0, 0, 0, 9⟩), .vcp (vo 0 0 16 2 0 ⟨0, 0, 0, 0, 6⟩),
    .vcp (vo 0 0 1 2 0 ⟨0, 0, 0, 0, 0x40⟩), .mand (vo 0 1 1 2 3 ⟨0, 0, 0, 0, 0⟩), .mnot (vo 0 0 1 2 3 ⟨0, 0, 0, 0, 0⟩),
    .mpopc (vo 0 0 1 8 0 ⟨0, 0, 0, 0, 0⟩), .sfrcp ⟨on, 0, 1, 2, 3, 0, 0⟩, .sfexp2 ⟨on, 0, 1, 2, 0, 3, 0⟩, .sfrsq ⟨on, 0, 1, 2, 0, 0, 1⟩,
    .sfcp ⟨on, 0, 1, 5, 1⟩].all (fun i => !i.wf) = true := by decide
theorem test_wf_memory : [Instr.ldv (da 0 1 0 none), .ldv (da 2 1 3 none), .lds (da 8 8 0 none), .lds (da 0 1 0 (some (mx 2 1 false 0 0))),
    .sts (da 0 1 0 (some (mx 1 1 false 0 0))), .sts (da 0 1 0 (some (mx 0 1 false 0 0))), .sts (da 0 1 0 (some (mx 2 7 false 0 0))),
    .ldg (da 0 1 0 (some (mx 0 0 true 0 0))), .ldg (da 0 1 0 (some (mx 0 0 false 1 0))), .gth (da 2 1 0 none), .gth (da 2 1 0 (some (mx 0 0 false 0 1))),
    .sct (da 5 1 0 (some (mx 0 0 false 0 0x100))), .stt ⟨.d0, on, 1, 2, 3, some (mx 0 0 true 0 0)⟩, .ldtp ⟨.d0, on, 1, 2, 3, none⟩,
    .aadd ⟨.d0, on, 1, 6, 1, 2, 0, none⟩, .aadd ⟨.d0, on, 1, 0, 1, 2, 2, none⟩, .afadd ⟨.d0, on, 1, 0, 1, 2, 1, none⟩, .acas ⟨.d0, on, 1, 0, 1, 2, 0, none⟩,
    .aadd ⟨.d0, on, 1, 0, 1, 2, 0, some (mx 0 0 false 0 16)⟩, .fence ⟨.d0, on, 7, 1⟩, .fence ⟨.d0, on, 1, 0⟩,
    .l2inv ⟨.d0, on, 1, 0, 1⟩].all (fun i => !i.wf) = true := by decide
theorem test_wf_matrix : [Instr.mzero ⟨on, 1, 1, 0, 0⟩, .mlat ⟨on, 0, 1, 0, 0⟩, .mma ⟨on, 1, 1, 13, 0⟩, .mter ⟨on, 1, 1, 1, 0⟩,
    .mdrain ⟨on, 1, 1, 1, 6, 0, none⟩, .mdrain ⟨on, 1, 0, 0, 7, 0, none⟩, .maccLd ⟨on, 1, 0, 0, 1⟩, .mchk ⟨on, 1, 1, 0, 0⟩,
    .kld ⟨on, 1, 3, 0⟩, .kset ⟨on, 1, 1, 0⟩].all (fun i => !i.wf) = true := by decide
theorem test_wf_engine : [Instr.cpy (eo 0 1 0 2 none), .cpy (eo 0 1 0 0 (some ⟨1, true, 0⟩)), .amsg (eo 0 1 2 64 none), .amsg (eo 0 1 2 0 (some ⟨1, false, 0⟩)),
    .taskPost (eo 1 1 2 0 none), .taskDec (eo 0 1 0 0 none), .ecntAdd (eo 0 1 0 2 (some ⟨0, false, 1⟩)), .ecntSet (eo 0 1 0 0 none),
    .clbar (eo 0 0 0 16 (some ⟨0, false, 1⟩)), .chbar (eo 0 0 0 1 none), .gbar (eo 0 0 0 1 (some ⟨0, false, 0x10000⟩)), .fork (eo 1 1 1 1 none),
    .spawn (eo 1 1 1 1 none), .join (eo 1 1 1 0 none), .revSt (eo 1 1 1 0 none), .flowMode (eo 0 0 0 4 none), .slk (eo 0 0 0 0 (some ⟨0, false, 1⟩)),
    .coll (eo 1 1 0 0 (some ⟨0, false, 0x10000⟩)), .esend (eo 0 1 0 8 none), .erel (eo 0 0 0 0 none), .eprobe (eo 1 0 0 2 none), .xtloadFull (eo 1 1 1 1 none),
    .xtloadEntry (eo 1 1 1 1 (some ⟨0, false, 4096⟩)), .xtloadPage (eo 1 0 1 1 none), .almw (eo 1 1 0 0 (some ⟨0, false, 16⟩)), .almwLen (eo 1 1 0 0 none),
    .migCtlStart (eo 1 0 0 0 (some ⟨0, false, 12⟩)), .migCtlDone (eo 1 0 0 0 none)].all (fun i => !i.wf) = true := by decide
/-- Well-formed terms beside them. -/
theorem test_wf_holds : [Instr.add (sr 1 2 3 0), .vadd (vo 0 0 1 2 3 ⟨0, 0, 0, 0, 0⟩), .vcp (vo 0 0 15 2 0 ⟨0, 0, 0, 0, 6⟩), .ldv (da 2 1 2 none),
    .sct (da 5 1 0 (some (mx 2 1 false 0 0xF0))), .acas ⟨.d0, on, 1, 0, 1, 2, 0, some (mx 0 0 false 0 16)⟩, .kld ⟨on, 1, 0, 0⟩,
    .mdrain ⟨on, 1, 0, 0, 6, 0, none⟩, .gbar (eo 0 0 0 1 (some ⟨0, false, 0xFFFF⟩))].all Instr.wf = true := by decide
/-- An encoder's words, and their decoding. -/
theorem test_encode : encode (.add ⟨.s0, ⟨3, true⟩, 3, 1, 2, 0⟩) = some (0x00718440, none) := by decide

/-! ## Witnesses of the statements about slot operations, and results of one step -/

/-- The reset state with its acting context changed. -/
def at0 (f : Ctx → Ctx) : State := State.reset.upd f
/-- Two scalar registers. -/
def ab (a b : BitVec 64) : State := at0 (fun c => { c with regs := { c.regs with a := (c.regs.a.set 1 a).set 2 b } })
/-- A state in supervisor mode. -/
def sup : State := at0 (fun c => { c with csr := { c.csr with mode := true } })
/-- A value that an operation put in flight last. -/
def flown (o : Out) : Option (Nat × Flags) :=
  match o with | .next t => (t.cur.flight.getLast?).map (fun l => (l.val.toNat, l.flags)) | _ => none

/-- A test on the next state. -/
def after (o : Out) (p : State → Bool) : Bool := match o with | .next t => p t | _ => false

theorem test_guard : State.reset.guard .s0 on = true ∧ State.reset.guard .s1 on = true ∧ State.reset.guard .s0 ⟨0, true⟩ = false ∧
    [Slot.v0, .v1, .v2, .f, .d0, .d1, .m, .k, .e].all (fun sl => State.reset.guard sl on) = true := by decide +kernel
/-- R104: −7 / 2, −7 rem 2, a zero divisor, and the overflowing quotient. -/
theorem test_div : flown (exec (.div (sr 3 1 2 0)) (ab (-7) 2)) = some ((-3 : BitVec 64).toNat, 0) ∧
    flown (exec (.rem (sr 3 1 2 0)) (ab (-7) 2)) = some ((-1 : BitVec 64).toNat, 0) := by decide +kernel
theorem test_div_corners : flown (exec (.div (sr 3 1 2 0)) (ab 5 0)) = some ((-1 : BitVec 64).toNat, fDZ) ∧
    flown (exec (.rem (sr 3 1 2 0)) (ab 0x8000000000000000 (-1))) = some (0, 0) := by decide +kernel
theorem test_w_ScalarDivision : (ab 5 0).rd64 .s0 1 (.a 2) = 0 ∧ (ab 5 2).rd64 .s0 1 (.a 2) ≠ 0 ∧
    (ab 0x8000000000000000 (-1)).rd64 .s0 0 (.a 1) = 0x8000000000000000 ∧ ((ab 0x8000000000000000 (-1)).rd64 .s0 1 (.a 2)).toInt = -1 := by decide +kernel
/-- R102: lea shifts its second source; mulh of −1 and 2. -/
theorem test_lea : flown (exec (.lea (sr 3 1 2 3)) (ab 1 2)) = some (17, 0) ∧
    flown (exec (.mulh (sr 3 1 2 0)) (ab (-1) 2)) = some ((-1 : BitVec 64).toNat, 0) := by decide +kernel
theorem test_w_ScalarBits : Instr.wf (.bfx ⟨.s0, on, 3, 1, 0, 1, 0x107⟩) = true ∧ Instr.wf (.bfi ⟨.s0, on, 3, 1, 0, 0, 0xFC0⟩) = true ∧
    Instr.wf (.bfx ⟨.s0, on, 3, 1, 0, 0, 63⟩) = true := by decide +kernel
/-- R106: a signed field of 8 bits at 4. -/
theorem test_bfx : flown (exec (.bfx ⟨.s0, on, 3, 1, 0, 1, 0x107⟩) (ab 0x80F 0)) = some ((-128 : BitVec 64).toNat, 0) := by decide +kernel
/-- R105: andi zero-extends, addi sign-extends; lih keeps the low half. -/
theorem test_imm : flown (exec (.andi ⟨.s0, on, 3, 1, .short 0x3FF⟩) (ab (-1) 0)) = some (0x3FF, 0) ∧
    flown (exec (.addi ⟨.s0, on, 3, 1, .short 0x3FF⟩) (ab 5 0)) = some (4, 0) ∧
    flown (exec (.lih ⟨.s0, on, 1, .long 7⟩) (ab 9 0)) = some (7 * 2 ^ 32 + 9, 0) := by decide +kernel
/-- R107: an immediate is sign-extended before an unsigned comparison. -/
theorem test_cmp : flown (exec (.cmp ⟨.s0, on, 1, 1, .imm (-1), 4⟩) (ab 5 0)) = some (1, 0) ∧
    flown (exec (.fcmp ⟨.s0, on, 1, 1, .reg 2, 1⟩) (ab 0x7FC00000 0)) = some (1, 0) := by decide +kernel
theorem test_w_ScalarPredicates : f32Of (ab 0x7FC00000 0x3F800000 |>.rd64 .s0 0 (.a 1)) = .nan ∧ f32Of (ab 0x7FC00000 0x3F800000 |>.rd64 .s0 1 (.a 2)) ≠ .nan := by decide +kernel
/-- R109: 1.5 + 2.25 in f32; R74: the largest value doubled overflows to infinity. -/
theorem test_fadd : flown (exec (.fadd (sr 3 1 2 0)) (ab 0x3FC00000 0x40100000)) = some (0x40700000, 0) ∧
    flown (exec (.fadd (sr 3 1 2 0)) (ab 0x7F7FFFFF 0x7F7FFFFF)) = some (0x7F800000, fOF) := by decide +kernel
/-- R117: a counter of 2 goes to 1 and branches; R118 ends at 0. -/
theorem test_loop : flown (exec (.loop ⟨.s0, on, 1, 0, 0x3FFF⟩) (at0 (fun c => { c with regs := { c.regs with lc := c.regs.lc.set 1 2 } }))) = some (1, 0) ∧
    flown (exec (.lbrk ⟨.s0, on, 1, 0, 2⟩) (at0 (fun c => { c with regs := { c.regs with lc := c.regs.lc.set 1 2 } }))) = some (0, 0) := by decide +kernel
theorem test_w_LoopForm : (0 : BitVec 3) ≠ 5 ∧ Instr.wf (.rrbSet ⟨.s0, on, 5, 3⟩) = true := by decide +kernel
/-- A context that counts 3 in cc1. -/
def cc1 : State := at0 (fun c => { c with csr := { c.csr with ccnt := c.csr.ccnt.set 1 3 } })
/-- Two contexts of a core, the second ready. -/
def two : State := State.reset.updCtx ⟨0, 0, 0, 1⟩ (fun c => { c with st := .ready })
theorem test_w_Waits : cc1.cur.csr.ccnt[1] = 3 ∧ (cc1.upd (fun c => { c with inSeg := true })).cur.inSeg = true ∧
    State.reset.cur.flight.all (fun l => l.dest ≠ .csr 0x044) = true ∧
    (∀ k < 4, k ≠ 0 → (State.reset.ctx ⟨0, 0, 0, k⟩).st ≠ .ready) ∧ (two.ctx ⟨0, 0, 0, 1⟩).st = .ready := by decide +kernel
/-- R123: a satisfied wait takes its threshold. -/
theorem test_wait : after (exec (.wait ⟨.s0, on, 1, 2⟩) cc1) (fun t => t.cur.csr.ccnt[1] = 1) = true ∧
    after (exec (.wait ⟨.s0, on, 1, 4⟩) cc1) (fun t => t.cur.st = .blocked) = true := by decide +kernel
/-- A running context with a handler. -/
def vec : State := at0 (fun c => { c with st := .running, csr := { c.csr with tvec := 0x1001 } })
theorem test_w_Traps : retryable 0x08 = true ∧ retryable 0x06 = false ∧ vec.cur.csr.tvec.getLsbD 0 = true ∧ vec.cur.trap.valid = false ∧
    vec.cur.st ≠ .halted ∧ vec.cur.inSeg = false ∧ (vec.upd (fun c => { c with inSeg := true })).cur.inSeg = true ∧
    State.reset.cur.csr.tvec.getLsbD 0 = false ∧ (vec.upd (fun c => { c with trap := { c.trap with valid := true } })).cur.trap.valid = true := by decide +kernel
/-- R125, R126: trap 7 reaches the handler in supervisor mode. -/
theorem test_trap : after (exec (.trap ⟨.s0, on, 7⟩) vec)
    (fun t => t.cur.pc = 0x1000 ∧ t.cur.csr.mode = true ∧ t.cur.trap.code = 0x06 ∧ t.cur.trap.info = 7) = true := by decide +kernel
/-- A supervisor whose trap came from a bundle of one nop at address 0. -/
def handler : State :=
  (State.reset.withFetchWord 32 0x4C000000).upd (fun c => { c with csr := { c.csr with mode := true }, trap := { c.trap with valid := true } })
theorem test_w_ReturnFromException : sup.cur.csr.mode = true ∧ State.reset.cur.csr.mode = false ∧ sup.cur.trap.pc = sup.cur.trap.recorded ∧
    (sup.upd (fun c => { c with trap := { c.trap with pc := 8 } })).cur.trap.pc ≠ sup.cur.trap.recorded ∧
    (sup.bundleFault sup.cur.trap.pc.toNat).isSome = true := by decide +kernel
theorem test_w_ReturnFromException_skip : handler.cur.csr.mode = true ∧ handler.bundleFault handler.cur.trap.pc.toNat = none ∧
    handler.skipFault handler.cur.trap.pc.toNat = none := by decide +kernel
/-- R55: csrw of TVEC in user mode is PRIV. -/
theorem test_priv : after (exec (.csrw ⟨.s0, on, 0, 1, 0, 0, 0x008⟩) vec) (fun t => t.cur.trap.code = 0x07 ∧ t.cur.trap.info = 0x520) = true := by
  decide +kernel
theorem test_w_CsrAccess : csrSuperWrite 0x008 = true ∧ csrSuperRead 0x008 = true ∧ csrSuperWrite 0x000 = false := by decide +kernel
/-- R134: cp.l5 writes one lane. -/
theorem test_cp : flown (exec (.cp ⟨.s0, on, 7, 1, 5, 2⟩) (ab 3 0)) = some (3 * 2 ^ 320, 0) := by decide +kernel

/-- The worked example of R155: eight ones, carry 10, segments at 2 and 5. -/
def segS : State := at0 (fun c => { c with regs := { c.regs with
  z := (c.regs.z.set 1 0x0000000100000001000000010000000100000001000000010000000100000001#1024).set 2 10, mz := c.regs.mz.set 3 0x24 } })
theorem test_vsegscan : flown (exec (.vsegscan ⟨.v2, on, 0, 3, 9, 1, 2, some ⟨5, 0, 0, 0, 0⟩⟩) segS) =
    some (ofBytes ([11, 12, 1, 2, 3, 1, 2, 3].flatMap (fun n => bytesOf n 4)), 0) := by decide +kernel
theorem test_w_ElementPlacement : 0 < 32 ∧ [true, false].length * 32 ≤ 4096 ∧ [((1 : Nat), (0 : Flags)), (2, 0)].length = [true, false].length := by decide
theorem test_w_VectorForms : (vo 0 0 1 2 3 ⟨7, 0, 5, 0, 0⟩).ext.fmt2 = 5 ∧ (vo 0 0 1 2 3 ⟨3, 0, 0, 0, 0⟩).ext.fmt2 ≠ 5 ∧
    ([0, 1, 2, 3].all (fun p => ((vo 0 0 1 2 3 ⟨0, 0, 0, 0, BitVec.ofNat 16 p⟩).ext.imm16.extractLsb' 0 2).toNat = p)) = true ∧
    (segS.vMaskBits ⟨.v2, on, 0, 3, 9, 1, 2, some ⟨5, 0, 0, 0, 0⟩⟩ 8).getD 2 false = true := by decide +kernel
/-- R144: four products of i8 added to an i32 element. -/
theorem test_vdot4 : flown (exec (.vdot4 ⟨.v0, on, 0, 0, 1, 2, 3, some ⟨7, 0, 5, 0, 0⟩⟩)
    (at0 (fun c => { c with regs := { c.regs with x := ((c.regs.x.set 1 10).set 2 0x040302FF).set 3 0x01010101 } }))) = some (10 - 1 + 2 + 3 + 4, 0) := by
  decide +kernel

theorem test_w_ScratchpadLoads : State.reset.eaRaw .d0 1 < State.reset.cur.limit ∧
    (at0 (fun c => { c with csr := { c.csr with poolLimit := 0 } })).cur.limit ≤ (at0 (fun c => { c with csr := { c.csr with poolLimit := 0 } })).eaRaw .d0 1 ∧
    (∀ a ∈ State.reset.eaElems (da 2 1 2 (some (mx 0 0 false 0 0x20))), a < State.reset.cur.limit) ∧
    ((at0 (fun c => { c with csr := { c.csr with poolLimit := 0 } })).eaElems (da 2 1 2 (some (mx 0 0 false 0 0x20)))).find? (fun a => 0 ≤ a) = some 0 ∧
    State.reset.pkts.all (fun p => !(p.who = ⟨0, 0, 0, 0⟩ && p.stage = Stage.buffered)) = true := by decide +kernel
/-- A store of five bytes into the pool, and a load of them. -/
theorem test_sts_lds : after (exec (.sts ⟨.d0, on, 1, 0, 1, 3, 0, none⟩) (ab 0x1122334455 0))
    (fun t => flown (exec (.lds ⟨.d0, on, 1, 0, 2, 2, 0, none⟩) t) = some (0x22334455, 0)) = true := by decide +kernel
theorem test_w_ScratchpadStores : isWindow (State.reset.eaDA (da 2 1 0 none) 32) = false ∧ State.reset.eaRaw .d0 1 < State.reset.cur.limit ∧
    Memory.wf State.reset.mem = true ∧ State.reset.cur.inSeg = false := by decide +kernel
/-- A context with window 0 bound, its base register at the window, and an allowance. -/
def wins (avail : BitVec 16) (bind : BitVec 64) (base : BitVec 64) : State := at0 (fun c =>
  { c with regs := { c.regs with g := c.regs.g.set 1 base }, csr := { c.csr with winBind := c.csr.winBind.set 0 bind, winAvail := c.csr.winAvail.set 0 avail } })
theorem test_w_WindowStores : isWindow ((wins 1 0x8000000000000000 0x01000000).eaDA (da 2 1 0 none) 32) = true ∧
    ((wins 1 0x8000000000000000 0x01000000).cur.winBinding 0).getLsbD 63 = true ∧ ((wins 1 0 0x01000000).cur.winBinding 0).getLsbD 63 = false ∧
    winOff ((wins 1 0x8000000000000000 0x01000000).eaDA (da 2 1 0 none) 32) + 32 ≤ State.reset.cur.limit ∧
    (wins 0 0x8000000000000000 0x01000000).cur.csr.winAvail.toList.getD 0 0 = 0 ∧
    (wins 1 0x8000000000000000 0x01000000).cur.csr.winAvail.toList.getD 0 0 ≠ 0 := by decide +kernel
/-- A context whose chip maps page 0. -/
def mapped : State := State.reset.withFetchWord 32 0x4C000000
/-- The same with the page writable, and with an earlier store and a release fence of the gang's scope before the next access. -/
def writable : State := mapped.updGang 0 0 (fun g => { g with xlat := g.xlat.set 0 { placeEntry with w := true } })
def then_ (i : Instr) (s : State) : State := match exec i s with | .next t => t.upd (fun c => { c with po := c.po + 4 }) | _ => s
def heldBack : State := then_ (.fence ⟨.d0, on, 3, 2⟩) (then_ (.stg ⟨.d0, on, 1, 0, 1, 3, 0, none⟩) writable)
/-- What an sts leaves waiting: whether it stands at its core. -/
def stsWaits (s : State) : List Bool :=
  match exec (.sts ⟨.d0, on, 1, 0, 1, 3, 0, none⟩) s with
  | .next t => (t.pkts.filter (fun (p : Pkt) => p.isPool)).map (fun (p : Pkt) => decide (p.stage = Stage.core))
  | _ => []
/-- R182, R183: the store waits behind the fence, acts at once without it, and is buffered in a segment. -/
theorem test_w_ScratchpadStores_order : stsWaits heldBack = [true] ∧ stsWaits writable = [] ∧ stsWaits (writable.upd (fun c => { c with inSeg := true })) = [false] := by
  decide +kernel
theorem test_w_GlobalAccesses : mapped.xlatFault 6 8 true false false = none ∧ (State.reset.xlatFault 6 8 true false false).isSome = true := by decide +kernel
/-- R177: acas writes only on a match; aminn compares unsigned. -/
theorem test_atomics : atomicNew 0x21 4 5 9 5 = (some 9, 0) ∧ atomicNew 0x21 4 6 9 5 = (none, 0) ∧ atomicNew 0x1B 4 0xFFFFFFFF 1 0 = (some 1, 0) := by decide +kernel
/-- The same with a tile descriptor of two rows of one line, at scratchpad address 0, and a copy descriptor of one byte at 64. -/
def descd : State := ((mapped.updGang 0 0 (fun g => { g with xlat := g.xlat.set 0 { placeEntry with w := true } })).poke (poolKey ⟨0, 0, 0⟩ 0)
  (bytesOf (128 + 2 * 2 ^ 64 + 2 ^ 80) 16)).poke (poolKey ⟨0, 0, 0⟩ 64) (bytesOf (2 ^ 24 + 2 ^ 128) 96)
theorem test_w_TileTransfers : (dtFault ⟨.d0, on, 1, 0, 2, none⟩ State.reset true false).isSome = true ∧
    dtFault ⟨.d0, on, 1, 0, 2, none⟩ descd true false = none ∧ dtFault ⟨.d0, on, 1, 0, 2, none⟩ descd false true = none ∧
    dtFault ⟨.d0, on, 1, 0, 2, none⟩ descd false false = none ∧ (descd.dtLines ⟨.d0, on, 1, 0, 2, none⟩).length = 2 := by decide +kernel
theorem test_w_FencesAndCacheControl :
    (dlFault ⟨.d0, on, 1, 2, 0⟩ (at0 (fun c => { c with regs := { c.regs with g := (c.regs.g.set 1 (2 ^ 40)).set 2 1 } }))).isSome = true ∧
    dlFault ⟨.d0, on, 1, 2, 0⟩ State.reset = none ∧ State.reset.windowOut ⟨0, 0, 0, 0⟩ 3 0 = false ∧ State.reset.pkts = [] := by decide +kernel
/-- A window store in flight. -/
def stored : Option State := match exec (.stv (da 2 1 0 none)) (wins 1 0x8000000000000000 0x01000000) with | .next t => some t | _ => none
theorem test_w_wwait_holds : stored.map (fun t => t.windowOut ⟨0, 0, 0, 0⟩ 0 100) = some true := by decide +kernel
/-- A context with one entry in its A FIFO. -/
def fed : State := at0 (fun c => { c with fifoA := List.replicate 64 ⟨[], false, 0, 0⟩ })
def fedB : State := at0 (fun c => { c with fifoB := List.replicate 64 ⟨[], false, 0, 0⟩ })
/-- A core with 16 forms that wait. -/
def mqFullS : State := fed.updCore ⟨0, 0, 0⟩ (fun k => { k with mq := (upTo 16).map (fun i => ⟨i, ⟨0, 0, 0, 0⟩, .mzero ⟨on, 5, 0, 0, 0⟩, 0, 0, 0, 0, false, 0, [], none, [], none, [], 0, 0, 0⟩) })
/-- The matrix forms that issue do so on these states. -/
def issuesM (i : Instr) (s : State) : Bool := after (exec i s) (fun t => (t.core ⟨0, 0, 0⟩).mq.length = 1 && t.cur.block = .none)
theorem test_w_MatrixIssue : (¬ State.reset.cur.owedA < State.reset.cur.fifoA.length) ∧ fed.cur.owedA < fed.cur.fifoA.length ∧ fedB.cur.owedB < fedB.cur.fifoB.length ∧
    fed.guard .m on = true ∧ fedB.guard .m on = true ∧ ((fed.core ⟨0, 0, 0⟩).mq.filter (fun m => !m.started)).length < 16 ∧
    16 ≤ ((mqFullS.core ⟨0, 0, 0⟩).mq.filter (fun m => !m.started)).length ∧ mqFullS.cur.owedA < mqFullS.cur.fifoA.length ∧
    [Instr.mzero ⟨on, 5, 0, 0, 0⟩, .mma ⟨on, 5, 0, 0, 0⟩, .mter ⟨on, 5, 0, 0, 0⟩, .mdrain ⟨on, 2, 0, 1, 6, 0, none⟩].all (fun i => issuesM i fed) = true ∧
    issuesM (.mlat ⟨on, 5, 0, 0, 0⟩) fedB = true := by decide +kernel
theorem test_w_ScaleLoad : State.reset.cur.limit < 8191 * 512 + 513 ∧ 8 * 512 + 512 ≤ State.reset.cur.limit := by decide +kernel
theorem test_w_EngineCommands : State.reset.cur.inRing 0 = false ∧ State.reset.cur.eq.length < 64 ∧ State.reset.guard .e on = true ∧
    sup.cur.eq.length < 64 ∧ State.reset.cur.csr.mode = false ∧ sup.cur.csr.mode = true ∧
    (amsgFault (eo 0 1 2 0 none) State.reset).isSome = true ∧ (ringFault (eo 0 1 0 0 none) true State.reset).isSome = true := by decide +kernel
theorem test_w_CopyAndCounterIssue : (cpyFault (eo 0 1 0 0 none) State.reset).isSome = true ∧
    cpyFault (eo 0 1 0 0 none) (descd.upd (fun c => { c with regs := { c.regs with e := c.regs.e.set 1 64 } })) = none ∧ State.reset.cur.room 1 = .ok ∧ State.reset.cur.inRing 1 = false := by decide +kernel

/-! ## A pod of two chips on which a gang of two members runs, and the witnesses of the statements about events -/

/-- A kernel of two members with one eager ring from context 0 of member 0 to context 0 of member 1, and one region. -/
def kern : Kernel :=
  { id := 0, vf := 0, q := 0, img := 0, member := 0, nchips := 2, super := false, irq := false, crec := 0, tag := 0, entry := 0, dataOff := 0,
    dataSz := 0, tiles := 64, accs := 16, noMatrix := false, stageMap := 0, cls := 0, aliasDef := 0, slackDef := 0, quota := 64,
    ovfBase := 0, flows := [], rings := [⟨0, 0, 0, 0, 1, 0, 0, 0, 3, 0x1000, 1, 4⟩], nregs := [], ancSz := 0, ancBase := 0, phase := 1,
    startClk := 0, dtask := 0, darr := 0, drev := 0, tfaults := 0 }
/-- The gang context on a chip: extent 0 is local memory, extent 1 member 1's. -/
def gangOn (m : Nat) : Gang :=
  { Gang.reset with loaded := true, kernel := some { kern with member := m },
                    xlat := [(0, { placeEntry with w := true }), (1, { placeEntry with kind := 2, w := true, member := 1, base := 0 })] }
/-- GC_CTL of a member: EN, VF 0, its index, two members. -/
def gcv (m : Nat) : BitVec 64 := BitVec.ofNat 64 (1 + m * 2 ^ 8 + 2 * 2 ^ 18)
/-- A chip of the gang: its member map at 2^29 + 2^21, port 0 and its partner 24 up and live toward the other chip. -/
def chipOn (m : Nat) : Chip :=
  { Chip.reset with running := some 0, gangs := [(0, gangOn m)], bar := [((0, gcBlock 0), gcv m), ((0, gcBlock 0 + 8), BitVec.ofNat 64 (2 ^ 29 + 2 ^ 21))],
                    ports := [(0, { Port.reset with up := true }), (24, { Port.reset with up := true })],
                    notices := [((1 - m, 0), true), ((1 - m, 24), true)] }
/-- The pod: 0, 1 as the member maps' entries. -/
def pod : State :=
  { State.reset with nchips := 2, chips := [(0, chipOn 0), (1, chipOn 1)],
                     mem := [(hbmKey 0 (2 ^ 29 + 2 ^ 21 + 2), 1), (hbmKey 1 (2 ^ 29 + 2 ^ 21 + 2), 1)] }
/-- Contexts of chips 0 and 1. -/
def c0 : Who := ⟨0, 0, 0, 0⟩
def c1 : Who := ⟨1, 0, 0, 0⟩
/-- The pod's acting party. -/
def act (w : Who) (id : Nat) (s : State) : State := { s with sel := ⟨w, id, 0, 0⟩ }
def actVal (w : Who) (id : Nat) (reg : Nat) (v : BitVec 64) (s : State) : State := { s with sel := ⟨w, id, reg, v⟩ }
/-- A packet of context 0 of chip 0, number 7. -/
def pk (op : AccOp) (tg : Target) (dst : Nat) (st : Stage) : Pkt :=
  { id := 7, who := c0, gctx := 0, slot := 6, op := op, va := 0, ea := 0, target := tg, dst := dst, po := 0, ac := 0, ord := 0, scope := 0, ef := false,
    reach := 0, flow := 0, seq := 0, ordf := false, ords := false, crit := false, slack := 4, sub := 0, exh := false, exq := false, evcc := 0,
    rallow := 0, stage := st, since := 0, born := 0, port := 0, via := none, resv := false, inst := 0, rev := 0, result := [],
    rflags := 0, poison := false, fault := 0, performed := false, pieces := [], told := 0, win := none, xfer := 0, dropLanding := false, again := false }
/-- The pod with one packet, and a step that names it. -/
def withPkt (p : Pkt) : State := act c0 7 { pod with pkts := [p] }
/-- The event takes a step. -/
def fires (i : Instr) (s : State) : Bool := after (exec i s) (fun _ => true)

theorem test_pod : pod.nchipsOf 0 = 2 ∧ pod.memberChip 0 0 1 = 1 ∧ Memory.wf pod.mem = true ∧ pod.portsFor 0 1 0 0 false none = [24] ∧
    pod.portsFor 0 1 0 0 true none = [0, 24] := by decide +kernel

/-- The command issues: it stands in the E queue. -/
def taking (i : Instr) (s : State) : Bool := after (exec i s) (fun t => t.cur.eq.length = 1)
theorem test_w_EngineCommands_issue :
    [Instr.amsg, .taskPost, .taskDec, .clbar, .chbar, .gbar, .fork, .spawn, .join, .revSt, .slk, .flowMode].all (fun i => taking (i (eo 0 0 0 0 none)) (act c0 0 pod)) = true ∧
    [Instr.xtloadFull, .xtloadEntry, .xtloadPage, .almw, .almwLen, .migCtlStart, .migCtlDone].all (fun i => taking (i (eo 0 1 0 0 none)) sup) = true ∧
    [Instr.esend, .eprobe].all (fun i => taking (i (eo 1 0 0 0 none)) (act c0 0 pod)) = true ∧ taking (.erel (eo 0 0 0 0 none)) (act c1 0 pod) = true ∧
    amsgFault (eo 0 0 0 0 none) (act c0 0 pod) = none ∧ taskDecFault (eo 0 0 0 0 none) (act c0 0 pod) = none ∧ fmFault (eo 0 0 0 0 none) (act c0 0 pod) = none ∧
    esendFault (eo 1 0 0 0 none) (act c0 0 pod) = none ∧ ringFault (eo 0 0 0 0 none) true (act c1 0 pod) = none := by decide +kernel

/-! ### Issue, landing, events of a context -/

/-- An add placed at the program counter. -/
def placed : State := State.reset.withFetchWord 32 0x00718440
/-- Its bundle, and the groups that the statements name. -/
def placedRaw : Raw := placed.rawAt c0 placed.cur.pc.toNat
theorem test_w_BundleIssue : placed.mayIssue 0 = true ∧ (placed.core c0.coreId).run = some c0.ctx ∧ placed.cur.flight = [] ∧ placed.cur.inSeg = false ∧
    placed.bundleFault placed.cur.pc.toNat = none ∧ (placed.firstDecode placedRaw).2 = none ∧ ((placed.firstDecode placedRaw).1.illegal placedRaw).1 = 0 ∧
    (let s1 := (placed.firstDecode placedRaw).1; let ops := opsOf (s1.uses placedRaw); let v := s1.look (s1.uses placedRaw)
     v.entryWanted placedRaw ops = false ∧ v.stalls ops = false ∧ v.blocks ops = none ∧ v.firstTouch ops = none ∧ (v.faults ops).isEmpty = true ∧
     ops.length = 1 ∧ ops.all (fun q => (slotOf q.2).isSome) = true) := by decide +kernel
theorem test_step : after (step placed) (fun t => t.cur.pc = placed.cur.pc + 12 ∧ t.cur.flight.length = 1) = true := by decide +kernel
theorem test_w_takeCore : ((placed.updCore c0.coreId (fun k => { k with run := none })).upd (fun c => { c with st := .ready })).nextReady c0.coreId = some 0 := by
  decide +kernel
theorem test_w_StepRunsDecoded : (match placedRaw.groups with | [g] => (decodeSlot g.slot g.w g.x).toOption.isSome | _ => false) = true ∧
    ([Slot.s0, .s1, .v0, .v1, .v2, .f, .d0, .d1, .m, .k, .e].all (fun sl => !holdBit placedRaw.hdr sl)) = true ∧
    (placed.upd (fun c => { c with arrive := .again })).cur.arrive = .again ∧ State.reset.choices.headD 0 = 0 := by decide +kernel
/-- One result in flight. -/
def inFlight (b : Nat) : State := at0 (fun c => { c with flight := [⟨.a 3, 9, 0xFF, 0, b, 1, 0, 0, []⟩] })
theorem test_w_ResultsLand : (inFlight 0).cur.flight = [⟨.a 3, 9, 0xFF, 0, 0, 1, 0, 0, []⟩] ∧ Dest.fixed (.pa 0) = some 1 ∧ Dest.fixed (.a 3) = none ∧
    ((inFlight 2).updCore c0.coreId (fun k => { k with clk := 1 })).t = 1 ∧
    after (exec .resultLand (inFlight 0)) (fun t => t.cur.regs.a[3] = 9 ∧ t.cur.csr.flags = 1) = true := by decide +kernel
/-- A full E queue of a Blocked context, with room in its ring. -/
def fullQ : State := (act c0 0 pod).upd (fun c =>
  { c with st := .blocked, block := .queue 0, csr := { c.csr with ovfQuota := 64, ovfBase := 0 },
           eq := (upTo 64).map (fun i => ⟨i, .slk (eo 0 0 0 0 none), 0, 0, 0, 0, false, 0, 0, 0, 0, 0, 0, 0, 0, 0, false, 0, 0⟩) })
theorem test_w_queueSpill : 64 ≤ fullQ.cur.queueLen 0 ∧ fullQ.cur.inRing 0 = false ∧ fullQ.cur.ring.length + 32 ≤ fullQ.cur.csr.ovfQuota.toNat ∧
    fullQ.cur.block = .queue 0 ∧ ovfMeets fullQ c0 ((upTo 32).map (fun i => fullQ.cur.ring.length + i)) true = (none, none) := by decide +kernel
/-- A context in a segment that ends, and one whose entry is due. -/
def seg (halting entry : Bool) (n : Nat) : State :=
  placed.upd (fun c => { c with inSeg := true, segInst := 1, segSafe := true, segIssues := n, halting := halting, st := .running, repOn := false,
                                arrive := .again, entryNext := entry })
theorem test_w_ContextEvents : (at0 (fun c => { c with st := .blocked })).unblocked c0 = true ∧ fires .lateFault (at0 (fun c => { c with late := [⟨0x09, 0, 0, false, .none⟩] })) = true ∧
    fires .eQueueHead fullQ = true ∧ (seg true false 5).cur.endDue = true ∧ (seg true false 5).commitReady c0 = true ∧
    fires .segmentCommit (seg true false 5) = true ∧ (seg false false 4096).entryDue = true ∧ (seg false false 4096).cur.endDue = false ∧
    fires .segmentIssueLimit (seg false false 4096) = true := by decide +kernel
/-- A context that holds for another core of its cluster, whose context is not in a segment. -/
def holding : State := at0 (fun c => { c with holds := [3] })
/-- A member of an open vote that has not stopped the context, as it stands outside, inside, and past rewinding in a segment. -/
def voting (f : Ctx → Ctx) : State := (pod.updChip 0 (fun c => { c with vote := { c.vote with member := some 0 } })).upd f
theorem test_w_holds : holding.endedHolds c0 ≠ [] ∧ (voting (fun c => c)).ctxsOf 0 = [c0] ∧ fires .preemptionRequest (voting (fun c => c)) = true ∧
    fires .preemptionRequest (voting (fun c => { c with inSeg := true, segSafe := true, segInst := 1 })) = true ∧
    (voting (fun c => { c with inSeg := true, segInst := 1 })).commitReady c0 = true ∧
    fires .preemptionRequest (voting (fun c => { c with inSeg := true, segInst := 1, entryNext := true })) = true := by decide +kernel

/-! ### Matrix forms and copies -/

/-- Context 0 with 16 accumulators, and a form of its core, number 7. -/
def formS (op : Instr) (started : Bool) : State :=
  act c0 7 ((pod.updCtx c0 (fun c => { c with csr := { c.csr with poolLimit := 0x100000, poolTiles := 8, poolAccs := 16 } })).updCore c0.coreId (fun k =>
    { k with mq := [⟨7, c0, op, 0, 0, 0, 0, started, 0, [], none, [], none, [], 0, 0, 0⟩] }))
/-- A copy of one element, by engine 0, to a space or a FIFO. -/
def copyS (dk : Nat) (run : Option Nat) : State :=
  let k : CopyCmd := ⟨9, c0, 2, 0, dk, 1, 0, 0, [(1, 0, 0)], none, 0⟩
  (act c0 0 pod).updCtx c0 (fun c => { c with cq0 := [k] }) |>.updCore c0.coreId (fun c => { c with cur0 := run.map (fun p => ⟨k, p, [], false, []⟩) })
theorem test_w_EngineEvents : fires .matrixOpStart (formS (.mzero ⟨on, 5, 0, 0, 0⟩) false) = true ∧
    mayComplete [] ⟨7, c0, .mzero ⟨on, 5, 0, 0, 0⟩, 0, 0, 0, 0, true, 0, [], none, [], none, [], 0, 0, 0⟩ = true ∧ Memory.wf (formS (.mzero ⟨on, 5, 0, 0, 0⟩) true).mem = true ∧
    fires .copyStart (copyS 0 none) = true ∧ fires .fifoEntryPush (copyS 2 (some 0)) = true ∧ fires .copyComplete (copyS 0 (some 0)) = true := by
  decide +kernel

/-- Context 0's drain of accumulator 1, started, with the operand value that names its last row read; and one byte of a copy. -/
def drainS (v : BitVec 64) : State := { formS (.mdrain ⟨on, 2, 0, 1, 6, 0, none⟩) true with sel := ⟨c0, 7, 0, v⟩ }
theorem test_w_EngineEvents_reads : readFirst (.mdrain ⟨on, 2, 0, 1, 6, 0, none⟩) ≠ [] ∧ fires .matrixOpComplete (drainS 1) = true ∧
    fires .copyComplete { copyS 0 (some 0) with sel := ⟨c0, 0, 0, 1⟩ } = true := by decide +kernel

/-! ### Packets and accesses -/

/-- A packet that is alone wins at its arbiter. -/
theorem wins_alone (p : Pkt) (h : (withPkt p).eligible p = true) (hc : p.crit = false) : (withPkt p).wins p = true := by
  have hp : (withPkt p).pkts = [p] := rfl
  have hw : (withPkt p).wires = [] := rfl
  unfold State.wins
  split
  · rfl
  · rename_i a ha
    have hl : (withPkt p).atArbiter a = [⟨p.crit, (withPkt p).rank a p⟩] := by simp [State.atArbiter, hp, hw, ha, h]
    have hr : (withPkt p).rivals a = [⟨p.crit, (withPkt p).rank a p⟩] := by
      have : 0 < arbDepth a := by unfold arbDepth; split <;> decide
      simp [State.rivals, hl, Rival.older, State.rank, lexLt, this]
    simp [State.chosen, hr, hc]
theorem test_w_Arbitration_router : [pk (.load 4 (.a 1)) (.dpa 0) 0 .router, pk (.load 4 (.a 1)) (.dpa 0) 0 .replyOut, pk (.load 4 (.a 1)) (.peer 0) 1 .inRouter,
      pk (.load 4 (.a 1)) (.peer 0) 1 (.bridge 1)].all (fun p => (withPkt p).thePkt.isSome && (withPkt p).eligible p && !p.crit) = true := by decide +kernel
theorem test_w_Arbitration : pod.portLive 0 24 1 = true ∧
    [pk (.load 4 (.a 1)) (.peer 0) 1 .egress, pk (.load 4 (.a 1)) (.peer 0) 1 .ingress, pk (.load 4 (.a 1)) (.peer 0) 1 .replyIngress,
      { pk (.load 4 (.a 1)) (.peer 0) 1 .replyEgress with performed := true }].all (fun p =>
        (withPkt p).thePkt.isSome && (withPkt p).eligible p && (withPkt p).wins p && fires .arbiterGrant (withPkt p)) = true ∧
    (withPkt (pk (.load 4 (.a 1)) (.peer 0) 1 .egress)).pktPorts (pk (.load 4 (.a 1)) (.peer 0) 1 .egress) = [24] ∧
    (let s := (withPkt (pk (.load 4 (.a 1)) (.peer 0) 1 .egress)).updGang 0 0 (fun g => { g with peersReset := [1] })
     s.toReset (pk (.load 4 (.a 1)) (.peer 0) 1 .egress) = true ∧ fires .arbiterGrant s = true) := by decide +kernel
/-- R282: a wait of 40 cycles charges 2 units and keeps 8 cycles over; 16 cycles at slack 0 exhaust. -/
theorem test_slack : (let q := (pk (.load 4 (.a 1)) (.dpa 0) 0 .router).grant 40 .slice; (q.slack, q.sub, q.exh)) = (2, 8, false) ∧
    (let q := ({ pk (.load 4 (.a 1)) (.dpa 0) 0 .router with slack := 0 }).grant 16 .slice; q.exh) = true := by decide +kernel
/-- A step's value beside its packet. -/
def valued (v : BitVec 64) (s : State) : State := { s with sel := { s.sel with val := v } }
/-- A copy on a link toward chip 1, and the pod with it. -/
def wire (tried : Bool) : Wire :=
  { pkt := 7, who := c0, gctx := 0, flow := 0, dst := 1, seq := 0, crit := false, back := false, unit := false, port := 24, slack := 4, sub := 0, exh := false,
    since := 0, tried := tried, out := true }
def onLink (tried : Bool) : State := { withPkt (pk (.load 4 (.a 1)) (.peer 0) 1 .link) with wires := [wire tried], sel := ⟨c0, 7, 24, 0⟩ }
theorem test_w_Packets_arrival : (onLink false).theWire true = some (wire false) ∧ (onLink false).wireSeen (wire false) = false ∧
    [onLink false, valued 1 (onLink false), valued 1 (onLink true), valued 2 (onLink false)].all (fires .packetArrival) = true ∧
    (pk (.load 4 (.a 1)) (.peer 0) 1 .link).isVote = false := by decide +kernel
/-- A store of one byte into the pool of the other chip's core 0, and an access of extent 0 there. -/
def poolP : Pkt := pk (.store [5]) (.pool 0 0 64) 1 .target
def peerP (va : Nat) : Pkt := pk (.load 4 (.a 1)) (.peer va) 1 .target
theorem test_w_Packets_perform : (withPkt poolP).mayPerform poolP = true ∧ ((withPkt poolP).wantedIn ⟨1, 0, 0⟩ 64 1) = none ∧
    (withPkt (peerP 8)).mayPerform (peerP 8) = true ∧ (withPkt (peerP 8)).targetLookup (peerP 8) 8 = .dpa (2 ^ 29 + 8) false ∧
    (withPkt (peerP (2 ^ 31))).targetLookup (peerP (2 ^ 31)) (2 ^ 31) = .range ∧ poolP.pieces = [] ∧ (withPkt poolP).pkts.all (fun p => !p.isPool) = true ∧
    ((withPkt (peerP 8)).updGang 1 0 (fun g => { g with xlat := g.xlat.set 0 { placeEntry with absent := 1 } })).targetLookup (peerP 8) 8 = .absent 0 0 ∧
    ((withPkt (peerP 8)).updGang 1 0 (fun g => { g with xlat := g.xlat.set 0 { placeEntry with base := 2 ^ 40 - 2 ^ 28 } })).targetLookup (peerP 8) 8 = .cap := by
  decide +kernel
theorem test_w_Packets_reply : [pk (.load 4 (.a 1)) (.peer 0) 1 .home, { pk (.load 4 (.a 1)) (.peer 0) 1 .home with fault := 9 },
      pk (.taskDec 1 1 3) (.pool 0 0 0) 1 .home].all (fun p => isReply p && fires .replyLand (withPkt p)) = true ∧
    fires .windowAck (withPkt { pk (.store [5]) (.pool 0 0 64) 1 .home with win := some 2 }) = true ∧
    (withPkt (pk (.load 4 (.a 1)) (.peer 0) 1 .home)).atHome (pk (.load 4 (.a 1)) (.peer 0) 1 .home) = true ∧
    fires .flowModeDrained ((act c0 0 pod).upd (fun c => { c with flowWait := [⟨9, 2, 4, [1], 3, 0, true⟩] })) = true := by decide +kernel
/-- An access to this chip's memory. -/
def memP (op : AccOp) (st : Stage) : Pkt := pk op (.dpa (2 ^ 29)) 0 st
theorem test_w_MemoryEvents : [memP (.load 4 (.a 1)) .slice].all (fun p => fires .homeSliceAccess (withPkt p)) = true ∧
    (withPkt (memP (.load 4 (.a 1)) .slice)).pktDpa (memP (.load 4 (.a 1)) .slice) < (withPkt (memP (.load 4 (.a 1)) .slice)).capLimit 0 ∧
    fires .mcRequestAccept (withPkt (memP (.load 4 (.a 1)) (.mc 0 0xFFF))) = true ∧ fires .mcRequestAccept (withPkt (memP (.load 4 (.a 1)) (.mc 1 0xFFF))) = true ∧
    (withPkt (memP (.store [5]) .ready)).needsLog (memP (.store [5]) .ready) = none ∧ (withPkt (memP (.store [5]) .ready)).revTouch (memP (.store [5]) .ready) = none ∧
    fires .accessPerformed (withPkt (memP (.store [5]) .ready)) = true ∧ (withPkt (memP (.store [5]) .ready)).inTurn (memP (.store [5]) .ready) = true ∧
    ((withPkt (memP (.store [5]) .ready)).updGang 0 0 (fun g => { g with xlat := g.xlat.set 0 { placeEntry with w := true, dlog := true } })).needsLog
      (memP (.store [5]) .ready) = some (0, 0) := by decide +kernel
theorem test_w_MemoryEvents_cap : (let s := (withPkt (memP (.load 4 (.a 1)) .slice)).updGang 0 0 (fun g => { g with xlat := g.xlat.set 0 { placeEntry with base := 2 ^ 40 - 2 ^ 28 } })
    s.capLimit 0 ≤ s.pktDpa (memP (.load 4 (.a 1)) .slice) ∧ fires .homeSliceAccess s = true) := by decide +kernel
/-- An access that misses in a set of dirty lines, and a writeback at its controller. -/
def fullSet : State :=
  let s := withPkt (memP (.load 4 (.a 1)) .slice)
  let a := s.pktDpa (memP (.load 4 (.a 1)) .slice)
  s.updChip 0 (fun c => { c with l2 := [((sliceOf a, setOf a), List.replicate 16 { Way.empty with line := some 7, dirty := true, filler := some (0, c0) })] })
theorem test_w_MemoryEvents_writeback : fires .homeSliceAccess fullSet = true ∧
    fullSet.dirtyOut 0 (fullSet.pktDpa (memP (.load 4 (.a 1)) .slice)) c0 = some (896, 0) ∧
    fullSet.buffers 0 (fullSet.pktDpa (memP (.load 4 (.a 1)) .slice)) = false ∧
    fires .mcRequestAccept (withPkt (memP (.writeBack 0) (.mc 0 0xFFF))) = true ∧
    (withPkt (memP (.writeBack 0) (.mc 0 0xFFF))).buffers 0 (memP (.writeBack 0) (.mc 0 0xFFF)).va = true := by decide +kernel
/-- The pod's cores two cycles on. -/
def later (s : State) : State := s.updCore c0.coreId (fun k => { k with clk := 2 })
theorem test_w_landing : (later (withPkt (memP (.load 4 (.a 1)) .landing))).mayLand (memP (.load 4 (.a 1)) .landing) = true ∧
    fires .globalLoadLand (later (withPkt (memP (.load 4 (.a 1)) .landing))) = true ∧
    [Xfer.mk 7 c0 true 0 0 false [], ⟨7, c0, false, 0, 0, false, []⟩].all (fun x => fires .tileRowsDone { act c0 7 pod with xfers := [x] }) = true := by decide +kernel
/-- A child revision 1 of the root writes in an extent of revision kind with a pool of four slots. -/
def revS : State := ((withPkt { memP (.store [5]) .sorrel with rev := 1 }).updGang 0 0 (fun g =>
  { g with xlat := g.xlat.set 0 { placeEntry with w := true, kind := 4 }, ancBase := 2 ^ 20, ancSlots := 4, regions := [⟨0, 2 ^ 28, 5, 1, 4⟩],
           revs := [⟨1, 0, 0, 1, 1, false⟩] }))
theorem test_w_sorrel : revS.revTouch { memP (.store [5]) .sorrel with rev := 1 } = some (1, 0) ∧
    revS.sorrelMeets { memP (.store [5]) .sorrel with rev := 1 } 1 0 = .no ∧ (prepareWrite revS 0 0 1 0 c0).isSome = true ∧ fires .sorrelSlotGrant revS = true := by decide +kernel

/-- A read of that extent by the child. -/
def revRead : Pkt := { memP (.load 4 (.a 1)) .ready with rev := 1 }
def revReadS : State := { revS with pkts := [revRead] }
theorem test_w_MemoryEvents_revision : revReadS.revTouch revRead = some (1, 0) ∧ revReadS.sorrelMeets revRead 1 0 = .no ∧
    (revReadS.updGang 0 0 (fun g => { g with ancSlots := 0 })).sorrelMeets { memP (.store [5]) .sorrel with rev := 1 } 1 0 ≠ .no ∧
    fires .accessPerformed revReadS = true := by decide +kernel

/-! ### Commands at the head, arrivals, tasks, barriers, revisions -/

/-- A command at the head of a context's queue. -/
def headS (w : Who) (i : Instr) (ea : BitVec 64) (f : State → State) : State :=
  f ((act w 0 pod).updCtx w (fun c => { c with eHead := some ⟨7, i, ea, 0, 0, 0, false, 0, 0, 0, 0x8000000000000000, 0, 0, 0, 0, 0, false, 0, 1⟩ }))
theorem test_w_QueueHeads : [(Instr.amsgSend, headS c0 (.amsg (eo 0 1 2 0 none)) 0 id), (.esendSlot, headS c0 (.esend (eo 0 1 0 0 none)) 0 id),
      (.erelNotice, headS c1 (.erel (eo 0 0 0 0 (some ⟨0, false, 0x20⟩))) 0 id), (.eprobeRead, headS c0 (.eprobe (eo 2 0 0 0 none)) 0 id),
      (.slkApply, headS c0 (.slk (eo 0 0 0 0 none)) 0 id), (.almwApply, headS c0 (.almw (eo 1 1 0 0 none)) 0 id), (.almwApply, headS c0 (.almwLen (eo 1 1 0 0 (some ⟨0, false, 16⟩))) 5 id),
      (.xtloadApply, headS c0 (.xtloadEntry (eo 1 1 1 1 (some ⟨0, false, 3⟩))) 0 id), (.migStartApply, headS c0 (.migCtlStart (eo 1 0 0 0 none)) 0 id),
      (.migDoneApply, headS c0 (.migCtlDone (eo 1 0 0 1 none)) 0 id)].all (fun q => fires q.1 q.2) = true ∧
    ((headS c0 (.esend (eo 0 1 0 0 none)) 0 id).myRing 0 c0 0 false).isSome = true ∧ ((headS c1 (.erel (eo 0 0 0 0 none)) 0 id).myRing 1 c1 0 true).isSome = true ∧
    (headS c0 (.esend (eo 0 1 0 0 none)) 0 id).cur.eHead.isSome = true ∧ ((headS c0 (.esend (eo 0 1 0 0 none)) 0 id).cur.view 0).free 4 ≠ 0 ∧
    (((headS c0 (.esend (eo 0 1 0 0 none)) 0 id).upd (fun c => c.setView 0 (fun v => { v with sent := 4 }))).cur.view 0).free 4 = 0 := by decide +kernel
theorem test_w_QueueHeads_conditions : almwOk false 4 0 0 = true ∧ almwOk false 4 0 (BitVec.allOnes 64) = false ∧ almwOk true 4 0 5 = true ∧ almwOk true 4 0 0 = false ∧
    pod.migPermit 0 (pod.vf 0) = false ∧ (pod.setBar 0 0 0x32000 0x80).migPermit 0 ((pod.setBar 0 0 0x32000 0x80).vf 0) = true ∧
    pod.migCheck 0 0 = 0 ∧ pod.migCheck 0 12 ≠ 0 ∧ (pod.chip 0).mig.active = false := by decide +kernel
theorem test_w_Arrivals : [(Instr.amsgLand, pk (.amsg [1] 0 0 3 7 0 1) (.pool 0 0 64) 1 .target), (.taskDecApply, pk (.taskDec 5 1 3) .unit 1 .target),
      (.esendSlotPerform, pk (.slot 0 0 [1] 3 7 0 1) .unit 1 .target), (.erelNoticeArrival, { pk (.notice 0 1 3) .unit 0 .target with who := c1 }),
      (.gbarArrival, { pk (.gbar 3 2 1) .unit 0 .target with who := c1 })].all (fun q => (withPkt q.2).mayPerform q.2 && fires q.1 (withPkt q.2)) = true ∧
    (withPkt (pk (.amsg [1] 0 0 3 7 0 1) (.pool 0 0 64) 1 .target)).wantedIn ⟨1, 0, 0⟩ 64 1 = none ∧ (pod.ctx c1).room 3 = .ok ∧
    (pod.rings 1)[0]?.isSome = true ∧ pod.lookup 1 0 0 false false false = .dpa (2 ^ 29) false ∧ pod.pageClean 1 0 0 = none ∧
    ((pod.gang 0 0).bar 2003).any Barrier.full = false := by decide +kernel
/-- The first of two packets of a message, and of a slot write. -/
theorem test_w_Arrivals_parts : ((pod.gang 1 0).landed c0 7 1).1 = 1 ∧ fires .amsgLand (withPkt (pk (.amsg [1] 0 0 3 7 0 2) (.pool 0 0 64) 1 .target)) = true ∧
    fires .esendSlotPerform (withPkt (pk (.slot 0 0 [1] 3 7 0 2) .unit 1 .target)) = true := by decide +kernel
/-- A unit's request, number 7, of context 0. -/
def req (i : Instr) (ea rev : BitVec 64) : State :=
  { act c0 7 pod with reqs := [⟨7, c0, ⟨7, i, ea, 0, 0, 0, false, 0, 0, 0, rev, 0, 0, 0, 0, 0, false, 0, 0⟩⟩] }
theorem test_w_TasksAndBarriers :
    [(Instr.handlerStart, (act c0 0 pod).upd (fun c => { c with st := .dormant, csr := { c.csr with ctxHdl := 1 }, rq := [⟨0, 0, 4, 0⟩] })),
      (.taskPostAccept, req (.taskPost (eo 0 1 2 0 none)) 0 0), (.barrierArrival, req (.clbar (eo 0 0 0 1 (some ⟨0, false, 2⟩))) 0 0),
      (.barrierArrival, req (.chbar (eo 0 0 0 1 (some ⟨0, false, 2⟩))) 0 0),
      (.dispatchDecision, ((act c0 0 pod).upd (fun c => { c with st := .dormant, csr := { c.csr with ctxHdl := 2 } })).updRgang 0 (fun g => { g with window := [⟨some 3, 0x1000, 5, 0, 0⟩] })),
      (.taskStart, ((act c0 0 pod).upd (fun c => { c with st := .dormant, csr := { c.csr with ctxHdl := 2 } })).updRgang 0 (fun g => { g with picked := [(c0, ⟨some 3, 0x1000, 5, 0, 0⟩)] })),
      (.barrierComplete, (act c0 3 pod).updRgang 0 (fun g => { g with bars := [(3, ⟨1, [(c0, 2)]⟩)] })),
      (.gbarComplete, (act c0 2003 pod).updRgang 0 (fun g => { g with bars := [(2003, ⟨1, [(c0, 2)]⟩)] })),
      (.memberFinish, act c0 0 pod)].all (fun q => fires q.1 q.2) = true ∧ (req (.taskPost (eo 0 1 2 0 none)) 0 0).theReq.isSome = true ∧
    (req (.taskPost (eo 0 1 2 0 none)) 0 0).released c0 0 3 = true ∧ (((pod.rgang 0).post 3 0 0 0 0 0).1.task 3).posted = true ∧
    pod.finished 0 0 = true := by decide +kernel
/-- A root's child of number 1 and serial 0, with four slots. -/
def childS (i : Instr) (ea : BitVec 64) (task : Nat) : State :=
  (req i ea 0x8000000000000000).updRgang 0 (fun g => { g with ancSlots := 4, ancBase := 2 ^ 20, regions := [⟨0, 2 ^ 28, 5, 1, 4⟩], revs := [⟨1, 0, 0, 1, task, false⟩] })
theorem test_w_Revisions : (req (.fork (eo 1 1 2 0 none)) 0 0x8000000000000000).firstRevReq ⟨7, c0, ⟨7, .fork (eo 1 1 2 0 none), 0, 0, 0, 0, false, 0, 0, 0, 0x8000000000000000, 0, 0, 0, 0, 0, false, 0, 0⟩⟩ = true ∧
    [(Instr.forkPerform, req (.fork (eo 1 1 2 0 none)) 0 0x8000000000000000), (.forkPerform, req (.spawn (eo 1 1 2 0 none)) 0 0x8000000000000000),
      (.revStPerform, req (.revSt (eo 1 1 0 0 none)) 0 0x8000000000000000), (.joinPerform, req (.join (eo 1 1 0 0 none)) 0x8000000000000000 0x8000000000000000),
      (.joinPerform, childS (.join (eo 1 1 0 0 none)) (⟨1, 0, 0, 1, 0, false⟩ : Rev).handle 0)].all (fun q => fires q.1 q.2) = true ∧
    forkStatus ((childS (.fork (eo 1 1 2 0 none)) 0 0).rgang 0) 0 none = 0 ∧
    ((childS (.join (eo 1 1 0 0 none)) 0 0).rgang 0).byHandle (⟨1, 0, 0, 1, 0, false⟩ : Rev).handle = some ⟨1, 0, 0, 1, 0, false⟩ := by decide +kernel
/-- A child that has halted is being joined, with one granule of its own or with none. -/
def joinR : JoinRec := ⟨7, c0, none, 0, 1, 0, [], 0, 0, 0, 0, 0⟩
def joinS (l : List SlotUse) : State :=
  { (act c0 7 pod) with reqs := [] }.updRgang 0 (fun g =>
    { g with xlat := g.xlat.set 0 { placeEntry with w := true, kind := 4 }, ancSlots := 4, ancBase := 2 ^ 20, regions := [⟨0, 2 ^ 28, 5, 1, 4⟩],
             revs := [⟨1, 0, 0, 1, 2, true⟩], slots := l, joins := [joinR] })
theorem test_w_joinGrans : (joinS []).theReq = none ∧ (joinS []).childDone 0 0 ⟨1, 0, 0, 1, 2, true⟩ = true ∧ ((joinS []).rgang 0).kids 1 = [] ∧
    ((joinS []).rgang 0).ownGrans 1 = [] ∧ fires .joinPerform (joinS []) = true ∧ ((joinS [⟨0, 0, 1, []⟩]).rgang 0).ownGrans 1 = [0] ∧
    (match joinGran (joinS [⟨0, 0, 1, []⟩]) 0 0 joinR ⟨1, 0, 0, 1, 2, true⟩ 0 256 with | .done _ => true | _ => false) = true ∧
    fires .joinPerform (joinS [⟨0, 0, 1, []⟩]) = true := by decide +kernel

/-! ## Collectives, gangs and the platform -/

/-- A descriptor: eight i32 elements, sharded over a mesh of two members; the whole at every member after it (an all-gather). -/
def collDesc (flags src dst : Nat) : List Byte :=
  bytesOf 1 1 ++ bytesOf 5 1 ++ bytesOf flags 1 ++ bytesOf 1 1 ++ bytesOf 2 2 ++ bytesOf 0 6 ++ bytesOf 0x41 4 ++ bytesOf 0 4 ++ bytesOf 256 4 ++
    bytesOf src 8 ++ bytesOf dst 8 ++ bytesOf 8 4 ++ bytesOf 0 12 ++ bytesOf 0 1 ++ bytesOf 1 1 ++ bytesOf 0 6
/-- A member's collective, number 9. -/
def coll (m phase flags : Nat) : Coll :=
  { id := 9, who := ⟨m, 0, 0, 0⟩, gctx := 0, tag := 3, member := m, cc := 0, ovt := 0, desc := collDesc flags 0x100000 0x110000, bad := false, phase := phase,
    status := 0, decision := none, ports := [], step := 0, sub := 0, chunks := 0, ins := [], outs := [],
    cmd := ⟨9, .coll (eo 0 0 0 0 none), 0, 0, 0, 0, false, 0, 0, 0, 0, 0, 0, 0, 0, 0, false, 0, 0⟩, got := [], owed := 0, inBad := [], outBad := [], sick := [],
    taken := [], told := 0, sends := [], tell := [] }
/-- Both members' collectives, the first one's as given. -/
def collS (k : Coll) (other : List Coll) : State :=
  ((act c0 9 ((pod.updChip 0 (fun c => { c with colls := [k] })).updChip 1 (fun c => { c with colls := other }))).updCtx c0 (fun c =>
    { c with eHead := some (coll 0 0 0).cmd }))
/-- The plan of the descriptor is one all-gather, whose line's second member has read its input. -/
def gathered : State :=
  let s := collS { coll 0 3 0 with decision := some 0 } [{ coll 1 3 0 with decision := some 0 }]
  readInput (readInput s { coll 1 3 0 with decision := some 0 } 0 []) { coll 0 3 0 with decision := some 0 } 0 []
theorem test_coll : plan (coll 0 0 0).d = [⟨4, 0, 0, 0⟩] ∧ (collDesc 0 0 0).length = 64 ∧ (coll 0 0 0).count 0 = 4 ∧
    (gathered.theColl).any (fun k => k.outs.any (fun o => o.1 = 0 && o.2.1.length = 8)) = true := by decide +kernel
theorem test_w_Collectives_take : (collS (coll 0 0 0) []).theColl.isSome = true ∧
    ([collS (coll 0 0 0) [], collS { coll 0 0 0 with bad := true } [], collS (coll 0 0 4) [],
      (collS (coll 0 0 0) []).updChip 0 (fun c => { c with colls := [{ coll 0 1 0 with id := 8 }, coll 0 0 0] }),
      (collS (coll 0 0 0) []).updChip 0 (fun c => { c with ports := [] })].all (fires .collContextTake)) = true ∧
    (let s := collS (coll 0 0 0) []; let ps := collPorts s 0 (coll 0 0 0).d; (portsFree s 0 ps && !s.loses 0 (coll 0 0 0) ps) = true) ∧
    (let s := (collS (coll 0 0 0) []).updChip 0 (fun c => { c with ports := [] }); portsFree s 0 (collPorts s 0 (coll 0 0 0).d) = false) := by decide +kernel
/-- A packet of member 1's collective at member 0. -/
def collP (op : AccOp) (stuff : List Coll) : State :=
  { (withPkt { pk op .unit 0 .target with who := c1 }).updChip 0 (fun c => { c with colls := stuff }) with sel := ⟨c0, 7, 0, 0⟩ }
theorem test_w_Collectives_run : fires .collStartFlit (collS (coll 0 1 0) []) = true ∧ ((coll 0 1 0).mesh 2).contains 5 = false ∧ (collS (coll 0 1 0) []).pkts = [] ∧
    fires .collStartFlit (collS { coll 0 1 0 with member := 5 } []) = true ∧ fires .collGo (collS { coll 0 2 0 with decision := some 0 } []) = true ∧
    fires .collAbort (collS { coll 0 2 0 with decision := some 3 } []) = true ∧ fires .collChunk gathered = true ∧
    fires .collChunk (gathered.updChip 0 (fun c => { c with colls := c.colls.map (fun k => { k with sub := 1, got := [(0, 1)] }) })) = true ∧
    fires .collComplete (gathered.updGang 0 0 (fun k => { k with peersReset := [1] })) = true ∧
    fires .collComplete (collS { coll 0 3 0 with decision := some 0, step := 1 } []) = true := by decide +kernel
theorem test_w_Collectives_packets :
    [(Instr.collStartFlit, collP (.flit 3 0 1 0 5) []), (.collGo, collP (.flit 3 1 0 0 5) [coll 0 2 0]), (.collAbort, collP (.flit 3 2 0 4 5) [coll 0 2 0]),
      (.collChunk, collP (.chunk 3 0 (bytesOf 0 16)) [coll 0 3 0])].all (fun q => fires q.1 q.2 && q.2.theColl.isNone && q.2.thePkt.any q.2.mayPerform) = true ∧
    ((collP (.flit 3 1 0 0 5) [coll 0 2 0]).taggedColl 0 0 3).isSome = true := by decide +kernel
theorem test_decide : decide_ true [] = 5 ∧ decide_ false [(0, 7), (1, 7)] = 1 ∧ decide_ false [(0, 7), (0, 8)] = 4 ∧ decide_ false [(0, 7), (0, 7)] = 0 := by decide +kernel

/-- A retirement of stack 3 in progress. -/
def moving (marked : Bool) (wm : Nat) : State :=
  (act c0 0 pod).updChip 0 (fun c => { c with mig := { c.mig with active := true, stack := 3, marked := marked, wmValid := true, wm := wm } })
theorem test_w_Retirement : fires .periodMark (moving false 5) = true ∧ fires .periodDrained (moving true 5) = true ∧ fires .periodDrained (moving true 0) = true ∧
    fires .periodDrained { moving true 5 with sel := { (moving true 5).sel with val := 1 } } = true ∧
    pod.migCheck 0 3 = 0 ∧ fires .policyEvaluation { act c0 0 pod with now := secCycles } = true ∧
    (let s := { act c0 0 pod with now := secCycles }.updChip 0 (fun c => { c with mig := { c.mig with request := some 3 } })
     (s.chip 0).mig.request = some 3 ∧ fires .firmwareRetireRetry s = true) := by decide +kernel
/-- A column that runs, and messages to chip 0. -/
def almS (f : Alm → Alm) : State := (act c0 0 pod).updChip 0 (fun c => { c with alm := f { c.alm with run := true, nslots := 1 } })
def told (m : VoteMsg) (s : State) : State := { s with votes := [(0, m)] }
theorem test_w_Almanac : fires .slotBoundary (almS id) = true ∧ (almS id).podBase 0 ≠ none ∧
    fires .almanacDeltas (told (.report 1 [] [] 5) (almS id)) = true ∧ (almS (fun a => { a with master := true })).masterChip = some 0 ∧ fires .slotBoundary (almS (fun a => { a with begun := true })) = true ∧
    fires .frameEndReport (almS (fun a => { a with ended := true })) = true ∧ (almS id).masterChip = none ∧ fires .almanacDeltas (told (.deltas []) (almS id)) = true ∧
    fires .almanacDeltas (almS (fun a => { a with master := true, reports := [(0, [], [], 0)] })) = true ∧
    (almS (fun a => { a with master := true, reports := [(0, [], [], 0)] })).columns = [0] ∧
    (({ Alm.reset with begun := true, nslots := 1 } : Alm).advance ⟨0, 7⟩).idx = 1 ∧ (({ Alm.reset with begun := true, nslots := 1, idx := 1 } : Alm).advance ⟨0, 7⟩).epoch = 1 := by
  decide +kernel
/-- Binnacle of chip 0. -/
def voteS (f : Vote → Vote) : State := (act c0 0 pod).updVote 0 f
/-- A vote open at the coordinator, and one in which chip 0 has stopped. -/
def openV (v : Vote) : Vote := { v with coord := some 0 }
theorem test_w_Votes : pod.refusal 0 0 0 0 = 0 ∧ pod.refusal 0 0 1 0 = 3 ∧ (pod.updChip 0 (fun c => { c with running := none })).refusal 0 0 0 0 = 0 ∧
    (openV Vote.reset).opened 0 0 0 = true ∧ drained 2 [(0, [(1, 4)], [(1, 5)]), (1, [(0, 5)], [(0, 4)])] = true ∧ drained 2 [(0, [(1, 4)], []), (1, [], [])] = false ∧
    [(Instr.prepare, told (.prepare 0 0 0) (voteS id)), (.ack, told (.ack 0 0 0 1 [] []) (voteS openV)), (.ack, told (.ack 0 0 0 1 [] []) (voteS id)),
      (.ackResend, { voteS (fun v => { v with member := some 0, acked := true, lastS := [(1, 4)] }) with now := 700 }),
      (.refuse, told (.refuse 0 0 0 1 2) (voteS openV)), (.refuse, told (.refuse 0 0 0 1 2) (voteS id)), (.voteTimeout, { voteS openV with now := 14000 }),
      (.commit, told (.commit 0 0 0) (voteS id)), (.commit, told (.commit 0 0 0) (voteS (fun v => { v with member := some 0 }))),
      (.abort, told (.abort 0 0 0 2) (voteS id)), (.abort, told (.abort 0 0 0 2) (voteS (fun v => { v with member := some 0 }))),
      (.ready, told (.ready 0 0 0 1) (voteS id)), (.ready, told (.ready 0 0 0 1) (voteS (fun v => { v with inGang := some 0, readies := [0] }))),
      (.ready, told (.ready 0 0 0 1) (voteS (fun v => { v with inGang := some 0 }))), (.notready, told (.notready 0 0 0 1) (voteS id)),
      (.ready, told (.ready 0 0 0 1) ((voteS id).updChip 0 (fun c => { c with alm := { c.alm with idx := 2 } }))),
      (.ready, told (.ready 0 0 0 1) (voteS (fun v => { v with inGang := some 0, decided := true }))),
      (.startTimeout, { voteS (fun v => { v with inGang := some 0 }) with now := 14000 }), (.go, told (.go 0 0 0 false) (voteS id)),
      (.go, told (.go 0 0 0 false) ((voteS (fun v => { v with sentReady := some (0, 0, 0) })).updChip 0 (fun c => { c with running := none }))),
      (.voteHalt, told (.halt 0 0 0) (voteS id))].all (fun q => fires q.1 q.2) = true ∧
    (told (.commit 0 0 0) (voteS (fun v => { v with member := some 0 }))).settled 0 0 = true := by decide +kernel
theorem test_w_SwitchesAndResets : (pod.gang 0 0).kernel.isSome = true ∧
    (let s := (act c0 0 pod).updCore c0.coreId (fun k => { k with units := [(0, ⟨none, true, true⟩)] }); s.touched c0.coreId 0 = true ∧ fires .unitFillDone s = true) ∧
    fires .vfReset (act c0 0 pod) = true ∧ fires .vfResetEnd ((act c0 5 pod).updChip 0 (fun c => { c with resetting := [5] })) = true ∧
    fires .peerReset (told (.peerReset 0 1) (act c0 0 pod)) = true := by decide +kernel

/-! ### Launches, records, registers and the platform -/

/-- VF 0's queue 0 holds one record: its flags and its gang context, the rest 0. -/
def launchS (flags gang : Nat) : State :=
  let s := (((act c0 0 pod).setBar 0 1 8 0x80).setBar 0 1 0x18 1)
  s.poke (hostKey 0 (portOfFn 1) 0) (bytesOf 0 16 ++ bytesOf gang 2 ++ bytesOf 0 2 ++ bytesOf 1 2 ++ bytesOf flags 2 ++ bytesOf 0 40)
def idle0 (s : State) : State := s.updGang 0 0 (fun k => { k with kernel := none })
/-- VF 0's queue 0 holds a record that passes its checks: frame 5 is VF 0's, its image stands at its base, and its list
of entries 2^20 above maps extent 0 to it. -/
def launchOk : State :=
  let s := (((act c0 0 pod).setBar 0 1 8 0x80).setBar 0 1 0x18 1).updChip 0 (fun c => { c with frames := [(5, .assigned 0)] })
  let s := s.poke (hostKey 0 (portOfFn 1) 0) (bytesOf 0 8 ++ bytesOf (2 ^ 20) 8 ++ bytesOf 0 4 ++ bytesOf 1 2 ++ bytesOf 0 42)
  idle0 (((s.poke (hbmKey 0 0) (bytesOf (1 + 5 * 2 ^ 28) 8)).poke (hbmKey 0 (5 * 2 ^ 28)) (bytesOf 0x4B375A47 4 ++ bytesOf 1 2 ++ bytesOf 512 2 ++ bytesOf 512 4 ++ bytesOf 4 4 ++ bytesOf 516 4)).poke
    (hbmKey 0 (5 * 2 ^ 28 + 2 ^ 20)) (bytesOf 0x29 1))
/-- Its record. -/
def launchRec : List Byte := (bytesOf 0 8 ++ bytesOf (2 ^ 20) 8 ++ bytesOf 0 4 ++ bytesOf 1 2 ++ bytesOf 0 42)
/-- Bytes that memory does not list read 0. -/
theorem memTake_none (m : List Host.Cell) (a n : Nat) (h : m.all (fun c => c.1 < a || a + n ≤ c.1) = true) : memTake m a n = List.replicate n 0 := by
  have h1 : ∀ i, i < n → memGet m (a + i) = 0 := by
    intro i hi
    induction m with
    | nil => rfl
    | cons c r ih =>
      obtain ⟨k, b⟩ := c
      simp only [List.all_cons, Bool.and_eq_true, Bool.or_eq_true, decide_eq_true_eq] at h
      have hk : k ≠ a + i := by omega
      simp only [memGet, hk, if_false]
      split
      · rfl
      · exact ih h.2
  unfold memTake
  apply List.ext_getElem (by simp)
  intro i h2 h3
  simp only [List.getElem_map, List.getElem_range, List.getElem_replicate]
  exact h1 i (by simpa using h2)
/-- A range below 2^28 touches extent 0 alone. -/
theorem extentsOf_0 (a n : Nat) (h : a + n ≤ 2 ^ 28) (hn : 0 < n) : extentsOf a n = [0] := by
  have h1 : (a + n - 1) / 2 ^ 28 = 0 := by omega
  have h2 : a / 2 ^ 28 = 0 := by omega
  unfold extentsOf
  rw [if_neg (by omega), h1, h2]
  rfl
theorem test_launchMem : launchOk.mem.all (fun c => c.1 < hbmKey 0 (5 * 2 ^ 28 + 2 ^ 20 + 32) || hbmKey 0 (5 * 2 ^ 28 + 2 ^ 20 + 2 ^ 18) ≤ c.1) = true ∧ launchOk.stage2 0 0 0 = some (5, 0) ∧ launchOk.frame 0 5 = .assigned 0 ∧
   launchOk.walkOne 0 0 (2 ^ 20) = .ok (readEntry (bytesOf 0x29 32) |> fun e => { e with base := 5 * 2 ^ 28 }) ∧ (launchOk.gpaRead 0 0 0 512).isSome = true ∧
   launchOk.poison = [] ∧ launchOk.uncorr = [] ∧ launchOk.sunk = [] := by decide +kernel
/-- Where nothing is poisoned or lost, no range is bad. -/
theorem badAt_none (s : State) (n a len : Nat) (h : s.poison = [] ∧ s.uncorr = [] ∧ s.sunk = []) : s.badAt n a len = false := by
  simp [State.badAt, State.poisoned, h.1, h.2.1, h.2.2]
/-- Every later entry of the list is zero. -/
theorem launch_walk (i : Nat) (h0 : 0 < i) (h : i < 4096) : launchOk.walkOne 0 0 (2 ^ 20 + 32 * i) = .ok (readEntry (List.replicate 32 0)) := by
  obtain ⟨hm, hs, hf, -, -, hb⟩ := test_launchMem
  have h1 : (2 ^ 20 + 32 * i) / 2 ^ 28 = 0 := by omega
  have hst : launchOk.stage2 0 0 (2 ^ 20 + 32 * i) = some (5, 0) := by
    unfold State.stage2 at hs ⊢
    rw [if_neg (by decide)] at hs
    rw [if_neg (by omega), h1]
    exact hs
  have hd : launchOk.gpaDpa 0 0 (2 ^ 20 + 32 * i) = some (5 * 2 ^ 28 + (2 ^ 20 + 32 * i)) := by
    unfold State.gpaDpa
    rw [hst]; simp only [hf, if_true]
    rw [Nat.mod_eq_of_lt (by omega)]
  have hr : launchOk.gpaRead 0 0 (2 ^ 20 + 32 * i) 32 = some (List.replicate 32 0) := by
    unfold State.gpaRead vaPieces
    rw [extentsOf_0 _ _ (by omega) (by omega)]
    have e1 : max (2 ^ 20 + 32 * i) (0 * 2 ^ 28) = 2 ^ 20 + 32 * i := by omega
    have e2 : min (2 ^ 20 + 32 * i + 32) ((0 + 1) * 2 ^ 28) - (2 ^ 20 + 32 * i) = 32 := by omega
    simp only [List.map_cons, List.map_nil, List.foldl_cons, List.foldl_nil, e1, e2, hd, State.peek, badAt_none _ _ _ _ hb]
    rw [if_neg (by omega), if_neg Bool.false_ne_true, memTake_none, List.nil_append]
    rw [List.all_eq_true] at hm ⊢
    intro c hc
    have := hm c hc
    simp only [Bool.or_eq_true, decide_eq_true_eq] at this ⊢
    simp only [hbmKey, keyAt] at this ⊢
    omega
  unfold State.walkOne
  rw [hr]
  rfl


theorem walkStatus_ok (l : List WalkRes) (h : ∀ r ∈ l, ∃ e, r = .ok e) : walkStatus l = 0 := by
  unfold walkStatus
  rw [List.find?_eq_none.2 (fun r hr => by obtain ⟨e, rfl⟩ := h r hr; exact Bool.false_ne_true)]
theorem launch_status : walkStatus (launchOk.walkAll 0 0 (2 ^ 20)) = 0 := by
  apply walkStatus_ok
  intro r hr
  obtain ⟨i, hi, rfl⟩ := List.mem_map.1 hr
  rcases Nat.eq_zero_or_pos i with rfl | h0
  · rw [Nat.mul_zero, Nat.add_zero, test_launchMem.2.2.2.1]
    exact ⟨_, rfl⟩
  · exact ⟨_, launch_walk i h0 (List.mem_range.1 hi)⟩
theorem test_launchHead : recordBad launchOk 0 0 launchRec = false ∧ headerBad ((launchOk.gpaRead 0 0 0 512).getD []) = false ∧ partBad ((launchOk.gpaRead 0 0 0 512).getD []) = false ∧
   headerRegions ((launchOk.gpaRead 0 0 0 512).getD []) = [] ∧ fieldAt ((launchOk.gpaRead 0 0 0 512).getD []) 28 4 = 0 ∧ launchOk.nextRecord 0 = some (0, 0, launchRec) := by decide +kernel
theorem test_launchFirst : launchOk.launchFirst 0 0 launchRec = 0 := by
  obtain ⟨h1, h2, h3, h4, h5, h6⟩ := test_launchHead
  obtain ⟨h, hh⟩ := Option.isSome_iff_exists.1 test_launchMem.2.2.2.2.1
  rw [hh, Option.getD_some] at h2 h3 h4 h5
  have hr : ∀ k4, regionsBad h k4 = false := fun k4 => by simp [regionsBad, h4]
  have hd : (launchOk.launchRead 0 0 launchRec).hdr = some h := by
    rw [← hh]; rfl
  unfold State.launchFirst
  rw [if_neg (by rw [h1]; exact Bool.false_ne_true)]
  simp only [hd, h2, h3, hr, h5, Nat.zero_testBit, Bool.false_and, Bool.false_eq_true, if_false]
theorem launch_walkAll : (launchOk.launchRead 0 0 launchRec).walk = launchOk.walkAll 0 0 (2 ^ 20) := by
  obtain ⟨h, hh⟩ := Option.isSome_iff_exists.1 test_launchMem.2.2.2.2.1
  have hb : fieldAt launchRec 0 8 = 0 ∧ fieldAt launchRec 8 8 = 2 ^ 20 := by decide
  unfold State.launchRead
  simp only [hb.1, hb.2, hh]
  rfl
theorem test_w_launch : launchOk.nextRecord 0 = some (0, 0, launchRec) ∧ recKind launchRec ≠ 1 ∧ launchOk.launchStatus 0 0 launchRec = 0 := by
  refine ⟨test_launchHead.2.2.2.2.2, by decide, ?_⟩
  have hw : walkStatus (launchOk.launchRead 0 0 launchRec).walk = 0 := by rw [launch_walkAll]; exact launch_status
  have he : (launchOk.launchRead 0 0 launchRec).entry0 (fieldAt launchRec 0 8) = true := by
    have h0 : (launchOk.walkAll 0 0 (2 ^ 20))[0]? = some (launchOk.walkOne 0 0 (2 ^ 20)) := by
      unfold State.walkAll
      rw [List.getElem?_map, List.getElem?_range (by omega)]
      rfl
    simp only [LaunchRead.entry0, launch_walkAll, h0, test_launchMem.2.2.2.1]
    decide
  unfold State.launchStatus
  simp only [test_launchFirst, hw, he, ne_eq, not_true_eq_false, if_false, Bool.not_true, Bool.false_eq_true]
/-- A terminal record of VF 0 and rings that take it. -/
def faultR : FaultRec := { info := 0, pc := 0, code := 9, lstat := 0, count := 1, who := 0, gctx := 0, hcode := 0, terminal := false, kern := 0 }
def reports : State := ((act c0 0 pod).setBar 0 1 (faultR.ring + 8) 0x85).updChip 0 (fun c => { c with pending := [(0, [faultR])] })
def hyper : State := ((act c0 0 pod).setBar 0 0 0x50108 0x85).updChip 0 (fun c => { c with hpending := [faultR] })
/-- A dirty record of page 0 of extent 0 waits. -/
def dirtyS (told : Bool) : State := (act c0 7 pod).updChip 0 (fun c => { c with dlogWait := [⟨7, c0, 0, 0, 0, 0, 0, told⟩] })
theorem test_w_LaunchesAndReports : (idle0 (launchS 0 0)).nextRecord 0 ≠ none ∧ (launchS 0 0).nextRecord 0 = none ∧
    fires .launchRecord (idle0 (launchS 0x10 0)) = true ∧ fires .translationRecord (launchS 0x14 0) = true ∧ fires .translationRecord (launchS 4 0) = true ∧
    fires .translationRecord ((act c0 1 pod).updChip 0 (fun c => { c with xtWait := [(9, 0, 0, bytesOf 0 64)] })) = true ∧
    hyper.ringRoom 0 0 0x50100 = true ∧ fires .faultReportWrite hyper = true ∧ reports.nextReporter 0 ≠ none ∧ reports.nextFault 0 0 = some faultR ∧
    fires .faultReportWrite reports = true := by decide +kernel
theorem test_w_commands : fires .frResume (act c0 0 pod) = true ∧ fires .frResume (act c0 5 pod) = true ∧ fires .gangKill (act c0 0 pod) = true ∧
    fires .dirtyLogRecord ((dirtyS false).setBar 0 0 (vfBlock 0 + 0x28) 0x85) = true ∧ fires .dirtyLogRecord (dirtyS false) = true ∧
    fires .dlClear (actVal c0 0 0 0x40 pod) = true := by decide +kernel
theorem test_w_RegistersAndFrames : (cmdOp 0x1005 = 1 ∧ cmdOp 0x2005 = 2 ∧ cmdOp 0x3005 = 3 ∧ cmdFrame 0x1005 = 5 ∧ cmdVf 0x31005 = 3) ∧
    [(Instr.frameAssign, actVal c0 0 0 0x1005 pod), (.frameFree, actVal c0 0 0 0x2005 pod), (.frameQuery, actVal c0 0 0 0x3005 pod),
      (.scrubEnd, (act c0 5 pod).updChip 0 (fun c => { c with frames := [(5, .scrubbing)] })), (.gcCtlWrite, actVal c0 0 9 1 pod), (.gcCtlWrite, actVal c0 0 0 1 pod),
      (.s2BaseWrite, actVal c0 0 0 0x1000 pod), (.s2BaseWrite, actVal c0 0 3 0x1000 pod), (.registerWrite, actVal c0 200 5 1 pod), (.registerWrite, actVal c0 0 0x32000 1 pod),
      (.registerWrite, actVal c0 1 8 0x80 pod)].all (fun q => fires q.1 q.2) = true ∧ ownEvent 0 0x32000 1 = false ∧ pod.frameNow 0 5 = .free ∧
    pod.frameNow 0 1 ≠ .free ∧ 6 * 2 ^ 28 ≤ pod.capLimit 0 ∧ ((pod.updChip 0 (fun c => { c with frames := [(5, .assigned 3)] })).frameNow 0 5) = .assigned 3 ∧
    pod.gcOwned 0 9 0 0 = false ∧ pod.vfLoaded 0 3 = false := by decide +kernel
theorem test_w_gcOwned : (pod.updChip 0 (fun c => { c with frames := (upTo 30).map (fun i => (i, Frame.assigned 0)) })).gcOwned 0 9 0 0 = true := by decide +kernel
/-- A write of a register of a context that lands. -/
def landing (k : BitVec 12) : State := at0 (fun c => { c with flight := [⟨.csr k, 9, 0xFF, 0, 0, 1, 0, 0, []⟩] })
theorem test_w_registerLands : [(Instr.winAllowMaxWrite, landing 0x080), (.winAllowMaxWrite, landing 0x08F), (.retwWaysWrite, landing 0x070), (.retwWaysWrite, landing 0x077),
    (.ancPoolWrite, landing 0x04D), (.ancBaseWrite, landing 0x04E)].all (fun q => fires q.1 q.2) = true := by decide +kernel
theorem test_w_Platform : ckOp 1 = some 1 ∧ ckOp 2 = some 2 ∧ ckOp 6 = some 2 ∧ ckOp 9 = none ∧
    [(Instr.ckTake, actVal c0 0 5 1 pod), (.ckRestore, actVal c0 0 5 2 (pod.updGang 0 5 (fun k => { k with ckState := 1 }))),
      (.checkpointComplete, actVal c0 0 0 1 (pod.updChip 0 (fun c => { c with ckJobs := [⟨0, false, []⟩] }))),
      (.checkpointComplete, actVal c0 0 0 0 (pod.updChip 0 (fun c => { c with ckJobs := [⟨0, false, []⟩] }))), (.attestationRequest, act c0 0 pod),
      (.ifsScan, actVal c0 0 0 0 pod), (.ifsScan, actVal c0 0 0 0x100 pod),
      (.supplySag, act c0 0 pod), (.sagRecover, { (act c0 0 pod).updChip 0 (fun c => { c with sagHalf := true }) with now := 2800 }), (.hostLinkChange, act c0 0 pod),
      (.freeze, act c0 0 pod), (.powerOn, act c0 0 pod), (.deviceReset, act c0 0 pod)].all (fun q => fires q.1 q.2) = true ∧
    pod.isLogical 0 0 0 = true ∧ (pod.rgang 0).kernel.any (fun k => k.phase = 1) = true ∧ pod.fnUp 0 0 = true := by decide +kernel

/-! ### Every operation -/

theorem test_w_everyOperation : landsOnly (.add ⟨.s0, on, 1, 2, 3, 0⟩) = true ∧ transfersOnly (.br ⟨.s0, on, .short 0⟩) = true ∧
    slotGuard (.add ⟨.s0, ⟨0, true⟩, 1, 2, 3, 0⟩) = some (.s0, ⟨0, true⟩) ∧ State.reset.guard .s0 ⟨0, true⟩ = false ∧ State.reset.cur.csr.mode = false ∧
    fires (.nop ⟨.s0, on⟩) State.reset = true ∧ Memory.wf placed.mem = true ∧ after (step placed) (fun t => Memory.wf t.mem = true) = true ∧
    (Instr.add ⟨.s0, on, 1, 2, 3, 0⟩).wf = true ∧ slotOf (.add ⟨.s0, on, 1, 2, 3, 0⟩) = some .s0 ∧ slotOf .resultLand = none := by decide +kernel

/-! ### Witnesses of the statements about numbers, matrix results, and the clauses that pieces, pools and stacks add -/

/-- A pattern of each kind in a format of the table, and lists of each kind for the sum. -/
theorem test_w_RoundingAndFormats : fTable.length = 5 ∧ iTable.length = 8 ∧ decodeF 3 0x7F = .nan ∧ decodeF 0 0xFF800000 = .inf true ∧
    decodeF 0 0x3FC00000 ≠ .nan ∧ (∃ m e, decodeF 0 0x40000000 = .fin false m e ∧ 0 < m) ∧ (∃ m e, decodeF 1 0xBF80 = .fin true m e ∧ 0 < m) ∧
    (mulF (.inf true) (.fin false 0 0)).2 = true ∧ (mulF (.fin false 3 0) (.fin true 5 1)).2 = false ∧
    sumF 3 [.fin false 0 0, .fin true 0 0] = (.fin true 0 0, false) ∧ (sumF 0 [.inf true, .inf false]).2 = true ∧
    cmpF (decodeF 0 0) (decodeF 0 0x3F800000) = .lt := by
  refine ⟨by decide, by decide, by decide +kernel, by decide +kernel, by decide +kernel, ⟨_, _, by rfl, by decide⟩, ⟨_, _, by rfl, by decide⟩,
    by decide +kernel, by decide +kernel, by decide +kernel, by decide +kernel, by decide +kernel⟩
/-- R71 to R77: ties to even, an overflow of f8e4 by its table entry, a conversion that clamps, and 1.5 as i8 toward +∞. -/
theorem test_roundF : roundF 0 0 0 (.fin false (2 ^ 24 + 1) 0) = (0x4B800000, 0) ∧ roundF 0 3 0 (.fin false 512 0) = (0x7E, 4) ∧
    roundF 2 3 0 (.fin true 512 0) = (0x7F, 4) ∧ convert 0 0 7 0 0x43800000 = (0x7F, 8) ∧ convert 0 0 7 2 0x3FC00000 = (2, 0) := by decide +kernel
/-- Context 0's matrix form of its core, number 7, with the entries it has popped and what it has read. -/
def matS (op : Instr) (got : List FifoEntry) (seen : Option FormRead) : State :=
  act c0 7 ((pod.updCtx c0 (fun c => { c with csr := { c.csr with poolLimit := 0x100000, poolTiles := 8, poolAccs := 16 } })).updCore c0.coreId (fun k =>
    { k with mq := [⟨7, c0, op, 0, 0, 0, 0, true, got.length, got, seen, [], none, [], 0, 0, 0⟩] }))
/-- The premises of MatrixResults hold of it. -/
def matOk (s : State) : Bool :=
  match (s.core c0.coreId).mq with
  | [m] => mayComplete [] m && s.unitsReady c0.coreId (formRanges s.cur m.op) && (decide (readFirst m.op = []) || m.read.isSome) && s.sel.val = 0 &&
      s.pkts.isEmpty && decide (m.moved = []) && decide (m.early = []) && m.old.isNone
  | _ => false
/-- Entries of 256 equal bytes. -/
def entries (n : Nat) (b : Byte) : List FifoEntry := List.replicate n ⟨List.replicate 256 b, false, 0, 0⟩
/-- What a form has read: equal bytes, a checksum, a tag. -/
def readOf (n : Nat) (b : Byte) (bs : List FVal) (tag : BitVec 2) : Option FormRead := some ⟨List.replicate n b, bs, tag⟩
theorem test_w_MatrixResults : Memory.wf (matS (.mzero ⟨on, 5, 0, 0, 0⟩) [] none).mem = true ∧
    [matS (.mzero ⟨on, 5, 0, 0, 0⟩) [] none, matS (.mlat ⟨on, 0, 2, 7, 0⟩) (entries 128 1) none, matS (.mlat ⟨on, 0, 2, 13, 0⟩) (entries 128 0xAA) none,
      matS (.mma ⟨on, 5, 0, 1, 3⟩) (entries 3 1) (readOf 32768 0 [] 0), matS (.mma ⟨on, 5, 0, 7, 3⟩) (entries 3 0x7F) (readOf 32768 0x7F [] 0),
      matS (.mter ⟨on, 5, 0, 0, 2⟩) (entries 8 1) (readOf 32768 0xAA [] 0), matS (.mdrain ⟨on, 2, 0, 1, 6, 0, none⟩) [] (readOf 65536 1 [] 1),
      matS (.mdrain ⟨on, 2, 0, 5, 6, 0, some ⟨1, 2, true⟩⟩) [] (readOf 65536 1 [] 2), matS (.maccLd ⟨on, 4, 0, 5, 4⟩) [] (readOf 65536 1 [] 0),
      matS (.mkat ⟨on, 3, 0⟩) [] none, matS (.mchk ⟨on, 6, 0, 0, 0⟩) [] none].all matOk = true := by decide +kernel
theorem test_w_MatrixResults_sizes : (entries 128 1).length = 128 ∧ (∀ e ∈ entries 12 1, e.bytes.length = 256) ∧
    ((entries 128 1).flatMap (fun e => e.bytes)).length = 32768 ∧ elemN (ofBytes (List.replicate 256 0xAA)) 7 2 = 2 ∧
    List.length (α := Byte) (List.replicate 65536 1) = 65536 ∧ ckOf ((matS (.mkat ⟨on, 3, 0⟩) [] none).core c0.coreId) 5 1 = (.fin false 0 0, false) ∧
    intF 0 = .fin false 0 0 ∧ (fun h => h = (⟨on, 3, h⟩ : MKat).hash) (katHash 3) := by
  exact ⟨by decide +kernel, by decide +kernel, by decide +kernel, by decide +kernel, List.length_replicate, by decide +kernel, by decide +kernel, rfl⟩
/-- A row that passes, one that fails by more than TOL, one of tag 3 and one whose sum overflows. -/
theorem test_w_rowCheck : rowCheck 2 [3, 4] (.fin false 7 0) false 0 = some false ∧ rowCheck 2 [3, 4] (.fin false 9 0) false 1 = some true ∧
    rowCheck 1 [0x3F800000] (.fin false 1 0) false 0 = some false ∧ rowCheck 3 [] (.fin false 0 0) false 0 = none ∧
    rowCheck 1 [0x7F7FFFFF, 0x7F7FFFFF] (.fin false 0 0) false 0 = none ∧ rowCheck 0 [9] (.fin false 1 (-1)) false 0 = some true := by decide +kernel

/-- A result whose load has one piece still to read, one entry on its way to the ring, and one that comes back from it. -/
def pieceS : State := { at0 (fun c => { c with flight := [⟨.a 3, 9, 0xFF, 0, 6, 0, 0, 0, [⟨0, 64, 0, 0, 0, 0⟩]⟩] }) with sel := ⟨⟨0, 0, 0, 0⟩, 0, 0, 1⟩ }
def slkCmd (i : Nat) : ECmd := ⟨i, .slk (eo 0 0 0 0 none), 0, 0, 0, 0, false, 0, 0, 0, 0, 0, 0, 0, 0, 0, false, 0, 0⟩
def ringing (wait ring : List RingEntry) (v : BitVec 64) : State :=
  { (act c0 0 pod).upd (fun c => { c with csr := { c.csr with ovfQuota := 64, ovfBase := 0 }, ovfWait := wait, ring := ring }) with sel := ⟨c0, 0, 0, v⟩ }
theorem test_w_pieces_rings : fires .resultLand pieceS = true ∧ fires .queueSpill (ringing [.e (slkCmd 1)] [] 1) = true ∧
    fires .queueSpill (ringing [] [.e (slkCmd 1)] 2) = true ∧ ovfMeets (ringing [.e (slkCmd 1)] [] 1) c0 [0] true = (none, none) ∧
    ovfMeets (ringing [] [.e (slkCmd 1)] 2) c0 ((ringing [] [.e (slkCmd 1)] 2).cur.refillSlots 0) false = (none, none) ∧
    fires .copyComplete { copyS 2 (some 0) with sel := ⟨c0, 0, 0, 1⟩ } = true ∧ (copyS 0 (some 0)).cur.cq0.length = 1 := by decide +kernel
theorem test_w_issue_units : placed.cur.late = [] ∧ placed.unitHeld (placed.fetchAt (placed.cur.pc.toNat % 2 ^ 40) placedRaw.len) = [] ∧
    (placed.fetchLines (placed.cur.pc.toNat % 2 ^ 40) placedRaw.len).fetchPoison placed.cur.pc.toNat placedRaw.len = none ∧
    vec.cur.flight = [] ∧ vec.cur.tvecAt vec.t vec.free = 0x1001 ∧ vec.cur.validAt vec.t vec.free = false := by decide +kernel
/-- A copy that waits to be sent again. -/
def againS : State := { withPkt (pk (.load 4 (.a 1)) (.peer 0) 1 .link) with wires := [{ wire true with out := false }], sel := ⟨c0, 7, 24, 1⟩ }
/-- Two packets at one egress. -/
def twoS : State := { withPkt (pk (.load 4 (.a 1)) (.peer 0) 1 .egress) with
  pkts := [pk (.load 4 (.a 1)) (.peer 0) 1 .egress, { pk (.load 4 (.a 1)) (.peer 0) 1 .egress with id := 8, slack := 9, seq := 1 }] }
theorem test_w_again : againS.theWire false = some { wire true with out := false } ∧ againS.wireArbiter { wire true with out := false } = some (0, 3024) ∧
    againS.againPort { wire true with out := false } = some 24 ∧ againS.wireEligible { wire true with out := false } = true ∧
    againS.chosen (0, 3024) ⟨false, againS.wireRank (0, 3024) { wire true with out := false }⟩ = true ∧ fires .arbiterGrant againS = true := by decide +kernel
theorem test_w_two : (let p := pk (.load 4 (.a 1)) (.peer 0) 1 .egress; let q := { p with id := 8, slack := 9, seq := 1 }
    twoS.wins p = true ∧ twoS.arbiterOf p = some (0, 3024) ∧ twoS.arbiterOf q = some (0, 3024) ∧ twoS.eligible q = true ∧
    ((twoS.atArbiter (0, 3024)).filter (fun y => y.older ⟨q.crit, twoS.rank (0, 3024) q⟩)).length < 64) := by decide +kernel
/-- A request at its controller for a line that memory holds poisoned, or cannot correct. -/
def mcP : Pkt := memP (.load 4 (.a 1)) (.mc 0 0xFFF)
theorem test_w_lines : fires .mcRequestAccept { withPkt mcP with uncorr := [hbmKey 0 (2 ^ 29)] } = true ∧ fires .mcRequestAccept { withPkt mcP with sunk := [hbmKey 0 (2 ^ 29)] } = true ∧
    (withPkt mcP).pktDpa mcP = 2 ^ 29 ∧ ((withPkt mcP).chip 0).mig.maskAt (2 ^ 29) = 0xFFF ∧ fires .mcRequestAccept (valued 3 (withPkt mcP)) = true ∧
    (let p := memP (.l2 1 128 0) .ready
     (withPkt p).poolMeets 0 0 ((withPkt p).l2Copies p 128) = .no ∧ (withPkt p).needsLog p = none ∧ fires .accessPerformed (withPkt p) = true) := by decide +kernel
/-- No period moves in the pod. -/
theorem unitHeld_none (s : State) (l : List (Nat × Nat)) (h : ∀ n, (s.chip n).mig.active = false) : s.unitHeld l = [] := by
  simp [State.unitHeld, Mig.holds, h]
theorem pod_quiet (n : Nat) : (pod.chip n).mig.active = false := by
  rcases n with _ | _ | n
  · rfl
  · rfl
  · rfl
/-- A collective that tells member 1, one whose plan is empty, and the states of those that run. -/
def telling : State := collS { coll 0 3 0 with decision := some 0, tell := [(1, 0)] } []
def emptyDesc : List Byte :=
  bytesOf 1 1 ++ bytesOf 5 1 ++ bytesOf 0 1 ++ bytesOf 1 1 ++ bytesOf 2 2 ++ bytesOf 0 6 ++ bytesOf 0x41 4 ++ bytesOf 0x41 4 ++ bytesOf 256 4 ++
    bytesOf 0x100000 8 ++ bytesOf 0x110000 8 ++ bytesOf 8 4 ++ bytesOf 0 12 ++ bytesOf 0 1 ++ bytesOf 1 1 ++ bytesOf 0 6
def emptyColl : Coll := { coll 0 3 0 with decision := some 0, desc := emptyDesc, ins := [(0, [(1, false)])] }
theorem test_w_Collectives_premises : telling.mayRequest c0.coreId 1 = true ∧ fires .collStartFlit telling = true ∧ plan emptyColl.d = [] ∧
    fires .collComplete (collS emptyColl []) = true ∧ (collS emptyColl []).peerGone emptyColl = false ∧
    (collS emptyColl []).rangeMeets 0 0 emptyColl.d.dst 4 false = none ∧ (collS emptyColl []).rangeClean 0 0 emptyColl.d.dst 4 = none ∧
    gathered.mayRequest c0.coreId 1 = true ∧ (collS (coll 0 0 0) []).released c0 0 5 = true ∧ (collS (coll 0 0 0) []).dupTag 0 (coll 0 0 0) = false ∧
    (collS { coll 0 2 0 with decision := some 0 } []).rangeMeets 0 0 0x100000 16 false = none ∧
    (gathered.updGang 0 0 (fun k => { k with peersReset := [1] })).peerGone { coll 0 3 0 with decision := some 0 } = true := by decide +kernel
/-- What a switch, a scrub and a checkpoint command find in the pod. -/
theorem test_w_Platform_premises : pod.savePage 0 = none ∧ (pod.gang 0 0).ckState ≠ 1 ∧ ((pod.chip 0).mig.linesIn (5 * 2 ^ 28) (2 ^ 28)) = [] ∧
    (let s := actVal c0 9 9 2 (idle0 pod)
     natFld (s.gcCtl 0 0) 0 1 = 1 ∧ s.mayRestore 0 0 = true ∧ pod.mayRestore 0 0 = false) ∧
    (let s := (actVal c0 0 0 2 (idle0 pod))
     fires .ckRestore s = true ∧ ((s.gang 0 0).kernel.any (fun q => q.phase < 2)) = false) ∧
    (let s := ((act c0 0 pod).updGang 0 0 (fun k => { k with ckState := 3 })).updChip 0 (fun c => { c with ckJobs := [⟨0, false, []⟩] })
     s.mayRestore 0 0 = false ∧ (idle0 s).mayRestore 0 0 = true) ∧
    (let s := { (act c0 0 pod).updChip 0 (fun c => { c with ifs := 1, ifsEnd := 5 }) with now := 10 }
     (s.chip 0).ifs = 1 ∧ (s.chip 0).ifsEnd ≤ s.cycNow 0) ∧
    (pod.updChip 0 (fun c => { c with att := some 0 })).fnUp 0 0 = true := by decide +kernel
/-- The premises of a checkpoint that may be written. -/
def taken : State := ((act c0 0 pod).updGang 0 0 (fun k => { k with ckState := 1 })).updChip 0 (fun c => { c with running := none })
theorem test_w_checkpoint : (taken.gang 0 0).ckState = 1 ∧ (taken.chip 0).running ≠ some 0 ∧ taken.unitHeld (taken.ckLines 0 0) = [] := by
  refine ⟨by decide, by decide, unitHeld_none _ _ fun n => ?_⟩
  rcases n with _ | _ | n <;> rfl
/-- The premises of one slot write. -/
theorem test_w_slotWrite : (let p := pk (.slot 0 0 [1] 3 7 0 1) .unit 1 .target
    p.pieces = [] ∧ p.poison = false ∧ (withPkt p).mayPerform p = true ∧ (withPkt p).unitHeld ((withPkt p).slotLines p 1) = []) := by decide +kernel
/-- A store of two 64-byte pieces to the scratchpad issues, and so does a load that notes where they lie. -/
theorem test_w_wide : fires (.stv (da 2 1 2 none)) State.reset = true ∧
    after (exec (.ldv (da 2 1 2 none)) State.reset) (fun t => t.cur.flight.map (fun l => l.pool.length) = [2]) = true := by decide +kernel
/-- A call while an older write of a31 is in flight: that write lands by the next cycle (R114). -/
theorem test_call_a31 : after (exec (.call ⟨.s0, on, .long 4⟩) (at0 (fun c => { c with flight := [⟨.a 31, 9, 0xFF, 0, 6, 0, 0, 0, []⟩] })))
    (fun t => t.cur.flight.map (fun l => l.bound) = [1, 1]) = true := by decide +kernel

end Sys2Proof.Tests
end

namespace Sys2Proof.Machine

/-! ## Slot operations under their guard (R13, R14) -/

theorem exec_nop (o : SN) (s : State) : exec (.nop o) s = .next s := rfl

/-- A slot operation acts under its guard alone: with a true guard it answers some state, with a false one its own. -/
theorem exec_underGuard {i : Instr} {sl : Slot} {g : Guard} (h : slotGuard i = some (sl, g)) (s : State) :
    ∃ t, exec i s = .next (if s.guard sl g then t else s) := by
  cases i <;> cases h
  case nop o => exact ⟨s, by rw [exec_nop, ite_self]⟩
  all_goals exact ⟨_, rfl⟩

/-- Settles O54: every slot operation acts under its guard. -/
theorem guardOff : Obligations.GuardOff := by
  unfold Obligations.GuardOff
  intro i sl g s h hg
  obtain ⟨t, ht⟩ := exec_underGuard h s
  rw [ht, hg, if_neg Bool.false_ne_true]

end Sys2Proof.Machine

namespace Sys2Proof.Machine

/-! ## Frames of the fixed-latency operations and of transfers (R30, R113 to R118) -/

/-- An operation under its guard puts results in flight alone when its effect does. -/
theorem lands_of_guard {out : Out} {b : Bool} {s t : State} (h : out = .next (if b then t else s)) (ht : onlyFlight s t) :
    ∃ u, out = .next u ∧ onlyFlight s u := by
  refine ⟨_, h, ?_⟩
  split
  · exact ht
  · exact onlyFlight_refl s
/-- Results put in flight one after another are results in flight. -/
theorem foldl_onlyFlight {α : Type} (f : State → α → State) (hf : ∀ s a, onlyFlight s (f s a)) :
    ∀ (l : List α) (s : State), onlyFlight s (l.foldl f s)
  | [], s => onlyFlight_refl s
  | a :: r, s => onlyFlight_trans (hf s a) (foldl_onlyFlight f hf r (f s a))
theorem setBase_onlyFlight (lat : Nat) (v : BitVec 4) (s : State) (f : BitVec 2) : onlyFlight s (setBase lat v s f) :=
  land_onlyFlight s _ _ _ _ _

/-- A copy lands in one register, whatever file it names. -/
theorem execCp_lands (o : SR) (s : State) : ∃ t, execCp o s = .next t ∧ onlyFlight s t := by
  refine lands_of_guard rfl ?_
  dsimp only
  split
  · split <;> exact land_onlyFlight _ _ _ _ _ _
  · exact land_onlyFlight _ _ _ _ _ _
theorem execVcp_lands (o : VOp) (s : State) : ∃ t, execVcp o s = .next t ∧ onlyFlight s t := by
  refine lands_of_guard rfl ?_
  dsimp only
  split <;> exact land_onlyFlight _ _ _ _ _ _

/-- The first clause of the frame: every operation of fixed latency. -/
theorem landsOnly_lands (i : Instr) (s : State) (h : landsOnly i = true) : ∃ t, exec i s = .next t ∧ onlyFlight s t := by
  cases i <;> cases h
  case nop.refl o => exact ⟨s, rfl, onlyFlight_refl s⟩
  case rrbSet.refl o => refine lands_of_guard rfl ?_; exact foldl_onlyFlight _ (setBase_onlyFlight 2 o.v) _ s
  case rrbClr.refl o => refine lands_of_guard rfl ?_; exact foldl_onlyFlight _ (setBase_onlyFlight 2 0) _ s
  case cp.refl o => exact execCp_lands o s
  case vcp.refl o => exact execVcp_lands o s
  all_goals
    refine lands_of_guard rfl ?_
    exact land_onlyFlight _ _ _ _ _ _

theorem onlyFlightAndNext_of_onlyFlight {s t : State} (h : onlyFlight s t) : onlyFlightAndNext s t := by
  obtain ⟨hctx, hcur, hpre⟩ := h
  exact ⟨hctx, by rw [hcur], hpre⟩
theorem onlyCtx_upd {w : Who} {s t : State} (h : onlyCtx w s t) (hw : t.sel.who = w) (f : Ctx → Ctx) : onlyCtx w s (t.upd f) := by
  obtain ⟨hparts, hothers⟩ := h
  refine ⟨?_, fun v hv => ?_⟩
  · rw [hparts]; rfl
  · rw [State.ctx_upd, hw, if_neg hv, hothers v hv]
theorem onlyCtx_land {w : Who} {s t : State} (h : onlyCtx w s t) (hw : t.sel.who = w) (d : Dest) (v en : BitVec 4096) (lat : Nat) (fl : Flags) :
    onlyCtx w s (t.land d v en lat fl) := onlyCtx_upd h hw _
theorem onlyCtx_refl (w : Who) (s : State) : onlyCtx w s s := ⟨rfl, fun _ _ => rfl⟩
theorem onlyCtx_sel {w : Who} {s t : State} (h : onlyCtx w s t) : t.sel = s.sel := by rw [h.1]
/-- A jump after results in flight is a transfer. -/
theorem jump_onlyFlightAndNext {s t : State} (h : onlyFlight s t) (x : BitVec 64) : onlyFlightAndNext s (jump x t) := by
  obtain ⟨hctx, hcur, hpre⟩ := h
  have hj : (jump x t).cur = { t.cur with next := some (x, false) } := State.cur_upd t _
  refine ⟨onlyCtx_upd hctx (by rw [onlyCtx_sel hctx]) _, ?_, ?_⟩
  · rw [hj, hcur]
  · rw [hj]; exact hpre
/-- An operation under its guard is a transfer when its effect is one. -/
theorem transfers_of_guard {out : Out} {b : Bool} {s t : State} (h : out = .next (if b then t else s)) (ht : onlyFlightAndNext s t) :
    ∃ u, out = .next u ∧ onlyFlightAndNext s u := by
  refine ⟨_, h, ?_⟩
  split
  · exact ht
  · exact onlyFlightAndNext_of_onlyFlight (onlyFlight_refl s)

/-- The counter of a loop and the bases it rotates are results in flight (R117). -/
theorem execLoop_transfers (o : SLP) (s : State) : ∃ t, execLoop o s = .next t ∧ onlyFlightAndNext s t := by
  refine transfers_of_guard rfl ?_
  have hland : ∀ v, onlyFlight s (((rotFiles o.rot).foldl (fun a f => setBase 1 (s.rb f + 1) a f) s).landAll (.lc o.lc) v 1 0) :=
    fun v => onlyFlight_trans (foldl_onlyFlight _ (fun a f => setBase_onlyFlight 1 (s.rb f + 1) a f) _ s) (land_onlyFlight _ _ _ _ _ _)
  dsimp only
  generalize (if s.lc o.lc = 0 then 0 else s.lc o.lc - 1) = n
  split
  · exact onlyFlightAndNext_of_onlyFlight (hland _)
  · exact jump_onlyFlightAndNext (hland _) _
theorem execBc_transfers (o : SBC) (s : State) : ∃ t, execBc o s = .next t ∧ onlyFlightAndNext s t := by
  refine transfers_of_guard rfl ?_
  dsimp only
  split
  · exact jump_onlyFlightAndNext (onlyFlight_refl s) _
  · exact onlyFlightAndNext_of_onlyFlight (onlyFlight_refl s)

/-- The second clause of the frame: every transfer but call. -/
theorem transfersOnly_transfers (i : Instr) (s : State) (h : transfersOnly i = true) : ∃ t, exec i s = .next t ∧ onlyFlightAndNext s t := by
  cases i
  case br o => refine transfers_of_guard rfl ?_; exact jump_onlyFlightAndNext (onlyFlight_refl s) _
  case bc o => exact execBc_transfers o s
  case ret o => refine transfers_of_guard rfl ?_; exact jump_onlyFlightAndNext (onlyFlight_refl s) _
  case jr o => refine transfers_of_guard rfl ?_; exact jump_onlyFlightAndNext (onlyFlight_refl s) _
  case loop o => exact execLoop_transfers o s
  case lbrk o => refine transfers_of_guard rfl ?_; exact jump_onlyFlightAndNext (land_onlyFlight _ _ _ _ _ _) _
  all_goals cases h

/-- Bringing the results of one register forward leaves every other result. -/
theorem mem_landBy {d : Dest} {t : Nat} {c : Ctx} {l : Landing} (hl : l ∈ c.flight) (hd : l.dest ≠ d) : l ∈ (landBy d t c).flight :=
  List.mem_map.mpr ⟨l, hl, if_neg hd⟩
/-- What a taken call changes of its context: the results in flight and the next bundle. -/
theorem callEffect_cur (x v : BitVec 64) (t : Nat) (s : State) :
    (jump x ((s.upd (landBy (.a 31) t)).land64 (.a 31) v 1 0)).cur =
      { s.cur with flight := (landBy (.a 31) t s.cur).flight ++ [(s.upd (landBy (.a 31) t)).result (.a 31) (v.setWidth 4096) (Dest.full (.a 31)) 1 0],
                   next := some (x, false) } := by
  have hland : ((s.upd (landBy (.a 31) t)).land64 (.a 31) v 1 0).cur = _ := land_cur _ _ _ _ _ _
  rw [jump, State.cur_upd, hland, State.cur_upd]
  rfl
/-- The third clause of the frame (R114). -/
theorem execCall_frame (o : SB) (s : State) : ∃ t, exec (.call o) s = .next t ∧ onlyCtx s.sel.who s t ∧
    t.cur = { s.cur with flight := t.cur.flight, next := t.cur.next } ∧ ∀ l ∈ s.cur.flight, l.dest ≠ .a 31 → l ∈ t.cur.flight := by
  refine ⟨_, rfl, ?_⟩
  split
  · have hctx : onlyCtx s.sel.who s ((s.upd (landBy (.a 31) (s.t + 1))).land64 (.a 31) s.cur.fall 1 0) :=
      onlyCtx_land (onlyCtx_upd (onlyCtx_refl _ s) rfl _) rfl _ _ _ _ _
    refine ⟨onlyCtx_upd hctx rfl _, ?_, fun l hl hd => ?_⟩
    · rw [callEffect_cur]
    · rw [callEffect_cur]
      exact List.mem_append_left _ (mem_landBy hl hd)
  · exact ⟨onlyCtx_refl _ s, rfl, fun _ hl _ => hl⟩

/-- Settles O55: an inversion of the landing forms, of the transfers and of call. -/
theorem fixedLatencyFrame : Obligations.FixedLatencyFrame := by
  unfold Obligations.FixedLatencyFrame
  exact ⟨landsOnly_lands, transfersOnly_transfers, execCall_frame⟩

end Sys2Proof.Machine

namespace Sys2Proof.Machine

/-! ## The issue of a bundle (R34) -/

/-- No result lands before its bound. -/
theorem splitDue_none_due {t : Nat} : ∀ {l : List Landing} {kept : List Dest}, (∀ x ∈ l, t < x.bound) → (splitDue t l kept).1 = []
  | [], _, _ => rfl
  | x :: r, kept, h => by
    have hx : ¬ (x.bound ≤ t ∧ !kept.contains x.dest) := fun ⟨hb, _⟩ => absurd (h x List.mem_cons_self) (Nat.not_lt.mpr hb)
    rw [splitDue, if_neg hx]
    exact splitDue_none_due (fun y hy => h y (List.mem_cons_of_mem _ hy))
/-- A context that runs keeps its core. -/
theorem takeCore_running {s : State} {w : Who} (h : (s.core w.coreId).run = some w.ctx) : takeCore s w = s := if_pos h
/-- The running context examines its next bundle when nothing of its own is still to happen. -/
theorem exec_bundleIssue_running {s : State} (hm : s.mayIssue s.sel.who.chip = true) (hr : (s.core s.sel.who.coreId).run = some s.sel.who.ctx)
    (hf : ∀ l ∈ s.cur.flight, s.t < l.bound) (hl : s.cur.late = []) : exec .bundleIssue s = examine s := by
  have hissuer : s.issuer s.sel.who.coreId = some s.sel.who.ctx := by rw [State.issuer, hr]
  have hlate : (s.ctx s.sel.who).late = [] := hl
  have hdue : (splitDue (s.clkOf s.sel.who) (s.ctx s.sel.who).flight []).1 = [] := splitDue_none_due hf
  show execBundleIssue s = _
  rw [execBundleIssue, hm, hissuer, hlate, hdue, takeCore_running hr]
  simp

/-- A bundle that has been decoded before goes on to its legality. -/
theorem examine_again {s : State} (hc : s.cur.mustCommit = false) (hb : s.bundleFault s.cur.pc.toNat = none) (ha : s.cur.arrive = .again) :
    examine s = issueFrom (s.rawAt s.sel.who s.cur.pc.toNat) s := by
  simp only [examine, hc, hb, ha, Bool.false_eq_true, if_false, if_true]
/-- A bundle whose lines are there and whose first decode raises nothing goes on to its legality. -/
theorem examine_fetched {s : State} {r : Raw} (hc : s.cur.mustCommit = false) (hb : s.bundleFault s.cur.pc.toNat = none)
    (ha : s.cur.arrive ≠ .again) (hr : s.rawAt s.sel.who s.cur.pc.toNat = r)
    (hheld : s.unitHeld (s.fetchAt (s.cur.pc.toNat % 2 ^ 40) r.len) = [])
    (hpoison : (s.fetchLines (s.cur.pc.toNat % 2 ^ 40) r.len).fetchPoison s.cur.pc.toNat r.len = none)
    (hdec : ((s.fetchLines (s.cur.pc.toNat % 2 ^ 40) r.len).firstDecode r).2 = none) :
    examine s = issueFrom r ((s.fetchLines (s.cur.pc.toNat % 2 ^ 40) r.len).firstDecode r).1 := by
  have hpair : (s.fetchLines (s.cur.pc.toNat % 2 ^ 40) r.len).firstDecode r =
      (((s.fetchLines (s.cur.pc.toNat % 2 ^ 40) r.len).firstDecode r).1, none) := Prod.ext rfl hdec
  rw [examine]
  dsimp only
  rw [hc, if_neg Bool.false_ne_true, hb, hr]
  dsimp only
  rw [if_neg ha, unitGate, hheld]
  dsimp only [List.isEmpty_nil]
  rw [if_pos rfl, hpoison]
  dsimp only
  rw [hpair]

/-- What runs of a bundle are its operations. -/
theorem mem_runOrder {ops : List (Slot × Instr)} {i : Instr} (h : i ∈ runOrder ops) : ∃ q ∈ ops, q.2 = i := by
  have hi : i ∈ ops.map (·.2) := by
    simp only [runOrder, List.mem_append, List.mem_filter] at h
    rcases h with (⟨h, _⟩ | ⟨h, _⟩) | ⟨h, _⟩ <;> exact h
  exact List.mem_map.mp hi
/-- A legal bundle that nothing holds back, that touches no wanted unit and has no fault issues whole. -/
theorem issueFrom_whole {s : State} {r : Raw} {u : List BundleSlot} (hu : s.uses r = u) (hbad : (s.illegal r).1 = 0)
    (hentry : (s.look u).entryWanted r (opsOf u) = false) (hstall : (s.look u).stalls (opsOf u) = false)
    (hrdv : (r.rdv.isSome && !s.cur.holds.isEmpty) = false) (hblock : (s.look u).blocks (opsOf u) = none)
    (htouch : (s.look u).firstTouch (opsOf u) = none) (hfault : (s.look u).faults (opsOf u) = [])
    (hops : ∀ q ∈ opsOf u, (slotOf q.2).isSome = true) :
    ∃ m, runOps (runOrder (opsOf u)) (beginIssue r u s) = .next m ∧ issueFrom r s = .next (endIssue r (opsOf u) m) := by
  have hslots : ∀ i ∈ runOrder (opsOf u), (slotOf i).isSome = true := fun i hi => by
    obtain ⟨q, hq, rfl⟩ := mem_runOrder hi
    exact hops q hq
  obtain ⟨m, hm⟩ := runOps_next _ hslots (beginIssue r u s)
  refine ⟨m, hm, ?_⟩
  simp only [issueFrom, hu, hbad, hentry, hstall, hrdv, hblock, htouch, hfault, hm, ne_eq, not_true, Bool.or_self, Bool.false_eq_true, if_false]

/-- R34: the first clause of the statement. -/
theorem bundleIssue_whole (s : State) (r : Raw) : let w := s.sel.who
    let f := (s.fetchLines (s.cur.pc.toNat % 2 ^ 40) r.len).firstDecode r
    let s1 := if s.cur.arrive = .again then s else f.1
    let u := s1.uses r
    let ops := opsOf u
    s.mayIssue w.chip = true → (s.core w.coreId).run = some w.ctx → (∀ l ∈ s.cur.flight, s.t < l.bound) → s.cur.late = [] →
    s.cur.mustCommit = false →
    s.bundleFault s.cur.pc.toNat = none → s.rawAt w s.cur.pc.toNat = r →
    (s.cur.arrive = .again ∨ (s.unitHeld (s.fetchAt (s.cur.pc.toNat % 2 ^ 40) r.len) = [] ∧
      (s.fetchLines (s.cur.pc.toNat % 2 ^ 40) r.len).fetchPoison s.cur.pc.toNat r.len = none ∧ f.2 = none)) →
    (s1.illegal r).1 = 0 → (s1.look u).entryWanted r ops = false → (s1.look u).stalls ops = false →
    (r.rdv.isSome && !s1.cur.holds.isEmpty) = false → (s1.look u).blocks ops = none → (s1.look u).firstTouch ops = none →
    (s1.look u).faults ops = [] → (∀ q ∈ ops, (slotOf q.2).isSome = true) →
    ∃ m, runOps (runOrder ops) (beginIssue r u s1) = .next m ∧ exec .bundleIssue s = .next (endIssue r ops m) := by
  intro w f s1 u ops hm hr hf hl hc hb hraw hfetch hbad hentry hstall hrdv hblock htouch hfault hops
  have hex : exec .bundleIssue s = issueFrom r s1 := by
    rw [exec_bundleIssue_running hm hr hf hl]
    by_cases ha : s.cur.arrive = .again
    · rw [examine_again hc hb ha, hraw, show s1 = s from if_pos ha]
    · obtain ⟨hheld, hpoison, hdec⟩ := hfetch.resolve_left ha
      rw [examine_fetched hc hb ha hraw hheld hpoison hdec, show s1 = f.1 from if_neg ha]
  rw [hex]
  exact issueFrom_whole rfl hbad hentry hstall hrdv hblock htouch hfault hops

/-! ## A Ready context takes its free core (R19) -/

theorem takeCore_free {s : State} {w : Who} (h : (s.core w.coreId).run = none) :
    takeCore s w = (s.updCore w.coreId (fun k => { k with run := some w.ctx })).updCtx w (fun c => { c with st := .running }) := by
  rw [takeCore, h, if_neg (by simp)]
theorem takeCore_cur {s : State} (h : (s.core s.sel.who.coreId).run = none) :
    (takeCore s s.sel.who).cur = { s.cur with st := .running } := by
  rw [takeCore_free h]
  exact State.ctx_updCtx_same _ _ _
/-- R19: the second clause of the statement. -/
theorem bundleIssue_takesCore (s : State) (hr : (s.core s.sel.who.coreId).run = none) (hn : s.nextReady s.sel.who.coreId = some s.sel.who.ctx) :
    exec .bundleIssue s = exec .bundleIssue (takeCore s s.sel.who) ∧ (takeCore s s.sel.who).cur = { s.cur with st := .running } := by
  have hsel : (takeCore s s.sel.who).sel = s.sel := by rw [takeCore_free hr]; rfl
  have hchip : ∀ n, (takeCore s s.sel.who).chip n = s.chip n := fun n => by rw [takeCore_free hr]; rfl
  have hcore : (takeCore s s.sel.who).core s.sel.who.coreId = { s.core s.sel.who.coreId with run := some s.sel.who.ctx } := by
    rw [takeCore_free hr, State.core_updCtx]; exact State.core_updCore_same _ _ _
  have hrun : ((takeCore s s.sel.who).core s.sel.who.coreId).run = some s.sel.who.ctx := by rw [hcore]
  have hctx : (takeCore s s.sel.who).ctx s.sel.who = { s.ctx s.sel.who with st := .running } := by
    rw [takeCore_free hr]; exact State.ctx_updCtx_same _ _ _
  have hissue : (takeCore s s.sel.who).mayIssue s.sel.who.chip = s.mayIssue s.sel.who.chip := by simp only [State.mayIssue, hchip]
  have hissuer : s.issuer s.sel.who.coreId = some s.sel.who.ctx := by rw [State.issuer, hr]; exact hn
  have hissuer' : (takeCore s s.sel.who).issuer s.sel.who.coreId = some s.sel.who.ctx := by rw [State.issuer, hrun]
  have hclk : (takeCore s s.sel.who).clkOf s.sel.who = s.clkOf s.sel.who := by rw [State.clkOf, hcore]; rfl
  refine ⟨?_, takeCore_cur hr⟩
  show execBundleIssue s = execBundleIssue (takeCore s s.sel.who)
  simp only [execBundleIssue, hsel, hissue, hissuer, hissuer', hctx, hclk, takeCore_running hrun]

/-! ## The end of an issue -/

/-- A context as the end of its own issue finds it: it waits for no issue of its own, and has taken its places in program order. -/
def Ctx.issued (c : Ctx) (w : Who) (ops : List (Slot × Instr)) : Ctx :=
  { c with yieldFor := c.yieldFor.filter (fun k => k ≠ w.ctx), po := c.po + 4,
           closeDue := c.inSeg && (c.closeDue || ops.any (fun p => external p.2)) }
/-- The next bundle of a context after its issue (R24, R26, R28, R127). -/
def Ctx.advance (c : Ctx) (r : Raw) : Ctx :=
  if c.moved then c
  else
    match c.next with
    | some (x, true) =>
      { c with pc := x, next := none, arrive := c.trap.arrive, arrive0 := c.trap.arrive0, lastPc := c.trap.last, sig0 := c.trap.sig0 }
    | some (x, false) => { c with pc := x, next := none, rep := 0, repOn := false, arrive := .taken, sig := { c.sig with live := false } }
    | none =>
      if 0 < c.rep then { c with rep := c.rep - 1, repOn := true, arrive := .again }
      else { c with pc := c.fall, rep := 0, repOn := false, arrive := if r.ends then .afterEnd else .plain }
/-- The yields that waited for a context of a core to issue, after it has. -/
def unwait (w : Who) (k : Who) (c : Ctx) : Ctx :=
  if k.chip = w.chip ∧ k.clus = w.clus ∧ k.core = w.core then { c with yieldFor := c.yieldFor.filter (fun x => x ≠ w.ctx) } else c

/-- What an issue's end does to its context. -/
theorem endIssue_cur (r : Raw) (ops : List (Slot × Instr)) (s : State) :
    (endIssue r ops s).cur = (s.cur.issued s.sel.who ops).advance r := by
  have hmap : s.ctxs.map (fun (p : Who × Ctx) =>
      if p.1.chip = s.sel.who.chip ∧ p.1.clus = s.sel.who.clus ∧ p.1.core = s.sel.who.core then
        (p.1, { p.2 with yieldFor := p.2.yieldFor.filter (fun k => k ≠ s.sel.who.ctx) }) else p) =
      s.ctxs.map (fun p => (p.1, unwait s.sel.who p.1 p.2)) := by
    refine List.map_congr_left (fun p _ => ?_)
    unfold unwait
    split <;> rfl
  have hreset : unwait s.sel.who s.sel.who (Ctx.reset s.sel.who) = Ctx.reset s.sel.who := by
    rw [unwait, if_pos ⟨rfl, rfl, rfl⟩]; rfl
  have hget := AMap.get_mapVal s.ctxs (unwait s.sel.who) s.sel.who (Ctx.reset s.sel.who) hreset
  rw [← hmap] at hget
  have hself : unwait s.sel.who s.sel.who s.cur = { s.cur with yieldFor := s.cur.yieldFor.filter (fun x => x ≠ s.sel.who.ctx) } :=
    if_pos ⟨rfl, rfl, rfl⟩
  have hcur := hget.trans hself
  unfold endIssue
  dsimp only
  rw [State.cur_upd]
  generalize hg : State.cur { State.updRgang _ _ _ with ctxs := _ } = c
  have hc : c = { s.cur with yieldFor := s.cur.yieldFor.filter (fun x => x ≠ s.sel.who.ctx) } := hg.symm.trans hcur
  subst hc
  unfold Ctx.advance Ctx.issued
  dsimp only
  split
  · rfl
  · cases s.cur.next with
    | none => rfl
    | some target =>
      obtain ⟨x, back⟩ := target
      cases back <;> rfl

/-- An issue's end moves the clock of its core. -/
theorem endIssue_core (r : Raw) (ops : List (Slot × Instr)) (s : State) :
    (endIssue r ops s).core s.sel.who.coreId =
      { s.core s.sel.who.coreId with clk := (s.core s.sel.who.coreId).clk + (if ops.any (fun p => wideF p.2) then 2 else 1) } :=
  State.core_updCore_same s s.sel.who.coreId (fun k => { k with clk := k.clk + (if ops.any (fun p => wideF p.2) then 2 else 1) })
theorem Ctx.advance_regs (c : Ctx) (r : Raw) : (c.advance r).regs = c.regs := by
  unfold Ctx.advance; split
  · rfl
  · split
    · rfl
    · rfl
    · split <;> rfl
theorem Ctx.advance_po (c : Ctx) (r : Raw) : (c.advance r).po = c.po := by
  unfold Ctx.advance; split
  · rfl
  · split
    · rfl
    · rfl
    · split <;> rfl
theorem Ctx.advance_moved {c : Ctx} (h : c.moved = true) (r : Raw) : c.advance r = c := if_pos h
/-- A transfer goes to its target. -/
theorem Ctx.advance_target {c : Ctx} (h : c.moved = false) {x : BitVec 64} {again : Bool} (hn : c.next = some (x, again)) (r : Raw) :
    (c.advance r).pc = x := by
  cases again <;> simp [Ctx.advance, h, hn]
/-- A repeated bundle issues again (R26). -/
theorem Ctx.advance_repeat {c : Ctx} (h : c.moved = false) (hn : c.next = none) (hr : 0 < c.rep) (r : Raw) :
    c.advance r = { c with rep := c.rep - 1, repOn := true, arrive := .again } := by
  simp [Ctx.advance, h, hn, hr]
/-- Otherwise the bundle that follows is next. -/
theorem Ctx.advance_fall {c : Ctx} (h : c.moved = false) (hn : c.next = none) (hr : c.rep = 0) (r : Raw) :
    c.advance r = { c with pc := c.fall, rep := 0, repOn := false, arrive := if r.ends then .afterEnd else .plain } := by
  simp [Ctx.advance, h, hn, hr]

/-- R24, R26, R28, R131: the third clause of the statement. -/
theorem endIssue_effect (r : Raw) (ops : List (Slot × Instr)) (m : State) : let t := endIssue r ops m
    t.mem = m.mem ∧ t.pkts = m.pkts ∧ t.cur.regs = m.cur.regs ∧ t.cur.po = m.cur.po + 4 ∧
    (t.core m.sel.who.coreId).clk = (m.core m.sel.who.coreId).clk + (if ops.any (fun p => wideF p.2) then 2 else 1) ∧
    (m.cur.moved = true → t.cur.pc = m.cur.pc) ∧
    (m.cur.moved = false → (∀ x again, m.cur.next = some (x, again) → t.cur.pc = x) ∧
      (m.cur.next = none → 0 < m.cur.rep → t.cur.pc = m.cur.pc ∧ t.cur.rep = m.cur.rep - 1 ∧ t.cur.repOn = true) ∧
      (m.cur.next = none → m.cur.rep = 0 → t.cur.pc = m.cur.fall ∧ t.cur.repOn = false)) := by
  intro t
  have hcur : t.cur = (m.cur.issued m.sel.who ops).advance r := endIssue_cur r ops m
  rw [hcur]
  refine ⟨rfl, rfl, Ctx.advance_regs _ r, Ctx.advance_po _ r, by rw [endIssue_core], fun hm => ?_, fun hm => ⟨fun x again hn => ?_, fun hn hr => ?_, fun hn hr => ?_⟩⟩
  · rw [Ctx.advance_moved (c := m.cur.issued m.sel.who ops) hm]; rfl
  · exact Ctx.advance_target (c := m.cur.issued m.sel.who ops) hm hn r
  · rw [Ctx.advance_repeat (c := m.cur.issued m.sel.who ops) hm hn hr]; exact ⟨rfl, rfl, rfl⟩
  · rw [Ctx.advance_fall (c := m.cur.issued m.sel.who ops) hm hn hr]; exact ⟨rfl, rfl⟩

/-- Settles O34: the checks passed one by one, the core taken, and what the issue's end does to its context. -/
theorem bundleIssue : Obligations.BundleIssue := by
  unfold Obligations.BundleIssue
  exact ⟨bundleIssue_whole, bundleIssue_takesCore, endIssue_effect⟩

/-! ## One step (log 5) -/

/-- Candidates that take a step, before the chosen one, are counted off; those that do not are passed over. -/
theorem pickEnabled_append (s t : State) (q : Cand) (post : List Cand) (hq : exec q.op (q.at s) = .next t) :
    ∀ (pre : List Cand) (last : Option (Host.Outcome State Fault Refusal)), (∀ c ∈ pre, ∀ e, exec c.op (c.at s) ≠ .refused e) →
      pickEnabled s (pre ++ q :: post) (pre.filter (fun c => c.takes s)).length last = some (.next t)
  | [], last, _ => by
    show pickEnabled s (q :: post) 0 last = _
    rw [pickEnabled, hq]
    rfl
  | c :: r, last, h => by
    have ih := fun l => pickEnabled_append s t q post hq r l (fun d hd => h d (List.mem_cons_of_mem _ hd))
    rw [List.cons_append, pickEnabled]
    cases hc : exec c.op (c.at s) with
    | next u =>
      have ht : c.takes s = true := by rw [Cand.takes, hc]
      rw [List.filter_cons_of_pos (p := fun c : Cand => c.takes s) ht, List.length_cons]
      exact ih _
    | fault f =>
      have ht : ¬ c.takes s = true := by rw [Cand.takes, hc]; exact Bool.false_ne_true
      rw [List.filter_cons_of_neg (p := fun c : Cand => c.takes s) ht]
      exact ih _
    | refused e => exact absurd hc (h c List.mem_cons_self e)
/-- Candidates none of which is enabled leave nothing picked. -/
theorem pickEnabled_none (s : State) : ∀ (l : List Cand) (k : Nat), (∀ c ∈ l, exec c.op (c.at s) = .fault .notEnabled) → pickEnabled s l k none = none
  | [], _, _ => rfl
  | c :: r, k, h => by
    rw [pickEnabled, h c List.mem_cons_self]
    exact pickEnabled_none s r k (fun d hd => h d (List.mem_cons_of_mem _ hd))
theorem step_picks (s t : State) (pre post : List Cand) (q : Cand)
    (hl : candidates s.ready (s.choices.headD 0 / 2 ^ 32) = pre ++ q :: post)
    (hk : (pre.filter (fun c => c.takes s.ready)).length = s.choices.headD 0 % 2 ^ 32)
    (hr : ∀ c ∈ pre, ∀ e, exec c.op (c.at s.ready) ≠ .refused e) (hq : exec q.op (q.at s.ready) = .next t) : step s = .next t.settleClock := by
  rw [step]
  rw [hl, ← hk, pickEnabled_append s.ready t q post hq pre none hr]
theorem step_idle (s : State) (h : ∀ c ∈ candidates s.ready (s.choices.headD 0 / 2 ^ 32), exec c.op (c.at s.ready) = .fault .notEnabled) :
    step s = .next (idleCycle s.ready) := by
  rw [step]
  rw [pickEnabled_none s.ready _ _ h]

/-! ## A bundle of one slot -/

/-- A slot that is present and decodes to an instruction of the kernel's pool. -/
theorem presentUse_decoded {s : State} {g : Group} {i : Instr} (hm : s.cur.noMatrix = false) (hd : decodeSlot g.slot g.w g.x = .ok i)
    (hp : beyondPool s.cur i s = false) : s.presentUse g = ⟨g.slot, some i, false, none⟩ := by
  rw [State.presentUse, hm, hd]
  simp [hp]
/-- One slot of eleven picked by its place. -/
theorem filterMap_one_slot {α : Type} (sl : Slot) (x : α) : allSlots.filterMap (fun q => if sl = q then some x else none) = [x] := by
  cases sl <;> rfl
/-- A bundle of one present slot, which holds none, uses that slot alone. -/
theorem uses_one {s : State} {r : Raw} {g : Group} (hg : r.groups = [g]) (hh : ∀ sl, holdBit r.hdr sl = false) :
    s.uses r = [s.presentUse g] := by
  rw [State.uses, ← filterMap_one_slot g.slot (s.presentUse g), hg]
  refine List.filterMap_congr (fun sl _ => ?_)
  by_cases h : g.slot = sl <;> simp [h, hh]
/-- One operation is run whatever its kind. -/
theorem runOrder_one (sl : Slot) (i : Instr) : runOrder [(sl, i)] = [i] := by
  cases hl : isLate i <;> cases h0 : onlyS0 i <;> simp [runOrder, hl, h0]
theorem runOps_one {i : Instr} (h : (slotOf i).isSome = true) (s : State) : runOps [i] s = exec i s := by
  obtain ⟨t, ht⟩ := slotMeaning_next i h s
  rw [← slotMeaning_exec i h s, runOps, ht]
  rfl
/-- Outside segments no bundle waits for a commit. -/
theorem entryWanted_outside {s : State} (h : s.cur.inSeg = false) (u : List BundleSlot) (r : Raw) (ops : List (Slot × Instr)) :
    (s.look u).entryWanted r ops = false := by
  have hu : (s.look u).cur.inSeg = false := by rw [State.look, State.cur_upd]; exact h
  rw [State.entryWanted, hu]
  rfl
theorem mustCommit_outside {c : Ctx} (h : c.inSeg = false) : c.mustCommit = false := by
  rw [Ctx.mustCommit, h]
  rfl
/-- R22, R29, R34: a bundle of one slot runs the meaning of the instruction that its syllables decode to. -/
theorem bundleIssue_one (s : State) (r : Raw) (g : Group) (i : Instr) : let w := s.sel.who
    let u : List BundleSlot := [⟨g.slot, some i, false, none⟩]
    let ops := [(g.slot, i)]
    s.mayIssue w.chip = true → (s.core w.coreId).run = some w.ctx → (∀ l ∈ s.cur.flight, s.t < l.bound) → s.cur.late = [] →
    s.cur.arrive = .again → s.cur.inSeg = false → s.cur.holds = [] → s.cur.noMatrix = false →
    s.bundleFault s.cur.pc.toNat = none → s.rawAt w s.cur.pc.toNat = r → r.groups = [g] → (∀ sl, holdBit r.hdr sl = false) →
    decodeSlot g.slot g.w g.x = .ok i → (slotOf i).isSome = true → beyondPool s.cur i s = false → (s.illegal r).1 = 0 →
    (s.look u).stalls ops = false → (s.look u).blocks ops = none → (s.look u).firstTouch ops = none → (s.look u).faults ops = [] →
    ∃ m, exec i (beginIssue r u s) = .next m ∧ exec .bundleIssue s = .next (endIssue r ops m) := by
  intro w u ops hm hr hf hl ha hseg hholds hmat hb hraw hg hh hd hslot hp hbad hstall hblock htouch hfault
  have huses : s.uses r = u := by rw [uses_one hg hh, presentUse_decoded hmat hd hp]
  have hrdv : (r.rdv.isSome && !s.cur.holds.isEmpty) = false := by simp [hholds]
  have hops : ∀ q ∈ opsOf u, (slotOf q.2).isSome = true := fun q hq => by
    obtain rfl : q = (g.slot, i) := List.mem_singleton.mp hq
    exact hslot
  obtain ⟨m, hrun, hissue⟩ := issueFrom_whole huses hbad (entryWanted_outside hseg u r ops) hstall hrdv hblock htouch hfault hops
  have horder : runOrder (opsOf u) = [i] := runOrder_one g.slot i
  rw [horder, runOps_one hslot] at hrun
  refine ⟨m, hrun, ?_⟩
  rw [exec_bundleIssue_running hm hr hf hl, examine_again (mustCommit_outside hseg) hb ha, hraw]
  exact hissue

/-- Settles O35: the candidates counted off, and the issue of a bundle of one slot. -/
theorem stepRunsDecoded : Obligations.StepRunsDecoded := by
  unfold Obligations.StepRunsDecoded
  exact ⟨step_picks, step_idle, bundleIssue_one⟩

end Sys2Proof.Machine

namespace Sys2Proof.Machine

/-! ## Reading a source while results are in flight (R10, R30, R31) -/

/-- Bit by bit, a merge takes the new value under its enable. -/
theorem getLsbD_merge (old new en : BitVec 4096) (b : Nat) (hb : b < 4096) :
    (merge old new en).getLsbD b = if en.getLsbD b then new.getLsbD b else old.getLsbD b := by
  rw [merge, BitVec.getLsbD_or, BitVec.getLsbD_and, BitVec.getLsbD_and, BitVec.getLsbD_not, decide_eq_true hb]
  cases en.getLsbD b <;> simp
/-- Outside its enable a merge leaves the old value. -/
theorem merge_outside (old new en : BitVec 4096) : merge old new en &&& ~~~en = old &&& ~~~en := by
  refine BitVec.eq_of_getLsbD_eq (fun b hb => ?_)
  rw [BitVec.getLsbD_and, BitVec.getLsbD_and, getLsbD_merge old new en b hb, BitVec.getLsbD_not]
  cases en.getLsbD b <;> simp
/-- Results of other registers, and those not issued before the cycle, do not show. -/
theorem flightView_unwritten {d : Dest} {t : Nat} : ∀ {fl : List Landing} (a : BitVec 4096 × BitVec 4096),
    (∀ l ∈ fl, l.dest = d → t ≤ l.issued) → flightView d t fl a = a
  | [], _, _ => rfl
  | l :: r, a, h => by
    have hl : ¬ (l.dest = d ∧ l.issued < t) := fun ⟨hd, hi⟩ => absurd (h l List.mem_cons_self hd) (Nat.not_le.mpr hi)
    rw [flightView, if_neg hl]
    exact flightView_unwritten a (fun k hk => h k (List.mem_cons_of_mem _ hk))
theorem readView_fixed {d : Dest} {v : BitVec 4096} (h : d.fixed = some v) (c : Ctx) (t free key : Nat) : readView c t free key d = v := by
  rw [readView, h]
/-- A register that nothing is in flight for reads as stored. -/
theorem readView_unwritten {d : Dest} {c : Ctx} {t : Nat} (hd : d.fixed = none) (h : ∀ l ∈ c.flight, l.dest = d → t ≤ l.issued) (free key : Nat) :
    readView c t free key d = c.regs.get d := by
  rw [readView, hd]
  dsimp only
  rw [flightView_unwritten _ h]
  exact if_pos rfl
/-- A register that one result is in flight for, past its bound. -/
theorem readView_bound_passed {d : Dest} {c : Ctx} {t : Nat} {l : Landing} (hd : d.fixed = none) (hf : c.flight = [l]) (hl : l.dest = d)
    (hi : l.issued < t) (hb : l.bound ≤ t) (free key : Nat) : readView c t free key d = merge (c.regs.get d) l.val l.en := by
  have hshows : l.dest = d ∧ l.issued < t := ⟨hl, hi⟩
  rw [readView, hd, hf]
  dsimp only
  rw [flightView, if_pos hshows, if_pos hb]
  exact if_pos rfl
/-- Within its bound, what the result does not write reads as stored. -/
theorem readView_within_bound {d : Dest} {c : Ctx} {t : Nat} {l : Landing} (hd : d.fixed = none) (hf : c.flight = [l]) (hl : l.dest = d)
    (hi : l.issued < t) (hb : t < l.bound) (free key : Nat) : readView c t free key d &&& ~~~l.en = c.regs.get d &&& ~~~l.en := by
  have hshows : l.dest = d ∧ l.issued < t := ⟨hl, hi⟩
  rw [readView, hd, hf]
  dsimp only
  rw [flightView, if_pos hshows, if_neg (Nat.not_le.mpr hb), flightView]
  split
  · exact merge_outside _ _ _
  · have hen : (0 : BitVec 4096) ||| l.en = l.en := BitVec.zero_or
    dsimp only
    rw [hen, merge_outside, merge_outside]
/-- R10, R30, R31: the first clause of the statement. -/
theorem rd_sources (s : State) (sl : Slot) (pos : Nat) (d : Dest) :
    (∀ v, d.fixed = some v → s.rd sl pos d = v) ∧
    (d.fixed = none → (∀ l ∈ s.cur.flight, l.dest = d → s.t ≤ l.issued) → s.rd sl pos d = s.cur.regs.get d) ∧
    (d.fixed = none → ∀ l, s.cur.flight = [l] → l.dest = d → l.issued < s.t →
      (l.bound ≤ s.t → s.rd sl pos d = merge (s.cur.regs.get d) l.val l.en) ∧
      (s.t < l.bound → s.rd sl pos d &&& ~~~l.en = s.cur.regs.get d &&& ~~~l.en)) :=
  ⟨fun _ h => readView_fixed h _ _ _ _, fun hd h => readView_unwritten hd h _ _,
   fun hd _ hf hl hi => ⟨fun hb => readView_bound_passed hd hf hl hi hb _ _, fun hb => readView_within_bound hd hf hl hi hb _ _⟩⟩

/-! ## Landing (R30, R81, R132) -/

/-- A result whose bound has passed is due when no earlier one of its register stays. -/
theorem splitDue_some_due {t : Nat} {l : Landing} {post : List Landing} (hb : l.bound ≤ t) : ∀ {pre : List Landing} {kept : List Dest},
    (∀ k ∈ pre, k.dest ≠ l.dest) → l.dest ∉ kept → (splitDue t (pre ++ l :: post) kept).1 ≠ []
  | [], kept, _, hk => by
    rw [List.nil_append, splitDue, if_pos ⟨hb, by simpa using hk⟩]
    exact List.cons_ne_nil _ _
  | k :: r, kept, hp, hk => by
    rw [List.cons_append, splitDue]
    split
    · exact List.cons_ne_nil _ _
    · refine splitDue_some_due hb (fun q hq => hp q (List.mem_cons_of_mem _ hq)) (fun hm => ?_)
      rcases List.mem_cons.mp hm with h | h
      · exact hp k List.mem_cons_self h.symm
      · exact hk h
/-- RESULT_LAND with operand value 0 lands what is due. -/
theorem exec_resultLand_due {s : State} (hv : s.sel.val = 0) (hd : (splitDue s.t s.cur.flight []).1 ≠ []) :
    exec .resultLand s = .next (landDue s s.sel.who) := by
  have hdue : (splitDue (s.clkOf s.sel.who) (s.ctx s.sel.who).flight []).1.isEmpty = false := by
    rw [← Bool.not_eq_true, List.isEmpty_iff]; exact hd
  show execResultLand s = _
  rw [execResultLand, hv, if_neg (by simp), when_, hdue, Bool.not_false, if_pos rfl]

/-- A part of the state that each step of a fold keeps, the fold keeps. -/
theorem foldl_keeps {α β : Type} (part : State → β) (f : State → α → State) (hf : ∀ s a, part (f s a) = part s) :
    ∀ (l : List α) (s : State), part (l.foldl f s) = part s
  | [], _ => rfl
  | a :: r, s => (foldl_keeps part f hf r (f s a)).trans (hf s a)
/-- A write of a register that lands leaves memory alone. -/
theorem csrLand_mem (s : State) (w : Who) (n : BitVec 12) (v : BitVec 64) : (csrLand s w n v).mem = s.mem := by
  unfold csrLand
  dsimp only
  split
  · rfl
  · split
    · rfl
    · split
      · rfl
      · split <;> rfl
/-- So it does the packets. -/
theorem csrLand_pkts (s : State) (w : Who) (n : BitVec 12) (v : BitVec 64) : (csrLand s w n v).pkts = s.pkts := by
  unfold csrLand
  dsimp only
  split
  · rfl
  · split
    · rfl
    · split
      · rfl
      · split <;> rfl
theorem landStatus_mem (w : Who) (s : State) (l : Landing) : (landStatus w s l).mem = s.mem := by
  unfold landStatus
  split
  · exact csrLand_mem _ _ _ _
  · rfl
theorem landStatus_pkts (w : Who) (s : State) (l : Landing) : (landStatus w s l).pkts = s.pkts := by
  unfold landStatus
  split
  · exact csrLand_pkts _ _ _ _
  · rfl
/-- What lands changes neither memory nor packets. -/
theorem landDue_mem (s : State) (w : Who) : (landDue s w).mem = s.mem := foldl_keeps State.mem _ (landStatus_mem w) _ _
theorem landDue_pkts (s : State) (w : Who) : (landDue s w).pkts = s.pkts := foldl_keeps State.pkts _ (landStatus_pkts w) _ _
/-- R30, R31: the second clause of the statement. -/
theorem resultLand_due (s : State) (pre post : List Landing) (l : Landing) (hv : s.sel.val = 0) (hf : s.cur.flight = pre ++ l :: post)
    (hb : l.bound ≤ s.t) (hp : ∀ k ∈ pre, k.dest ≠ l.dest) : ∃ t, exec .resultLand s = .next t ∧ t.mem = s.mem ∧ t.pkts = s.pkts := by
  have hdue : (splitDue s.t s.cur.flight []).1 ≠ [] := by
    rw [hf]; exact splitDue_some_due hb hp List.not_mem_nil
  exact ⟨_, exec_resultLand_due hv hdue, landDue_mem s _, landDue_pkts s _⟩

/-- The status effect of a result of a general register is its flags (R81). -/
theorem landStatus_flags {l : Landing} (h : ∀ n, l.dest ≠ .csr n) (w : Who) (s : State) :
    landStatus w s l = s.updCtx w (fun c => c.putFlags l.inst l.flags) := by
  unfold landStatus
  split
  · next n hn => exact absurd hn (h n)
  · rfl
/-- A context after the one result it had in flight has landed. -/
def Ctx.landed (c : Ctx) (l : Landing) : Ctx :=
  let c := (({ c with flight := [] } : Ctx).putReg l.inst l.dest l.val l.en).putFlags l.inst l.flags
  { c with sets := if c.clearing then c.sets else [] }
/-- The landing of a context's only result. -/
theorem landDue_one {s : State} {l : Landing} (hf : s.cur.flight = [l]) (hb : l.bound ≤ s.t) (hd : ∀ n, l.dest ≠ .csr n) :
    landDue s s.sel.who = s.upd (fun c => c.landed l) := by
  have hsplit : splitDue (s.clkOf s.sel.who) (s.ctx s.sel.who).flight [] = ([l], []) := by
    have hflight : (s.ctx s.sel.who).flight = [l] := hf
    rw [hflight, splitDue, if_pos ⟨hb, rfl⟩, splitDue]
  unfold landDue
  simp only [hsplit, List.reverse_singleton, byStatus, insertBy, List.foldl_cons, List.foldl_nil, landStatus_flags hd, State.updCtx_updCtx]
  rfl
/-- R30, R81: the last clause of the statement. -/
theorem resultLand_one (s : State) (l : Landing) (hv : s.sel.val = 0) (hf : s.cur.flight = [l]) (hb : l.bound ≤ s.t) (hd : ∀ n, l.dest ≠ .csr n) :
    ∃ t, exec .resultLand s = .next t ∧ onlyCtx s.sel.who s t ∧ t.cur.flight = [] ∧ t.cur.pc = s.cur.pc ∧
      t.cur.regs = s.cur.regs.set l.dest (merge (s.cur.regs.get l.dest) l.val l.en) ∧
      t.cur.csr = { s.cur.csr with flags := s.cur.csr.flags ||| l.flags } := by
  have hdue : (splitDue s.t s.cur.flight []).1 ≠ [] := by
    rw [hf]; exact splitDue_some_due (pre := []) hb (fun _ h => absurd h List.not_mem_nil) List.not_mem_nil
  refine ⟨_, exec_resultLand_due hv hdue, ?_⟩
  rw [landDue_one hf hb hd, State.cur_upd]
  exact ⟨onlyCtx_upd (onlyCtx_refl _ s) rfl _, rfl, rfl, rfl, rfl⟩

/-! ## A piece of a load read after the others (R254) -/

/-- A number of n ones at a place, bit by bit. -/
theorem getLsbD_ones_at (n lo b : Nat) (hb : b < 4096) :
    (BitVec.ofNat 4096 ((2 ^ n - 1) * 2 ^ lo)).getLsbD b = decide (lo ≤ b ∧ b < lo + n) := by
  rw [BitVec.getLsbD_ofNat, Nat.testBit_mul_two_pow, Nat.testBit_two_pow_sub_one, decide_eq_true hb, Bool.true_and, ← Bool.decide_and]
  exact decide_eq_decide.mpr (by omega)
/-- Bits of a register that a piece of the pool fills. -/
def PoolSrc.width (q : PoolSrc) : Nat := if q.fmt = 0 then 8 * q.n else 32
/-- A piece changes the bits that it fills alone. -/
theorem read_outside (q : PoolSrc) (s : State) (w : Who) (v : BitVec 4096) {b : Nat} (hb : b < 4096) (h : ¬ (q.bit ≤ b ∧ b < q.bit + q.width)) :
    (q.read s w v).getLsbD b = v.getLsbD b := by
  unfold PoolSrc.width at h
  unfold PoolSrc.read
  split at h
  · next hq => simp only [hq, if_true]; rw [getLsbD_merge _ _ _ b hb, getLsbD_ones_at _ _ b hb, decide_eq_false h]; rfl
  · next hq => simp only [hq, if_false]; rw [getLsbD_merge _ _ _ b hb, getLsbD_ones_at _ _ b hb, decide_eq_false h]; rfl
/-- So do pieces read one after another. -/
theorem foldl_read_outside (s : State) (w : Who) {b : Nat} (hb : b < 4096) : ∀ (qs : List PoolSrc) (v : BitVec 4096),
    (∀ q ∈ qs, ¬ (q.bit ≤ b ∧ b < q.bit + q.width)) → (qs.foldl (fun v q => q.read s w v) v).getLsbD b = v.getLsbD b
  | [], _, _ => rfl
  | q :: r, v, h => by
    rw [List.foldl_cons, foldl_read_outside s w hb r _ (fun k hk => h k (List.mem_cons_of_mem _ hk))]
    exact read_outside q s w v hb (h q List.mem_cons_self)
theorem cur_updCtx_who (s : State) (f : Ctx → Ctx) : (s.updCtx s.sel.who f).cur = f s.cur := State.cur_upd s f
/-- The value of a load once a piece of the pool has been read again. -/
def Landing.reread (l : Landing) (s : State) (w : Who) (piece : Nat) : BitVec 4096 :=
  (l.pool.filter (fun q => q.off / 64 = piece)).foldl (fun v q => q.read s w v) l.val
theorem Landing.reread_outside (l : Landing) (s : State) (w : Who) (piece : Nat) {b : Nat} (hb : b < 4096)
    (h : ∀ q ∈ l.pool, q.off / 64 = piece → ¬ (q.bit ≤ b ∧ b < q.bit + q.width)) : (l.reread s w piece).getLsbD b = l.val.getLsbD b := by
  refine foldl_read_outside s w hb _ _ (fun q hq => ?_)
  obtain ⟨hm, hp⟩ := List.mem_filter.mp hq
  exact h q hm (of_decide_eq_true hp)
/-- A context with the result at a place in flight replaced, and the faults found with it. -/
def Ctx.replaceResult (c : Ctx) (i : Nat) (l : Landing) (late : List LateFault) : Ctx :=
  { c with flight := c.flight.set i l, late := c.late ++ late }
/-- A piece read again changes the value of its load in the bits that it fills, and may find poison (R334). -/
theorem readAgain_piece {s : State} {w : Who} {i piece : Nat} {l : Landing} (hi : (s.ctx w).flight[i]? = some l) (hq : ∃ q ∈ l.pool, q.off / 64 = piece) :
    ∃ late : Ctx → List LateFault, readAgain s w i piece = .next (s.updCtx w (fun c =>
      c.replaceResult i { l with val := l.reread s w piece, pool := l.pool.filter (fun q => q.off / 64 ≠ piece) } (late c))) := by
  have hsome : (l.pool.filter (fun q => decide (q.off / 64 = piece))).isEmpty = false := by
    obtain ⟨q, hm, hp⟩ := hq
    rw [← Bool.not_eq_true, List.isEmpty_iff]
    exact List.ne_nil_of_mem (List.mem_filter.mpr ⟨hm, decide_eq_true hp⟩)
  rw [readAgain, hi]
  dsimp only
  rw [hsome, if_neg Bool.false_ne_true]
  exact ⟨_, rfl⟩
/-- R254: the third clause of the statement. -/
theorem resultLand_piece (s : State) (i piece : Nat) (l : Landing) (hv : s.sel.val.toNat = piece + 1) (hr : s.sel.reg = i)
    (hi : s.cur.flight[i]? = some l) (hq : ∃ q ∈ l.pool, q.off / 64 = piece) :
    ∃ t v, exec .resultLand s = .next t ∧ onlyCtx s.sel.who s t ∧ t.cur.regs = s.cur.regs ∧ t.cur.csr = s.cur.csr ∧
      t.cur.flight = s.cur.flight.set i { l with val := v, pool := l.pool.filter (fun q => q.off / 64 ≠ piece) } ∧
      ∀ b < 4096, (∀ q ∈ l.pool, q.off / 64 = piece → ¬ (q.bit ≤ b ∧ b < q.bit + (if q.fmt = 0 then 8 * q.n else 32))) → v.getLsbD b = l.val.getLsbD b := by
  have hval : s.sel.val ≠ 0 := fun h => by rw [h] at hv; simp at hv
  obtain ⟨late, hread⟩ := readAgain_piece (s := s) (w := s.sel.who) hi hq
  have hexec : exec .resultLand s = readAgain s s.sel.who i piece := by
    show execResultLand s = _
    rw [execResultLand, if_pos hval, hr, hv, Nat.add_sub_cancel]
  refine ⟨_, l.reread s s.sel.who piece, hexec.trans hread, onlyCtx_upd (onlyCtx_refl _ s) rfl _, ?_⟩
  rw [cur_updCtx_who]
  exact ⟨rfl, rfl, rfl, fun b hb h => l.reread_outside s s.sel.who piece hb h⟩

/-- Settles O36: reads of a register with results in flight, and what RESULT_LAND lands or reads again. -/
theorem resultsLand : Obligations.ResultsLand := by
  unfold Obligations.ResultsLand
  exact ⟨rd_sources, resultLand_due, resultLand_piece, resultLand_one⟩

end Sys2Proof.Machine

namespace Sys2Proof.Machine

/-! ## Elements of a vector result (R38, R138) -/

/-- Elements packed take their width each. -/
theorem packElems_lt (w : Nat) : ∀ l : List Nat, packElems w l < 2 ^ (l.length * w)
  | [] => by simp [packElems]
  | x :: r => by
    have ih := packElems_lt w r
    have hx : x % 2 ^ w < 2 ^ w := Nat.mod_lt _ (Nat.two_pow_pos w)
    calc packElems w (x :: r) = x % 2 ^ w + packElems w r * 2 ^ w := rfl
      _ < (packElems w r + 1) * 2 ^ w := by rw [Nat.add_mul]; omega
      _ ≤ 2 ^ (r.length * w) * 2 ^ w := Nat.mul_le_mul_right _ ih
      _ = 2 ^ ((x :: r).length * w) := by rw [← Nat.pow_add, List.length_cons, Nat.succ_mul]
/-- A register wide enough holds the packed elements whole. -/
theorem toNat_ofNat_packElems {w n : Nat} {l : List Nat} (h : l.length * w ≤ n) : (BitVec.ofNat n (packElems w l)).toNat = packElems w l := by
  rw [BitVec.toNat_ofNat, Nat.mod_eq_of_lt (Nat.lt_of_lt_of_le (packElems_lt w l) (Nat.pow_le_pow_right Nat.two_pos h))]
/-- Element k of a packed list. -/
theorem elemN_packElems (w : Nat) : ∀ (l : List Nat) (k : Nat), elemN (packElems w l) k w = l.getD k 0 % 2 ^ w
  | [], k => by simp [elemN, natFld, packElems]
  | x :: r, 0 => by simp [elemN, natFld, packElems]
  | x :: r, k + 1 => by
    have hshift : packElems w (x :: r) >>> w = packElems w r := by
      rw [Nat.shiftRight_eq_div_pow]
      show (x % 2 ^ w + packElems w r * 2 ^ w) / 2 ^ w = _
      rw [Nat.add_mul_div_right _ _ (Nat.two_pow_pos w), Nat.div_eq_of_lt (Nat.mod_lt _ (Nat.two_pow_pos w)), Nat.zero_add]
    have ih := elemN_packElems w r k
    rw [elemN, natFld] at ih ⊢
    rw [Nat.succ_mul, Nat.add_comm, Nat.shiftRight_add, hshift, ih, List.getD_cons_succ]
/-- Bit i of a packed mask is that of the element it lies in. -/
theorem testBit_packMask {w : Nat} (hw : 0 < w) : ∀ (m : List Bool) (i : Nat), (packMask w m).testBit i = m.getD (i / w) false
  | [], i => by simp [packMask]
  | x :: r, i => by
    have hx : (if x then 2 ^ w - 1 else 0) < 2 ^ w := by
      have := Nat.two_pow_pos w
      split <;> omega
    have hpack : packMask w (x :: r) = 2 ^ w * packMask w r + (if x then 2 ^ w - 1 else 0) := by
      rw [packMask, Nat.add_comm, Nat.mul_comm]
    rw [hpack, Nat.testBit_two_pow_mul_add _ hx]
    by_cases hi : i < w
    · rw [if_pos hi, Nat.div_eq_of_lt hi, List.getD_cons_zero]
      cases x <;> simp [Nat.testBit_two_pow_sub_one, hi]
    · obtain ⟨j, rfl⟩ := Nat.exists_eq_add_of_le (Nat.le_of_not_lt hi)
      rw [if_neg hi, Nat.add_sub_cancel_left, testBit_packMask hw r j, Nat.add_div_left _ hw, List.getD_cons_succ]
/-- A flag of a union is a flag of one of its parts (R81). -/
theorem getLsbD_orFlags (l : List (Nat × Flags)) (b : Nat) : (orFlags l).getLsbD b = l.any (fun x => x.2.getLsbD b) := by
  have hfold : ∀ (l : List (Nat × Flags)) (a : Flags), (l.foldl (fun a x => a ||| x.2) a).getLsbD b = (a.getLsbD b || l.any (fun x => x.2.getLsbD b)) := by
    intro l
    induction l with
    | nil => simp
    | cons x r ih => intro a; rw [List.foldl_cons, ih, BitVec.getLsbD_or, List.any_cons, Bool.or_assoc]
  rw [orFlags, hfold]
  simp
/-- A result and its boolean stand at one place. -/
theorem mem_zip_iff_getD {r : List (Nat × Flags)} {m : List Bool} (h : r.length = m.length) {p : (Nat × Flags) × Bool} :
    p ∈ r.zip m ↔ ∃ k < r.length, (r.getD k (0, 0), m.getD k false) = p := by
  have hat : ∀ k (hr : k < r.length) (hm : k < m.length), (r.getD k (0, 0), m.getD k false) = (r[k], m[k]) := fun k hr hm => by
    rw [List.getD_eq_getElem _ _ hr, List.getD_eq_getElem _ _ hm]
  rw [List.mem_iff_getElem]
  constructor
  · rintro ⟨k, hk, rfl⟩
    have hkr : k < r.length := by rw [List.length_zip, h, Nat.min_self] at hk; exact h ▸ hk
    exact ⟨k, hkr, by rw [List.getElem_zip, hat k hkr (h ▸ hkr)]⟩
  · rintro ⟨k, hk, rfl⟩
    refine ⟨k, by rw [List.length_zip, h, Nat.min_self]; exact h ▸ hk, ?_⟩
    rw [List.getElem_zip, hat k hk (h ▸ hk)]
/-- The results that a list of booleans selects, by place. -/
theorem mem_selectedResults {r : List (Nat × Flags)} {m : List Bool} (h : r.length = m.length) {x : Nat × Flags} :
    x ∈ (r.zip m).filterMap (fun p => if p.2 then some p.1 else none) ↔ ∃ k < r.length, m.getD k false = true ∧ r.getD k (0, 0) = x := by
  rw [List.mem_filterMap]
  constructor
  · rintro ⟨p, hp, hx⟩
    obtain ⟨k, hk, rfl⟩ := (mem_zip_iff_getD h).mp hp
    exact ⟨k, hk, by simpa using hx⟩
  · rintro ⟨k, hk, hm, rfl⟩
    exact ⟨_, (mem_zip_iff_getD h).mpr ⟨k, hk, rfl⟩, if_pos hm⟩

/-- Settles O15: places by division, the mask bit by bit, and the flags of the elements selected. -/
theorem elementPlacement : Obligations.ElementPlacement := by
  unfold Obligations.ElementPlacement
  intro s d w m r lat hw hfit hlen
  have hroom : (r.map (·.1)).length * w ≤ 4096 := by rw [List.length_map, hlen]; exact hfit
  refine ⟨_, _, _, rfl, fun k hk => ?_, fun i hi => ?_, fun b _ => ?_⟩
  · rw [toNat_ofNat_packElems hroom, elemN_packElems, List.getD_eq_getElem _ _ (by rw [List.length_map]; exact hk),
      List.getElem_map, List.getD_eq_getElem _ _ hk]
  · rw [BitVec.getLsbD_ofNat, decide_eq_true hi, Bool.true_and, testBit_packMask hw]
  · rw [getLsbD_orFlags, List.any_eq_true]
    constructor
    · rintro ⟨x, hx, hb⟩
      obtain ⟨k, hk, hm, rfl⟩ := (mem_selectedResults hlen).mp hx
      exact ⟨k, hk, hm, hb⟩
    · rintro ⟨k, hk, hm, hb⟩
      exact ⟨_, (mem_selectedResults hlen).mpr ⟨k, hk, hm, rfl⟩, hb⟩

end Sys2Proof.Machine

namespace Sys2Proof.Machine

/-! ## The queues of a context and the overflow ring (R234) -/

theorem length_queueOf (c : Ctx) : ∀ q : Nat, (c.queueOf q).length = c.queueLen q
  | 0 | 1 | 2 | _ + 3 => List.length_map _
theorem setQueue_ring (c : Ctx) (q : Nat) (l : List RingEntry) : (c.setQueue q l).ring = c.ring := by
  unfold Ctx.setQueue
  split <;> rfl
theorem setQueue_block (c : Ctx) (q : Nat) (l : List RingEntry) : (c.setQueue q l).block = c.block := by
  unfold Ctx.setQueue
  split <;> rfl
/-- An entry that a queue can hold: of the two copy engines that there are. -/
def RingEntry.fits (e : RingEntry) (q : Nat) : Prop := e.queue = q ∧ ∀ g k, e = .copy g k → g < 2
/-- A queue holds entries of its own. -/
theorem queueOf_fits (c : Ctx) {q : Nat} (hq : q < 4) {e : RingEntry} (h : e ∈ c.queueOf q) : e.fits q := by
  obtain rfl | rfl | rfl | rfl : q = 0 ∨ q = 1 ∨ q = 2 ∨ q = 3 := by omega
  all_goals
    obtain ⟨k, _, rfl⟩ := List.mem_map.mp h
    refine ⟨rfl, fun g k' he => ?_⟩
    cases he <;> decide
/-- A list from which each element comes back is unchanged by a way there and back. -/
theorem map_filterMap_back {α β : Type} {f : α → Option β} {g : β → α} {l : List α} (h : ∀ a ∈ l, (f a).map g = some a) :
    (l.filterMap f).map g = l := by
  rw [List.map_filterMap, List.filterMap_congr h, List.filterMap_some]
theorem fits_zero {e : RingEntry} (h : e.fits 0) : ∃ k, e = .e k := by
  cases e with
  | e k => exact ⟨k, rfl⟩
  | copy g k => have hq : 1 + g = 0 := h.1; omega
  | rcv k => exact absurd h.1 (show ¬ (3 = 0) by decide)
theorem fits_copy {e : RingEntry} {g : Nat} (hg : g < 2) (h : e.fits (1 + g)) : ∃ k, e = .copy g k := by
  cases e with
  | e k => have hq : 0 = 1 + g := h.1; omega
  | copy g' k => have hq : 1 + g' = 1 + g := h.1; exact ⟨k, by rw [Nat.add_left_cancel hq]⟩
  | rcv k => have hq : 3 = 1 + g := h.1; omega
theorem fits_three {e : RingEntry} (h : e.fits 3) : ∃ k, e = .rcv k := by
  cases e with
  | e k => exact absurd h.1 (show ¬ (0 = 3) by decide)
  | copy g k => have hq : 1 + g = 3 := h.1; have hg := h.2 g k rfl; omega
  | rcv k => exact ⟨k, rfl⟩
/-- A queue replaced by entries that it can hold. -/
theorem queueOf_setQueue (c : Ctx) {q : Nat} (hq : q < 4) {l : List RingEntry} (h : ∀ e ∈ l, e.fits q) : (c.setQueue q l).queueOf q = l := by
  obtain rfl | rfl | rfl | rfl : q = 0 ∨ q = 1 ∨ q = 2 ∨ q = 3 := by omega
  · refine map_filterMap_back (fun e he => ?_)
    obtain ⟨k, rfl⟩ := fits_zero (h e he)
    rfl
  · refine map_filterMap_back (fun e he => ?_)
    obtain ⟨k, rfl⟩ := fits_copy (g := 0) (by decide) (h e he)
    rfl
  · refine map_filterMap_back (fun e he => ?_)
    obtain ⟨k, rfl⟩ := fits_copy (g := 1) (by decide) (h e he)
    rfl
  · refine map_filterMap_back (fun e he => ?_)
    obtain ⟨k, rfl⟩ := fits_three (h e he)
    rfl

/-- A move of the overflow engine whose pages are present and logged. -/
theorem ovfMove_done {s : State} {w : Who} {slots : List Nat} {write : Bool} (h : ovfMeets s w slots write = (none, none)) (f : Ctx → Ctx) :
    ovfMove s w slots write f = .next (s.updCtx w (fun c => { f c with ovfTold := 0 })) := by
  rw [ovfMove, h]

/-- What a spill leaves of a queue, and what it adds to the ring. -/
theorem spill_queueOf (c : Ctx) {q : Nat} (hq : q < 4) : (c.spill q).queueOf q = (c.queueOf q).take (c.queueLen q - 32) := by
  have hset : (c.spill q).queueOf q = (c.setQueue q ((c.queueOf q).take ((c.queueOf q).length - 32))).queueOf q := rfl
  rw [hset, queueOf_setQueue c hq (fun e he => queueOf_fits c hq (List.mem_of_mem_take he)), length_queueOf]
theorem spill_ring (c : Ctx) (q : Nat) : (c.spill q).ring = c.ring ++ (c.queueOf q).drop (c.queueLen q - 32) := by
  have hset : (c.spill q).ring = (c.setQueue q ((c.queueOf q).take ((c.queueOf q).length - 32))).ring ++ (c.queueOf q).drop ((c.queueOf q).length - 32) := rfl
  rw [hset, setQueue_ring, length_queueOf]
theorem spill_block {c : Ctx} {q : Nat} (h : c.block = .queue q) : (c.spill q).block = .none := by
  refine if_pos ?_
  show (c.setQueue q _).block = _
  rw [setQueue_block, h]
/-- R234: a full queue spills its 32 youngest entries. -/
theorem queueSpill_spills {s : State} (hv : s.sel.val = 0) (hq : s.sel.id < 4) (hlen : 64 ≤ s.cur.queueLen s.sel.id)
    (hring : s.cur.inRing s.sel.id = false) (hquota : s.cur.ring.length + s.cur.ovfWait.length + 32 ≤ s.cur.csr.ovfQuota.toNat)
    (hblock : s.cur.block = .queue s.sel.id)
    (hpages : ovfMeets s s.sel.who ((upTo 32).map (fun i => s.cur.ring.length + i)) true = (none, none)) :
    exec .queueSpill s = .next (s.upd (fun c => { c.spill s.sel.id with ovfTold := 0 })) := by
  have hdue : s.spillDue s.sel.who s.sel.id = true := by
    show (decide (s.sel.id < 4) && !s.cur.inRing s.sel.id && decide (64 ≤ s.cur.queueLen s.sel.id) &&
      decide (s.cur.ringUsed + 32 ≤ s.cur.csr.ovfQuota.toNat) && (s.cur.block = .queue s.sel.id || _)) = true
    rw [decide_eq_true hq, hring, decide_eq_true hlen, decide_eq_true (show s.cur.ringUsed + 32 ≤ _ from hquota), decide_eq_true hblock]
    rfl
  have hval : s.sel.val.toNat = 0 := by rw [hv]; rfl
  show execQueueSpill s = _
  rw [execQueueSpill, hval]
  exact (if_pos hdue).trans (ovfMove_done hpages _)
/-- R234: the oldest entry on its way to the ring enters it. -/
theorem queueSpill_enters {s : State} (hv : s.sel.val = 1) (hw : s.cur.ovfWait ≠ [])
    (hpages : ovfMeets s s.sel.who [s.cur.ring.length] true = (none, none)) :
    exec .queueSpill s = .next (s.upd (fun c => { c with ring := c.ring ++ c.ovfWait.take 1, ovfWait := c.ovfWait.drop 1, ovfTold := 0 })) := by
  have hwait : (s.ctx s.sel.who).ovfWait.isEmpty = false := by
    rw [← Bool.not_eq_true, List.isEmpty_iff]; exact hw
  have hval : s.sel.val.toNat = 1 := by rw [hv]; rfl
  show execQueueSpill s = _
  rw [execQueueSpill, hval]
  exact (if_neg (by rw [hwait]; exact Bool.false_ne_true)).trans (ovfMove_done hpages _)

/-! ### Refill -/

/-- Entries come back from the ring oldest first; those of other queues keep their places. -/
theorem pullRing_spec (q : Nat) : ∀ (l : List RingEntry) (n : Nat),
    (pullRing q n l).1 = (l.filter (fun e => e.queue = q)).take n ∧
    (pullRing q n l).2.filter (fun e => e.queue = q) = (l.filter (fun e => e.queue = q)).drop n ∧
    (pullRing q n l).2.filter (fun e => e.queue ≠ q) = l.filter (fun e => e.queue ≠ q)
  | [], n => by cases n <;> simp [pullRing]
  | e :: r, 0 => by simp [pullRing]
  | e :: r, n + 1 => by
    by_cases h : e.queue = q
    · have ih := pullRing_spec q r n
      simpa [pullRing, h] using ih
    · have ih := pullRing_spec q r (n + 1)
      simpa [pullRing, h] using ih
/-- A ring with an entry of a queue that has room has slots to empty. -/
theorem refillSlots_nonempty {c : Ctx} {q : Nat} (hlen : c.queueLen q ≤ 16) {e : RingEntry} (he : e ∈ c.ring) (hq : e.queue = q) :
    (c.refillSlots q).isEmpty = false := by
  obtain ⟨i, hi, rfl⟩ := List.mem_iff_getElem.mp he
  have hmem : i ∈ (c.ring.zipIdx.filter (fun r => r.1.queue = q)).map (·.2) := by
    refine List.mem_map.mpr ⟨(c.ring[i], i), List.mem_filter.mpr ⟨?_, decide_eq_true hq⟩, rfl⟩
    exact List.mem_zipIdx_iff_getElem?.mpr (List.getElem?_eq_getElem hi)
  rw [← Bool.not_eq_true, List.isEmpty_iff, Ctx.refillSlots, List.take_eq_nil_iff]
  rintro (h | h)
  · omega
  · rw [h] at hmem; cases hmem
theorem inRing_of_mem {c : Ctx} {q : Nat} {e : RingEntry} (he : e ∈ c.ring) (hq : e.queue = q) : c.inRing q = true :=
  List.any_eq_true.mpr ⟨e, List.mem_append_left _ he, decide_eq_true hq⟩
theorem refill_eq {c : Ctx} {q : Nat} (hlen : c.queueLen q ≤ 16) (hr : c.inRing q = true) :
    c.refill q = { c.setQueue q (c.queueOf q ++ (pullRing q (64 - c.queueLen q) c.ring).1) with ring := (pullRing q (64 - c.queueLen q) c.ring).2 } :=
  if_pos ⟨hlen, hr⟩
/-- A refilled queue: its own entries, then those that come back. -/
theorem refill_queueOf {c : Ctx} {q : Nat} (hq : q < 4) (hlen : c.queueLen q ≤ 16) (hr : c.inRing q = true)
    (hg : ∀ g k, RingEntry.copy g k ∈ c.ring → g < 2) :
    (c.refill q).queueOf q = c.queueOf q ++ (c.ring.filter (fun e => e.queue = q)).take (64 - c.queueLen q) := by
  have hset : (c.refill q).queueOf q = (c.setQueue q (c.queueOf q ++ (pullRing q (64 - c.queueLen q) c.ring).1)).queueOf q := by
    rw [refill_eq hlen hr]; rfl
  obtain ⟨hback, _, _⟩ := pullRing_spec q c.ring (64 - c.queueLen q)
  rw [hset, hback]
  refine queueOf_setQueue c hq (fun e he => ?_)
  rcases List.mem_append.mp he with h | h
  · exact queueOf_fits c hq h
  · obtain ⟨hm, hp⟩ := List.mem_filter.mp (List.mem_of_mem_take h)
    exact ⟨of_decide_eq_true hp, fun g k hk => hg g k (hk ▸ hm)⟩

/-- R234: a queue that has fallen to 16 entries is refilled. -/
theorem queueSpill_refills {s : State} (hv : s.sel.val = 2) (hq : s.sel.id < 4) (hlen : s.cur.queueLen s.sel.id ≤ 16) {e : RingEntry}
    (he : e ∈ s.cur.ring) (heq : e.queue = s.sel.id) (hpages : ovfMeets s s.sel.who (s.cur.refillSlots s.sel.id) false = (none, none)) :
    exec .queueSpill s = .next (s.upd (fun c => { c.refill s.sel.id with ovfTold := 0 })) := by
  have hmay : (decide (s.sel.id < 4) && decide (s.cur.queueLen s.sel.id ≤ 16) && !(s.cur.refillSlots s.sel.id).isEmpty) = true := by
    rw [decide_eq_true hq, decide_eq_true hlen, refillSlots_nonempty hlen he heq]; rfl
  have hval : s.sel.val.toNat = 2 := by rw [hv]; rfl
  show execQueueSpill s = _
  rw [execQueueSpill, hval]
  exact (if_pos hmay).trans (ovfMove_done hpages _)

/-! ## The head of the E queue (R207) -/

/-- A fold whose steps all leave the state leaves it. -/
theorem foldl_unchanged {α : Type} {f : State → α → State} {s : State} : ∀ {l : List α}, (∀ a ∈ l, f s a = s) → l.foldl f s = s
  | [], _ => rfl
  | a :: r, h => by
    rw [List.foldl_cons, h a List.mem_cons_self]
    exact foldl_unchanged (fun b hb => h b (List.mem_cons_of_mem _ hb))
/-- With no store to a scratchpad held back outside a segment none is performed. -/
theorem settlePools_idle {s : State} (h : s.poolIdle) : s.settlePools = s := by
  refine foldl_unchanged (fun p hp => if_neg ?_)
  obtain ⟨hm, hpool⟩ := List.mem_filter.mp hp
  rintro ⟨hcore, _⟩
  rw [h p hm hpool] at hcore
  cases hcore
/-- Then settling leaves memory, and every packet but for its stage. -/
theorem settle_mem_idle {s : State} (h : s.poolIdle) : s.settle.mem = s.mem := by
  rw [State.settle, settlePools_idle h]
theorem mem_settle_idle {s : State} (h : s.poolIdle) {p : Pkt} (hp : p ∈ s.pkts) :
    ∃ q ∈ s.settle.pkts, q.id = p.id ∧ q.who = p.who ∧ q.dst = p.dst ∧ q.op = p.op := by
  rw [State.settle, settlePools_idle h]
  refine ⟨_, List.mem_map.mpr ⟨p, hp, rfl⟩, ?_⟩
  split <;> exact ⟨rfl, rfl, rfl, rfl⟩
theorem poolIdle_append {s t : State} (h : s.poolIdle) {p : Pkt} (hp : p.isPool = false) (ht : t.pkts = s.pkts ++ [p]) : t.poolIdle := by
  intro q hq hpool
  rw [ht, List.mem_append, List.mem_singleton] at hq
  rcases hq with hq | rfl
  · exact h q hq hpool
  · rw [hp] at hpool; cases hpool
/-- A command's packet leaves for the network: memory stays, and the packet is there. -/
theorem sendCmd_idle {s : State} (h : s.poolIdle) {p : Pkt} (hp : p.isPool = false) :
    (sendCmd s p).mem = s.mem ∧ ∃ q ∈ (sendCmd s p).pkts, q.id = p.id ∧ q.who = p.who ∧ q.dst = p.dst ∧ q.op = p.op := by
  unfold sendCmd
  split
  · have hidle : State.poolIdle { s with pkts := s.pkts ++ [p] } := poolIdle_append h hp rfl
    exact ⟨settle_mem_idle hidle, mem_settle_idle hidle (List.mem_append_right _ (List.mem_singleton_self p))⟩
  · have hidle : State.poolIdle { (numberPkt s p).1 with pkts := (numberPkt s p).1.pkts ++ [(numberPkt s p).2] } := poolIdle_append h (p := (numberPkt s p).2) hp rfl
    exact ⟨settle_mem_idle hidle, mem_settle_idle hidle (p := (numberPkt s p).2) (List.mem_append_right _ (List.mem_singleton_self _))⟩
/-- A command to a unit of its chip leaves as a packet to that chip. -/
theorem headGo_toUnit {s : State} {w : Who} {k : ECmd} (hk : toUnit k.op = true) (h : s.poolIdle) :
    (headGo s w k).mem = s.mem ∧ ∃ p ∈ (headGo s w k).pkts, p.id = k.id ∧ p.who = w ∧ p.dst = w.chip ∧ p.op = .cmd k := by
  rw [headGo, if_pos hk]
  exact sendCmd_idle h rfl
/-- R207: the oldest command leaves its queue. -/
theorem eQueueHead_goes {s : State} {k : ECmd} {r : List ECmd} (hq : s.cur.eq = k :: r) (hh : s.cur.eHead = none)
    (hmay : (toUnit k.op || sendsAtHead k.op) = true → s.mayRequest s.sel.who.coreId 1 = true) :
    exec .eQueueHead s = .next (headGo (s.upd (fun c => { c with eq := r })) s.sel.who k) := by
  have hfree : ((toUnit k.op || sendsAtHead k.op) && !s.mayRequest s.sel.who.coreId 1) = false := by
    cases hs : (toUnit k.op || sendsAtHead k.op) with
    | false => rfl
    | true => rw [hmay hs]; rfl
  have hq' : (s.ctx s.sel.who).eq = k :: r := hq
  have hh' : (s.ctx s.sel.who).eHead = none := hh
  show execEQueueHead s = _
  rw [execEQueueHead, hq', hh']
  dsimp only
  rw [hfree, if_neg Bool.false_ne_true]
  rfl

end Sys2Proof.Machine

namespace Sys2Proof.Machine

/-! ## The commit of a segment (R329, R333) -/

/-! ### The acting parties stay -/

theorem pokeAll_sel (s : State) (c : CoreId) (ws : List (Nat × List Byte)) : (pokeAll s c ws).sel = s.sel :=
  foldl_keeps State.sel (fun (t : State) (q : Nat × List Byte) => t.poke (poolKey c q.1) q.2) (fun _ _ => rfl) ws s
theorem pokeAll_ctxs (s : State) (c : CoreId) (ws : List (Nat × List Byte)) : (pokeAll s c ws).ctxs = s.ctxs :=
  foldl_keeps State.ctxs (fun (t : State) (q : Nat × List Byte) => t.poke (poolKey c q.1) q.2) (fun _ _ => rfl) ws s
theorem performPool_sel (s : State) (p : Pkt) : (performPool s p).sel = s.sel := by
  unfold performPool
  split
  · exact pokeAll_sel _ _ _
  · rfl
theorem performPool_ctxs (s : State) (p : Pkt) : (performPool s p).ctxs = s.ctxs := by
  unfold performPool
  split
  · exact pokeAll_ctxs _ _ _
  · rfl
theorem settlePools_sel (s : State) : s.settlePools.sel = s.sel :=
  foldl_keeps State.sel _ (fun t p => by split; exacts [performPool_sel t p, rfl]) _ s
theorem settlePools_ctxs (s : State) : s.settlePools.ctxs = s.ctxs :=
  foldl_keeps State.ctxs _ (fun t p => by split; exacts [performPool_ctxs t p, rfl]) _ s
/-- Settling performs stores and moves packets: no context changes. -/
theorem settle_sel (s : State) : s.settle.sel = s.sel := settlePools_sel s
theorem settle_ctx (s : State) (w : Who) : s.settle.ctx w = s.ctx w := by
  show AMap.get s.settlePools.ctxs w _ = _
  rw [settlePools_ctxs]
  rfl
theorem performPool_if_sel (b : Bool) (s : State) (p : Pkt) : (if b then performPool s p else s).sel = s.sel := by
  cases b with
  | true => exact performPool_sel s p
  | false => rfl
theorem handOver_sel (s : State) (p : Pkt) : (handOver s p).sel = s.sel := by
  refine (performPool_if_sel _ _ _).trans ?_
  cases p.isPool <;> rfl
theorem numberCmd_sel (s : State) (w : Who) (k : ECmd) : (numberCmd s w k).1.sel = s.sel := by
  unfold numberCmd
  split <;> rfl
theorem segCommit_sel (s : State) (w : Who) : (segCommit s w).sel = s.sel := by
  unfold segCommit
  rw [settle_sel, State.updCtx_sel]
  refine (foldl_keeps State.sel _ (fun t k => ?_) _ _).trans ?_
  · exact numberCmd_sel _ w k
  · exact foldl_keeps State.sel _ handOver_sel _ s
/-- A committed context is outside any segment. -/
theorem segCommit_ctx (s : State) (w : Who) : ∃ c : Ctx, (segCommit s w).ctx w =
    { c with closing := [], closeDue := false, entryNext := false, inSeg := false, segRetry := false, shadow := none, segLast := c.segInst } := by
  unfold segCommit
  rw [settle_ctx, State.ctx_updCtx_same]
  exact ⟨_, rfl⟩

/-! ### Outside any segment -/

/-- A context with no segment open, none rewound, and nothing held for a commit. -/
def Ctx.outside (c : Ctx) : Prop := c.inSeg = false ∧ c.segRetry = false ∧ c.closing = []
theorem record_outside {c : Ctx} (h : c.outside) (t free : Nat) (a : TrapArgs) : (c.record t free a).outside := by
  unfold Ctx.record
  split
  · exact h
  · exact h
theorem dropSeg_outside (c : Ctx) : c.dropSeg.outside := ⟨rfl, rfl, rfl⟩
/-- No trap opens a segment. -/
theorem takeTrap_outside {s : State} {w : Who} (h : (s.ctx w).outside) (a : TrapArgs) : ((takeTrap s w a).ctx w).outside := by
  unfold takeTrap
  split
  · rw [trapFreeze_ctx]; exact record_outside h _ _ a
  · split
    · rw [trapVector_ctx]; exact record_outside h _ _ a
    · obtain ⟨k, l, hterm⟩ := trapTerminal_ctx s w a
      rw [hterm]; exact dropSeg_outside ((s.ctx w).record (s.clkOf w) s.free a)
theorem dropClosing_sel (s : State) (w : Who) : (dropClosing s w).sel = s.sel := by
  unfold dropClosing
  dsimp only
  split <;> rfl
theorem trapTerminal_sel (s : State) (w : Who) (a : TrapArgs) : (trapTerminal s w a).sel = s.sel := by
  show (dropClosing (dropBuffered (endTask s w) w) w).sel = s.sel
  rw [dropClosing_sel, dropBuffered_sel, endTask_sel]
theorem takeTrap_sel (s : State) (w : Who) (a : TrapArgs) : (takeTrap s w a).sel = s.sel := by
  unfold takeTrap
  split
  · rfl
  · split
    · rfl
    · exact trapTerminal_sel s w a
theorem enterHalt_sel (s : State) (w : Who) : (enterHalt s w).sel = s.sel :=
  endTask_sel s w
theorem afterCommit_sel (s : State) (w : Who) : (afterCommit s w).sel = s.sel := by
  unfold afterCommit
  dsimp only
  split
  · exact takeTrap_sel _ w _
  · split
    · exact enterHalt_sel s w
    · rfl
/-- What follows a commit opens no segment. -/
theorem afterCommit_outside {s : State} {w : Who} (h : (s.ctx w).outside) : ((afterCommit s w).ctx w).outside := by
  unfold afterCommit
  dsimp only
  split
  · refine takeTrap_outside ?_ _
    rw [State.ctx_updCtx_same]; exact h
  · split
    · rw [enterHalt_ctx]; exact h
    · exact h
/-- R333: after its commit a context is outside any segment; at an entry the next one is to open. -/
theorem commitNow_outside (s : State) : (commitNow s).cur.outside ∧ (s.cur.endDue = false → (commitNow s).cur.entryNext = true) := by
  obtain ⟨c, hc⟩ := segCommit_ctx s s.sel.who
  have hout : ((segCommit s s.sel.who).ctx s.sel.who).outside := by rw [hc]; exact ⟨rfl, rfl, rfl⟩
  unfold commitNow
  cases hend : s.cur.endDue with
  | true =>
    refine ⟨?_, fun h => by cases h⟩
    rw [if_pos rfl]
    show ((afterCommit (segCommit s s.sel.who) s.sel.who).ctx (afterCommit (segCommit s s.sel.who) s.sel.who).sel.who).outside
    rw [afterCommit_sel, segCommit_sel]
    exact afterCommit_outside hout
  | false =>
    dsimp only
    rw [if_neg Bool.false_ne_true, State.cur_upd]
    refine ⟨?_, fun _ => rfl⟩
    show ((segCommit s s.sel.who).ctx (segCommit s s.sel.who).sel.who).outside
    rw [segCommit_sel]
    exact hout
/-- R333: a commit at a boundary, or before an entry that the issue limit does not force. -/
theorem segmentCommit_commits {s : State} (h : s.cur.endDue = true ∨ (s.entryDue = true ∧ s.cur.segIssues < 4096))
    (hr : s.commitReady s.sel.who = true) : exec .segmentCommit s = .next (commitNow s) := by
  have hdue : ((s.cur.endDue || (s.entryDue && decide (s.cur.segIssues < 4096))) && s.commitReady s.sel.who) = true := by
    rw [hr, Bool.and_true, Bool.or_eq_true, Bool.and_eq_true, decide_eq_true_eq]
    exact h
  exact if_pos hdue
/-- R329: the issue that would be the 4,097th of a segment commits it first. -/
theorem segmentIssueLimit_commits {s : State} (hend : s.cur.endDue = false) (hentry : s.entryDue = true) (hlim : 4096 ≤ s.cur.segIssues)
    (hr : s.commitReady s.sel.who = true) : exec .segmentIssueLimit s = .next (commitNow s) := by
  have hdue : (!s.cur.endDue && s.entryDue && decide (4096 ≤ s.cur.segIssues) && s.commitReady s.sel.who) = true := by
    rw [hend, hentry, decide_eq_true hlim, hr]; rfl
  exact if_pos hdue

/-! ## Hold, block, late fault and pre-emption (R19, R340, R390, R436) -/

theorem blockRelease_unblocks {s : State} (h : s.unblocked s.sel.who = true) :
    exec .blockRelease s = .next (s.upd (fun c => { c with st := .ready, block := .none, yieldFor := [] })) := if_pos h
theorem holdRelease_releases {s : State} (h : s.endedHolds s.sel.who ≠ []) :
    exec .holdRelease s = .next (s.upd (fun c => { c with holds := c.holds.filter (fun k => !(s.endedHolds s.sel.who).contains k) })) :=
  if_neg (fun he => h (List.isEmpty_iff.mp he))
theorem lateFault_raises {s : State} {l : LateFault} {r : List LateFault} (hl : s.cur.late = l :: r) (hs : s.cur.st ≠ .frozen) :
    exec .lateFault s = .next (raiseCause (s.upd (fun c => { c with late := r })) s.sel.who (l.args s.cur) l.stale l.inst) := by
  have hl' : (s.ctx s.sel.who).late = l :: r := hl
  show execLateFault s = _
  rw [execLateFault, hl']
  exact if_neg hs
/-- The context that a vote stops, as PREEMPTION_REQUEST finds it. -/
theorem preemption_eq {s : State} {g : Nat} (hm : (s.chip s.sel.who.chip).vote.member = some g)
    (hs : (s.chip s.sel.who.chip).vote.stopped.contains s.sel.who = false) (hc : (s.ctxsOf s.sel.who.chip).contains s.sel.who = true) :
    exec .preemptionRequest s =
      if !s.cur.inSeg then .next (stopFor s s.sel.who g)
      else if s.cur.segSafe then .next (stopFor (rewind s s.sel.who 1 false) s.sel.who g)
      else if s.cur.entryNext then .next (stopFor s s.sel.who g)
      else if s.commitReady s.sel.who then .next (stopFor (commitNow s) s.sel.who g)
      else .fault .notEnabled := by
  show execPreemptionRequest s = _
  rw [execPreemptionRequest, hm]
  dsimp only
  rw [hs, hc]
  rfl

end Sys2Proof.Machine

namespace Sys2Proof.Machine

/-! ## The events of a context (O37) -/

/-- An update of the acting context alone: the outcome, the frame, and the context it leaves. -/
theorem exists_upd {out : Out} {s : State} {f : Ctx → Ctx} (h : out = .next (s.upd f)) {P : Ctx → Prop} (hP : P (f s.cur)) :
    ∃ t, out = .next t ∧ onlyCtx s.sel.who s t ∧ P t.cur :=
  ⟨_, h, onlyCtx_upd (onlyCtx_refl _ s) rfl f, by rw [State.cur_upd]; exact hP⟩
/-- R234: what a refill moves from the ring to the queue. -/
theorem refill_moves {c : Ctx} {q : Nat} (hq : q < 4) (hlen : c.queueLen q ≤ 16) (hr : ∃ e ∈ c.ring, e.queue = q)
    (hg : ∀ g k, RingEntry.copy g k ∈ c.ring → g < 2) :
    (c.refill q).queueOf q = c.queueOf q ++ (c.ring.filter (fun e => e.queue = q)).take (64 - c.queueLen q) ∧
    (c.refill q).ring.filter (fun e => e.queue = q) = (c.ring.filter (fun e => e.queue = q)).drop (64 - c.queueLen q) ∧
    (c.refill q).ring.filter (fun e => e.queue ≠ q) = c.ring.filter (fun e => e.queue ≠ q) := by
  obtain ⟨e, he, heq⟩ := hr
  have hin := inRing_of_mem he heq
  obtain ⟨_, hleft, hothers⟩ := pullRing_spec q c.ring (64 - c.queueLen q)
  have hring : (c.refill q).ring = (pullRing q (64 - c.queueLen q) c.ring).2 := by rw [refill_eq hlen hin]
  refine ⟨refill_queueOf hq hlen hin hg, ?_, ?_⟩
  · rw [hring, hleft]
  · rw [hring, hothers]
/-- R333: a commit ends with no segment open, and at an entry with the next one to open. -/
theorem exists_commitNow {out : Out} {s : State} (h : out = .next (commitNow s)) :
    ∃ t, out = .next t ∧ t.cur.inSeg = false ∧ t.cur.segRetry = false ∧ t.cur.closing = [] ∧ (s.cur.endDue = false → t.cur.entryNext = true) := by
  obtain ⟨⟨hopen, hretry, hclosing⟩, hentry⟩ := commitNow_outside s
  exact ⟨_, h, hopen, hretry, hclosing, hentry⟩

/-- Settles O37: each event of a context by its equation, under the conditions that enable it. -/
theorem contextEvents : Obligations.ContextEvents := by
  unfold Obligations.ContextEvents
  intro s
  refine ⟨blockRelease_unblocks, fun l r => lateFault_raises, ?spill, ?enter, ?refill, ?head, ?commit, ?limit, holdRelease_releases, ?vote⟩
  case spill =>
    intro hv hq hlen hring hquota hblock hpages
    exact exists_upd (queueSpill_spills hv hq hlen hring hquota hblock hpages)
      (P := fun c => c.queueOf s.sel.id = _ ∧ c.block = _ ∧ c.ring = _) ⟨spill_queueOf s.cur hq, spill_block hblock, spill_ring s.cur _⟩
  case enter =>
    intro hv e r hwait hpages
    refine exists_upd (queueSpill_enters hv (by rw [hwait]; exact List.cons_ne_nil e r) hpages) (P := fun c => c = _) ?_
    dsimp only
    rw [hwait]
    rfl
  case refill =>
    intro hv hq hlen hr hg hpages
    obtain ⟨e, he, heq⟩ := hr
    exact exists_upd (queueSpill_refills hv hq hlen he heq hpages)
      (P := fun c => c.queueOf s.sel.id = _ ∧ c.ring.filter _ = _ ∧ c.ring.filter _ = _) (refill_moves hq hlen ⟨e, he, heq⟩ hg)
  case head =>
    intro k r hq hh hmay
    refine ⟨_, eQueueHead_goes hq hh hmay, rfl, fun hidle hk => ?_⟩
    exact headGo_toUnit hk (s := s.upd (fun c => { c with eq := r })) hidle
  case commit => exact fun hdue hr => exists_commitNow (segmentCommit_commits hdue hr)
  case limit =>
    intro hend hentry hlim hr
    obtain ⟨t, ht, hopen, hretry, _, hnext⟩ := exists_commitNow (segmentIssueLimit_commits hend hentry hlim hr)
    exact ⟨t, ht, hopen, hretry, hnext hend⟩
  case vote =>
    intro g hm hs hc
    rw [preemption_eq hm hs hc]
    refine ⟨fun hseg => ?_, fun hseg hsafe => ?_, fun hseg hsafe hnext => ?_, fun hseg hsafe hnext hr => ?_⟩
    · rw [hseg]; rfl
    · rw [hseg, hsafe]; rfl
    · rw [hseg, hsafe, hnext]; rfl
    · rw [hseg, hsafe, hnext, hr]; rfl

end Sys2Proof.Machine

namespace Sys2Proof

/-! ## Fields of appended bits

A layout's width is written as a sum where its fields are appended and as a numeral where they are read, so these rules
of the library are stated with the width left out of what simp matches. -/

@[simp] theorem extractLsb'_append_above {u v s n : Nat} (hi : BitVec u) (lo : BitVec v) (h : v ≤ s) :
    (@HAppend.hAppend _ _ (no_index (BitVec (u + v))) _ hi lo).extractLsb' s n = hi.extractLsb' (s - v) n :=
  BitVec.extractLsb'_append_eq_of_le h
@[simp] theorem extractLsb'_append_below {u v s n : Nat} (hi : BitVec u) (lo : BitVec v) (h : s + n ≤ v) :
    (@HAppend.hAppend _ _ (no_index (BitVec (u + v))) _ hi lo).extractLsb' s n = lo.extractLsb' s n :=
  BitVec.extractLsb'_append_eq_of_add_le h
@[simp] theorem getElem_append_above {u v k : Nat} (hi : BitVec u) (lo : BitVec v) (hk : k < u + v) (h : v ≤ k) :
    (@HAppend.hAppend _ _ (no_index (BitVec (u + v))) _ hi lo)[k] = hi.getLsbD (k - v) := by
  rw [BitVec.getElem_append, dif_neg (Nat.not_lt.mpr h), BitVec.getLsbD_eq_getElem]
@[simp] theorem getElem_append_below {u v k : Nat} (hi : BitVec u) (lo : BitVec v) (hk : k < u + v) (h : k < v) :
    (@HAppend.hAppend _ _ (no_index (BitVec (u + v))) _ hi lo)[k] = lo.getLsbD k := by
  rw [BitVec.getElem_append, dif_pos h, BitVec.getLsbD_eq_getElem]

/-! ## The frame of a first syllable (R39) -/

@[simp] theorem opOf_frame (l : Bool) (op : BitVec 7) (g : Guard) (o : BitVec 20) : opOf (frame l op g o) = op := by
  simp [opOf, frame]
@[simp] theorem guardOf_frame (l : Bool) (op : BitVec 7) (g : Guard) (o : BitVec 20) : guardOf (frame l op g o) = g := by
  simp [guardOf, frame]
@[simp] theorem extractLsb'_frame (l : Bool) (op : BitVec 7) (g : Guard) (o : BitVec 20) {s n : Nat} (h : s + n ≤ 20) :
    (frame l op g o).extractLsb' s n = o.extractLsb' s n := BitVec.extractLsb'_append_eq_of_add_le h
@[simp] theorem getElem_frame (l : Bool) (op : BitVec 7) (g : Guard) (o : BitVec 20) {k : Nat} (hk : k < 32) (h : k < 20) :
    (frame l op g o)[k] = o[k] := (getElem_append_below _ o hk h).trans (BitVec.getLsbD_eq_getElem h)

/-! ## Second syllables (R40) -/

/-- An immediate is read back from the syllable that it lies in. -/
@[simp] theorem immOf_second {n : Nat} (i : Imm n) (w : Syl) (h : w.extractLsb' 0 n = i.fld) : immOf n w i.second = i := by
  cases i with
  | short v => exact congrArg Imm.short h
  | long v => rfl
@[simp] theorem VExt.ofSyl_comp_syl : VExt.ofSyl ∘ VExt.syl = id := funext fun e => by simp [VExt.ofSyl, VExt.syl]
@[simp] theorem MExt.ofSyl_comp_syl : MExt.ofSyl ∘ MExt.syl = id := funext fun e => by simp [MExt.ofSyl, MExt.syl]
@[simp] theorem MDrainExt.ofSyl_comp_syl : MDrainExt.ofSyl ∘ MDrainExt.syl = id :=
  funext fun e => by simp [MDrainExt.ofSyl, MDrainExt.syl]
@[simp] theorem EExt.ofSyl_comp_syl : EExt.ofSyl ∘ EExt.syl = id := funext fun e => by simp [EExt.ofSyl, EExt.syl]

/-! ## Every layout reads back its opcode and its fields (R43 to R53) -/

@[simp] theorem SR.words_readBack (o : SR) (op : BitVec 7) : opOf (o.words op).1 = op ∧ SR.ofSyl o.slot (o.words op).1 (o.words op).2 = o := by
  simp [SR.words, SR.ofSyl]
@[simp] theorem SRX.words_readBack (o : SRX) (op : BitVec 7) : opOf (o.words op).1 = op ∧ SRX.ofSyl o.slot (o.words op).1 (o.words op).2 = o := by
  simp [SRX.words, SRX.ofSyl]
@[simp] theorem SI.words_readBack (o : SI) (op : BitVec 7) : opOf (o.words op).1 = op ∧ SI.ofSyl o.slot (o.words op).1 (o.words op).2 = o := by
  simp [SI.words, SI.ofSyl]
@[simp] theorem SL.words_readBack (o : SL) (op : BitVec 7) : opOf (o.words op).1 = op ∧ SL.ofSyl o.slot (o.words op).1 (o.words op).2 = o := by
  simp [SL.words, SL.ofSyl]
@[simp] theorem SC.words_readBack (o : SC) (op : BitVec 7) : opOf (o.words op).1 = op ∧ SC.ofSyl o.slot (o.words op).1 (o.words op).2 = o := by
  obtain ⟨sl, g, pd, a, rhs, cond⟩ := o
  cases rhs <;> simp [SC.words, SC.ofSyl, SRhs.fld, SRhs.second]
@[simp] theorem SP.words_readBack (o : SP) (op : BitVec 7) : opOf (o.words op).1 = op ∧ SP.ofSyl o.slot (o.words op).1 (o.words op).2 = o := by
  simp [SP.words, SP.ofSyl]
@[simp] theorem SB.words_readBack (o : SB) (op : BitVec 7) : opOf (o.words op).1 = op ∧ SB.ofSyl o.slot (o.words op).1 (o.words op).2 = o := by
  simp [SB.words, SB.ofSyl]
@[simp] theorem SBC.words_readBack (o : SBC) (op : BitVec 7) : opOf (o.words op).1 = op ∧ SBC.ofSyl o.slot (o.words op).1 (o.words op).2 = o := by
  simp [SBC.words, SBC.ofSyl]
@[simp] theorem SLP.words_readBack (o : SLP) (op : BitVec 7) : opOf (o.words op).1 = op ∧ SLP.ofSyl o.slot (o.words op).1 (o.words op).2 = o := by
  simp [SLP.words, SLP.ofSyl]
@[simp] theorem SN.words_readBack (o : SN) (op : BitVec 7) : opOf (o.words op).1 = op ∧ SN.ofSyl o.slot (o.words op).1 (o.words op).2 = o := by
  simp [SN.words, SN.ofSyl]
@[simp] theorem SJ.words_readBack (o : SJ) (op : BitVec 7) : opOf (o.words op).1 = op ∧ SJ.ofSyl o.slot (o.words op).1 (o.words op).2 = o := by
  simp [SJ.words, SJ.ofSyl]
@[simp] theorem SRRB.words_readBack (o : SRRB) (op : BitVec 7) : opOf (o.words op).1 = op ∧ SRRB.ofSyl o.slot (o.words op).1 (o.words op).2 = o := by
  simp [SRRB.words, SRRB.ofSyl]
@[simp] theorem SWT.words_readBack (o : SWT) (op : BitVec 7) : opOf (o.words op).1 = op ∧ SWT.ofSyl o.slot (o.words op).1 (o.words op).2 = o := by
  simp [SWT.words, SWT.ofSyl]
@[simp] theorem SWR.words_readBack (o : SWR) (op : BitVec 7) : opOf (o.words op).1 = op ∧ SWR.ofSyl o.slot (o.words op).1 (o.words op).2 = o := by
  simp [SWR.words, SWR.ofSyl]
@[simp] theorem STR.words_readBack (o : STR) (op : BitVec 7) : opOf (o.words op).1 = op ∧ STR.ofSyl o.slot (o.words op).1 (o.words op).2 = o := by
  simp [STR.words, STR.ofSyl]
@[simp] theorem SRF.words_readBack (o : SRF) (op : BitVec 7) : opOf (o.words op).1 = op ∧ SRF.ofSyl o.slot (o.words op).1 (o.words op).2 = o := by
  simp [SRF.words, SRF.ofSyl]
@[simp] theorem VOp.words_readBack (o : VOp) (op : BitVec 7) : opOf (o.words op).1 = op ∧ VOp.ofSyl o.slot (o.words op).1 (o.words op).2 = o := by
  simp [VOp.words, VOp.ofSyl]
@[simp] theorem FA.words_readBack (o : FA) (op : BitVec 7) : opOf (o.words op).1 = op ∧ FA.ofSyl (o.words op).1 (o.words op).2 = o := by
  simp [FA.words, FA.ofSyl]
@[simp] theorem FCp.words_readBack (o : FCp) (op : BitVec 7) : opOf (o.words op).1 = op ∧ FCp.ofSyl (o.words op).1 (o.words op).2 = o := by
  simp [FCp.words, FCp.ofSyl]
@[simp] theorem DA.words_readBack (o : DA) (op : BitVec 7) : opOf (o.words op).1 = op ∧ DA.ofSyl o.slot (o.words op).1 (o.words op).2 = o := by
  simp [DA.words, DA.ofSyl]
@[simp] theorem DT.words_readBack (o : DT) (op : BitVec 7) : opOf (o.words op).1 = op ∧ DT.ofSyl o.slot (o.words op).1 (o.words op).2 = o := by
  simp [DT.words, DT.ofSyl]
@[simp] theorem DM.words_readBack (o : DM) (op : BitVec 7) : opOf (o.words op).1 = op ∧ DM.ofSyl o.slot (o.words op).1 (o.words op).2 = o := by
  simp [DM.words, DM.ofSyl]
@[simp] theorem DF.words_readBack (o : DF) (op : BitVec 7) : opOf (o.words op).1 = op ∧ DF.ofSyl o.slot (o.words op).1 (o.words op).2 = o := by
  simp [DF.words, DF.ofSyl]
@[simp] theorem DL.words_readBack (o : DL) (op : BitVec 7) : opOf (o.words op).1 = op ∧ DL.ofSyl o.slot (o.words op).1 (o.words op).2 = o := by
  simp [DL.words, DL.ofSyl]
@[simp] theorem DW.words_readBack (o : DW) (op : BitVec 7) : opOf (o.words op).1 = op ∧ DW.ofSyl o.slot (o.words op).1 (o.words op).2 = o := by
  simp [DW.words, DW.ofSyl]
@[simp] theorem MRow.words_readBack (o : MRow) (op : BitVec 7) : opOf (o.words op).1 = op ∧ MRow.ofSyl (o.words op).1 (o.words op).2 = o := by
  simp [MRow.words, MRow.ofSyl]
@[simp] theorem MDrain.words_readBack (o : MDrain) (op : BitVec 7) : opOf (o.words op).1 = op ∧ MDrain.ofSyl (o.words op).1 (o.words op).2 = o := by
  simp [MDrain.words, MDrain.ofSyl]
@[simp] theorem MLd.words_readBack (o : MLd) (op : BitVec 7) : opOf (o.words op).1 = op ∧ MLd.ofSyl (o.words op).1 (o.words op).2 = o := by
  simp [MLd.words, MLd.ofSyl]
@[simp] theorem MKat.words_readBack (o : MKat) (op : BitVec 7) : opOf (o.words op).1 = op ∧ MKat.ofSyl (o.words op).1 (o.words op).2 = o := by
  simp [MKat.words, MKat.ofSyl]
@[simp] theorem MChk.words_readBack (o : MChk) (op : BitVec 7) : opOf (o.words op).1 = op ∧ MChk.ofSyl (o.words op).1 (o.words op).2 = o := by
  simp [MChk.words, MChk.ofSyl]
@[simp] theorem KLd.words_readBack (o : KLd) (op : BitVec 7) : opOf (o.words op).1 = op ∧ KLd.ofSyl (o.words op).1 (o.words op).2 = o := by
  simp [KLd.words, KLd.ofSyl]
@[simp] theorem KSet.words_readBack (o : KSet) (op : BitVec 7) : opOf (o.words op).1 = op ∧ KSet.ofSyl (o.words op).1 (o.words op).2 = o := by
  simp [KSet.words, KSet.ofSyl]
@[simp] theorem KMov.words_readBack (o : KMov) (op : BitVec 7) : opOf (o.words op).1 = op ∧ KMov.ofSyl (o.words op).1 (o.words op).2 = o := by
  simp [KMov.words, KMov.ofSyl]
@[simp] theorem EOp.words_readBack (o : EOp) (op : BitVec 7) : opOf (o.words op).1 = op ∧ EOp.ofSyl (o.words op).1 (o.words op).2 = o := by
  simp [EOp.words, EOp.ofSyl]

/-! ## The opcode maps read back what was encoded (R44 to R54) -/

theorem parse_sslot (sl : SSlot) (w : Syl) (x : Option Syl) : parse sl.slot w x = parseS sl w x := by cases sl <;> rfl
theorem parse_vslot (sl : VSlot) (w : Syl) (x : Option Syl) : parse sl.slot w x = parseV sl w x := by cases sl <;> rfl
theorem parse_dslot (sl : DSlot) (w : Syl) (x : Option Syl) : parse sl.slot w x = parseD sl w x := by cases sl <;> rfl

/-- Bits of OPT select among engine forms of one opcode. -/
@[simp] theorem EOp.getElem_words (o : EOp) (op : BitVec 7) {k : Nat} (hk : k < 32) (h : k < 7) : (o.words op).1[k] = o.opt[k] := by
  have h20 : k < 20 := by omega
  rw [← BitVec.getLsbD_eq_getElem h]
  exact (getElem_frame _ _ _ _ hk h20).trans (getElem_append_below _ o.opt h20 h)
/-- Bit 4 of IMM19 tells almw of a length from almw of a slot. -/
theorem EOp.imm_words (o : EOp) (op : BitVec 7) : ((o.words op).2.getD 0).getLsbD 4 = o.ext.imm.getLsbD 4 := by
  cases hx : o.x <;> simp [EOp.words, EOp.ext, EExt.syl, hx]
theorem getLsbD_four_of_lt {n : Nat} {v : BitVec n} (h : v.toNat < 32) : v.getLsbD 4 = decide (16 ≤ v.toNat) := by
  rw [BitVec.getLsbD, Nat.testBit_eq_decide_div_mod_eq]
  exact decide_eq_decide.mpr (by omega)

/-- Words that read back an opcode and its fields are parsed as the instruction that the map has at the opcode. -/
theorem parse_of_readBack {α : Type} {C : α → Instr} {read : Syl → Option Syl → α} {p : Words} {op : BitVec 7} {o : α} {sl : Slot}
    (h : opOf p.1 = op ∧ read p.1 p.2 = o) (hC : opOf p.1 = op → parse sl p.1 p.2 = some (C (read p.1 p.2))) :
    parse sl p.1 p.2 = some (C o) := by
  obtain ⟨hop, hread⟩ := h
  rw [hC hop, hread]

open Machine in
/-- The maps invert the encoder: layout by layout, then the opcodes that several instructions share. -/
theorem parse_encode {i : Instr} {sl : Slot} {p : Words} (hwf : i.wf = true) (hs : slotOf i = some sl) (he : encode i = some p) :
    parse sl p.1 p.2 = some i := by
  cases i with
  | add o | sub o | mul o | mulh o | mulhn o | div o | divn o | rem o | remn o | and o | or o | xor o | andn o | shl o | shr o | sar o
    | rotl o | min o | max o | minn o | maxn o | clz o | ctz o | popc o | sext o | zext o | lea o | sel o | fadd o | fsub o | fmul o
    | fma o | fmin o | fmax o | fcvt o | idr o | cp o | ovtLd o =>
    cases hs; cases he; exact parse_of_readBack (SR.words_readBack o _) (fun h => by rw [parse_sslot, parseS, h]; rfl)
  | bfx o | bfi o | csrr o | csrw o | csrx o =>
    cases hs; cases he; exact parse_of_readBack (SRX.words_readBack o _) (fun h => by rw [parse_sslot, parseS, h]; rfl)
  | addi o | andi o | ori o | xori o | shli o | shri o | sari o =>
    cases hs; cases he; exact parse_of_readBack (SI.words_readBack o _) (fun h => by rw [parse_sslot, parseS, h]; rfl)
  | li o | lih o =>
    cases hs; cases he; exact parse_of_readBack (SL.words_readBack o _) (fun h => by rw [parse_sslot, parseS, h]; rfl)
  | cmp o | fcmp o =>
    cases hs; cases he; exact parse_of_readBack (SC.words_readBack o _) (fun h => by rw [parse_sslot, parseS, h]; rfl)
  | pset o | pand o | por o | pnot o =>
    cases hs; cases he; exact parse_of_readBack (SP.words_readBack o _) (fun h => by rw [parse_sslot, parseS, h]; rfl)
  | br o | call o =>
    cases hs; cases he; exact parse_of_readBack (SB.words_readBack o _) (fun h => by rw [parse_sslot, parseS, h]; rfl)
  | bc o =>
    cases hs; cases he; exact parse_of_readBack (SBC.words_readBack o _) (fun h => by rw [parse_sslot, parseS, h]; rfl)
  | ret o | nop o | halt o | yield o =>
    cases hs; cases he; exact parse_of_readBack (SN.words_readBack o _) (fun h => by rw [parse_sslot, parseS, h]; rfl)
  | jr o =>
    cases hs; cases he; exact parse_of_readBack (SJ.words_readBack o _) (fun h => by rw [parse_sslot, parseS, h]; rfl)
  | loop o | lbrk o =>
    cases hs; cases he; exact parse_of_readBack (SLP.words_readBack o _) (fun h => by rw [parse_sslot, parseS, h]; rfl)
  | rrbSet o | rrbClr o =>
    cases hs; cases he; exact parse_of_readBack (SRRB.words_readBack o _) (fun h => by rw [parse_sslot, parseS, h]; rfl)
  | trap o =>
    cases hs; cases he; exact parse_of_readBack (STR.words_readBack o _) (fun h => by rw [parse_sslot, parseS, h]; rfl)
  | rfe o =>
    cases hs; cases he; exact parse_of_readBack (SRF.words_readBack o _) (fun h => by rw [parse_sslot, parseS, h]; rfl)
  | vadd o | vsub o | vmul o | vfma o | vfms o | vfnma o | vmin o | vmax o | vabs o | vneg o | vsatadd o | vsatsub o | vclamp o | vdot4 o
    | vand o | vor o | vxor o | vandn o | vnot o | vshl o | vshr o | vsar o | vcmp o | vsel o | vmov o | vbcast o | viota o | vcvt o
    | vpack o | vunpack o | vperm o | vshuf o | vslide o | vcompress o | vexpand o | vredadd o | vredmax o | vredmin o | vscanAdd o
    | vscanMax o | vsegscan o | vcp o | mand o | mor o | mnot o | mpopc o =>
    cases hs; cases he; exact parse_of_readBack (VOp.words_readBack o _) (fun h => by rw [parse_vslot, parseV, h]; rfl)
  | sfrcp o | sfrsq o | sfrcpr o | sfrsqr o | sfexp2 o | sflog2 o | sfsin o | sfcos o | sftanh o | sfsigm o | sferf o | sfsqrt o | sfdiv o =>
    cases hs; cases he; exact parse_of_readBack (FA.words_readBack o _) (fun h => by rw [parse, parseF, h]; rfl)
  | sfcp o =>
    cases hs; cases he; exact parse_of_readBack (FCp.words_readBack o _) (fun h => by rw [parse, parseF, h]; rfl)
  | ldv o | stv o | lds o | sts o | ldb o | gth o | sct o | ldg o | stg o =>
    cases hs; cases he; exact parse_of_readBack (DA.words_readBack o _) (fun h => by rw [parse_dslot, parseD, h]; rfl)
  | ldt o | stt o | ldtp o =>
    cases hs; cases he; exact parse_of_readBack (DT.words_readBack o _) (fun h => by rw [parse_dslot, parseD, h]; rfl)
  | aadd o | amin o | amax o | aminn o | amaxn o | aand o | aor o | axor o | aswp o | acas o | afadd o | afmax o =>
    cases hs; cases he; exact parse_of_readBack (DM.words_readBack o _) (fun h => by rw [parse_dslot, parseD, h]; rfl)
  | fence o =>
    cases hs; cases he; exact parse_of_readBack (DF.words_readBack o _) (fun h => by rw [parse_dslot, parseD, h]; rfl)
  | l2pin o | l2unpin o | l2inv o =>
    cases hs; cases he; exact parse_of_readBack (DL.words_readBack o _) (fun h => by rw [parse_dslot, parseD, h]; rfl)
  | wwait o =>
    cases hs; cases he; exact parse_of_readBack (DW.words_readBack o _) (fun h => by rw [parse_dslot, parseD, h]; rfl)
  | mzero o | mlat o | mma o | mter o =>
    cases hs; cases he; exact parse_of_readBack (MRow.words_readBack o _) (fun h => by rw [parse, parseM, h]; rfl)
  | mdrain o =>
    cases hs; cases he; exact parse_of_readBack (MDrain.words_readBack o _) (fun h => by rw [parse, parseM, h]; rfl)
  | maccLd o =>
    cases hs; cases he; exact parse_of_readBack (MLd.words_readBack o _) (fun h => by rw [parse, parseM, h]; rfl)
  | mkat o =>
    cases hs; cases he; exact parse_of_readBack (MKat.words_readBack o _) (fun h => by rw [parse, parseM, h]; rfl)
  | mchk o =>
    cases hs; cases he; exact parse_of_readBack (MChk.words_readBack o _) (fun h => by rw [parse, parseM, h]; rfl)
  | kld o =>
    cases hs; cases he; exact parse_of_readBack (KLd.words_readBack o _) (fun h => by rw [parse, parseK, h]; rfl)
  | kset o =>
    cases hs; cases he; exact parse_of_readBack (KSet.words_readBack o _) (fun h => by rw [parse, parseK, h]; rfl)
  | kmov o =>
    cases hs; cases he; exact parse_of_readBack (KMov.words_readBack o _) (fun h => by rw [parse, parseK, h]; rfl)
  | cpy o | amsg o | taskPost o | taskDec o | clbar o | chbar o | fork o | spawn o | join o | revSt o | flowMode o | slk o | coll o
    | esend o | erel o | eprobe o | gbar o =>
    cases hs; cases he; exact parse_of_readBack (EOp.words_readBack o _) (fun h => by rw [parse, parseE, h]; rfl)
  | wait o =>
    cases hs; cases he
    have h15 : ¬ (o.words 0x4B).1.getLsbD 15 = true := by simp [SWT.words]
    exact parse_of_readBack (SWT.words_readBack o _) (fun h => by rw [parse_sslot, parseS, h]; exact if_neg h15)
  | waitReg o =>
    cases hs; cases he
    have h15 : (o.words 0x4B).1.getLsbD 15 = true := by simp [SWR.words]
    exact parse_of_readBack (SWR.words_readBack o _) (fun h => by rw [parse_sslot, parseS, h]; exact if_pos h15)
  | ecntAdd o =>
    cases hs; cases he
    have h0 : ¬ (o.words 0x04).1.getLsbD 0 = true := by simp_all [Instr.wf]
    exact parse_of_readBack (EOp.words_readBack o _) (fun h => by rw [parse, parseE, h]; exact if_neg h0)
  | ecntSet o =>
    cases hs; cases he
    have h0 : (o.words 0x04).1.getLsbD 0 = true := by simp_all [Instr.wf]
    exact parse_of_readBack (EOp.words_readBack o _) (fun h => by rw [parse, parseE, h]; exact if_pos h0)
  | xtloadFull o =>
    cases hs; cases he
    have h1 : ¬ (o.words 0x20).1.getLsbD 1 = true := by simp_all [Instr.wf]
    have h0 : ¬ (o.words 0x20).1.getLsbD 0 = true := by simp_all [Instr.wf]
    exact parse_of_readBack (EOp.words_readBack o _) (fun h => by rw [parse, parseE, h]; exact (if_neg h1).trans (if_neg h0))
  | xtloadEntry o =>
    cases hs; cases he
    have h1 : ¬ (o.words 0x20).1.getLsbD 1 = true := by simp_all [Instr.wf]
    have h0 : (o.words 0x20).1.getLsbD 0 = true := by simp_all [Instr.wf]
    exact parse_of_readBack (EOp.words_readBack o _) (fun h => by rw [parse, parseE, h]; exact (if_neg h1).trans (if_pos h0))
  | xtloadPage o =>
    cases hs; cases he
    have hopt : o.opt = 2 ∨ o.opt = 6 := by simp_all [Instr.wf]
    have h1 : (o.words 0x20).1.getLsbD 1 = true := by rcases hopt with h | h <;> simp [h]
    exact parse_of_readBack (EOp.words_readBack o _) (fun h => by rw [parse, parseE, h]; exact if_pos h1)
  | almw o =>
    cases hs; cases he
    have hlt : o.ext.imm.toNat < 16 := by simp_all [Instr.wf]
    have h4 : ¬ ((o.words 0x22).2.getD 0).getLsbD 4 = true := by
      rw [EOp.imm_words, getLsbD_four_of_lt (by omega), decide_eq_true_eq]
      omega
    exact parse_of_readBack (EOp.words_readBack o _) (fun h => by rw [parse, parseE, h]; exact if_neg h4)
  | almwLen o =>
    cases hs; cases he
    have hle : 16 ≤ o.ext.imm.toNat ∧ o.ext.imm.toNat < 32 := by simp_all [Instr.wf]
    have h4 : ((o.words 0x22).2.getD 0).getLsbD 4 = true := by
      rw [EOp.imm_words, getLsbD_four_of_lt hle.2, decide_eq_true_eq]
      exact hle.1
    exact parse_of_readBack (EOp.words_readBack o _) (fun h => by rw [parse, parseE, h]; exact if_pos h4)
  | migCtlStart o =>
    cases hs; cases he
    have h0 : ¬ (o.words 0x23).1.getLsbD 0 = true := by simp_all [Instr.wf]
    exact parse_of_readBack (EOp.words_readBack o _) (fun h => by rw [parse, parseE, h]; exact if_neg h0)
  | migCtlDone o =>
    cases hs; cases he
    have h0 : (o.words 0x23).1.getLsbD 0 = true := by simp_all [Instr.wf]
    exact parse_of_readBack (EOp.words_readBack o _) (fun h => by rw [parse, parseE, h]; exact if_pos h0)
  | _ => cases hs

end Sys2Proof

namespace Sys2Proof.Machine

/-! ## Decode of encode (R37, R39 to R56) -/

/-- The operations of a slot have words, and nothing else has. -/
theorem isSome_encode (i : Instr) : (encode i).isSome = (slotOf i).isSome := by
  cases i <;> rfl
/-- The words of a well-formed operation decode to it. -/
theorem decodeSlot_of_encode {i : Instr} {sl : Slot} {w : Syl} {x : Option Syl} (he : encode i = some (w, x)) (hs : slotOf i = some sl)
    (hwf : i.wf = true) : decodeSlot sl w x = .ok i := by
  have hp : parse sl w x = some i := parse_encode (p := (w, x)) hwf hs he
  rw [decodeSlot, hp]
  exact if_pos ⟨he, hwf⟩

/-- Settles O59: the layouts read back their fields, and the maps the instruction. -/
theorem decodeEncode : Obligations.DecodeEncode := by
  unfold Obligations.DecodeEncode
  refine fun i => ⟨fun sl hwf hs => ?_, fun hs => ?none⟩
  case none => simpa [hs] using isSome_encode i
  obtain ⟨⟨w, x⟩, he⟩ := Option.isSome_iff_exists.mp (show (encode i).isSome = true by simp [isSome_encode, hs])
  exact ⟨w, x, he, decodeSlot_of_encode he hs hwf⟩

/-- Settles O60: each word written out is the one that the encoder gives its instruction, so it decodes to it. -/
theorem decodeWords : Obligations.DecodeWords := by
  unfold Obligations.DecodeWords
  dsimp only
  and_intros <;> exact decodeSlot_of_encode rfl rfl rfl

end Sys2Proof.Machine

namespace Sys2Proof.Machine

/-! ## The mode of the acting context (R55, R126) -/

/-- The acting parties stay, and the acting context stays in its mode. -/
def modeKept (s t : State) : Prop := t.sel = s.sel ∧ t.cur.csr.mode = s.cur.csr.mode

theorem modeKept_refl (s : State) : modeKept s s := ⟨rfl, rfl⟩
theorem modeKept.trans {s t u : State} (h : modeKept s t) (h' : modeKept t u) : modeKept s u := ⟨h'.1.trans h.1, h'.2.trans h.2⟩
/-- What leaves every context alone keeps the mode. -/
theorem modeKept_of_ctxs {s t : State} (hsel : t.sel = s.sel) (hctxs : t.ctxs = s.ctxs) : modeKept s t := by
  refine ⟨hsel, ?_⟩
  rw [State.cur, State.cur, State.ctx, State.ctx, hsel, hctxs]
theorem modeKept_updCtx (s : State) (w : Who) {f : Ctx → Ctx} (hf : ∀ c, (f c).csr.mode = c.csr.mode) : modeKept s (s.updCtx w f) := by
  refine ⟨rfl, ?_⟩
  show ((s.updCtx w f).ctx s.sel.who).csr.mode = (s.ctx s.sel.who).csr.mode
  rw [State.ctx_updCtx]
  split
  case isTrue h => rw [hf, h]
  case isFalse => rfl
theorem modeKept_upd (s : State) {f : Ctx → Ctx} (hf : ∀ c, (f c).csr.mode = c.csr.mode) : modeKept s (s.upd f) := modeKept_updCtx s _ hf
theorem modeKept_ite {b : Prop} [Decidable b] {s t u : State} (ht : modeKept s t) (hu : modeKept s u) : modeKept s (if b then t else u) := by
  split
  · exact ht
  · exact hu
theorem modeKept_foldl {α : Type} {f : State → α → State} (hf : ∀ s a, modeKept s (f s a)) : ∀ (l : List α) (s : State), modeKept s (l.foldl f s)
  | [], s => modeKept_refl s
  | a :: r, s => (hf s a).trans (modeKept_foldl hf r (f s a))
theorem onlyFlight_modeKept {s t : State} (h : onlyFlight s t) : modeKept s t := by
  obtain ⟨hctx, hcur, _⟩ := h
  exact ⟨onlyCtx_sel hctx, by rw [hcur]⟩
theorem onlyFlightAndNext_modeKept {s t : State} (h : onlyFlightAndNext s t) : modeKept s t := by
  obtain ⟨hctx, hcur, _⟩ := h
  exact ⟨onlyCtx_sel hctx, by rw [hcur]⟩

/-! ### Operations that every class of slots uses -/

theorem land_modeKept (s : State) (d : Dest) (v en : BitVec 4096) (lat : Nat) (fl : Flags) : modeKept s (s.land d v en lat fl) :=
  modeKept_upd s (fun _ => rfl)
theorem noteSrc_modeKept (s : State) (l : List PoolSrc) : modeKept s (s.noteSrc l) := modeKept_upd s (fun _ => rfl)
theorem leaveCore_modeKept (s : State) (w : Who) : modeKept s (leaveCore s w) := modeKept_of_ctxs rfl rfl
theorem blockOn_modeKept (s : State) (b : BlockCause) : modeKept s (blockOn s b) :=
  (leaveCore_modeKept s _).trans (modeKept_upd _ (fun _ => rfl))
theorem stallCycle_modeKept (s : State) : modeKept s (stallCycle s) :=
  (modeKept_of_ctxs rfl rfl : modeKept s (s.updCore s.sel.who.coreId _)).trans (modeKept_upd _ (fun _ => rfl))
theorem setBusy_modeKept (s : State) (e : Elem) (id : Nat) (core : Bool) : modeKept s (setBusy s e id core) := modeKept_upd s (fun _ => rfl)
theorem setBusy_all_modeKept (l : List Elem) (id : Nat) (core : Bool) (s : State) : modeKept s (l.foldl (fun s e => setBusy s e id core) s) :=
  modeKept_foldl (fun s e => setBusy_modeKept s e id core) l s
theorem fresh_modeKept (s : State) : modeKept s s.fresh := modeKept_of_ctxs rfl rfl
theorem setCC_modeKept (s : State) (n : Nat) (f : BitVec 32 → BitVec 32) : modeKept s (s.upd (fun c => c.setCC n f)) :=
  modeKept_upd s (fun _ => rfl)

/-! ### Scalar forms (R122 to R135) -/

theorem endTask_modeKept (s : State) (w : Who) : modeKept s (endTask s w) := ⟨endTask_sel s w, by rw [State.cur, State.cur, endTask_sel, endTask_ctx]⟩
theorem enterHalt_modeKept (s : State) (w : Who) : modeKept s (enterHalt s w) :=
  ((endTask_modeKept s w).trans (leaveCore_modeKept _ w)).trans (modeKept_updCtx _ w (fun _ => rfl))
theorem waitOn_modeKept (cc : Nat) (thr : BitVec 32) (s : State) : modeKept s (waitOn cc thr s) := by
  unfold waitOn
  split
  · exact blockOn_modeKept s _
  · exact setCC_modeKept s _ _
theorem csrWrite_modeKept (o : SRX) (s : State) : modeKept s (csrWrite o s) := by
  unfold csrWrite
  split
  · exact modeKept_refl s
  · exact land_modeKept s _ _ _ _ _

/-! ### Accesses to memory (R164 to R185) -/

theorem clampCount_modeKept (s : State) (ord : Bool) (sc : BitVec 3) : modeKept s (clampCount s ord sc) :=
  modeKept_ite (modeKept_upd s (fun _ => rfl)) (modeKept_refl s)
theorem daClamp_modeKept (o : DA) (s : State) : modeKept s (daClamp o s) := by
  unfold daClamp
  split
  · exact clampCount_modeKept s _ _
  · exact modeKept_refl s
theorem dtClamp_modeKept (o : DT) (s : State) : modeKept s (dtClamp o s) := by
  unfold dtClamp
  split
  · exact clampCount_modeKept s _ _
  · exact modeKept_refl s
theorem poolPoison_modeKept (s : State) (slot a n : Nat) : modeKept s (poolPoison s slot a n) :=
  modeKept_ite (modeKept_upd s (fun _ => rfl)) (modeKept_refl s)
theorem noteLoad_modeKept (s : State) (lat : Nat) (acq : Bool) : modeKept s (noteLoad s lat acq) := modeKept_upd s (fun _ => rfl)
theorem numberPkt_modeKept (s : State) (p : Pkt) : modeKept s (numberPkt s p).1 := modeKept_updCtx s _ (fun _ => rfl)
theorem fixLoads_modeKept (s : State) : modeKept s (s.upd Ctx.fixLoads) := modeKept_upd s (fun _ => rfl)
theorem issuePkt_modeKept (s : State) (p : Pkt) (held : Bool) : modeKept s (issuePkt s p held) := by
  have hfix : modeKept s (s.fresh.upd Ctx.fixLoads) := (fresh_modeKept s).trans (fixLoads_modeKept _)
  refine modeKept_ite (hfix.trans (modeKept_of_ctxs rfl rfl)) ?_
  exact (hfix.trans (numberPkt_modeKept _ p)).trans (modeKept_of_ctxs rfl rfl)
theorem performPool_modeKept (s : State) (p : Pkt) : modeKept s (performPool s p) := modeKept_of_ctxs (performPool_sel s p) (performPool_ctxs s p)
theorem settle_modeKept (s : State) : modeKept s s.settle :=
  ⟨settle_sel s, by rw [State.cur, State.cur, settle_sel, settle_ctx]⟩
theorem scratchLoad_modeKept (o : DA) (s : State) (a n lat : Nat) (val : List Byte → Nat) (en : BitVec 4096) :
    modeKept s (scratchLoad o s a n lat val en) := by
  have hland := (daClamp_modeKept o s).trans (land_modeKept _ (s.fileReg o.fc o.dreg) (BitVec.ofNat 4096 (val (scratchRead s s.sel.who a n))) en lat 0)
  exact ((modeKept_ite hland (hland.trans (noteSrc_modeKept _ _))).trans (noteLoad_modeKept _ _ _)).trans (poolPoison_modeKept _ _ _ _)
theorem scratchStore_modeKept (o : DA) (s : State) (w : List (Nat × List Byte)) : modeKept s (scratchStore o s w) := by
  have hfix : modeKept s ((daClamp o s).upd Ctx.fixLoads) := (daClamp_modeKept o s).trans (fixLoads_modeKept _)
  unfold scratchStore
  refine modeKept_ite (hfix.trans (modeKept_of_ctxs rfl rfl)) (modeKept_ite (modeKept_ite ?_ ?_) (hfix.trans (modeKept_of_ctxs rfl rfl)))
  · exact hfix.trans (modeKept_of_ctxs (pokeAll_sel _ _ _) (pokeAll_ctxs _ _ _))
  · exact (hfix.trans (modeKept_of_ctxs rfl rfl)).trans (performPool_modeKept _ _)
theorem takeWindow_modeKept (s : State) (n : Nat) : modeKept s (takeWindow s n) := modeKept_upd s (fun _ => rfl)
theorem windowStore_modeKept (o : DA) (s : State) (a : Nat) : modeKept s (windowStore o s a) :=
  (((daClamp_modeKept o s).trans (takeWindow_modeKept _ _)).trans (issuePkt_modeKept _ _ _)).trans (settle_modeKept _)
theorem atomicIssue_modeKept (o : DM) (f : Nat) (s : State) : modeKept s (atomicIssue o f s) := by
  unfold atomicIssue
  refine modeKept.trans (modeKept.trans ?_ (setBusy_modeKept _ _ _ _)) ((issuePkt_modeKept _ _ _).trans (settle_modeKept _))
  split
  · exact clampCount_modeKept s _ _
  · exact modeKept_refl s
theorem startXfer_modeKept (o : DT) (out : Bool) (s : State) : modeKept s (startXfer o out s) :=
  ((fresh_modeKept s).trans (setBusy_modeKept _ _ _ _)).trans (modeKept_of_ctxs rfl rfl)
theorem issueLines_modeKept (o : DT) (xfer : Nat) (op : Nat → AccOp) (bad : Nat → Bool) (held : Bool) (s : State) (l : List (Nat × Nat)) :
    modeKept s (issueLines o xfer op bad held s l) := modeKept_foldl (fun _ _ => issuePkt_modeKept _ _ _) l s

/-! ### Forms that wait in queues (R192, R207) -/

theorem mEnqueue_modeKept (i : Instr) (elems : List Elem) (ka kb : BitVec 4096) (s : State) : modeKept s (mEnqueue i elems ka kb s) := by
  have howed (u : State) : modeKept u (u.upd (fun c =>
      { c with owedA := c.owedA + (claims i).1, owedB := c.owedB + (claims i).2 })) := modeKept_upd u (fun _ => rfl)
  have hbusy := (fresh_modeKept s).trans (setBusy_all_modeKept elems s.nextId true _)
  exact (hbusy.trans (howed _)).trans (modeKept_of_ctxs rfl rfl)
theorem enter_modeKept (s : State) (e : RingEntry) : modeKept s (s.upd (fun c => c.enter e)) := by
  refine modeKept_upd s (fun c => ?_)
  unfold Ctx.enter
  split
  · rfl
  · split <;> rfl
theorem numberCmd_modeKept (s : State) (w : Who) (k : ECmd) : modeKept s (numberCmd s w k).1 := by
  unfold numberCmd
  split
  · exact modeKept_refl s
  · exact modeKept_updCtx s w (fun _ => rfl)
theorem sendE_modeKept (d : Dest) (k : ECmd) (s : State) : modeKept s (sendE d k s) := by
  have howe : modeKept s ((s.fresh.upd Ctx.fixLoads).upd (fun c => if d = .none then c else c.owe d k.id s.t)) :=
    ((fresh_modeKept s).trans (fixLoads_modeKept _)).trans (modeKept_upd _ (fun c => by split <;> rfl))
  refine modeKept_ite (howe.trans (modeKept_upd _ (fun _ => rfl))) ?_
  exact (howe.trans (numberCmd_modeKept _ _ _)).trans (enter_modeKept _ _)

/-! ### Traps (R126, R133) -/

/-- What a step promises of a context that was in user mode: it still is, or a trap has taken it to TVEC. -/
def userHeld (s t : State) : Prop :=
  t.cur.csr.mode = false ∨ (t.cur.trap.valid = true ∧ t.cur.csr.pmode = false ∧ t.cur.pc = s.cur.tvecAt s.t s.free &&& ~~~3#64)

theorem userHeld_of_modeKept {s t : State} (hm : s.cur.csr.mode = false) (h : modeKept s t) : userHeld s t := .inl (h.2.trans hm)
theorem shiftRight_shiftLeft_two (v : BitVec 64) : (v >>> 2) <<< 2 = v &&& ~~~3#64 := by
  rw [BitVec.shiftLeft_ushiftRight]
  rfl
theorem record_csr (c : Ctx) (t free : Nat) (a : TrapArgs) : (c.record t free a).csr = c.csr := by
  unfold Ctx.record
  split <;> rfl
theorem record_valid {c : Ctx} {t free : Nat} (h : c.validAt t free = false) (a : TrapArgs) : (c.record t free a).trap.valid = true := by
  rw [Ctx.record, h]
  rfl
theorem trapFreeze_mode (s : State) (w : Who) (a : TrapArgs) : ((trapFreeze s w a).ctx w).csr.mode = (s.ctx w).csr.mode := by
  rw [trapFreeze_ctx]
  exact congrArg Csr.mode (record_csr _ _ _ a)
theorem releaseHolds_mode (s : State) (w v : Who) (r : Bool) : ((releaseHolds s w r).ctx v).csr.mode = (s.ctx v).csr.mode := by
  obtain ⟨holds, rabt, hctx⟩ := releaseHolds_ctx s w v r
  rw [hctx]
theorem dropBuffered_mode (s : State) (w : Who) : ((dropBuffered s w).ctx w).csr.mode = (s.ctx w).csr.mode := by
  obtain ⟨avail, hctx⟩ := dropBuffered_ctx_same s w
  rw [hctx]
theorem trapTerminal_mode (s : State) (w : Who) (a : TrapArgs) : ((trapTerminal s w a).ctx w).csr.mode = (s.ctx w).csr.mode := by
  unfold trapTerminal
  rw [fileFault_ctx, releaseHolds_mode, leaveCore_ctx, State.ctx_updCtx_same]
  refine (congrArg Csr.mode (record_csr _ _ _ a)).trans ?_
  rw [dropClosing_ctx, dropBuffered_mode, endTask_ctx]
theorem takeTrap_userHeld {s : State} (hm : s.cur.csr.mode = false) (a : TrapArgs) : userHeld s (takeTrap s s.sel.who a) := by
  have hcur : (takeTrap s s.sel.who a).cur = (takeTrap s s.sel.who a).ctx s.sel.who := by rw [State.cur, takeTrap_sel]
  rw [userHeld, hcur, takeTrap]
  split
  · exact .inl ((trapFreeze_mode s _ a).trans hm)
  · split
    case isTrue hv =>
      have hvalid : s.cur.validAt s.t s.free = false := by
        simp only [State.vectored, Bool.and_eq_true, Bool.not_eq_true'] at hv
        obtain ⟨⟨_, hvalid⟩, _⟩ := hv
        exact hvalid
      rw [trapVector_ctx]
      exact .inr ⟨record_valid hvalid a, hm, shiftRight_shiftLeft_two _⟩
    case isFalse => exact .inl ((trapTerminal_mode s _ a).trans hm)
theorem raiseTrap_userHeld {s : State} (hm : s.cur.csr.mode = false) (a : TrapArgs) : userHeld s (raiseTrap s a) := by
  unfold raiseTrap
  dsimp only
  split
  · exact userHeld_of_modeKept hm (modeKept_upd s (fun _ => rfl))
  · rw [userHeld, State.cur_upd]
    exact takeTrap_userHeld hm a

/-! ### Operations under their guard -/

/-- An operation that faults on nothing keeps the mode when its effect does. -/
theorem guarded_userHeld {sl : Slot} {g : Guard} {s t : State} {f : State → State} (he : guarded sl g s f = .next t)
    (hm : s.cur.csr.mode = false) (hf : modeKept s (f s)) : userHeld s t := by
  cases he
  exact userHeld_of_modeKept hm (modeKept_ite hf (modeKept_refl s))
/-- One that may fault traps in place of its effect. -/
theorem guardedFault_userHeld {sl : Slot} {g : Guard} {s t : State} {flt : Option TrapArgs} {f : State → State}
    (he : guardedFault sl g s flt f = .next t) (hm : s.cur.csr.mode = false) (hf : flt = none → modeKept s (f s)) : userHeld s t := by
  cases he
  split
  · cases flt with
    | some a => exact raiseTrap_userHeld hm a
    | none => exact userHeld_of_modeKept hm (hf rfl)
  · exact userHeld_of_modeKept hm (modeKept_refl s)

theorem execHalt_userHeld {o : SN} {s t : State} (he : execHalt o s = .next t) (hm : s.cur.csr.mode = false) : userHeld s t :=
  guarded_userHeld he hm (modeKept_ite (modeKept_upd s (fun _ => rfl)) (enterHalt_modeKept s _))
theorem execYield_userHeld {o : SN} {s t : State} (he : execYield o s = .next t) (hm : s.cur.csr.mode = false) : userHeld s t :=
  guarded_userHeld he hm (modeKept_ite (modeKept_refl s) ((leaveCore_modeKept s _).trans (modeKept_upd _ (fun _ => rfl))))
/-- The repeat count that trap takes off is nothing the delivery of its trap reads. -/
theorem execTrap_userHeld {o : STR} {s t : State} (he : execTrap o s = .next t) (hm : s.cur.csr.mode = false) : userHeld s t := by
  cases he
  split
  · have hcur := State.cur_upd s (fun c => { c with rep := c.rep - 1, repOn := decide (0 < c.rep) })
    have h := raiseTrap_userHeld (by rw [hcur]; exact hm) (s.issueTrap 0x06 (o.code.setWidth 64) .none)
    rw [userHeld, hcur] at h
    exact h
  · exact userHeld_of_modeKept hm (modeKept_refl s)
/-- In user mode rfe traps (R55). -/
theorem execRfe_userHeld {o : SRF} {s t : State} (he : execRfe o s = .next t) (hm : s.cur.csr.mode = false) : userHeld s t := by
  refine guardedFault_userHeld he hm (fun hnone => ?_)
  rw [rfeFault, hm] at hnone
  cases hnone
theorem execCall_userHeld {o : SB} {s t : State} (he : execCall o s = .next t) (hm : s.cur.csr.mode = false) : userHeld s t := by
  obtain ⟨u, hu, hctx, hcur, _⟩ := execCall_frame o s
  obtain rfl : u = t := Host.Outcome.next.inj (hu.symm.trans he)
  exact userHeld_of_modeKept hm ⟨onlyCtx_sel hctx, by rw [hcur]⟩

theorem execGth_userHeld {o : DA} {s t : State} (he : execGth o s = .next t) (hm : s.cur.csr.mode = false) : userHeld s t := by
  refine guardedFault_userHeld he hm (fun _ => ?_)
  refine modeKept.trans (modeKept_ite ?_ (modeKept.trans ?_ (noteSrc_modeKept _ _))) (modeKept_foldl (fun _ _ => poolPoison_modeKept _ _ _ _) _ _)
  all_goals exact ((daClamp_modeKept o s).trans (land_modeKept _ _ _ _ _ _)).trans (noteLoad_modeKept _ _ _)
theorem execStv_userHeld {o : DA} {s t : State} (he : execStv o s = .next t) (hm : s.cur.csr.mode = false) : userHeld s t :=
  guardedFault_userHeld he hm (fun _ =>
    modeKept_ite (modeKept_ite (blockOn_modeKept s _) (windowStore_modeKept o s _)) (scratchStore_modeKept o s _))
theorem execLdg_userHeld {o : DA} {s t : State} (he : execLdg o s = .next t) (hm : s.cur.csr.mode = false) : userHeld s t :=
  guardedFault_userHeld he hm (fun _ =>
    (((daClamp_modeKept o s).trans (setBusy_modeKept _ _ _ _)).trans (issuePkt_modeKept _ _ _)).trans (settle_modeKept _))
theorem execStg_userHeld {o : DA} {s t : State} (he : execStg o s = .next t) (hm : s.cur.csr.mode = false) : userHeld s t :=
  guardedFault_userHeld he hm (fun _ => ((daClamp_modeKept o s).trans (issuePkt_modeKept _ _ _)).trans (settle_modeKept _))
theorem atomicOp_userHeld {o : DM} {f : Nat} {s t : State} (he : atomicOp o f s = .next t) (hm : s.cur.csr.mode = false) : userHeld s t :=
  guardedFault_userHeld he hm (fun _ => atomicIssue_modeKept o f s)
theorem execLdt_userHeld {o : DT} {s t : State} (he : execLdt o s = .next t) (hm : s.cur.csr.mode = false) : userHeld s t :=
  guardedFault_userHeld he hm (fun _ =>
    (((dtClamp_modeKept o s).trans (startXfer_modeKept o _ _)).trans (issueLines_modeKept o _ _ _ _ _ _)).trans (settle_modeKept _))
theorem execStt_userHeld {o : DT} {s t : State} (he : execStt o s = .next t) (hm : s.cur.csr.mode = false) : userHeld s t := by
  have hstart := (dtClamp_modeKept o s).trans (startXfer_modeKept o true _)
  exact guardedFault_userHeld he hm (fun _ => modeKept_ite (hstart.trans (issueLines_modeKept o _ _ _ _ _ _))
    ((hstart.trans (issueLines_modeKept o _ _ _ _ _ _)).trans (modeKept_of_ctxs rfl rfl)))
theorem execLdtp_userHeld {o : DT} {s t : State} (he : execLdtp o s = .next t) (hm : s.cur.csr.mode = false) : userHeld s t :=
  guardedFault_userHeld he hm (fun _ => ((dtClamp_modeKept o s).trans (issueLines_modeKept o _ _ _ _ _ _)).trans (settle_modeKept _))
theorem l2Issue_userHeld {o : DL} {kind : Nat} {s t : State} (he : l2Issue o kind s = .next t) (hm : s.cur.csr.mode = false) : userHeld s t :=
  guardedFault_userHeld he hm (fun _ => (issuePkt_modeKept s _ _).trans (settle_modeKept _))
theorem mIssue_userHeld {i : Instr} {g : Guard} {elems : List Elem} {ka kb : State → BitVec 4096} {s t : State}
    (he : mIssue i g elems ka kb s = .next t) (hm : s.cur.csr.mode = false) : userHeld s t := by
  refine guarded_userHeld he hm ?_
  split
  · exact blockOn_modeKept s _
  · exact modeKept_ite (stallCycle_modeKept s) (mEnqueue_modeKept i elems _ _ s)
theorem execMdrain_userHeld {o : MDrain} {s t : State} (he : execMdrain o s = .next t) (hm : s.cur.csr.mode = false) : userHeld s t := by
  unfold execMdrain at he
  exact mIssue_userHeld he hm
theorem eIssue_userHeld {o : EOp} {priv : Bool} {op q : Nat} {own : State → Option TrapArgs} {act : State → State} {s t : State}
    (he : eIssue o priv op q own act s = .next t) (hm : s.cur.csr.mode = false) (hact : modeKept s (act s)) : userHeld s t :=
  guardedFault_userHeld he hm (fun _ => modeKept_ite (blockOn_modeKept s _) hact)
theorem ePlain_userHeld {i : Instr} {o : EOp} {d : Dest} {s t : State} (he : ePlain i o d s = .next t) (hm : s.cur.csr.mode = false) :
    userHeld s t := eIssue_userHeld he hm (sendE_modeKept _ _ s)
theorem ePriv_userHeld {i : Instr} {o : EOp} {op : Nat} {s t : State} (he : ePriv i o op s = .next t) (hm : s.cur.csr.mode = false) :
    userHeld s t := eIssue_userHeld he hm (sendE_modeKept _ _ s)
theorem execKld_userHeld {o : KLd} {s t : State} (he : execKld o s = .next t) (hm : s.cur.csr.mode = false) : userHeld s t := by
  refine guardedFault_userHeld he hm (fun _ => modeKept_ite (modeKept.trans ?_ (modeKept_upd _ (fun _ => rfl))) ?_)
  all_goals exact (land_modeKept s _ _ _ _ _).trans (noteSrc_modeKept _ _)
theorem execCpy_userHeld {o : EOp} {s t : State} (he : execCpy o s = .next t) (hm : s.cur.csr.mode = false) : userHeld s t :=
  eIssue_userHeld he hm
    ((((poolPoison_modeKept s _ _ _).trans (fresh_modeKept _)).trans (setBusy_all_modeKept _ _ _ _)).trans (enter_modeKept _ _))
theorem execFlowMode_userHeld {o : EOp} {s t : State} (he : execFlowMode o s = .next t) (hm : s.cur.csr.mode = false) : userHeld s t :=
  eIssue_userHeld he hm ((sendE_modeKept _ _ s).trans (modeKept_upd _ (fun _ => rfl)))
theorem execColl_userHeld {o : EOp} {s t : State} (he : execColl o s = .next t) (hm : s.cur.csr.mode = false) : userHeld s t :=
  eIssue_userHeld he hm (((poolPoison_modeKept s _ _ _).trans (sendE_modeKept _ _ _)).trans (modeKept_of_ctxs rfl rfl))

/-- The operations left beside those of fixed latency and the transfers, each by the shared operation that it is made of. -/
theorem exec_userHeld {i : Instr} {s t : State} (h : (!landsOnly i && !transfersOnly i && (slotGuard i).isSome) = true)
    (hm : s.cur.csr.mode = false) (he : exec i s = .next t) : userHeld s t := by
  cases i with
  | call o => exact execCall_userHeld he hm
  | halt o => exact execHalt_userHeld he hm
  | wait o => exact guarded_userHeld (show execWait o s = _ from he) hm (waitOn_modeKept _ _ s)
  | waitReg o => exact guarded_userHeld (show execWaitReg o s = _ from he) hm (waitOn_modeKept _ (s.waitThr o) s)
  | yield o => exact execYield_userHeld he hm
  | trap o => exact execTrap_userHeld he hm
  | rfe o => exact execRfe_userHeld he hm
  | csrr o => exact guardedFault_userHeld (show execCsrr o s = _ from he) hm (fun _ => land_modeKept s _ _ _ _ _)
  | csrw o => exact guardedFault_userHeld (show execCsrw o s = _ from he) hm (fun _ => csrWrite_modeKept o s)
  | csrx o => exact guardedFault_userHeld (show execCsrx o s = _ from he) hm (fun _ => (csrWrite_modeKept o s).trans (land_modeKept _ _ _ _ _ _))
  | ovtLd o => exact guardedFault_userHeld (show execOvtLd o s = _ from he) hm (fun _ => modeKept_upd s (fun _ => rfl))
  | ldv o => exact guardedFault_userHeld (show execLdv o s = _ from he) hm (fun _ => scratchLoad_modeKept o s _ _ _ _ _)
  | lds o => exact guardedFault_userHeld (show execLds o s = _ from he) hm (fun _ => scratchLoad_modeKept o s _ _ _ _ _)
  | ldb o => exact guardedFault_userHeld (show execLdb o s = _ from he) hm (fun _ => scratchLoad_modeKept o s _ _ _ _ _)
  | sts o => exact guardedFault_userHeld (show execSts o s = _ from he) hm (fun _ => scratchStore_modeKept o s _)
  | sct o => exact guardedFault_userHeld (show execSct o s = _ from he) hm (fun _ => scratchStore_modeKept o s _)
  | gth o => exact execGth_userHeld he hm
  | stv o => exact execStv_userHeld he hm
  | ldg o => exact execLdg_userHeld he hm
  | stg o => exact execStg_userHeld he hm
  | ldt o => exact execLdt_userHeld he hm
  | stt o => exact execStt_userHeld he hm
  | ldtp o => exact execLdtp_userHeld he hm
  | aadd o | amin o | amax o | aminn o | amaxn o | aand o | aor o | axor o | aswp o | acas o | afadd o | afmax o =>
    exact atomicOp_userHeld he hm
  | fence o => exact guarded_userHeld (show execFence o s = _ from he) hm ((clampCount_modeKept s true o.scope).trans (modeKept_upd _ (fun _ => rfl)))
  | l2pin o | l2unpin o | l2inv o => exact l2Issue_userHeld he hm
  | wwait o => exact guarded_userHeld (show execWwait o s = _ from he) hm (modeKept_ite (stallCycle_modeKept s) (modeKept_refl s))
  | mzero o => exact mIssue_userHeld (show execMzero o s = _ from he) hm
  | mlat o => exact mIssue_userHeld (show execMlat o s = _ from he) hm
  | mma o => exact mIssue_userHeld (show execMma o s = _ from he) hm
  | mter o => exact mIssue_userHeld (show execMter o s = _ from he) hm
  | mdrain o => exact execMdrain_userHeld he hm
  | maccLd o => exact mIssue_userHeld (show execMaccLd o s = _ from he) hm
  | mkat o => exact mIssue_userHeld (show execMkat o s = _ from he) hm
  | mchk o => exact mIssue_userHeld (show execMchk o s = _ from he) hm
  | kld o => exact execKld_userHeld he hm
  | kset o => exact guarded_userHeld (show execKset o s = _ from he) hm (land_modeKept s _ _ _ _ _)
  | kmov o => exact guarded_userHeld (show execKmov o s = _ from he) hm (land_modeKept s _ _ _ _ _)
  | ecntAdd o => exact guarded_userHeld (show execEcntAdd o s = _ from he) hm (setCC_modeKept s _ _)
  | ecntSet o => exact guarded_userHeld (show execEcntSet o s = _ from he) hm (setCC_modeKept s _ _)
  | cpy o => exact execCpy_userHeld he hm
  | flowMode o => exact execFlowMode_userHeld he hm
  | coll o => exact execColl_userHeld he hm
  | amsg o => exact eIssue_userHeld (show execAmsg o s = _ from he) hm (sendE_modeKept _ _ s)
  | taskDec o => exact eIssue_userHeld (show execTaskDec o s = _ from he) hm (sendE_modeKept _ _ s)
  | esend o => exact eIssue_userHeld (show execEsend o s = _ from he) hm (sendE_modeKept _ _ s)
  | erel o => exact eIssue_userHeld (show execErel o s = _ from he) hm (sendE_modeKept _ _ s)
  | eprobe o => exact eIssue_userHeld (show execEprobe o s = _ from he) hm (sendE_modeKept _ _ s)
  | taskPost o => exact ePlain_userHeld (show execTaskPost o s = _ from he) hm
  | clbar o => exact ePlain_userHeld (show execClbar o s = _ from he) hm
  | chbar o => exact ePlain_userHeld (show execChbar o s = _ from he) hm
  | gbar o => exact ePlain_userHeld (show execGbar o s = _ from he) hm
  | fork o => exact ePlain_userHeld (show execFork o s = _ from he) hm
  | spawn o => exact ePlain_userHeld (show execSpawn o s = _ from he) hm
  | join o => exact ePlain_userHeld (show execJoin o s = _ from he) hm
  | revSt o => exact ePlain_userHeld (show execRevSt o s = _ from he) hm
  | slk o => exact ePlain_userHeld (show execSlk o s = _ from he) hm
  | xtloadFull o => exact ePriv_userHeld (show execXtloadFull o s = _ from he) hm
  | xtloadEntry o => exact ePriv_userHeld (show execXtloadEntry o s = _ from he) hm
  | xtloadPage o => exact ePriv_userHeld (show execXtloadPage o s = _ from he) hm
  | almw o => exact ePriv_userHeld (show execAlmw o s = _ from he) hm
  | almwLen o => exact ePriv_userHeld (show execAlmwLen o s = _ from he) hm
  | migCtlStart o => exact ePriv_userHeld (show execMigCtlStart o s = _ from he) hm
  | migCtlDone o => exact ePriv_userHeld (show execMigCtlDone o s = _ from he) hm
  | _ => cases h

/-- Settles O56: an operation keeps the mode, or it faults and the trap is the only way to supervisor mode. -/
theorem userModeHolds : Obligations.UserModeHolds := by
  unfold Obligations.UserModeHolds
  intro i s t hslot hm he
  by_cases hl : landsOnly i = true
  · obtain ⟨u, hu, hland⟩ := landsOnly_lands i s hl
    obtain rfl : u = t := Host.Outcome.next.inj (hu.symm.trans he)
    exact userHeld_of_modeKept hm (onlyFlight_modeKept hland)
  by_cases ht : transfersOnly i = true
  · obtain ⟨u, hu, hland⟩ := transfersOnly_transfers i s ht
    obtain rfl : u = t := Host.Outcome.next.inj (hu.symm.trans he)
    exact userHeld_of_modeKept hm (onlyFlightAndNext_modeKept hland)
  exact exec_userHeld (by simp [hl, ht, hslot]) hm he

end Sys2Proof.Machine

namespace Sys2Proof.Machine

/-! ## The state after reset (R4, R77, R128 to R134) -/

/-- The machine after reset, as the context w finds it. -/
def State.resetFor (w : Who) : State := { State.reset with sel := { State.reset.sel with who := w } }

/-- With nothing in flight csrr finds the register's value (R132, R133). -/
theorem csrRead_quiet {s : State} {n : BitVec 12} (hn : csrDest n = .csr n) (hf : s.cur.flight = []) :
    s.csrRead n = BitVec.ofNat 64 (s.csrValue s.sel.who n.toNat) := by
  unfold State.csrRead
  rw [hn]
  dsimp only
  rw [hf]
  show (BitVec.setWidth 4096 (BitVec.ofNat 64 _)).setWidth 64 = _
  rw [BitVec.setWidth_setWidth_of_le _ (by decide), BitVec.setWidth_eq]
/-- So it does at reset, where no result is in flight. -/
theorem csrRead_reset (w : Who) {n : BitVec 12} {v : Nat} (hn : csrDest n = .csr n) (hv : (State.resetFor w).csrValue w n.toNat = v) :
    (State.resetFor w).csrRead n = BitVec.ofNat 64 v := by
  rw [csrRead_quiet hn rfl]
  exact congrArg _ hv

/-- No flag is set, and no result in flight has any (R81). -/
theorem readFlags_reset (w : Who) (t free : Nat) : readFlags (Ctx.reset w) t free = 0 := by
  show (0#7 ||| 0#7 ||| if _ then 0#7 else 0) = 0
  split <;> rfl
/-- Every accumulator has tag 3 (R194). -/
theorem tagView_reset (w : Who) : (State.resetFor w).tagView w.coreId = 0xFFFFFFFF := by
  show (Vector.replicate 16 3#2).toList.foldr (fun v a => v.toNat + 4 * a) 0 = _
  decide
/-- A register that is neither a loop counter nor a rotating base is its own destination (R117, R119). -/
theorem csrDest_of {n : BitVec 12} (h : ¬ (0x010 ≤ n.toNat ∧ n.toNat < 0x016)) (h' : ¬ (0x018 ≤ n.toNat ∧ n.toNat < 0x01B)) :
    csrDest n = .csr n := by
  unfold csrDest
  rw [if_neg h, if_neg h']


/-- A field of 0 adds nothing to its register. -/
theorem atBit_zero (lo : Nat) : atBit 0 lo = 0 := Nat.zero_mul _

/-- The registers of one field, or of a record that reset leaves empty, whose value at reset is 0. -/
theorem csrValue_reset_plain (w : Who) : ∀ k ∈ [0x001, 0x003, 0x004, 0x005, 0x007, 0x008, 0x040, 0x043, 0x044, 0x078, 0x079, 0x07A],
    (State.resetFor w).csrValue w k = 0 := by
  intro k hk
  simp only [List.mem_cons, List.not_mem_nil, or_false] at hk
  rcases hk with rfl | rfl | rfl | rfl | rfl | rfl | rfl | rfl | rfl | rfl | rfl | rfl <;> rfl
/-- The registers of several fields whose value at reset is 0: TRAP_CAUSE, MCHK_STAT, MEM_CLAMPS, COLL_STAT, EAGER_STAT, SEG_STAT and
SEG_CTL. -/
theorem csrValue_reset_fields (w : Who) : ∀ k ∈ [0x006, 0x042, 0x04B, 0x090, 0x091, 0x092, 0x093], (State.resetFor w).csrValue w k = 0 := by
  intro k hk
  simp only [List.mem_cons, List.not_mem_nil, or_false] at hk
  rcases hk with rfl | rfl | rfl | rfl | rfl | rfl | rfl
  · show atBit 0 31 + atBit 0 30 + atBit 0 19 + atBit 0 8 + 0 = 0
    simp only [atBit_zero]
  · show atBit 0 32 + atBit 0 16 + 0 = 0
    simp only [atBit_zero]
  · show atBit 0 32 + 0 = 0
    simp only [atBit_zero]
  · show atBit 0 32 + atBit 0 16 + 0 = 0
    simp only [atBit_zero]
  · show atBit 0 32 + 0 = 0
    simp only [atBit_zero]
  · show atBit 0 48 + atBit 0 40 + atBit 0 16 + atBit 0 8 + atBit 0 4 + atBit 0 3 + atBit 0 2 + atBit 0 1 + 0 = 0
    simp only [atBit_zero]
  · show atBit 0 32 + atBit 0 24 + 0 = 0
    simp only [atBit_zero]

/-- The special registers that reset clears (R131). -/
def zeroCsrs : List Nat :=
  [0x000, 0x001, 0x003, 0x004, 0x005, 0x006, 0x007, 0x008, 0x040, 0x042, 0x043, 0x044, 0x04B, 0x078, 0x079, 0x07A, 0x090, 0x091, 0x092, 0x093]
/-- Each of them is read as a register of its own, and is one of the three kinds above. -/
theorem zeroCsrs_dest : ∀ k ∈ zeroCsrs, csrDest (BitVec.ofNat 12 k) = .csr (BitVec.ofNat 12 k) ∧ (BitVec.ofNat 12 k).toNat = k ∧
    (k = 0 ∨ k ∈ [0x001, 0x003, 0x004, 0x005, 0x007, 0x008, 0x040, 0x043, 0x044, 0x078, 0x079, 0x07A] ∨
      k ∈ [0x006, 0x042, 0x04B, 0x090, 0x091, 0x092, 0x093]) := by decide
theorem csrRead_reset_zero (w : Who) : ∀ k ∈ zeroCsrs, (State.resetFor w).csrRead (BitVec.ofNat 12 k) = 0 := by
  intro k hk
  obtain ⟨hdest, hk12, hkind⟩ := zeroCsrs_dest k hk
  refine csrRead_reset w hdest ?_
  rw [hk12]
  rcases hkind with rfl | hplain | hfields
  · show (readFlags (Ctx.reset w) _ _).toNat = 0
    rw [readFlags_reset]; rfl
  · exact csrValue_reset_plain w k hplain
  · exact csrValue_reset_fields w k hfields

/-- The counters, the window bindings and the window allowances (R213, R297). -/
theorem csrValue_ccnt (s : State) (w : Who) {k : Nat} (hk : k < 16) :
    s.csrValue w (0x050 + k) = ((s.ctx w).csr.ccnt.toList.getD k 0).toNat := by
  refine (if_pos (by omega)).trans ?_
  rw [Nat.add_sub_cancel_left]
theorem csrValue_winBind (s : State) (w : Who) {k : Nat} (hk : k < 16) :
    s.csrValue w (0x060 + k) = ((s.ctx w).csr.winBind.toList.getD k 0).toNat := by
  refine (if_neg (by omega)).trans ((if_pos (by omega)).trans ?_)
  rw [Nat.add_sub_cancel_left]
theorem csrValue_win (s : State) (w : Who) {k : Nat} (hk : k < 16) :
    s.csrValue w (0x080 + k) = atBit ((s.ctx w).csr.winMax.toList.getD k 0).toNat 16 + ((s.ctx w).csr.winAvail.toList.getD k 0).toNat := by
  refine (if_neg (by omega)).trans ((if_neg (by omega)).trans ((if_neg (by omega)).trans ((if_pos (by omega)).trans ?_)))
  rw [Nat.add_sub_cancel_left]
/-- Element k of a vector of equal elements. -/
theorem getD_replicate {n k m : Nat} (hk : k < n) (v d : BitVec m) : (Vector.replicate n v).toList.getD k d = v := by
  simp [List.getD_eq_getElem?_getD, hk]
/-- csrr of a register above the rotating bases. -/
theorem csrRead_reset_of {w : Who} {k v : Nat} (hk : k < 4096) (hl : 0x01B ≤ k) (hv : (State.resetFor w).csrValue w k = v) :
    (State.resetFor w).csrRead (BitVec.ofNat 12 k) = BitVec.ofNat 64 v := by
  have hn : (BitVec.ofNat 12 k).toNat = k := Nat.mod_eq_of_lt hk
  exact csrRead_reset w (csrDest_of (by omega) (by omega)) (by rw [hn]; exact hv)

/-- Settles O57: the values of State.reset, register by register. -/
theorem resetState : Obligations.ResetState := by
  unfold Obligations.ResetState
  refine ⟨rfl, fun w => ?_⟩
  refine ⟨rfl, rfl, rfl, rfl, rfl, csrRead_reset_zero w, csrRead_reset w rfl rfl, ?_, ?_, csrRead_reset w rfl rfl, fun k hk => ⟨?_, ?_, ?_⟩⟩
  · exact csrRead_reset w rfl (tagView_reset w)
  · exact csrRead_reset w rfl (v := atBit 0xFFFFFFFF 32 + satN 0 32) rfl
  · refine csrRead_reset_of (by omega) (by omega) ((csrValue_ccnt _ w hk).trans (congrArg _ (getD_replicate hk 0 0)))
  · exact csrRead_reset_of (by omega) (by omega) ((csrValue_winBind _ w hk).trans (congrArg _ (getD_replicate hk 0 0)))
  · refine csrRead_reset_of (v := 0x200020) (by omega) (by omega) ((csrValue_win _ w hk).trans ?_)
    rw [show (State.ctx _ w).csr.winMax = Vector.replicate 16 32 from rfl, show (State.ctx _ w).csr.winAvail = Vector.replicate 16 32 from rfl,
      getD_replicate hk]
    rfl
end Sys2Proof.Machine

namespace Sys2Proof.Machine

/-! ## The tables of formats (R64 to R66, R74) -/

/-- What the model holds of the format of a table row: its widths and bias, its NaN and its largest finite value. -/
structure FRow.Held (p : FRow) : Prop where
  fmt : ffmt p.code = ⟨p.ew, p.mw, p.bias, decide (p.code = 3)⟩
  nan : qnan p.code = p.nan
  max : maxFin p.code = p.max
  float : isFloatFmt p.code = true
  mw_pos : 0 < p.mw
  mw_le : p.mw ≤ 23
  mant : p.code = 3 → p.mw = 3

theorem fTable_held : ∀ p ∈ fTable, p.Held := by
  intro p hp
  simp only [fTable, List.mem_cons, List.not_mem_nil, or_false] at hp
  rcases hp with rfl | rfl | rfl | rfl | rfl <;> exact ⟨rfl, rfl, rfl, rfl, by decide, by decide, by decide⟩

theorem FRow.Held.signBit {p : FRow} (h : p.Held) (neg : Bool) : signBit p.code neg = p.sign neg := by
  rw [Machine.signBit, h.fmt, FRow.sign, Nat.add_comm p.ew]
theorem FRow.Held.infBits {p : FRow} (h : p.Held) (neg : Bool) : infBits p.code neg = p.inf neg := by
  rw [Machine.infBits, FRow.inf, h.signBit, h.nan, h.fmt]
  simp only [decide_eq_true_eq]

/-- An element of the overflow table, by its place (R77). -/
theorem natFld_extract (v : BitVec 10) (lo : Nat) : natFld v.toNat lo 2 = (v.extractLsb' lo 2).toNat := by
  rw [natFld, BitVec.extractLsb'_toNat]
/-- What an entry of the overflow table gives, by its code (R74, R77). -/
theorem match_entry (x : BitVec 2) (a b c : Nat) :
    (match x.toNat with | 0 => a | 1 => b | _ => c) = if x = 0 then a else if x = 1 then b else c := by
  have hx : ∀ y : BitVec 2, y = 0 ∨ y = 1 ∨ y = 2 ∨ y = 3 := by decide
  rcases hx x with rfl | rfl | rfl | rfl <;> rfl
/-- An overflow of a narrow format gives what its entry of the table says. -/
theorem overflowBits_narrow {f : BitVec 4} (hf : f ≠ 0) (ovt : BitVec 10) (rm : BitVec 2) (neg : Bool) (x : BitVec 2)
    (hx : ovtEntry ovt f = x.toNat) :
    overflowBits ovt f rm neg = if x = 0 then signBit f neg + maxFin f else if x = 1 then infBits f neg else qnan f := by
  rw [overflowBits, if_neg hf, hx]
  exact match_entry x _ _ _
theorem overflowBits_f32 (ovt : BitVec 10) (rm : BitVec 2) (neg : Bool) : overflowBits ovt 0 rm neg =
    if rm = 0 ∨ (rm = 2 ∧ neg = false) ∨ (rm = 3 ∧ neg = true) then infBits 0 neg else signBit 0 neg + maxFin 0 := by
  have hrm : ∀ y : BitVec 2, y = 0 ∨ y = 1 ∨ y = 2 ∨ y = 3 := by decide
  rcases hrm rm with rfl | rfl | rfl | rfl <;> cases neg <;> rfl

theorem overflowBits_eq {p : FRow} (hp : p ∈ fTable) (ovt : BitVec 10) (rm : BitVec 2) (neg : Bool) :
    overflowBits ovt p.code rm neg = p.over ovt rm neg := by
  have h := fTable_held p hp
  by_cases h0 : p.code = 0
  · rw [FRow.over, if_pos h0, ← h.infBits, ← h.signBit, ← h.max, h0]
    exact overflowBits_f32 ovt rm neg
  · rw [FRow.over, if_neg h0, ← h.infBits, ← h.signBit, ← h.max, ← h.nan]
    refine overflowBits_narrow h0 ovt rm neg _ ?_
    simp only [fTable, List.mem_cons, List.not_mem_nil, or_false] at hp
    rcases hp with rfl | rfl | rfl | rfl | rfl
    · exact absurd rfl h0
    all_goals exact natFld_extract ovt _

/-! ## The value of a pattern (R65, R70) -/

theorem natFld_one {v k : Nat} (h : v < 2 ^ (1 + k)) : (natFld v k 1 = 1) ↔ 2 ^ k ≤ v := by
  have h2 : v / 2 ^ k < 2 := Nat.div_lt_of_lt_mul (by rw [pow_add, pow_one, Nat.mul_comm] at h; exact h)
  have h3 : 0 < v / 2 ^ k ↔ 2 ^ k ≤ v := Nat.div_pos_iff.trans ⟨fun h => h.2, fun h => ⟨Nat.two_pow_pos k, h⟩⟩
  rw [natFld, Nat.shiftRight_eq_div_pow, pow_one, ← h3]
  generalize v / 2 ^ k = d at h2
  omega

section
variable {p : FRow} (hp : p.Held) {v : Nat} (hv : v < 2 ^ (1 + p.ew + p.mw))
include hp hv

/-- The model's reading of a pattern, in the terms of its fields. -/
theorem decodeF_fields : decodeF p.code v =
    (let m := v % 2 ^ p.mw
     let e := v / 2 ^ p.mw % 2 ^ p.ew
     let neg := decide (2 ^ (p.ew + p.mw) ≤ v)
     if e = 2 ^ p.ew - 1 ∧ (if p.code = 3 then m = 2 ^ p.mw - 1 else m ≠ 0) then .nan
     else if e = 2 ^ p.ew - 1 ∧ p.code ≠ 3 then .inf neg
     else if e = 0 then .fin neg m (1 - (p.bias : Int) - p.mw)
     else .fin neg (m + 2 ^ p.mw) ((e : Int) - p.bias - p.mw)) := by
  have hneg : decide (natFld v (p.mw + p.ew) 1 = 1) = decide (2 ^ (p.ew + p.mw) ≤ v) := by
    rw [Nat.add_comm p.mw]
    exact decide_eq_decide.mpr (natFld_one (by rw [← Nat.add_assoc]; exact hv))
  have he : natFld v p.mw p.ew = v / 2 ^ p.mw % 2 ^ p.ew := by rw [natFld, Nat.shiftRight_eq_div_pow]
  rw [decodeF, hp.fmt]
  simp only [hneg, he, decide_eq_true_eq, Bool.not_eq_eq_eq_not, Bool.not_true, decide_eq_false_iff_not, ne_eq]

theorem decodeF_pattern :
    let m : Nat := v % 2 ^ p.mw
    let e : Nat := v / 2 ^ p.mw % 2 ^ p.ew
    let neg := decide (2 ^ (p.ew + p.mw) ≤ v)
    let top := e = 2 ^ p.ew - 1 ∧ (p.code = 3 → m = 7)
    (top → decodeF p.code v = if p.code = 3 ∨ m ≠ 0 then .nan else .inf neg) ∧
    (¬ top → ∃ k x, decodeF p.code v = .fin neg k x ∧
      (decodeF p.code v).q = (if neg then -1 else 1) *
        (if e = 0 then (2 : ℚ) ^ (1 - (p.bias : Int)) * (m / 2 ^ p.mw) else (2 : ℚ) ^ ((e : Int) - p.bias) * (1 + m / 2 ^ p.mw))) := by
  intro m e neg top
  have hseven : p.code = 3 → 2 ^ p.mw - 1 = 7 := fun h3 => by rw [hp.mant h3]; rfl
  have hdec : decodeF p.code v = if e = 2 ^ p.ew - 1 ∧ (if p.code = 3 then m = 2 ^ p.mw - 1 else m ≠ 0) then .nan
     else if e = 2 ^ p.ew - 1 ∧ p.code ≠ 3 then .inf neg
     else if e = 0 then .fin neg m (1 - (p.bias : Int) - p.mw)
     else .fin neg (m + 2 ^ p.mw) ((e : Int) - p.bias - p.mw) := decodeF_fields hp hv
  refine ⟨fun ⟨htop, h7⟩ => ?_, fun hnot => ?_⟩
  · rw [hdec]
    by_cases h3 : p.code = 3
    · rw [if_pos ⟨htop, by rw [if_pos h3, hseven h3]; exact h7 h3⟩, if_pos (Or.inl h3)]
    · by_cases hm : m = 0
      · rw [if_neg (by rw [if_neg h3]; exact fun h => h.2 hm), if_pos ⟨htop, h3⟩, if_neg (by tauto)]
      · rw [if_pos ⟨htop, by rw [if_neg h3]; exact hm⟩, if_pos (Or.inr hm)]
  · have h1 : ¬ (e = 2 ^ p.ew - 1 ∧ (if p.code = 3 then m = 2 ^ p.mw - 1 else m ≠ 0)) := by
      rintro ⟨htop, h⟩
      refine hnot ⟨htop, fun h3 => ?_⟩
      rw [if_pos h3, hseven h3] at h
      exact h
    have h2 : ¬ (e = 2 ^ p.ew - 1 ∧ p.code ≠ 3) := fun h => hnot ⟨h.1, fun h3 => absurd h3 h.2⟩
    rw [hdec, if_neg h1, if_neg h2]
    have hpow : (2 : ℚ) ^ p.mw ≠ 0 := by positivity
    by_cases he : e = 0
    · rw [if_pos he]
      refine ⟨_, _, rfl, ?_⟩
      rw [if_pos he, FVal.q, zpow_sub₀ two_ne_zero, zpow_natCast]
      ring
    · rw [if_neg he]
      refine ⟨_, _, rfl, ?_⟩
      rw [if_neg he, FVal.q, zpow_sub₀ two_ne_zero _ (p.mw : Int), zpow_natCast]
      push_cast
      field_simp
      ring
end

/-! ## Integers and t2 codes (R64, R69, R70) -/

theorem sInt_eq_toInt (v n : Nat) : sInt v n = (BitVec.ofNat n v).toInt := by
  rw [BitVec.toInt_eq_toNat_cond, BitVec.toNat_ofNat, sInt]
  by_cases hn : n = 0
  · subst hn; simp [Nat.mod_one]
  · have h2 : 2 ^ n = 2 * 2 ^ (n - 1) := by rw [← pow_succ', Nat.sub_add_cancel (Nat.pos_of_ne_zero hn)]
    simp only [show (v % 2 ^ n < 2 ^ (n - 1)) ↔ (2 * (v % 2 ^ n) < 2 ^ n) from by omega]
    push_cast
    rfl

/-- What the model holds of an integer format of the table. -/
theorem iTable_held : ∀ q ∈ iTable, fmtBits q.1 = q.2.1 ∧ isSigned q.1 = q.2.2 ∧ isFloatFmt q.1 = false ∧ 0 < q.2.1 := by decide

section
variable {q : BitVec 4 × Nat × Bool} (hq : q ∈ iTable)
include hq

theorem minI_eq : minI q.1 = iLow q.2.1 q.2.2 := by
  obtain ⟨hbits, hsigned, _⟩ := iTable_held q hq
  rw [minI, iLow, hbits, hsigned]
theorem maxI_eq : maxI q.1 = iHigh q.2.1 q.2.2 := by
  obtain ⟨hbits, hsigned, _⟩ := iTable_held q hq
  rw [maxI, iHigh, hbits, hsigned]
theorem wrapI_eq (i : Int) : wrapI q.1 i = (i % 2 ^ q.2.1).toNat := by
  rw [wrapI, wrapN, (iTable_held q hq).1]
theorem satI_eq (i : Int) : satI q.1 i = (max (iLow q.2.1 q.2.2) (min (iHigh q.2.1 q.2.2) i) % 2 ^ q.2.1).toNat := by
  rw [satI, minI_eq hq, maxI_eq hq, wrapN, (iTable_held q hq).1]
theorem decodeI_eq (v : Nat) : decodeI q.1 v = if q.2.2 then (BitVec.ofNat q.2.1 v).toInt else ((v % 2 ^ q.2.1 : Nat) : Int) := by
  obtain ⟨hbits, hsigned, _⟩ := iTable_held q hq
  rw [decodeI, hsigned, hbits, sInt_eq_toInt]
end

theorem decodeT2_codes (v : Nat) : (v % 4 = 0 → decodeT2 v = (0, 0)) ∧ (v % 4 = 1 → decodeT2 v = (1, 0)) ∧
    (v % 4 = 2 → decodeT2 v = (0, 64)) ∧ (v % 4 = 3 → decodeT2 v = (-1, 0)) := by
  refine ⟨fun h => ?_, fun h => ?_, fun h => ?_, fun h => ?_⟩ <;> (rw [decodeT2, h]; rfl)

end Sys2Proof.Machine

namespace Sys2Proof.Machine

/-! ## Exact sums and products (R67, R68, R79) -/

theorem two_zpow_toNat {a b : Int} (h : b ≤ a) : (2 : ℚ) ^ (a - b).toNat * 2 ^ b = 2 ^ a := by
  rw [← zpow_natCast, Int.toNat_of_nonneg (by omega), ← zpow_add₀ two_ne_zero, sub_add_cancel]
theorem scaled_mul_zpow {e0 e : Int} (h : e0 ≤ e) (n : Bool) (m : Nat) : (scaled e0 (.fin n m e) : ℚ) * 2 ^ e0 = (FVal.fin n m e).q := by
  have hm : ((m <<< (e - e0).toNat : Nat) : ℚ) * 2 ^ e0 = m * 2 ^ e := by
    rw [Nat.shiftLeft_eq, ← two_zpow_toNat h]
    push_cast
    ring
  cases n
  · rw [show scaled e0 (.fin false m e) = ((m <<< (e - e0).toNat : Nat) : Int) from rfl, Int.cast_natCast, hm]
    simp [FVal.q]
  · rw [show scaled e0 (.fin true m e) = -((m <<< (e - e0).toNat : Nat) : Int) from rfl, Int.cast_neg, Int.cast_natCast, neg_mul, hm]
    simp [FVal.q]
theorem q_zero (n : Bool) (e : Int) : (FVal.fin n 0 e).q = 0 := by simp [FVal.q]

/-- Every finite non-zero value of the list has an exponent of at least e0. -/
def expsFrom (e0 : Int) (l : List FVal) : Prop := ∀ n m e, FVal.fin n m e ∈ l → m ≠ 0 → e0 ≤ e

theorem sumScaled_mul_zpow {e0 : Int} : ∀ {l : List FVal}, expsFrom e0 l → (sumScaled e0 l : ℚ) * 2 ^ e0 = (l.map FVal.q).sum
  | [], _ => by simp [sumScaled]
  | x :: r, h => by
    have ih : (sumScaled e0 r : ℚ) * 2 ^ e0 = (r.map FVal.q).sum :=
      sumScaled_mul_zpow (fun n m e hx => h n m e (List.mem_cons_of_mem _ hx))
    rw [List.map_cons, List.sum_cons, ← ih]
    cases x with
    | nan => simp [sumScaled, FVal.q]
    | inf n => simp [sumScaled, FVal.q]
    | fin n m e =>
      by_cases hm : m = 0
      · rw [sumScaled, if_pos hm, hm, q_zero, zero_add]
      · rw [sumScaled, if_neg hm, Int.cast_add, add_mul, scaled_mul_zpow (h n m e List.mem_cons_self hm)]
theorem minExp_none : ∀ {l : List FVal}, minExp l = none → ∀ n m e, FVal.fin n m e ∈ l → m = 0
  | x :: r, h, n, m, e, hx => by
    cases x with
    | nan => exact minExp_none (l := r) h n m e (by simpa using hx)
    | inf s => exact minExp_none (l := r) h n m e (by simpa using hx)
    | fin n' m' e' =>
      rw [minExp] at h
      split at h
      · next hm' =>
        rcases List.mem_cons.mp hx with heq | hr
        · cases heq; exact hm'
        · exact minExp_none h n m e hr
      · cases h
theorem minExp_some : ∀ {l : List FVal} {e0 : Int}, minExp l = some e0 → expsFrom e0 l ∧ ∃ n m e, FVal.fin n m e ∈ l ∧ m ≠ 0
  | x :: r, e0, h => by
    have hrest : minExp r = some e0 → (∀ n m e, x = .fin n m e → m = 0) → expsFrom e0 (x :: r) ∧ ∃ n m e, FVal.fin n m e ∈ x :: r ∧ m ≠ 0 := by
      intro hr hx
      obtain ⟨hfrom, n, m, e, hmem, hm⟩ := minExp_some hr
      refine ⟨fun n m e hmem hm => ?_, n, m, e, List.mem_cons_of_mem _ hmem, hm⟩
      rcases List.mem_cons.mp hmem with heq | hr
      · exact absurd (hx n m e heq.symm) hm
      · exact hfrom n m e hr hm
    cases x with
    | nan => exact hrest h (fun _ _ _ heq => by cases heq)
    | inf s => exact hrest h (fun _ _ _ heq => by cases heq)
    | fin n m e =>
      by_cases hm : m = 0
      · rw [minExp, if_pos hm] at h
        exact hrest h (fun _ _ _ heq => by cases heq; exact hm)
      · rw [minExp, if_neg hm] at h
        refine ⟨fun n' m' e' hmem hm' => ?_, n, m, e, List.mem_cons_self, hm⟩
        cases hr : minExp r with
        | none =>
          rw [hr] at h
          cases h
          rcases List.mem_cons.mp hmem with heq | htail
          · cases heq; exact le_rfl
          · exact absurd (minExp_none hr n' m' e' htail) hm'
        | some e1 =>
          rw [hr] at h
          cases h
          rcases List.mem_cons.mp hmem with heq | htail
          · cases heq; exact min_le_left _ _
          · exact (min_le_right _ _).trans ((minExp_some hr).1 n' m' e' htail hm')

/-- An integer on the grid 2^e0, as a sign and a magnitude. -/
theorem q_ofInt (z e0 : Int) : (FVal.fin (z < 0) z.natAbs e0).q = z * 2 ^ e0 := by
  have hz : (if (decide (z < 0)) = true then (-1 : ℚ) else 1) * (z.natAbs : ℚ) = z := by
    by_cases h : z < 0
    · rw [if_pos (decide_eq_true h), ← Int.cast_natCast, Int.ofNat_natAbs_of_nonpos h.le]
      push_cast
      ring
    · rw [if_neg (by simpa using h), ← Int.cast_natCast, Int.natAbs_of_nonneg (not_lt.mp h), one_mul]
  rw [FVal.q, hz]
theorem anyNan_iff (l : List FVal) : anyNan l = true ↔ .nan ∈ l := by simp [anyNan]
theorem anyInf_iff (l : List FVal) (neg : Bool) : anyInf l neg = true ↔ .inf neg ∈ l := by simp [anyInf]
theorem allZero_iff (l : List FVal) (neg : Bool) : allZero l neg = true ↔ ∀ x ∈ l, ∃ e, x = .fin neg 0 e := by
  rw [allZero, List.all_eq_true]
  refine forall₂_congr (fun x _ => ?_)
  cases x with
  | nan => simp
  | inf n => simp
  | fin n m e => simp [and_comm]

section
variable {l : List FVal} (rm : BitVec 2)

theorem sumF_nan (h : .nan ∈ l) : sumF rm l = (.nan, false) := by
  rw [sumF, if_pos ((anyNan_iff l).mpr h)]
theorem sumF_infs (hn : .nan ∉ l) (ht : .inf true ∈ l) (hf : .inf false ∈ l) : sumF rm l = (.nan, true) := by
  rw [sumF, if_neg (fun h => hn ((anyNan_iff l).mp h)), (anyInf_iff l true).mpr ht, (anyInf_iff l false).mpr hf]
  rfl
theorem sumF_inf {neg : Bool} (hn : .nan ∉ l) (hi : .inf neg ∈ l) (ho : .inf (!neg) ∉ l) : sumF rm l = (.inf neg, false) := by
  have hi' := (anyInf_iff l neg).mpr hi
  have ho' : anyInf l (!neg) = false := Bool.eq_false_iff.mpr (fun h => ho ((anyInf_iff l _).mp h))
  rw [sumF, if_neg (fun h => hn ((anyNan_iff l).mp h))]
  cases neg <;> simp_all

/-- The exact sum of finite values (R68, R79): its value, and the sign of a zero. -/
theorem sumF_fin (h : ∀ x ∈ l, ∃ n m e, x = .fin n m e) :
    let zero := fun (neg : Bool) => ∀ x ∈ l, ∃ e, x = FVal.fin neg 0 e
    ∃ n m e, sumF rm l = (.fin n m e, false) ∧ (FVal.fin n m e).q = (l.map FVal.q).sum ∧
      (m = 0 → (zero false → n = false) ∧ (l ≠ [] → zero true → n = true) ∧ (¬ zero false → ¬ zero true → n = decide (rm = 3))) := by
  intro zero
  have hnan : ¬ anyNan l = true := fun hn => by
    obtain ⟨n, m, e, he⟩ := h _ ((anyNan_iff l).mp hn)
    cases he
  have hinf : ∀ neg, anyInf l neg = false := fun neg => Bool.eq_false_iff.mpr (fun hi => by
    obtain ⟨n, m, e, he⟩ := h _ ((anyInf_iff l neg).mp hi)
    cases he)
  have hz : ∀ neg, allZero l neg = true ↔ zero neg := allZero_iff l
  rw [sumF, if_neg hnan, hinf true, hinf false, Bool.and_false, if_neg Bool.false_ne_true, if_neg Bool.false_ne_true, if_neg Bool.false_ne_true]
  cases hmin : minExp l with
  | none =>
    have hsum : (l.map FVal.q).sum = 0 := by
      refine List.sum_eq_zero (fun y hy => ?_)
      obtain ⟨x, hx, rfl⟩ := List.mem_map.mp hy
      obtain ⟨n, m, e, rfl⟩ := h x hx
      rw [minExp_none hmin n m e hx, q_zero]
    dsimp only
    by_cases hl : l = []
    · have hempty : ∀ neg, zero neg := fun _ x hx => by rw [hl] at hx; cases hx
      rw [if_pos hl]
      exact ⟨_, _, _, rfl, by rw [hsum, q_zero], fun _ => ⟨fun _ => rfl, fun hne => absurd hl hne, fun hf => absurd (hempty false) hf⟩⟩
    · have hboth : ¬ (zero true ∧ zero false) := by
        rintro ⟨ht, hf⟩
        obtain ⟨x, hx⟩ := List.exists_mem_of_ne_nil l hl
        obtain ⟨e, rfl⟩ := ht x hx
        obtain ⟨e', he'⟩ := hf _ hx
        cases he'
      rw [if_neg hl]
      by_cases ht : zero true
      · rw [if_pos ((hz true).mpr ht)]
        exact ⟨_, _, _, rfl, by rw [hsum, q_zero], fun _ => ⟨fun hf => absurd ⟨ht, hf⟩ hboth, fun _ _ => rfl, fun _ hnt => absurd ht hnt⟩⟩
      · rw [if_neg (fun h => ht ((hz true).mp h))]
        by_cases hf : zero false
        · rw [if_pos ((hz false).mpr hf)]
          exact ⟨_, _, _, rfl, by rw [hsum, q_zero], fun _ => ⟨fun _ => rfl, fun _ h => absurd h ht, fun h => absurd hf h⟩⟩
        · rw [if_neg (fun h => hf ((hz false).mp h))]
          exact ⟨_, _, _, rfl, by rw [hsum, q_zero], fun _ => ⟨fun h => absurd h hf, fun _ h => absurd h ht, fun _ _ => rfl⟩⟩
  | some e0 =>
    obtain ⟨hfrom, n, m, e, hmem, hm⟩ := minExp_some hmin
    have hnz : ∀ neg, ¬ zero neg := fun neg hzero => by
      obtain ⟨e', he⟩ := hzero _ hmem
      cases he
      exact hm rfl
    have hval := sumScaled_mul_zpow hfrom
    dsimp only
    by_cases hs : sumScaled e0 l = 0
    · rw [if_pos hs]
      refine ⟨_, _, _, rfl, ?_, fun _ => ⟨fun hz => absurd hz (hnz _), fun _ hz => absurd hz (hnz _), fun _ _ => rfl⟩⟩
      rw [← hval, hs, q_zero]
      simp
    · rw [if_neg hs]
      refine ⟨_, _, _, rfl, ?_, fun h0 => absurd (Int.natAbs_eq_zero.mp h0) hs⟩
      rw [← hval, q_ofInt]
end

theorem mulF_fin_q (a b : Bool) (m n : Nat) (d e : Int) :
    (FVal.fin (a != b) (m * n) (d + e)).q = (FVal.fin a m d).q * (FVal.fin b n e).q := by
  have h2 : (2 : ℚ) ^ (d + e) = 2 ^ d * 2 ^ e := zpow_add₀ two_ne_zero d e
  cases a <;> cases b <;> simp [FVal.q, h2] <;> ring
end Sys2Proof.Machine

namespace Sys2Proof.Machine

/-! ## One rounding to an integer (R71) -/

/-- c is the real x, which lies from f up to f + 1, rounded to an integer in a mode, as the magnitude of a value of the sign given. -/
def roundsNat (rm : BitVec 2) (neg : Bool) (x : ℝ) (f c : Nat) : Prop :=
  ((f : ℝ) ≤ x ∧ x < f + 1) ∧ (c = f ∨ c = f + 1) ∧ (x = f → c = f) ∧
    (x ≠ f → (rm = 0 → (x - f < 1 / 2 → c = f) ∧ (1 / 2 < x - f → c = f + 1) ∧ (x - f = 1 / 2 → c % 2 = 0)) ∧
      (rm = 1 → c = f) ∧ (rm = 2 → c = if neg then f else f + 1) ∧ (rm = 3 → c = if neg then f + 1 else f))

/-- An integer is rounded to itself. -/
theorem roundsNat_self (rm : BitVec 2) (neg : Bool) (f : Nat) : roundsNat rm neg f f f :=
  ⟨⟨le_rfl, lt_add_one _⟩, Or.inl rfl, fun _ => rfl, fun h => absurd rfl h⟩

/-- The four modes of dropBits. -/
theorem dropBits_eq (rm : BitVec 2) (neg : Bool) (m k : Nat) : dropBits rm neg m k =
    if m % 2 ^ k = 0 then m / 2 ^ k
    else if rm = 0 then (if 2 * (m % 2 ^ k) > 2 ^ k ∨ (2 * (m % 2 ^ k) = 2 ^ k ∧ m / 2 ^ k % 2 = 1) then m / 2 ^ k + 1 else m / 2 ^ k)
    else if rm = 1 then m / 2 ^ k
    else if rm = 2 then (if neg then m / 2 ^ k else m / 2 ^ k + 1)
    else (if neg then m / 2 ^ k + 1 else m / 2 ^ k) := by
  have hrm : ∀ y : BitVec 2, y = 0 ∨ y = 1 ∨ y = 2 ∨ y = 3 := by decide
  rw [dropBits, Nat.shiftRight_eq_div_pow]
  rcases hrm rm with rfl | rfl | rfl | rfl <;> rfl

/-- The real y compares with every natural number t as m does with t * s. -/
def agrees (y : ℝ) (m s : Nat) : Prop := ∀ t : Nat, ((t : ℝ) ≤ y ↔ t * s ≤ m) ∧ ((t : ℝ) = y ↔ t * s = m)

/-- Dropping bits rounds every real that compares with the integers and the midpoints as the number with its bits does. -/
theorem dropBits_rounds {rm : BitVec 2} {neg : Bool} {x : ℝ} {m k : Nat} (h : agrees (2 * x) m (2 ^ k)) :
    roundsNat rm neg x (m / 2 ^ (k + 1)) (dropBits rm neg m (k + 1)) := by
  rw [dropBits_eq]
  have hs : 2 ^ (k + 1) = 2 * 2 ^ k := pow_succ' 2 k
  have hpos : 0 < 2 ^ k := Nat.two_pow_pos k
  have hm : m = 2 * (m / 2 ^ (k + 1)) * 2 ^ k + m % 2 ^ (k + 1) := by
    have hdiv := Nat.div_add_mod m (2 ^ (k + 1))
    rw [hs] at hdiv ⊢
    linarith
  have hlt : m % 2 ^ (k + 1) < 2 * 2 ^ k := hs ▸ Nat.mod_lt m (Nat.two_pow_pos _)
  generalize m / 2 ^ (k + 1) = f at hm ⊢
  generalize m % 2 ^ (k + 1) = r at hm hlt ⊢
  rw [hs]
  generalize 2 ^ k = s at h hm hlt hpos ⊢
  subst hm
  -- the floor, the next integer and the midpoint, in turn
  obtain ⟨hfloor, hexact⟩ := h (2 * f)
  have hnext := (h (2 * f + 2)).1
  obtain ⟨hmid, htie⟩ := h (2 * f + 1)
  push_cast at hfloor hexact hnext hmid htie
  have hle : (f : ℝ) ≤ x := by
    have := hfloor.mpr (by omega)
    linarith
  have hup : x < f + 1 := by
    by_contra hc
    have := hnext.mp (by linarith)
    nlinarith
  have hzero : x = f ↔ r = 0 := by
    rw [show (r = 0) ↔ 2 * f * s = 2 * f * s + r from by omega, ← hexact]
    exact ⟨fun h => by rw [h], fun h => by linarith⟩
  have hhalf : 1 / 2 ≤ x - f ↔ s ≤ r := by
    rw [show (s ≤ r) ↔ (2 * f + 1) * s ≤ 2 * f * s + r from by rw [add_mul, one_mul]; omega, ← hmid]
    constructor <;> intro h <;> linarith
  have hties : x - f = 1 / 2 ↔ r = s := by
    rw [show (r = s) ↔ (2 * f + 1) * s = 2 * f * s + r from by rw [add_mul, one_mul]; omega, ← htie]
    constructor <;> intro h <;> linarith
  refine ⟨⟨hle, hup⟩, ?_, fun h => by rw [if_pos (hzero.mp h)], fun h => ?_⟩
  · split_ifs <;> simp
  · rw [if_neg (fun hr => h (hzero.mpr hr))]
    refine ⟨?_, ?_, ?_, ?_⟩
    · rintro rfl
      rw [if_pos rfl]
      refine ⟨fun hlow => ?_, fun hhigh => ?_, fun heq => ?_⟩
      · have : ¬ s ≤ r := fun hc => absurd (hhalf.mpr hc) (by linarith)
        rw [if_neg (by omega)]
      · have h1 : s ≤ r := hhalf.mp (by linarith)
        have h2 : r ≠ s := fun hc => absurd (hties.mpr hc) (by linarith)
        rw [if_pos (Or.inl (by omega))]
      · have h1 : r = s := hties.mp heq
        split_ifs with hc <;> omega
    · rintro rfl; rfl
    · rintro rfl; rfl
    · rintro rfl; rfl

/-! ## The grid of a format (R65, R73) -/

/-- The exponent of the last place of a format's least values. -/
def FRow.low (p : FRow) : Int := 1 - (p.bias : Int) - p.mw

/-- Every place of the grid: the significand f on the i-th binade counts i * 2^mw + f patterns from 0. -/
theorem grid_eq (p : FRow) {i f : Nat} (hf : f ≤ 2 ^ (p.mw + 1)) (hi : i = 0 ∨ 2 ^ p.mw ≤ f) :
    p.grid (i * 2 ^ p.mw + f) = f * 2 ^ ((i : Int) + p.low) := by
  have hpos : 0 < 2 ^ p.mw := Nat.two_pow_pos _
  by_cases hlow : f < 2 ^ p.mw
  · have hi0 : i = 0 := hi.resolve_right (by omega)
    subst hi0
    rw [zero_mul, zero_add, FRow.grid, if_pos hlow, Nat.cast_zero, zero_add, FRow.low]
  · obtain ⟨g, rfl⟩ : ∃ g, f = 2 ^ p.mw + g := ⟨f - 2 ^ p.mw, by omega⟩
    rw [pow_succ] at hf
    rw [FRow.grid, if_neg (by nlinarith [Nat.zero_le (i * 2 ^ p.mw)]), show i * 2 ^ p.mw + (2 ^ p.mw + g) = g + 2 ^ p.mw * (i + 1) by ring,
      Nat.add_mul_mod_self_left, Nat.add_mul_div_left _ _ hpos]
    rcases (show g < 2 ^ p.mw ∨ g = 2 ^ p.mw by omega) with hg | hg
    · rw [Nat.mod_eq_of_lt hg, Nat.div_eq_of_lt hg, FRow.low]
      congr 2
      push_cast
      ring
    · rw [hg, Nat.mod_self, Nat.div_self hpos, FRow.low]
      have h2 : (2 : ℚ) ^ (((1 + (i + 1) : Nat) : Int) - p.bias - p.mw) = 2 * 2 ^ ((i : Int) + (1 - p.bias - p.mw)) := by
        rw [← zpow_one_add₀ two_ne_zero]
        congr 1
        push_cast
        ring
      rw [h2]
      push_cast
      ring

/-- A significand rounded on its binade is the value rounded into the format. -/
theorem roundsTo_of_roundsNat {p : FRow} (hmw : 0 < p.mw) {ovt : BitVec 10} {rm : BitVec 2} {neg : Bool} {a : ℝ} {i f c : Nat}
    (hf : f < 2 ^ (p.mw + 1)) (hi : i = 0 ∨ 2 ^ p.mw ≤ f) (h : roundsNat rm neg (a / 2 ^ ((i : Int) + p.low)) f c) :
    roundsTo p ovt rm neg a (if i * 2 ^ p.mw + c ≤ p.max then (p.sign neg + (i * 2 ^ p.mw + c), 0) else (p.over ovt rm neg, 4)) := by
  have hu : (0 : ℝ) < 2 ^ ((i : Int) + p.low) := by positivity
  have hgrid : (p.grid (i * 2 ^ p.mw + f) : ℝ) = f * 2 ^ ((i : Int) + p.low) := by
    rw [grid_eq p hf.le hi]; push_cast; rfl
  have hgrid' : (p.grid (i * 2 ^ p.mw + f + 1) : ℝ) = (f + 1) * 2 ^ ((i : Int) + p.low) := by
    rw [add_assoc, grid_eq p hf (hi.imp id (fun h => h.trans (Nat.le_succ f)))]; push_cast; rfl
  generalize (2 : ℝ) ^ ((i : Int) + p.low) = u at hu h hgrid hgrid'
  obtain ⟨x, rfl⟩ : ∃ x, a = x * u := ⟨a / u, (div_mul_cancel₀ a hu.ne').symm⟩
  rw [mul_div_cancel_right₀ _ hu.ne'] at h
  obtain ⟨⟨hle, hlt⟩, hc, hexact, hmodes⟩ := h
  have hplace : ∀ d, i * 2 ^ p.mw + c = i * 2 ^ p.mw + d ↔ c = d := fun d => Nat.add_left_cancel_iff
  have heven : (i * 2 ^ p.mw + c) % 2 = c % 2 := by
    obtain ⟨n, hn⟩ : ∃ n, p.mw = n + 1 := ⟨p.mw - 1, by omega⟩
    have h2 : i * 2 ^ (n + 1) = 2 * (i * 2 ^ n) := by ring
    rw [hn, h2, Nat.mul_add_mod]
  have hsame : x * u = f * u ↔ x = f := mul_left_inj' hu.ne'
  refine ⟨i * 2 ^ p.mw + f, i * 2 ^ p.mw + c, ?_, ?_, ?_, ?_, ?_, rfl⟩
  · rw [hgrid]; exact mul_le_mul_of_nonneg_right hle hu.le
  · rw [hgrid']; exact mul_lt_mul_of_pos_right hlt hu
  · rw [hplace, add_assoc, hplace]; exact hc
  · rw [hgrid, hsame, hplace]; exact hexact
  · rw [hgrid, hgrid', ne_eq, hsame, heven, add_assoc, hplace, hplace]
    intro hne
    obtain ⟨hnear, hcut, hup, hdown⟩ := hmodes hne
    refine ⟨fun hrm => ?_, hcut, fun hrm => ?_, fun hrm => ?_⟩
    · obtain ⟨hlow, hhigh, htie⟩ := hnear hrm
      refine ⟨fun h => hlow ?_, fun h => hhigh ?_, fun h => htie ?_⟩
      · have h2 : (x - f) * u < 1 / 2 * u := by linarith
        exact lt_of_mul_lt_mul_right h2 hu.le
      · have h2 : 1 / 2 * u < (x - f) * u := by linarith
        exact lt_of_mul_lt_mul_right h2 hu.le
      · have h2 : (x - f) * u = 1 / 2 * u := by linarith
        exact mul_right_cancel₀ hu.ne' h2
    · rw [hup hrm]; cases neg <;> rfl
    · rw [hdown hrm]; cases neg <;> rfl

/-! ## The rounding of a magnitude with its exponent (R71 to R74) -/

theorem bitLen_pos {m : Nat} (hm : 0 < m) : 0 < bitLen m := by rw [bitLen, if_neg hm.ne']; omega
theorem lt_two_pow_bitLen (m : Nat) : m < 2 ^ bitLen m := by
  rw [bitLen]
  split
  · next h => rw [h]; exact Nat.one_pos
  · exact Nat.lt_log2_self
theorem two_pow_le_of_bitLen {m k : Nat} (h : k < bitLen m) : 2 ^ k ≤ m := by
  rw [bitLen] at h
  split at h
  · exact absurd h (Nat.not_lt_zero k)
  · next hm => exact (Nat.pow_le_pow_right two_pos (by omega)).trans (Nat.log2_self_le hm)

/-- The exponent of the last place that a magnitude m * 2^e is rounded at (R72, R73). -/
def roundPlace (p : FRow) (m : Nat) (e : Int) : Int := max ((bitLen m : Int) - 1 + e - p.mw) p.low
/-- Its significand there, rounded. -/
def roundSignif (p : FRow) (rm : BitVec 2) (neg : Bool) (m : Nat) (e : Int) : Nat :=
  if roundPlace p m e ≤ e then m <<< (e - roundPlace p m e).toNat else dropBits rm neg m (roundPlace p m e - e).toNat
/-- The binade of a place. -/
def roundBinade (p : FRow) (m : Nat) (e : Int) : Nat := (roundPlace p m e - p.low).toNat

theorem binade_cast (p : FRow) (m : Nat) (e : Int) : (roundBinade p m e : Int) + p.low = roundPlace p m e := by
  have h : p.low ≤ roundPlace p m e := le_max_right _ _
  rw [roundBinade, Int.toNat_of_nonneg (by omega)]
  omega

/-- The pattern that roundFin gives, in one form for subnormal, normal and carried significands. -/
theorem roundFin_eq {p : FRow} (hp : p ∈ fTable) (ovt : BitVec 10) (rm : BitVec 2) (neg : Bool) (m : Nat) (e : Int)
    (hi : roundBinade p m e = 0 ∨ 2 ^ p.mw ≤ roundSignif p rm neg m e) :
    roundFin ovt p.code rm neg m e =
      if roundBinade p m e * 2 ^ p.mw + roundSignif p rm neg m e ≤ p.max then (p.sign neg + (roundBinade p m e * 2 ^ p.mw + roundSignif p rm neg m e), 0)
      else (p.over ovt rm neg, 4) := by
  have h := fTable_held p hp
  have hplace := binade_cast p m e
  have hgrid : roundGrid p.mw p.low rm neg m e =
      if roundSignif p rm neg m e = 2 ^ (p.mw + 1) then (2 ^ p.mw, roundPlace p m e + 1) else (roundSignif p rm neg m e, roundPlace p m e) := rfl
  rw [roundFin, h.fmt]
  dsimp only
  rw [show (1 : Int) - (p.bias : Int) - p.mw = p.low from rfl, hgrid, h.max, overflowBits_eq hp, h.signBit, ← hplace]
  generalize roundSignif p rm neg m e = r at hi ⊢
  generalize roundBinade p m e = i at hi ⊢
  have hpos : 0 < 2 ^ p.mw := Nat.two_pow_pos _
  have hover : ∀ b c : Nat, b = c → (if p.max < b then (p.over ovt rm neg, fOF) else (p.sign neg + b, 0)) =
      if c ≤ p.max then (p.sign neg + c, 0) else (p.over ovt rm neg, 4) := by
    rintro b c rfl
    by_cases hc : b ≤ p.max
    · rw [if_pos hc, if_neg (by omega)]
    · rw [if_neg hc, if_pos (by omega)]; rfl
  refine hover _ _ ?_
  by_cases hcarry : r = 2 ^ (p.mw + 1)
  · rw [if_pos hcarry]
    dsimp only
    rw [if_neg (lt_irrefl _), hcarry, show ((i : Int) + p.low + 1 - p.low + 1).toNat = i + 2 by omega, pow_succ, Nat.sub_self]
    ring
  · rw [if_neg hcarry]
    dsimp only
    by_cases hsub : r < 2 ^ p.mw
    · rw [if_pos hsub, hi.resolve_right (by omega), zero_mul, zero_add]
    · rw [if_neg hsub, show ((i : Int) + p.low - p.low + 1).toNat = i + 1 by omega, add_mul, one_mul]
      omega

/-- The real a compares with every multiple of 2^(e + k) as the magnitude m * 2^e does. -/
def meets (a : ℝ) (m : Nat) (e : Int) (k : Nat) : Prop :=
  ∀ t : Nat, ((t : ℝ) * 2 ^ (e + k) ≤ a ↔ t * 2 ^ k ≤ m) ∧ ((t : ℝ) * 2 ^ (e + k) = a ↔ t * 2 ^ k = m)

theorem meets_self (m : Nat) (e : Int) : meets ((m : ℝ) * 2 ^ e) m e 0 := by
  intro t
  have hu : (0 : ℝ) < 2 ^ e := by positivity
  rw [Nat.cast_zero, add_zero, pow_zero, mul_one, mul_le_mul_iff_left₀ hu, mul_left_inj' hu.ne', Nat.cast_le, Nat.cast_inj]
  exact ⟨Iff.rfl, Iff.rfl⟩
theorem eq_of_meets {a : ℝ} {m : Nat} {e : Int} (h : meets a m e 0) : a = m * 2 ^ e := by
  have := (h m).2.mpr (by rw [pow_zero, mul_one])
  rw [← this, Nat.cast_zero, add_zero]
/-- At a coarser place the real compares with integers and midpoints as the magnitude does. -/
theorem agrees_of_meets {a : ℝ} {m k d : Nat} {e : Int} (h : meets a m e k) (hd : k ≤ d) : agrees (2 * (a / 2 ^ (e + d + 1))) m (2 ^ d) := by
  intro t
  obtain ⟨j, rfl⟩ : ∃ j, d = j + k := ⟨d - k, by omega⟩
  have hu : (0 : ℝ) < 2 ^ (e + (j + k : Nat)) := by positivity
  have hy : 2 * (a / 2 ^ (e + (j + k : Nat) + 1)) = a / 2 ^ (e + (j + k : Nat)) := by
    rw [zpow_add_one₀ two_ne_zero]
    field_simp
  have ht : ((t * 2 ^ j : Nat) : ℝ) * 2 ^ (e + k) = t * 2 ^ (e + (j + k : Nat)) := by
    have h2 : (2 : ℝ) ^ (e + (j + k : Nat)) = 2 ^ j * 2 ^ (e + (k : Int)) := by
      rw [← zpow_natCast, ← zpow_add₀ two_ne_zero]
      congr 1
      push_cast
      ring
    rw [h2]
    push_cast
    ring
  obtain ⟨hle, heq⟩ := h (t * 2 ^ j)
  rw [ht, mul_assoc, ← pow_add] at hle heq
  rw [hy, le_div_iff₀ hu, eq_div_iff hu.ne']
  exact ⟨hle, heq⟩

/-- The significand at its place: what it is the floor of, its size, and that it is rounded there. -/
theorem signif_spec {p : FRow} {rm : BitVec 2} {neg : Bool} {a : ℝ} {m k : Nat} {e : Int} (hm : 0 < m) (h : meets a m e k)
    (hk : k = 0 ∨ p.mw + 1 + k < bitLen m) :
    ∃ f, f < 2 ^ (p.mw + 1) ∧ (roundBinade p m e = 0 ∨ 2 ^ p.mw ≤ f) ∧ roundsNat rm neg (a / 2 ^ roundPlace p m e) f (roundSignif p rm neg m e) := by
  have hlen := bitLen_pos hm
  have hplace := binade_cast p m e
  have htop : (bitLen m : Int) - 1 + e - p.mw ≤ roundPlace p m e := le_max_left _ _
  have hnormal : roundBinade p m e = 0 ∨ roundPlace p m e = (bitLen m : Int) - 1 + e - p.mw := by
    rcases max_choice ((bitLen m : Int) - 1 + e - p.mw) p.low with hmax | hmax
    · exact Or.inr hmax
    · refine Or.inl ?_
      rw [roundBinade, show roundPlace p m e = p.low from hmax, sub_self]; rfl
  by_cases hle : roundPlace p m e ≤ e
  · obtain ⟨j, hj⟩ : ∃ j : Nat, e = roundPlace p m e + j := ⟨(e - roundPlace p m e).toNat, by omega⟩
    have hk0 : k = 0 := hk.resolve_right (by omega)
    subst hk0
    have hs : roundSignif p rm neg m e = m * 2 ^ j := by
      rw [roundSignif, if_pos hle, Nat.shiftLeft_eq, show (e - roundPlace p m e).toNat = j by omega]
    have ha : a / 2 ^ roundPlace p m e = (m * 2 ^ j : Nat) := by
      rw [eq_of_meets h, div_eq_iff (by positivity)]
      conv_lhs => rw [hj, zpow_add₀ two_ne_zero, zpow_natCast]
      push_cast
      ring
    refine ⟨m * 2 ^ j, ?_, hnormal.imp id (fun hn => ?_), ?_⟩
    · calc m * 2 ^ j < 2 ^ bitLen m * 2 ^ j := Nat.mul_lt_mul_of_pos_right (lt_two_pow_bitLen m) (Nat.two_pow_pos j)
        _ = 2 ^ (bitLen m + j) := (pow_add 2 _ _).symm
        _ ≤ 2 ^ (p.mw + 1) := Nat.pow_le_pow_right two_pos (by omega)
    · calc 2 ^ p.mw = 2 ^ (bitLen m - 1) * 2 ^ j := by rw [← pow_add]; congr 1; omega
        _ ≤ m * 2 ^ j := Nat.mul_le_mul_right _ (two_pow_le_of_bitLen (by omega))
    · rw [hs, ha]
      exact roundsNat_self rm neg _
  · obtain ⟨d, hd⟩ : ∃ d : Nat, roundPlace p m e = e + d + 1 := ⟨(roundPlace p m e - e - 1).toNat, by omega⟩
    have hs : roundSignif p rm neg m e = dropBits rm neg m (d + 1) := by
      rw [roundSignif, if_neg hle, show (roundPlace p m e - e).toNat = d + 1 by omega]
    refine ⟨m / 2 ^ (d + 1), ?_, hnormal.imp id (fun hn => ?_), ?_⟩
    · rw [Nat.div_lt_iff_lt_mul (Nat.two_pow_pos _), ← pow_add]
      exact (lt_two_pow_bitLen m).trans_le (Nat.pow_le_pow_right two_pos (by omega))
    · rw [Nat.le_div_iff_mul_le (Nat.two_pow_pos _), ← pow_add]
      exact two_pow_le_of_bitLen (by omega)
    · rw [hs, hd]
      exact dropBits_rounds (agrees_of_meets h (by omega))

theorem roundsNat_le {rm : BitVec 2} {neg : Bool} {x : ℝ} {f c : Nat} (h : roundsNat rm neg x f c) : f ≤ c := by
  obtain ⟨_, hc, _⟩ := h
  omega

/-- One rounding into a format (R71 to R74): of the magnitude itself, and of every real that a sticky magnitude stands for. -/
theorem roundFin_rounds {p : FRow} (hp : p ∈ fTable) (ovt : BitVec 10) (rm : BitVec 2) (neg : Bool) {a : ℝ} {m k : Nat} {e : Int} (hm : 0 < m)
    (h : meets a m e k) (hk : k = 0 ∨ p.mw + 1 + k < bitLen m) : roundsTo p ovt rm neg a (roundFin ovt p.code rm neg m e) := by
  obtain ⟨f, hf, hi, hrounds⟩ := signif_spec (rm := rm) (neg := neg) hm h hk
  rw [roundFin_eq hp ovt rm neg m e (hi.imp id (fun hn => hn.trans (roundsNat_le hrounds)))]
  refine roundsTo_of_roundsNat (fTable_held p hp).mw_pos hf hi ?_
  rw [binade_cast]
  exact hrounds
end Sys2Proof.Machine

namespace Sys2Proof.Machine

/-! ## Rounding of a value into a format (R67, R74, R79, R142) -/

section
variable {p : FRow} (hp : p ∈ fTable) (ovt : BitVec 10) (rm : BitVec 2)
include hp

theorem roundF_nan : roundF ovt p.code rm .nan = (p.nan, 0) := by
  rw [roundF, (fTable_held p hp).nan]
theorem roundF_inf (neg : Bool) : roundF ovt p.code rm (.inf neg) = if p.code = 3 then (p.over ovt rm neg, 4) else (p.inf neg, 0) := by
  have h := fTable_held p hp
  rw [roundF, h.fmt, overflowBits_eq hp, h.infBits]
  simp only [decide_eq_true_eq]
  rfl
theorem roundF_zero (neg : Bool) (e : Int) : roundF ovt p.code rm (.fin neg 0 e) = (p.sign neg, 0) := by
  rw [roundF, if_pos rfl, (fTable_held p hp).signBit]
omit hp in
theorem roundF_nonzero (f : BitVec 4) (neg : Bool) {m : Nat} (hm : 0 < m) (e : Int) : roundF ovt f rm (.fin neg m e) = roundFin ovt f rm neg m e := by
  rw [roundF, if_neg hm.ne']

theorem fmaRound_spec (a b c : FVal) :
    ((mulF a b).2 = true → fmaRound ovt p.code rm a b c = (p.nan, 1)) ∧
    ((mulF a b).2 = false → a = .nan ∨ b = .nan ∨ c = .nan → fmaRound ovt p.code rm a b c = (p.nan, 0)) ∧
    ((mulF a b).2 = false → a ≠ .nan → b ≠ .nan → c ≠ .nan → fmaRound ovt p.code rm a b c = sumRound ovt p.code rm [(mulF a b).1, c]) := by
  have h := fTable_held p hp
  have hnan : anyNan [a, b, c] = true ↔ a = .nan ∨ b = .nan ∨ c = .nan := by simp [anyNan]
  refine ⟨fun hiv => ?_, fun hiv hn => ?_, fun hiv ha hb hc => ?_⟩
  · rw [fmaRound, hiv, if_pos rfl, h.nan]; rfl
  · rw [fmaRound, hiv, if_neg Bool.false_ne_true, if_pos (hnan.mpr hn), h.nan]
  · rw [fmaRound, hiv, if_neg Bool.false_ne_true, if_neg (fun hn => by have := hnan.mp hn; tauto)]
end

theorem mulF_specials (a b : Bool) (m n : Nat) (d e : Int) (x : FVal) :
    mulF .nan x = (.nan, false) ∧ mulF x .nan = (.nan, false) ∧ mulF (.inf a) (.inf b) = (.inf (a != b), false) ∧
    mulF (.inf a) (.fin b n e) = (if n = 0 then (.nan, true) else (.inf (a != b), false)) ∧
    mulF (.fin a m d) (.inf b) = (if m = 0 then (.nan, true) else (.inf (a != b), false)) := by
  refine ⟨rfl, by cases x <;> rfl, rfl, rfl, ?_⟩
  rw [bne_comm]; rfl

/-! ## Conversion (R73, R75, R76) -/

/-- A magnitude rounded to an integer gives its value rounded, with its sign (R71, R76). -/
theorem roundsToInt_of_roundsNat {rm : BitVec 2} {neg : Bool} {y : ℚ} {f c : Nat} (h : roundsNat rm neg y f c) :
    roundsToInt rm (if neg then -y else y) (if neg then -(c : Int) else c) := by
  obtain ⟨⟨hle, hlt⟩, hc, hexact, hmodes⟩ := h
  have hle : (f : ℚ) ≤ y := by exact_mod_cast hle
  have hlt : y < f + 1 := by exact_mod_cast hlt
  have hfloor : ⌊y⌋ = f := Int.floor_eq_iff.mpr ⟨by exact_mod_cast hle, by exact_mod_cast hlt⟩
  have hnn : (0 : ℚ) ≤ y := (Nat.cast_nonneg f).trans hle
  by_cases hy : y = f
  · have hcf : c = f := hexact (by rw [hy]; push_cast; rfl)
    have hz : (if neg then -y else y) = ((if neg then -(c : Int) else c : Int) : ℚ) := by
      rw [hy, hcf]; cases neg <;> simp
    rw [hz]
    refine ⟨fun _ => ⟨by norm_num, fun h => by norm_num at h⟩, fun _ => ?_, fun _ => (Int.ceil_intCast _).symm, fun _ => (Int.floor_intCast _).symm⟩
    rw [Int.ceil_intCast, Int.floor_intCast, ite_self]
  · have hyr : (y : ℝ) ≠ f := by exact_mod_cast hy
    obtain ⟨hnear, hcut, hup, hdown⟩ := hmodes hyr
    have hceil : ⌈y⌉ = f + 1 := by
      refine Int.ceil_eq_iff.mpr ⟨?_, ?_⟩
      · push_cast; rw [add_sub_cancel_right]; exact lt_of_le_of_ne hle (Ne.symm hy)
      · push_cast; exact hlt.le
    have hpos : 0 < y := lt_of_le_of_ne hnn (fun h0 => hy (by
      have : f = 0 := by have := hle; rw [← h0] at this; exact_mod_cast le_antisymm this (Nat.cast_nonneg f)
      rw [this, ← h0]; simp))
    refine ⟨fun hrm => ?_, fun hrm => ?_, fun hrm => ?_, fun hrm => ?_⟩
    · obtain ⟨hlow, hhigh, htie⟩ := hnear hrm
      have habs : |(if neg then -y else y) - ((if neg then -(c : Int) else c : Int) : ℚ)| = |y - c| := by
        cases neg
        · simp
        · simp only [if_true]; push_cast; rw [← abs_neg]; congr 1; ring
      have hpar : (if neg then -(c : Int) else c : Int) % 2 = 0 ↔ c % 2 = 0 := by cases neg <;> simp <;> omega
      rw [habs, hpar]
      rcases lt_trichotomy (y - f) (1 / 2) with hd | hd | hd
      · have hcf : c = f := hlow (by simpa using (Rat.cast_lt (K := ℝ)).mpr hd)
        rw [hcf, abs_of_nonneg (by linarith)]
        exact ⟨hd.le, fun h => absurd h hd.ne⟩
      · have heven : c % 2 = 0 := htie (by simpa using congrArg (Rat.cast : ℚ → ℝ) hd)
        refine ⟨?_, fun _ => heven⟩
        rcases hc with rfl | rfl
        · rw [abs_of_nonneg (by linarith)]; exact hd.le
        · rw [abs_of_nonpos (by push_cast; linarith)]; push_cast; linarith
      · have hcf : c = f + 1 := hhigh (by simpa using (Rat.cast_lt (K := ℝ)).mpr hd)
        rw [hcf, abs_of_nonpos (by push_cast; linarith)]
        push_cast
        exact ⟨by linarith, fun h => by linarith⟩
    · rw [hcut hrm]
      cases neg
      · simp only [Bool.false_eq_true, if_false, if_neg (not_lt.mpr hnn), hfloor]
      · simp only [if_true, if_pos (neg_lt_zero.mpr hpos), Int.ceil_neg, hfloor]
    · rw [hup hrm]
      cases neg
      · simp [hceil]
      · simp [Int.ceil_neg, hfloor]
    · rw [hdown hrm]
      cases neg
      · simp [hfloor]
      · simp [Int.floor_neg, hceil]

theorem roundInt_rounds (rm : BitVec 2) (neg : Bool) (m : Nat) (e : Int) : roundsToInt rm (FVal.fin neg m e).q (roundInt rm neg m e) := by
  have hq : (FVal.fin neg m e).q = if neg then -((m : ℚ) * 2 ^ e) else (m : ℚ) * 2 ^ e := by cases neg <;> simp [FVal.q]
  have hcast : (((m : ℚ) * 2 ^ e : ℚ) : ℝ) = m * 2 ^ e := by push_cast; rfl
  rw [hq, roundInt]
  by_cases he : 0 ≤ e
  · rw [if_pos he]
    refine roundsToInt_of_roundsNat (f := m <<< e.toNat) ?_
    have hval : (m : ℝ) * 2 ^ e = ((m <<< e.toNat : Nat) : ℝ) := by
      rw [Nat.shiftLeft_eq]
      conv_lhs => rw [← Int.toNat_of_nonneg he, zpow_natCast]
      push_cast; rfl
    rw [hcast, hval]
    exact roundsNat_self rm neg _
  · rw [if_neg he]
    obtain ⟨d, rfl⟩ : ∃ d : Nat, e = -(d : Int) - 1 := ⟨(-e - 1).toNat, by omega⟩
    rw [show (-(-(d : Int) - 1)).toNat = d + 1 by omega]
    have h := agrees_of_meets (meets_self m (-(d : Int) - 1)) (Nat.zero_le d)
    rw [show -(d : Int) - 1 + d + 1 = 0 by omega, zpow_zero, div_one] at h
    refine roundsToInt_of_roundsNat (f := m / 2 ^ (d + 1)) ?_
    rw [hcast]
    exact dropBits_rounds h

/-- The low bits of an integer, as a pattern of an integer format. -/
def patI (w : Nat) (i : Int) : Nat := (i % 2 ^ w).toNat
/-- What the last step of a conversion to a format of the table gives (R75, R76). -/
def fits (q : BitVec 4 × Nat × Bool) (ovt : BitVec 10) (n : Int) (r : Nat × Flags) : Prop :=
  r = if iLow q.2.1 q.2.2 ≤ n ∧ n ≤ iHigh q.2.1 q.2.2 then (patI q.2.1 n, 0)
      else if q.1 = 7 ∧ ovt.extractLsb' 8 2 = 1 then (patI q.2.1 n, 8)
      else (patI q.2.1 (if n < iLow q.2.1 q.2.2 then iLow q.2.1 q.2.2 else iHigh q.2.1 q.2.2), 8)

theorem iLow_le_iHigh (w : Nat) (sg : Bool) : iLow w sg ≤ iHigh w sg := by
  have h1 : (1 : Int) ≤ 2 ^ (w - 1) := one_le_pow₀ (by norm_num)
  have h2 : (1 : Int) ≤ 2 ^ w := one_le_pow₀ (by norm_num)
  cases sg <;> simp only [iLow, iHigh, if_true, Bool.false_eq_true, if_false] <;> omega

theorem fitInt_fits {q : BitVec 4 × Nat × Bool} (hq : q ∈ iTable) (ovt : BitVec 10) (n : Int) : fits q ovt n (fitInt ovt q.1 n) := by
  have hle := iLow_le_iHigh q.2.1 q.2.2
  have hwrap : (natFld ovt.toNat 8 2 = 1) ↔ ovt.extractLsb' 8 2 = 1 := by
    rw [natFld_extract, ← BitVec.toNat_inj]; rfl
  rw [fits, fitInt, minI_eq hq, maxI_eq hq, wrapI_eq hq, satI_eq hq]
  simp only [hwrap]
  split
  · rfl
  · next hout =>
    split
    · rfl
    · rw [patI]
      congr 3
      split
      · rw [min_eq_right (by omega), max_eq_left (by omega)]
      · rw [min_eq_left (by omega), max_eq_right hle]


/-- Conversion from a float format to an integer format (R76). -/
theorem convert_toInt {p : FRow} (hp : p ∈ fTable) {q : BitVec 4 × Nat × Bool} (hq : q ∈ iTable) (ovt : BitVec 10) (rm : BitVec 2) (v : Nat) :
    (decodeF p.code v = .nan → convert ovt p.code q.1 rm v = (0, 1)) ∧
    (∀ neg, decodeF p.code v = .inf neg → convert ovt p.code q.1 rm v = (patI q.2.1 (if neg then iLow q.2.1 q.2.2 else iHigh q.2.1 q.2.2), 8)) ∧
    (∀ neg m e, decodeF p.code v = .fin neg m e → ∃ n : Int, roundsToInt rm (FVal.fin neg m e).q n ∧ fits q ovt n (convert ovt p.code q.1 rm v)) := by
  obtain ⟨_, _, hint, _⟩ := iTable_held q hq
  refine ⟨fun h => ?_, fun neg h => ?_, fun neg m e h => ⟨_, roundInt_rounds rm neg m e, ?_⟩⟩
  · rw [convert, (fTable_held p hp).float, hint, h]; rfl
  · rw [convert, (fTable_held p hp).float, hint, h, ← minI_eq hq, ← maxI_eq hq, patI, ← wrapI_eq hq]; rfl
  · rw [convert, (fTable_held p hp).float, hint, h]
    exact fitInt_fits hq ovt _
theorem intF_q (i : Int) : (intF i).q = i := by rw [intF, q_ofInt, zpow_zero, mul_one]
/-- Conversion from an integer format (R73, R75). -/
theorem convert_ofInt {p : FRow} (hp : p ∈ fTable) {q : BitVec 4 × Nat × Bool} (hq : q ∈ iTable) (ovt : BitVec 10) (rm : BitVec 2) (v : Nat) :
    (∃ n m e, convert ovt q.1 p.code rm v = roundF ovt p.code rm (.fin n m e) ∧ (FVal.fin n m e).q = decodeI q.1 v ∧ (m = 0 → n = false)) ∧
    ∀ q' ∈ iTable, fits q ovt (decodeI q'.1 v) (convert ovt q'.1 q.1 rm v) := by
  obtain ⟨_, _, hint, _⟩ := iTable_held q hq
  refine ⟨⟨_, _, _, ?_, intF_q (decodeI q.1 v), fun h => ?_⟩, fun q' hq' => ?_⟩
  · rw [convert, hint, if_neg Bool.false_ne_true, (fTable_held p hp).float]; rfl
  · rw [Int.natAbs_eq_zero.mp h]; rfl
  · rw [convert, (iTable_held q' hq').2.2.1, hint]
    exact fitInt_fits hq ovt _

/-! ## Order (R110, R142) -/

section
variable {n n' : Bool} {m m' : Nat} {e e' : Int}

theorem cmpF_fin : cmpF (.fin n m e) (.fin n' m' e') = compare (FVal.fin n m e).q (FVal.fin n' m' e').q := by
  have hu : (0 : ℚ) < 2 ^ min e e' := by positivity
  rw [← scaled_mul_zpow (min_le_left e e') n m, ← scaled_mul_zpow (min_le_right e e') n' m']
  show compare (scaled (min e e') (.fin n m e)) (scaled (min e e') (.fin n' m' e')) = _
  generalize scaled (min e e') (.fin n m e) = x
  generalize scaled (min e e') (.fin n' m' e') = y
  rcases lt_trichotomy x y with h | h | h
  · rw [compare_lt_iff_lt.mpr h, compare_lt_iff_lt.mpr (mul_lt_mul_of_pos_right (Int.cast_lt.mpr h) hu)]
  · rw [compare_eq_iff_eq.mpr h, h, compare_eq_iff_eq.mpr rfl]
  · rw [compare_gt_iff_gt.mpr h, compare_gt_iff_gt.mpr (mul_lt_mul_of_pos_right (Int.cast_lt.mpr h) hu)]

variable {p : FRow} {a b : Nat} (ha : decodeF p.code a = .fin n m e) (hb : decodeF p.code b = .fin n' m' e')
include ha hb

theorem minBits_fin : minBits p.code a b = if leF (.fin n m e) (.fin n' m' e') then a else b := by
  rw [minBits, ha, hb]; rfl
theorem maxBits_fin : maxBits p.code a b = if leF (.fin n m e) (.fin n' m' e') then b else a := by
  rw [maxBits, ha, hb]; rfl
theorem minBits_maxBits_lt (h : (FVal.fin n m e).q < (FVal.fin n' m' e').q) : minBits p.code a b = a ∧ maxBits p.code a b = b := by
  have hle : leF (.fin n m e) (.fin n' m' e') = true := by
    unfold leF
    rw [cmpF_fin, compare_lt_iff_lt.mpr h]
  rw [minBits_fin ha hb, maxBits_fin ha hb, hle]
  exact ⟨rfl, rfl⟩
theorem minBits_maxBits_gt (h : (FVal.fin n' m' e').q < (FVal.fin n m e).q) : minBits p.code a b = b ∧ maxBits p.code a b = a := by
  have hle : leF (.fin n m e) (.fin n' m' e') = false := by
    unfold leF
    rw [cmpF_fin, compare_gt_iff_gt.mpr h]
  rw [minBits_fin ha hb, maxBits_fin ha hb, hle]
  exact ⟨rfl, rfl⟩
/-- Of two zeros the negative one is the smaller. -/
theorem minBits_maxBits_zero (hm : m = 0) (hm' : m' = 0) :
    minBits p.code a b = (if n || !n' then a else b) ∧ maxBits p.code a b = (if n || !n' then b else a) := by
  subst hm hm'
  have hle : leF (.fin n 0 e) (.fin n' 0 e') = (n || !n') := by
    rw [leF, cmpF_fin, q_zero, q_zero, compare_eq_iff_eq.mpr rfl]
  rw [minBits_fin ha hb, maxBits_fin ha hb, hle]
  exact ⟨rfl, rfl⟩
end

theorem minBits_maxBits_nan {p : FRow} (hp : p ∈ fTable) {a b : Nat} (h : decodeF p.code a = .nan ∨ decodeF p.code b = .nan) :
    minBits p.code a b = p.nan ∧ maxBits p.code a b = p.nan := by
  have hn : anyNan [decodeF p.code a, decodeF p.code b] = true := by rw [anyNan_iff]; simpa [eq_comm] using h
  rw [minBits, maxBits, if_pos hn, if_pos hn, (fTable_held p hp).nan]
  exact ⟨rfl, rfl⟩

/-! ## Quotient and square root (R79, R161) -/

theorem lt_bitLen {m k : Nat} (h : 2 ^ k ≤ m) : k < bitLen m := by
  by_contra hc
  exact absurd ((lt_two_pow_bitLen m).trans_le (Nat.pow_le_pow_right two_pos (not_lt.mp hc))) (not_lt.mpr h)

/-- A floor with a sticky lowest bit compares with every even number as the real that it stands for. -/
theorem meets_sticky {a : ℝ} {f : Nat} {exact : Prop} [Decidable exact] {e : Int} (hle : ∀ t : Nat, (t : ℝ) * 2 ^ (e + 1) ≤ a ↔ t ≤ f)
    (heq : ∀ t : Nat, (t : ℝ) * 2 ^ (e + 1) = a ↔ exact ∧ t = f) : meets a (2 * f + if exact then 0 else 1) e 1 := by
  intro t
  rw [Nat.cast_one, hle, heq, pow_one]
  by_cases h : exact
  · rw [if_pos h]; exact ⟨by omega, ⟨by omega, fun _ => ⟨h, by omega⟩⟩⟩
  · rw [if_neg h]; exact ⟨by omega, ⟨fun hc => absurd hc.1 h, by omega⟩⟩

/-- The exact quotient as its magnitude stands for it. -/
theorem divMag_meets {m m' : Nat} (hm' : 0 < m') (e e' : Int) :
    meets (((m : ℝ) * 2 ^ e) / (m' * 2 ^ e')) (divMag m e m' e').1 (divMag m e m' e').2 1 := by
  obtain ⟨k, hk⟩ : ∃ k, k = 96 + bitLen m' := ⟨_, rfl⟩
  have hdiv : divMag m e m' e' = (2 * ((m <<< k) / m') + (if m <<< k % m' = 0 then 0 else 1), e - e' - k - 1) := by rw [divMag, ← hk]
  rw [hdiv, Nat.shiftLeft_eq]
  have hu : (0 : ℝ) < 2 ^ (e - e' - k) := by positivity
  have hpos : (0 : ℝ) < m' := by exact_mod_cast hm'
  have ha : ((m : ℝ) * 2 ^ e) / (m' * 2 ^ e') = ((m * 2 ^ k : Nat) : ℝ) / m' * 2 ^ (e - e' - k) := by
    rw [zpow_sub₀ two_ne_zero, zpow_sub₀ two_ne_zero, zpow_natCast]
    push_cast
    field_simp
  generalize m * 2 ^ k = n at ha
  rw [ha]
  refine meets_sticky (fun t => ?_) (fun t => ?_)
  · rw [sub_add_cancel, mul_le_mul_iff_left₀ hu, le_div_iff₀ hpos, Nat.le_div_iff_mul_le hm']
    exact_mod_cast Iff.rfl
  · rw [sub_add_cancel, mul_left_inj' hu.ne', eq_div_iff hpos.ne', ← Nat.dvd_iff_mod_eq_zero]
    constructor
    · intro h
      have h : t * m' = n := by exact_mod_cast h
      exact ⟨⟨t, by rw [← h, mul_comm]⟩, by rw [← h, Nat.mul_div_cancel _ hm']⟩
    · rintro ⟨hd, rfl⟩
      exact_mod_cast Nat.div_mul_cancel hd
theorem divMag_large {m m' : Nat} (hm : 0 < m) (hm' : 0 < m') (e e' : Int) : 2 ^ 96 ≤ (divMag m e m' e').1 := by
  have hq : 2 ^ 96 ≤ (m <<< (96 + bitLen m')) / m' := by
    rw [Nat.le_div_iff_mul_le hm', Nat.shiftLeft_eq, pow_add]
    calc 2 ^ 96 * m' ≤ 2 ^ 96 * 2 ^ bitLen m' := Nat.mul_le_mul_left _ (lt_two_pow_bitLen m').le
      _ ≤ m * (2 ^ 96 * 2 ^ bitLen m') := Nat.le_mul_of_pos_left _ hm
  rw [divMag]
  dsimp only
  generalize (m <<< (96 + bitLen m')) / m' = d at hq ⊢
  omega

/-- Bisection ends at the integer square root. -/
theorem isqrtGo_spec (n : Nat) : ∀ (k r : Nat), r * r ≤ n → n < (r + 2 ^ k) * (r + 2 ^ k) →
    isqrtGo n k r * isqrtGo n k r ≤ n ∧ n < (isqrtGo n k r + 1) * (isqrtGo n k r + 1)
  | 0, r, hle, hlt => ⟨hle, hlt⟩
  | k + 1, r, hle, hlt => by
    rw [isqrtGo]
    split
    · next h =>
      refine isqrtGo_spec n k _ h ?_
      rw [add_assoc, ← two_mul, ← pow_succ']
      exact hlt
    · next h => exact isqrtGo_spec n k r hle (not_le.mp h)
theorem isqrt_spec (n : Nat) : isqrt n = Nat.sqrt n := by
  have hlt : n < (0 + 2 ^ (bitLen n / 2 + 1)) * (0 + 2 ^ (bitLen n / 2 + 1)) := by
    rw [zero_add, ← pow_add]
    exact (lt_two_pow_bitLen n).trans_le (Nat.pow_le_pow_right two_pos (by omega))
  obtain ⟨h1, h2⟩ := isqrtGo_spec n (bitLen n / 2 + 1) 0 (Nat.zero_le _) hlt
  exact (Nat.eq_sqrt.mpr ⟨h1, h2⟩)

/-- The exact square root as its magnitude stands for it. -/
theorem sqrtMag_meets (m : Nat) (e : Int) : meets (Real.sqrt ((m : ℝ) * 2 ^ e)) (sqrtMag m e).1 (sqrtMag m e).2 1 := by
  obtain ⟨k, hk⟩ : ∃ k : Nat, k = if (e - 192) % 2 = 0 then 192 else 193 := ⟨_, rfl⟩
  obtain ⟨j, hj⟩ : ∃ j : Int, e - k = 2 * j := ⟨(e - k) / 2, by split at hk <;> omega⟩
  have hs : sqrtMag m e = (2 * Nat.sqrt (m <<< k) + (if Nat.sqrt (m <<< k) * Nat.sqrt (m <<< k) = m <<< k then 0 else 1), j - 1) := by
    rw [sqrtMag, ← hk, isqrt_spec, hj, Int.mul_ediv_cancel_left _ two_ne_zero]
  have hu : (0 : ℝ) < 2 ^ j := by positivity
  have hval : (m : ℝ) * 2 ^ e = ((m * 2 ^ k : Nat) : ℝ) * (2 ^ j) ^ 2 := by
    rw [← zpow_natCast ((2 : ℝ) ^ j), ← zpow_mul, show e = k + j * ((2 : Nat) : Int) by push_cast; omega, zpow_add₀ two_ne_zero, zpow_natCast]
    push_cast
    ring
  rw [hs, hval, Nat.shiftLeft_eq, Real.sqrt_mul (Nat.cast_nonneg _), Real.sqrt_sq hu.le]
  generalize m * 2 ^ k = n
  refine meets_sticky (fun t => ?_) (fun t => ?_)
  · rw [sub_add_cancel, mul_le_mul_iff_left₀ hu, Real.le_sqrt (Nat.cast_nonneg t), Nat.le_sqrt, ← pow_two]
    · exact_mod_cast Iff.rfl
    · exact Nat.cast_nonneg n
  · rw [sub_add_cancel, mul_left_inj' hu.ne', eq_comm, Real.sqrt_eq_iff_eq_sq (Nat.cast_nonneg n) (Nat.cast_nonneg t)]
    constructor
    · intro h
      have h : n = t * t := by rw [← pow_two]; exact_mod_cast h
      rw [h, Nat.sqrt_eq]
      exact ⟨rfl, rfl⟩
    · rintro ⟨h, rfl⟩
      rw [← h, Nat.sqrt_eq]
      push_cast
      ring
theorem sqrtMag_large {m : Nat} (hm : 0 < m) (e : Int) : 2 ^ 96 ≤ (sqrtMag m e).1 := by
  obtain ⟨k, hk⟩ : ∃ k : Nat, k = if (e - 192) % 2 = 0 then 192 else 193 := ⟨_, rfl⟩
  have hk' : 192 ≤ k := by split at hk <;> omega
  have hr : 2 ^ 96 ≤ Nat.sqrt (m <<< k) := by
    rw [Nat.le_sqrt, ← pow_add, Nat.shiftLeft_eq]
    exact (Nat.pow_le_pow_right two_pos hk').trans (Nat.le_mul_of_pos_left _ hm)
  rw [sqrtMag, ← hk, isqrt_spec]
  dsimp only
  generalize Nat.sqrt (m <<< k) = d at hr ⊢
  omega

section
variable {p : FRow} (hp : p ∈ fTable) (ovt : BitVec 10) (rm : BitVec 2)
include hp

/-- A sticky magnitude of 97 bits or more is rounded as the real that it stands for. -/
theorem roundF_sticky (neg : Bool) {a : ℝ} {q : Nat × Int} (h : meets a q.1 q.2 1) (hq : 2 ^ 96 ≤ q.1) :
    roundsTo p ovt rm neg a (roundF ovt p.code rm (.fin neg q.1 q.2)) := by
  have hlen := lt_bitLen hq
  have hmw := (fTable_held p hp).mw_le
  have hpos : 0 < q.1 := (Nat.two_pow_pos 96).trans_le hq
  rw [roundF_nonzero ovt rm p.code neg hpos]
  exact roundFin_rounds hp ovt rm neg hpos h (Or.inr (by omega))

theorem sfDivElem_rounds {a b : Nat} {n n' : Bool} {m m' : Nat} {e e' : Int} (ha : decodeF p.code a = .fin n m e)
    (hb : decodeF p.code b = .fin n' m' e') (hm : 0 < m) (hm' : 0 < m') :
    roundsTo p ovt rm (n != n') ((|(FVal.fin n m e).q / (FVal.fin n' m' e').q| : ℚ) : ℝ) (sfDivElem ovt p.code rm a b) := by
  have hq : ∀ (n : Bool) (m : Nat) (e : Int), |(FVal.fin n m e).q| = m * 2 ^ e := fun n m e => by
    have hnn : (0 : ℚ) ≤ m * 2 ^ e := by positivity
    cases n <;> simp [FVal.q, abs_of_nonneg hnn]
  have hval : ((|(FVal.fin n m e).q / (FVal.fin n' m' e').q| : ℚ) : ℝ) = ((m : ℝ) * 2 ^ e) / (m' * 2 ^ e') := by
    rw [abs_div, hq, hq]; push_cast; rfl
  have hdiv : sfDivElem ovt p.code rm a b = roundF ovt p.code rm (.fin (n != n') (divMag m e m' e').1 (divMag m e m' e').2) := by
    rw [sfDivElem, ha, hb]
    dsimp only
    rw [if_neg hm'.ne', if_neg hm.ne']
  rw [hval, hdiv]
  exact roundF_sticky hp ovt rm _ (divMag_meets hm' e e') (divMag_large hm hm' e e')

theorem sfSqrt_rounds {a : Nat} {m : Nat} {e : Int} (ha : decodeF p.code a = .fin false m e) (hm : 0 < m) :
    roundsTo p ovt rm false (Real.sqrt ((FVal.fin false m e).q : ℝ)) (sfElem ovt 11 p.code rm a) := by
  have hval : ((FVal.fin false m e).q : ℝ) = (m : ℝ) * 2 ^ e := by simp [FVal.q]
  have hsqrt : sfElem ovt 11 p.code rm a = roundF ovt p.code rm (.fin false (sqrtMag m e).1 (sqrtMag m e).2) := by
    have hfn : fnUnary 11 (.fin false m e) = (.fin false (sqrtMag m e).1 (sqrtMag m e).2, 0) := if_neg hm.ne'
    rw [sfElem, ha, hfn]
    exact Prod.ext rfl (BitVec.or_zero)
  rw [hval, hsqrt]
  exact roundF_sticky hp ovt rm _ (sqrtMag_meets m e) (sqrtMag_large hm e)
end

/-- Settles O9: each clause by the lemma about the function it speaks of. -/
theorem roundingAndFormats : Obligations.RoundingAndFormats := by
  unfold Obligations.RoundingAndFormats
  refine ⟨fun p hp v hv => decodeF_pattern (fTable_held p hp) hv, fun q hq v i => ⟨decodeI_eq hq v, wrapI_eq hq i, satI_eq hq i⟩, decodeT2_codes,
    fun rm l => ⟨sumF_fin rm, sumF_nan rm, sumF_infs rm, fun neg => sumF_inf rm⟩,
    fun a b m n d e x => ⟨⟨m * n, d + e, rfl, mulF_fin_q a b m n d e⟩, mulF_specials a b m n d e x⟩,
    fun p hp ovt rm => ⟨roundF_nan hp ovt rm, roundF_inf hp ovt rm, roundF_zero hp ovt rm, fun neg m e hm => ?_, fun _ => rfl, fun _ _ => rfl,
      fmaRound_spec hp ovt rm⟩,
    fun ovt rm v p hp => ⟨fun p' hp' => ?_, fun q hq => ?_⟩, fun p hp a b => ⟨minBits_maxBits_nan hp, fun n m e n' m' e' ha hb => ?_⟩,
    fun p hp _ ovt rm a b => ⟨fun n m e n' m' e' => sfDivElem_rounds hp ovt rm, fun m e => sfSqrt_rounds hp ovt rm⟩⟩
  · rw [roundF_nonzero ovt rm p.code neg hm]
    exact roundFin_rounds hp ovt rm neg hm (meets_self m e) (Or.inl rfl)
  · rw [convert, (fTable_held p hp).float, (fTable_held p' hp').float]; rfl
  · obtain ⟨hfloat, hints⟩ := convert_ofInt hp hq ovt rm v
    obtain ⟨hnan, hinf, hfin⟩ := convert_toInt hp hq ovt rm v
    exact ⟨hfloat, hints, hnan, hinf, hfin⟩
  · have hcmp : cmpF (decodeF p.code a) (decodeF p.code b) = compare (decodeF p.code a).q (decodeF p.code b).q := by rw [ha, hb]; exact cmpF_fin
    refine ⟨by rw [hcmp]; exact compare_lt_iff_lt, by rw [hcmp]; exact compare_eq_iff_eq, ?_, ?_, fun hm hm' hn hn' => ?_, fun hm hm' hn hn' => ?_⟩
    · rw [ha, hb]; exact minBits_maxBits_lt ha hb
    · rw [ha, hb]; exact minBits_maxBits_gt ha hb
    · obtain ⟨hmin, hmax⟩ := minBits_maxBits_zero ha hb hm hm'
      rw [hmin, hmax, hn]; exact ⟨rfl, rfl⟩
    · obtain ⟨hmin, hmax⟩ := minBits_maxBits_zero ha hb hm hm'
      rw [hmin, hmax, hn, hn']; exact ⟨rfl, rfl⟩

end Sys2Proof.Machine

namespace Sys2Proof.Machine

/-! ## Bytes of numbers (R2, R38) -/

theorem ofBytes_eq_ofDigits : ∀ l : List Byte, ofBytes l = Nat.ofDigits 256 (l.map BitVec.toNat)
  | [] => rfl
  | b :: r => by rw [ofBytes, ofBytes_eq_ofDigits r, List.map_cons, Nat.ofDigits_cons]
theorem ofBytes_lt (l : List Byte) : ofBytes l < 256 ^ l.length := by
  rw [ofBytes_eq_ofDigits, ← List.length_map (f := BitVec.toNat)]
  refine Nat.ofDigits_lt_base_pow_length (by norm_num) (fun x hx => ?_)
  obtain ⟨b, _, rfl⟩ := List.mem_map.mp hx
  exact b.isLt
theorem ofBytes_append (l r : List Byte) : ofBytes (l ++ r) = ofBytes l + 256 ^ l.length * ofBytes r := by
  simp only [ofBytes_eq_ofDigits, List.map_append, Nat.ofDigits_append, List.length_map]
/-- The bytes below and above a place are the remainder and the quotient. -/
theorem ofBytes_take_drop (l : List Byte) (k : Nat) : ofBytes (l.take k) = ofBytes l % 256 ^ k ∧ ofBytes (l.drop k) = ofBytes l / 256 ^ k := by
  have hpos : 0 < 256 ^ k := pow_pos (by norm_num) k
  rcases Nat.le_total k l.length with hk | hk
  · have hlen : (l.take k).length = k := by rw [List.length_take, min_eq_left hk]
    have hlt := ofBytes_lt (l.take k)
    have hsum := ofBytes_append (l.take k) (l.drop k)
    rw [List.take_append_drop] at hsum
    rw [hlen] at hlt hsum
    rw [hsum, Nat.add_mul_mod_self_left, Nat.mod_eq_of_lt hlt, Nat.add_mul_div_left _ _ hpos, Nat.div_eq_of_lt hlt, zero_add]
    exact ⟨rfl, rfl⟩
  · have hlt : ofBytes l < 256 ^ k := (ofBytes_lt l).trans_le (Nat.pow_le_pow_right (by norm_num) hk)
    rw [List.take_of_length_le hk, List.drop_of_length_le hk, Nat.mod_eq_of_lt hlt, Nat.div_eq_of_lt hlt]
    exact ⟨rfl, rfl⟩
/-- The number of some of the bytes of a list. -/
theorem ofBytes_slice (l : List Byte) (o n : Nat) : ofBytes ((l.drop o).take n) = ofBytes l / 256 ^ o % 256 ^ n := by
  rw [(ofBytes_take_drop _ n).1, (ofBytes_take_drop l o).2]

theorem length_bytesOf (v n : Nat) : (bytesOf v n).length = n := by rw [bytesOf, List.length_map, List.length_range]
theorem ofBytes_bytesOf : ∀ (n v : Nat), ofBytes (bytesOf v n) = v % 256 ^ n
  | 0, v => by rw [pow_zero, Nat.mod_one]; rfl
  | n + 1, v => by
    have hcons : bytesOf v (n + 1) = BitVec.ofNat 8 v :: bytesOf (v / 256) n := by
      rw [bytesOf, upTo, List.range_succ_eq_map, List.map_cons, List.map_map, bytesOf]
      congr 1
      refine List.map_congr_left (fun i _ => congrArg (BitVec.ofNat 8) ?_)
      rw [Nat.shiftRight_eq_div_pow, Nat.shiftRight_eq_div_pow, Nat.div_div_eq_div_mul, Nat.succ_eq_add_one, mul_add, pow_add, mul_comm (2 ^ (8 * i))]
      rfl
    rw [hcons, ofBytes, ofBytes_bytesOf n, BitVec.toNat_ofNat, pow_succ' 256 n, Nat.mod_mul]

theorem two_pow_eight_mul (n : Nat) : 2 ^ (8 * n) = 256 ^ n := pow_mul 2 8 n
theorem elemN_eq (v i w : Nat) : elemN v i w = v / 2 ^ (i * w) % 2 ^ w := by rw [elemN, natFld, Nat.shiftRight_eq_div_pow]
/-- Element i of n bytes each. -/
theorem elemN_bytes (v i n : Nat) : elemN v i (8 * n) = v / 256 ^ (n * i) % 256 ^ n := by
  rw [elemN_eq, two_pow_eight_mul, show i * (8 * n) = 8 * (n * i) by ring, two_pow_eight_mul]
/-- An element of a list of bytes is the number of its bytes. -/
theorem elemN_ofBytes (l : List Byte) (i n : Nat) : elemN (ofBytes l) i (8 * n) = ofBytes ((l.drop (n * i)).take n) := by
  rw [ofBytes_slice, elemN_bytes]
/-- An element of a part of a number is one of the number. -/
theorem elemN_part {v o len i w : Nat} (h : (i + 1) * w ≤ len) : elemN (v / 2 ^ (o * w) % 2 ^ len) i w = elemN v (o + i) w := by
  have hlen : 2 ^ len = 2 ^ (i * w) * 2 ^ (len - i * w) := by
    rw [← pow_add]; congr 1
    rw [add_mul, one_mul] at h
    omega
  rw [elemN_eq, elemN_eq, hlen, Nat.mod_mul_right_div_self, Nat.div_div_eq_div_mul, ← pow_add, ← add_mul]
  refine Nat.mod_mod_of_dvd _ (pow_dvd_pow 2 ?_)
  rw [add_mul, one_mul] at h
  omega

/-! ## Rows of 128 elements -/

/-- Element j of row i of an image. -/
theorem row512_eq (b : List Byte) (i : Nat) : row512 b i = (List.range 128).map (fun j => elemN (ofBytes b) (128 * i + j) 32) := by
  rw [row512, elemsOf]
  refine List.map_congr_left (fun j hj => ?_)
  have hj : j < 128 := List.mem_range.mp hj
  have hpart : ofBytes ((b.drop (512 * i)).take 512) = ofBytes b / 2 ^ (128 * i * 32) % 2 ^ 4096 := by
    rw [ofBytes_slice, show 128 * i * 32 = 8 * (512 * i) by ring, two_pow_eight_mul, show 4096 = 8 * 512 from rfl, two_pow_eight_mul]
  rw [hpart, elemN_part (by omega)]

/-! ## Reading memory, and what a store leaves there -/

theorem length_peek (s : State) (k n : Nat) : (s.peek k n).length = n := by rw [State.peek, memTake, List.length_map, List.length_range]
theorem peek_slice (s : State) (k : Nat) {o n len : Nat} (h : o + n ≤ len) : ((s.peek k len).drop o).take n = s.peek (k + o) n := by
  refine List.ext_getElem ?_ (fun i h1 h2 => ?_)
  · rw [List.length_take, List.length_drop, length_peek, length_peek]; omega
  · simp only [State.peek, memTake, upTo, List.getElem_take, List.getElem_drop, List.getElem_map, List.getElem_range, Nat.add_assoc]
/-- An element of an image read from memory. -/
theorem elemN_peek (s : State) (k : Nat) {i n len : Nat} (h : n * i + n ≤ len) : elemN (ofBytes (s.peek k len)) i (8 * n) = ofBytes (s.peek (k + n * i) n) := by
  rw [elemN_ofBytes, peek_slice s k h]

/-- A byte read after a list of bytes has been stored. -/
theorem memGet_of_stored {s t : State} (hwf : Memory.wf s.mem = true) {k : Nat} {b : List Byte} (ht : t.mem = (s.poke k b).mem) (a : Nat) :
    memGet t.mem a = if k ≤ a ∧ a < k + b.length then b.getD (a - k) 0 else memGet s.mem a := by
  rw [ht]
  exact memGet_memPut b s.mem k a hwf
/-- Bytes read where a list of bytes has been stored. -/
theorem peek_of_stored {s t : State} (hwf : Memory.wf s.mem = true) {k : Nat} {b : List Byte} (ht : t.mem = (s.poke k b).mem) {o n : Nat}
    (h : o + n ≤ b.length) : t.peek (k + o) n = (b.drop o).take n := by
  refine List.ext_getElem ?_ (fun i h1 h2 => ?_)
  · rw [length_peek, List.length_take, List.length_drop]; omega
  · rw [length_peek] at h1
    simp only [State.peek, memTake, upTo, List.getElem_take, List.getElem_drop, List.getElem_map, List.getElem_range]
    rw [memGet_of_stored hwf ht, if_pos (by omega), show k + o + i - k = o + i by omega, List.getD_eq_getElem _ _ (by omega)]
theorem memSameBut_of_stored {s t : State} (hwf : Memory.wf s.mem = true) {k : Nat} {b : List Byte} (ht : t.mem = (s.poke k b).mem) :
    memSameBut s t k b.length := fun a ha => by rw [memGet_of_stored hwf ht, if_neg ha]

/-! ## Lists of rows stored one after another -/

theorem length_flatMap_rows {f : Nat → List Byte} {len n : Nat} (hf : ∀ i < n, (f i).length = len) :
    ((List.range n).flatMap f).length = len * n := by
  rw [List.length_flatMap, List.map_congr_left (fun i hi => hf i (List.mem_range.mp hi)), List.map_const',
    List.length_range, List.sum_replicate, smul_eq_mul, Nat.mul_comm]
/-- A part of the pieces of a list that all have one length. -/
theorem slice_flatMap {f : Nat → List Byte} {len n : Nat} (hf : ∀ i < n, (f i).length = len) {i o k : Nat} (hi : i < n) (ho : o + k ≤ len) :
    (((List.range n).flatMap f).drop (len * i + o)).take k = ((f i).drop o).take k := by
  obtain ⟨j, rfl⟩ : ∃ j, n = i + (j + 1) := ⟨n - i - 1, by omega⟩
  have hsplit : (List.range (i + (j + 1))).flatMap f = (List.range i).flatMap f ++ (f i ++ (List.range j).flatMap (fun x => f (i + (x + 1)))) := by
    rw [List.range_add, List.flatMap_append, List.range_succ_eq_map, List.map_cons, List.flatMap_cons, List.map_map, List.flatMap_map]
    rfl
  have hbefore : ((List.range i).flatMap f).length = len * i := length_flatMap_rows (fun k hk => hf k (by omega))
  have hlen : (f i).length = len := hf i hi
  rw [hsplit, List.drop_append, hbefore, List.drop_of_length_le (by omega), List.nil_append, Nat.add_sub_cancel_left,
    List.drop_append_of_le_length (by omega), List.take_append_of_le_length (by rw [List.length_drop]; omega)]

/-- Rows of 128 elements as they are stored: bytes of each, one row after another. -/
def rowBytes (b : Nat) (row : Nat → List Nat) (n : Nat) : List Byte :=
  (List.range n).flatMap (fun i => bytesOf (packElems (8 * b) (row i)) (128 * b))
theorem length_rowBytes (b : Nat) (row : Nat → List Nat) (n : Nat) : (rowBytes b row n).length = 128 * b * n :=
  length_flatMap_rows (fun _ _ => length_bytesOf _ _)
/-- An element read where rows have been stored. -/
theorem element_of_stored {s t : State} (hwf : Memory.wf s.mem = true) {k b n : Nat} {row : Nat → List Nat}
    (ht : t.mem = (s.poke k (rowBytes b row n)).mem) {i j : Nat} (hi : i < n) (hj : j < 128) :
    ofBytes (t.peek (k + (128 * i + j) * b) b) = (row i).getD j 0 % 2 ^ (8 * b) := by
  have hjb : (j + 1) * b ≤ 128 * b := Nat.mul_le_mul_right b hj
  have hib : (i + 1) * (128 * b) ≤ n * (128 * b) := Nat.mul_le_mul_right _ hi
  rw [add_mul, one_mul] at hjb hib
  have hplace : (128 * i + j) * b = 128 * b * i + j * b := by ring
  have hfit : 128 * b * i + j * b + b ≤ (rowBytes b row n).length := by
    rw [length_rowBytes, mul_comm _ i, mul_comm _ n]
    omega
  rw [hplace, peek_of_stored hwf ht hfit, rowBytes, slice_flatMap (fun _ _ => length_bytesOf _ _) hi hjb, ofBytes_slice, ofBytes_bytesOf]
  have hpart := elemN_part (v := packElems (8 * b) (row i)) (o := 0) (len := 8 * (128 * b)) (i := j) (w := 8 * b) (by rw [add_mul, one_mul]; nlinarith)
  rw [zero_mul, pow_zero, Nat.div_one, zero_add, elemN_bytes, two_pow_eight_mul, mul_comm b j, elemN_packElems] at hpart
  exact hpart
end Sys2Proof.Machine

namespace Sys2Proof.Machine

/-! ## The completion of a matrix form (R192, R193) -/

/-- With no store to a scratchpad held back, settling changes the packets alone. -/
theorem settle_idle {s : State} (h : s.poolIdle) : s.settle = { s with pkts := s.settle.pkts } := by
  rw [State.settle, settlePools_idle h]

/-- The acting context's form m may complete whole: nothing of it has been read or written ahead, and what it reads first has been
read. -/
structure Completing (s : State) (m : MForm) : Prop where
  found : (s.core s.sel.who.coreId).mq.find? (fun f => f.id = s.sel.id) = some m
  who : m.who = s.sel.who
  whole : s.sel.val = 0
  may : mayComplete (formsBefore (s.core s.sel.who.coreId).mq m.id) m = true
  ready : s.unitsReady s.sel.who.coreId (formRanges s.cur m.op) = true
  moved : m.moved = []
  early : m.early = []
  old : m.old = none
  read : readFirst m.op ≠ [] → m.read.isSome = true
  idle : s.poolIdle
  wf : Memory.wf s.mem = true

/-- A context with the busy bits of a form clear. -/
def Ctx.unbusy (c : Ctx) (id : Nat) : Ctx := { c with busy := c.busy.filter (fun b => b.id ≠ id) }
/-- The state in which a form that completes has its effect: it has left the M queue, and its busy bits are clear. -/
def State.popForm (s : State) (m : MForm) : State :=
  clearBusy (s.updCore s.sel.who.coreId (fun k => { k with mq := k.mq.filter (fun f => f.id ≠ m.id) })) s.sel.who m.id

section
variable {s : State} {m : MForm}

theorem popForm_cur : (s.popForm m).cur = s.cur.unbusy m.id := State.ctx_updCtx_same _ _ _
theorem popForm_ctx : (s.popForm m).ctx s.sel.who = s.cur.unbusy m.id := State.ctx_updCtx_same _ _ _
theorem popForm_core : (s.popForm m).core s.sel.who.coreId =
    { s.core s.sel.who.coreId with mq := (s.core s.sel.who.coreId).mq.filter (fun f => f.id ≠ m.id) } :=
  State.core_updCore_same s s.sel.who.coreId (fun k => { k with mq := k.mq.filter (fun f => f.id ≠ m.id) })

variable (h : Completing s m)
include h

theorem exec_completes : exec .matrixOpComplete s = .next (formEffect (s.popForm m) m).settle := by
  have hid : m.id = s.sel.id := by simpa using List.find?_some h.found
  have hread : (m.read.isNone && decide (readFirst m.op ≠ [])) = false := by
    by_cases hr : readFirst m.op = []
    · rw [hr]; simp
    · rw [Option.isNone_eq_false_iff.mpr (h.read hr)]; rfl
  have hready : s.unitsReady s.sel.who.coreId (formRanges (s.ctx m.who) m.op) = true := by rw [h.who]; exact h.ready
  have hval : s.sel.val.toNat = 0 := by rw [h.whole]; rfl
  have hagain : (s.core s.sel.who.coreId).mq.find? (fun f => f.id = m.id) = some m := by rw [hid]; exact h.found
  show execMatrixOpComplete s = _
  rw [execMatrixOpComplete]
  simp only [h.found]
  rw [h.may, hready, hval, if_pos (show (true && true) = true from rfl), hread, if_neg Bool.false_ne_true, hagain, h.who]
  rfl

/-- What holds of every state with the memory, the context and the cores that the form's effect leaves holds after its completion. -/
theorem ends_of_effect {u : State} (hu : formEffect (s.popForm m) m = u) (hpkts : u.pkts = s.pkts) (hregs : u.cur.regs = s.cur.regs)
    {P : State → Prop} (hP : ∀ t : State, t.mem = u.mem → t.cur = u.cur → (∀ c, t.core c = u.core c) → P t) :
    ∃ t, exec .matrixOpComplete s = .next t ∧ t.cur.regs = s.cur.regs ∧ P t := by
  have hidle : u.poolIdle := by rw [State.poolIdle, hpkts]; exact h.idle
  refine ⟨_, exec_completes h, ?_⟩
  rw [hu, settle_idle hidle]
  exact ⟨hregs, hP _ rfl rfl (fun _ => rfl)⟩
end

/-! ## Accumulators: their place, tag, checksums and row flags (R194, R195) -/

/-- The key of the first byte of an accumulator of the acting context. -/
def State.accKey (s : State) (n : Nat) : Nat := poolKey s.sel.who.coreId (s.cur.accAt n)

theorem tag_setTag (s : State) (c : CoreId) {n : Nat} (hn : n < 16) (v : BitVec 2) : (setTag s c n v).tag c n = v := by
  rw [State.tag, setTag, State.core_updCore_same]
  simp [List.getD_eq_getElem?_getD, hn]
theorem tag_of_core {s t : State} {c : CoreId} (h : t.core c = s.core c) (n : Nat) : t.tag c n = s.tag c n := by rw [State.tag, State.tag, h]
theorem ckOf_setTag (s : State) (c : CoreId) (n : Nat) (v : BitVec 2) (a r : Nat) : ckOf ((setTag s c n v).core c) a r = ckOf (s.core c) a r := by
  rw [setTag, State.core_updCore_same]; rfl
theorem ckOf_cleared (k : Core) (n r : Nat) : ckOf { k with ck := k.ck.set n [], uf := k.uf.set n 0 } n r = (.fin false 0 0, false) := by
  rw [ckOf, AMap.get_set_same, AMap.get_set_same, List.getD_nil, BitVec.ofNat_eq_ofNat, BitVec.getLsbD_zero]

/-- A row's checksum and flag after those of a row have been set. -/
theorem ckOf_setCk (k : Core) (n i : Nat) (v : FVal) (u : Bool) {r : Nat} (hr : r < 128) :
    ckOf (setCk n i v u k) n r = if r = i then (v, u) else ckOf k n r := by
  have hck : ((List.range 128).map (fun j => if j = i then v else (k.ck.get n []).getD j (.fin false 0 0))).getD r (.fin false 0 0) =
      if r = i then v else (k.ck.get n []).getD r (.fin false 0 0) := by
    rw [List.getD_eq_getElem _ _ (by rw [List.length_map, List.length_range]; exact hr), List.getElem_map, List.getElem_range]
  have hone : (1#128 <<< i).getLsbD r = decide (r = i) := by
    rw [BitVec.getLsbD_shiftLeft, BitVec.getLsbD_one]
    simp only [hr, decide_true, Bool.true_and]
    rw [Bool.eq_iff_iff]
    simp only [Bool.and_eq_true, Bool.not_eq_true', decide_eq_false_iff_not, decide_eq_true_eq]
    omega
  have huf : ((k.uf.get n 0 &&& ~~~(1#128 <<< i)) ||| (if u then 1#128 <<< i else 0)).getLsbD r = if r = i then u else (k.uf.get n 0).getLsbD r := by
    rw [BitVec.getLsbD_or, BitVec.getLsbD_and, BitVec.getLsbD_not, hone]
    by_cases hri : r = i
    · rw [if_pos hri]
      cases u
      · simp [hri]
      · rw [if_pos rfl, hone]; simp [hri]
    · rw [if_neg hri]
      cases u
      · simp [hri, hr]
      · rw [if_pos rfl, hone]; simp [hri, hr]
  rw [ckOf, setCk]
  dsimp only
  rw [AMap.get_set_same, AMap.get_set_same, hck, huf]
  split <;> rfl
/-- After those of the first rows have been set, in order. -/
theorem ckOf_setRows (n : Nat) (f : Nat → FVal × Bool) (k : Core) {r : Nat} (hr : r < 128) : ∀ rows : Nat,
    ckOf ((List.range rows).foldl (fun k i => setCk n i (f i).1 (f i).2 k) k) n r = if r < rows then f r else ckOf k n r
  | 0 => rfl
  | rows + 1 => by
    rw [List.range_succ, List.foldl_append, List.foldl_cons, List.foldl_nil, ckOf_setCk _ _ _ _ _ hr, ckOf_setRows n f k hr rows]
    by_cases h1 : r = rows
    · rw [if_pos h1, if_pos (by omega), h1]
    · rw [if_neg h1]
      by_cases h2 : r < rows
      · rw [if_pos h2, if_pos (by omega)]
      · rw [if_neg h2, if_neg (by omega)]

/-! ## What a form reads and writes of the pool (R197 to R201) -/

section
variable {s : State} {m : MForm} (h : Completing s m)
include h

theorem writeOut_popForm : writeOut (s.popForm m) m =
    (s.popForm m).poke (poolKey s.sel.who.coreId (formDst s.cur m.op).1) ((s.popForm m).formOut m) := by
  have hdst : formDst ((s.popForm m).ctx s.sel.who) m.op = formDst s.cur m.op := by rw [popForm_ctx]; rfl
  rw [writeOut, h.who, hdst, State.pokeRest, if_pos h.moved]
theorem formSees_popForm : (s.popForm m).formSees m = s.peek (poolKey s.sel.who.coreId (formSrc s.cur m.op).1) (formSrc s.cur m.op).2 := by
  have hsrc : formSrc ((s.popForm m).ctx s.sel.who) m.op = formSrc s.cur m.op := by rw [popForm_ctx]; rfl
  rw [State.formSees, h.who, hsrc, if_pos (by rw [h.early]; rfl)]
  rfl

/-! ### mzero (R197) -/

theorem mzero_clears {o : MRow} (ho : m.op = .mzero o) :
    ∃ t, exec .matrixOpComplete s = .next t ∧ t.cur.regs = s.cur.regs ∧ memSameBut s t (s.accKey o.acc.toNat) 65536 ∧
      (∀ k < 65536, memGet t.mem (s.accKey o.acc.toNat + k) = 0) ∧ t.tag s.sel.who.coreId o.acc.toNat = 0 ∧
      ∀ i < 128, ckOf (t.core s.sel.who.coreId) o.acc.toNat i = (.fin false 0 0, false) := by
  have hstored : (writeOut (s.popForm m) m).mem = (s.poke (s.accKey o.acc.toNat) (List.replicate 65536 0)).mem := by
    rw [writeOut_popForm h, ho, State.formOut, ho]; rfl
  have hzero : formEffect (s.popForm m) m = doZero (s.popForm m) m o.acc.toNat := by rw [formEffect, ho]
  rw [doZero, h.who] at hzero
  refine ends_of_effect h hzero ?_ ?_ (fun t hmem _ hcore => ?_)
  · rw [writeOut_popForm h]; rfl
  · rw [writeOut_popForm h]
    show (s.popForm m).cur.regs = _
    rw [popForm_cur]; rfl
  · have ht : t.mem = (s.poke (s.accKey o.acc.toNat) (List.replicate 65536 0)).mem := hmem.trans hstored
    refine ⟨?_, fun k hk => ?_, ?_, fun i _ => ?_⟩
    · rw [← List.length_replicate (n := 65536) (a := (0 : Byte))]
      exact memSameBut_of_stored h.wf ht
    · rw [memGet_of_stored h.wf ht, List.length_replicate, if_pos (by omega), List.getD_eq_getElem?_getD, List.getElem?_replicate]
      split <;> rfl
    · rw [tag_of_core (hcore _)]
      exact tag_setTag _ _ o.acc.isLt 0
    · rw [hcore, ckOf_setTag, State.core_updCore_same]
      exact ckOf_cleared _ _ _
end
end Sys2Proof.Machine

namespace Sys2Proof.Machine

/-! ## Lists over the first numbers, and flags (R81) -/

theorem getD_map_range {α : Type} (f : Nat → α) {n k : Nat} (hk : k < n) (d : α) : ((List.range n).map f).getD k d = f k := by
  rw [List.getD_eq_getElem _ _ (by rw [List.length_map, List.length_range]; exact hk), List.getElem_map, List.getElem_range]
/-- What every step of a fold keeps and one of them brings about holds after it. -/
theorem foldl_reaches {α β : Type} {P : β → Prop} {f : β → α → β} (hkeep : ∀ b a, P b → P (f b a)) {x : α} (hset : ∀ b, P (f b x)) :
    ∀ {l : List α}, x ∈ l → ∀ b, P (l.foldl f b)
  | a :: r, hx, b => by
    rw [List.foldl_cons]
    rcases List.mem_cons.mp hx with rfl | hr
    · have hall : ∀ (l : List α) (b : β), P b → P (l.foldl f b) := by
        intro l
        induction l with
        | nil => exact fun b hb => hb
        | cons a r ih => exact fun b hb => ih _ (hkeep b a hb)
      exact hall r _ (hset b)
    · exact foldl_reaches hkeep hset hr _
/-- A flag that one of the flags joined has. -/
theorem getLsbD_foldl_or {α : Type} {g : α → Flags} {b : Nat} {x : α} (hx : (g x).getLsbD b = true) {l : List α} (hl : x ∈ l) (a : Flags) :
    (l.foldl (fun a x => a ||| g x) a).getLsbD b = true := by
  refine foldl_reaches (P := fun a : Flags => a.getLsbD b = true) (fun a y ha => ?_) (fun a => ?_) hl a
  · rw [BitVec.getLsbD_or, ha, Bool.true_or]
  · rw [BitVec.getLsbD_or, hx, Bool.or_true]
theorem setFlags_flags (c : Ctx) (clk inst : Nat) (f : Flags) : (c.setFlags clk inst f).csr.flags = c.csr.flags ||| f := rfl

theorem zipIdx_map_range {α : Type} (g : Nat → α) (n : Nat) : ((List.range n).map g).zipIdx = (List.range n).map (fun i => (g i, i)) := by
  refine List.ext_getElem (by simp) (fun i h1 h2 => ?_)
  simp

/-! ## mlat (R195, R198) -/

/-- The code 2 of t2, which stands for no value, raises TERN_BAD (R69). -/
theorem decodeT2_bad {v : Nat} (h : v = 2) : (decodeT2 v).2.getLsbD 6 = true := by rw [h]; rfl

theorem latSums_getD (f : BitVec 4) (img : Nat) {k : Nat} (hk : k < latDepth f) : (latSums f img).getD k .nan =
    if isFloatFmt f then (sumF 0 ((List.range 128).map (fun j => decodeF f (elemN img (128 * k + j) (fmtBits f))))).1
    else intF ((List.range 128).map (fun j => if f = 13 then (decodeT2 (elemN img (128 * k + j) (fmtBits f))).1
      else decodeI f (elemN img (128 * k + j) (fmtBits f)))).sum := by
  rw [latSums, upTo, getD_map_range _ hk]
  dsimp only
  rw [List.map_map, List.map_map, List.sum_eq_foldl, Nat.mul_comm 128 k]
  rfl

section
variable {s : State} {m : MForm} (h : Completing s m)
include h

theorem mlat_fills {o : MRow} (ho : m.op = .mlat o) (hlen : (m.got.flatMap (fun e => e.bytes)).length = 32768) :
    ∃ t, exec .matrixOpComplete s = .next t ∧ t.cur.regs = s.cur.regs ∧ memSameBut s t (latKey s.sel.who o.lat.toNat 0) 32768 ∧
      t.peek (latKey s.sel.who o.lat.toNat 0) 32768 = m.got.flatMap (fun e => e.bytes) ∧ t.cur.latDef.getLsbD o.lat.toNat = true ∧
      t.cur.latFmt.toList[o.lat.toNat]? = some o.fmt ∧
      t.cur.bsum.get o.lat.toNat [] = latSums o.fmt (ofBytes (m.got.flatMap (fun e => e.bytes))) ∧
      (o.fmt = 13 → (∃ i < 131072, elemN (ofBytes (m.got.flatMap (fun e => e.bytes))) i 2 = 2) → t.cur.csr.flags.getLsbD 6 = true) := by
  generalize hb : m.got.flatMap (fun e => e.bytes) = b at hlen ⊢
  have hlat : o.lat.toNat < 4 := o.lat.isLt
  have heff : formEffect (s.popForm m) m = doLat (s.popForm m) m o := by rw [formEffect, ho]
  rw [doLat, h.who, hb, List.take_of_length_le hlen.le] at heff
  have hcur : ∀ f : Ctx → Ctx, (((s.popForm m).poke (latKey s.sel.who o.lat.toNat 0) b).updCtx s.sel.who f).cur =
      f (s.cur.unbusy m.id) := fun f => by
    rw [← popForm_cur]; exact State.ctx_updCtx_same _ _ _
  refine ends_of_effect h heff rfl (by rw [hcur]; rfl) (fun t hmem ht _ => ?_)
  have hstored : t.mem = (s.poke (latKey s.sel.who o.lat.toNat 0) b).mem := hmem
  rw [hcur] at ht
  rw [ht]
  refine ⟨?_, ?_, ?_, ?_, AMap.get_set_same _ _ _ _, fun hfmt hbad => ?_⟩
  · rw [← hlen]
    exact memSameBut_of_stored h.wf hstored
  · have hread := peek_of_stored h.wf hstored (o := 0) (n := 32768) (by omega)
    rw [List.drop_zero, List.take_of_length_le hlen.le, Nat.add_zero] at hread
    exact hread
  · dsimp only
    rw [BitVec.getLsbD_or, BitVec.getLsbD_shiftLeft]
    simp [hlat]
  · simp [hlat]
  · obtain ⟨i, hi, hel⟩ := hbad
    have hany : (decide (o.fmt = 13) && (upTo 131072).any (fun i => elemN (ofBytes b) i 2 = 2)) = true := by
      rw [decide_eq_true hfmt, Bool.true_and]
      exact List.any_eq_true.mpr ⟨i, List.mem_range.mpr hi, decide_eq_true hel⟩
    dsimp only
    rw [setFlags_flags, BitVec.getLsbD_or, if_pos hany, show fTERN_BAD.getLsbD 6 = true from rfl, Bool.or_true]

/-! ## mma and mter: the rows that they write (R199) -/

/-- What mma and mter leave: the rows of the accumulator as computed, their checksums and flags, the tag and the arithmetic flags. -/
theorem mma_writes {n rows : Nat} {f : BitVec 4} {g : Nat → List Nat × FVal × Bool × Flags} (hn : n < 16)
    (heff : formEffect (s.popForm m) m = doMma (s.popForm m) m n f) (hg : (s.popForm m).mmaRows m = (List.range rows).map g)
    (hout : (s.popForm m).formOut m = ((s.popForm m).mmaRows m).flatMap (fun q => bytesOf (packElems 32 q.1) 512))
    (hdst : formDst s.cur m.op = (s.cur.accAt n, 512 * rows)) :
    ∃ t, exec .matrixOpComplete s = .next t ∧ t.cur.regs = s.cur.regs ∧ memSameBut s t (s.accKey n) (512 * rows) ∧
      t.tag s.sel.who.coreId n = (if isFloatFmt f then 1 else 2) ∧
      (∀ r < rows, ∀ j < 128, ofBytes (t.peek (s.accKey n + 512 * r + 4 * j) 4) = (g r).1.getD j 0 % 2 ^ 32) ∧
      (∀ r < 128, ckOf (t.core s.sel.who.coreId) n r =
        if r < rows then ((g r).2.1, (g r).2.2.1) else ckOf (s.core s.sel.who.coreId) n r) ∧
      t.cur.csr.flags = s.cur.csr.flags ||| (List.range rows).foldl (fun a r => a ||| (g r).2.2.2) 0 := by
  have hbytes : (s.popForm m).formOut m = rowBytes 4 (fun r => (g r).1) rows := by
    rw [hout, hg, List.flatMap_map]; rfl
  have hstored : (writeOut (s.popForm m) m).mem = (s.poke (s.accKey n) (rowBytes 4 (fun r => (g r).1) rows)).mem := by
    rw [writeOut_popForm h, hdst, hbytes]; rfl
  have hpkts : (writeOut (s.popForm m) m).pkts = s.pkts := by rw [writeOut_popForm h]; rfl
  have hctxs : (writeOut (s.popForm m) m).ctx s.sel.who = s.cur.unbusy m.id := by
    rw [writeOut_popForm h]; exact popForm_ctx
  have hsel : (writeOut (s.popForm m) m).sel = s.sel := by rw [writeOut_popForm h]; rfl
  have hcores : (writeOut (s.popForm m) m).core s.sel.who.coreId = (s.popForm m).core s.sel.who.coreId := by rw [writeOut_popForm h]; rfl
  rw [doMma, h.who, hg, zipIdx_map_range] at heff
  simp only [List.foldl_map] at heff
  generalize writeOut (s.popForm m) m = v at heff hstored hpkts hctxs hsel hcores
  generalize (List.range rows).foldl (fun a r => a ||| (g r).2.2.2) 0 = fl at heff ⊢
  have hcur : ∀ (k : Core → Core) (f : Ctx → Ctx) (tg : BitVec 2),
      (setTag ((v.updCore s.sel.who.coreId k).updCtx s.sel.who f) s.sel.who.coreId n tg).cur = f (s.cur.unbusy m.id) := by
    intro k f tg
    rw [setTag, State.cur_updCore, ← hctxs, State.cur, State.updCtx_sel, State.updCore_sel, hsel]
    exact State.ctx_updCtx_same _ _ _
  refine ends_of_effect h heff hpkts (by rw [hcur]; rfl) (fun t hmem ht hcore => ?_)
  have hmem' : t.mem = (s.poke (s.accKey n) (rowBytes 4 (fun r => (g r).1) rows)).mem := hmem.trans hstored
  refine ⟨?_, ?_, fun r hr j hj => ?_, fun r hr => ?_, ?_⟩
  · have hsame := memSameBut_of_stored h.wf hmem'
    rw [length_rowBytes] at hsame
    exact hsame
  · rw [tag_of_core (hcore _)]
    exact tag_setTag _ _ hn _
  · have hel := element_of_stored h.wf hmem' hr hj
    rw [show s.accKey n + 512 * r + 4 * j = s.accKey n + (128 * r + j) * 4 by ring]
    exact hel
  · rw [hcore, ckOf_setTag, State.core_updCtx, State.core_updCore_same,
      ckOf_setRows n (fun r => ((g r).2.1, (g r).2.2.1)) _ hr, hcores, popForm_core]
    rfl
  · rw [ht, hcur]
    rfl
end
end Sys2Proof.Machine

namespace Sys2Proof.Machine

/-! ## Groups of 32 products (R83 to R85) -/

theorem groupsOf_map_range {α : Type} : ∀ (n : Nat) (x : Nat → α),
    groupsOf ((List.range (32 * n)).map x) n = (List.range n).map (fun g => (List.range 32).map (fun i => x (32 * g + i)))
  | 0, _ => rfl
  | n + 1, x => by
    have hsplit : (List.range (32 * (n + 1))).map x = (List.range 32).map x ++ (List.range (32 * n)).map (fun i => x (32 + i)) := by
      rw [show 32 * (n + 1) = 32 + 32 * n by ring, List.range_add, List.map_append, List.map_map]
      rfl
    have hlen : ((List.range 32).map x).length = 32 := by rw [List.length_map, List.length_range]
    rw [groupsOf, hsplit, List.take_left' hlen, List.drop_left' hlen, groupsOf_map_range n, List.range_succ_eq_map (n := n), List.map_cons, List.map_map]
    have hhead : (List.range 32).map x = (List.range 32).map (fun i => x (32 * 0 + i)) :=
      List.map_congr_left (fun i _ => by rw [mul_zero, zero_add])
    have htail : (List.range n).map (fun g => (List.range 32).map (fun i => x (32 + (32 * g + i)))) =
        (List.range n).map ((fun g => (List.range 32).map (fun i => x (32 * g + i))) ∘ Nat.succ) :=
      List.map_congr_left (fun g _ => List.map_congr_left (fun i _ => congrArg x (by rw [Nat.succ_eq_add_one]; ring)))
    rw [hhead, htail]

/-! ### f32 accumulation (R83, R84) -/

theorem sumRound_nan {l : List FVal} (h : (sumF 0 l).1 = .nan) : (sumRound 0 0 0 l).1 = 0x7FC00000 := by
  rw [sumRound, h]; rfl
theorem sumF_val_nan {l : List FVal} (rm : BitVec 2) (h : .nan ∈ l ∨ (.inf true ∈ l ∧ .inf false ∈ l)) : (sumF rm l).1 = .nan := by
  by_cases hn : .nan ∈ l
  · rw [sumF_nan rm hn]
  · obtain ⟨ht, hf⟩ := h.resolve_left hn
    rw [sumF_infs rm hn ht hf]
theorem mulF_of_nan {x y : FVal} (h : anyNan [x, y] = true) : mulF x y = (.nan, false) := by
  have hxy : x = .nan ∨ y = .nan := by
    have := (anyNan_iff _).mp h
    simpa [eq_comm] using this
  obtain ⟨hl, hr, _⟩ := mulF_specials false false 0 0 0 0 y
  rcases hxy with rfl | rfl
  · exact hl
  · exact (mulF_specials false false 0 0 0 0 x).2.1

/-- The value of a group of products (R83, R84). -/
def groupValue (l : List (FVal × Bool)) : Nat := if l.any (·.2) then 0x7FC00000 else (sumRound 0 0 0 (l.map (·.1))).1

theorem groupProducts_value (l : List (FVal × FVal)) :
    (if (groupProducts l).1 = [.nan] then qnan 0 else (sumRound 0 0 0 (groupProducts l).1).1) = groupValue (l.map (fun p => mulF p.1 p.2)) := by
  have hself : (if (groupProducts l).1 = [.nan] then qnan 0 else (sumRound 0 0 0 (groupProducts l).1).1) = (sumRound 0 0 0 (groupProducts l).1).1 := by
    split
    · next h => rw [h]; rfl
    · rfl
  have hany : (l.map (fun p => mulF p.1 p.2)).any (·.2) = l.any (fun p => (mulF p.1 p.2).2) := List.any_map
  rw [hself, groupValue, hany, List.map_map, groupProducts]
  by_cases hnan : l.any (fun p => anyNan [p.1, p.2]) = true
  · rw [if_pos hnan]
    obtain ⟨p, hp, hpn⟩ := List.any_eq_true.mp hnan
    split
    · rfl
    · refine (sumRound_nan (sumF_val_nan 0 (Or.inl ?_))).symm
      exact List.mem_map.mpr ⟨p, hp, congrArg Prod.fst (mulF_of_nan hpn)⟩
  · rw [if_neg hnan]
    by_cases hiv : l.any (fun p => (mulF p.1 p.2).2) = true
    · rw [if_pos hiv, if_pos hiv]; rfl
    · rw [if_neg hiv, if_neg hiv]
      dsimp only
      split
      · next hinf =>
        rw [Bool.and_eq_true, anyInf_iff, anyInf_iff] at hinf
        exact (sumRound_nan (sumF_val_nan 0 (Or.inr hinf))).symm
      · rfl

/-- One step of groupSums: a group added to the element. -/
def groupAdd (p : Nat → FVal × FVal) (s g : Nat) : Nat :=
  (sumRound 0 0 0 [decodeF 0 s, decodeF 0 (groupValue ((List.range 32).map (fun i => mulF (p (32 * g + i)).1 (p (32 * g + i)).2)))]).1
theorem groupSums_eq (n acc : Nat) (p : Nat → FVal × FVal) : groupSums n acc p = (List.range n).foldl (groupAdd p) acc := rfl
theorem fGroupStep_value (s : Nat × Flags) (l : List (FVal × FVal)) :
    (fGroupStep s l).1 = (sumRound 0 0 0 [decodeF 0 s.1, decodeF 0 (groupValue (l.map (fun p => mulF p.1 p.2)))]).1 := by
  rw [← groupProducts_value, fGroupStep]
  dsimp only
  split <;> rfl
/-- The element that mma accumulates is the sum of its groups, whatever flags are set on the way. -/
theorem fAccum_eq (n acc : Nat) (p : Nat → FVal × FVal) : (fAccum n acc ((List.range (32 * n)).map p)).1 = groupSums n acc p := by
  have hstep : ∀ (s : Nat × Flags) (g : Nat), groupAdd p s.1 g = (fGroupStep s ((List.range 32).map (fun i => p (32 * g + i)))).1 := fun s g => by
    rw [fGroupStep_value, List.map_map]; rfl
  rw [fAccum, groupsOf_map_range, List.foldl_map, groupSums_eq]
  exact (List.foldl_hom Prod.fst hstep).symm

/-! ### A result in f32 has 32 bits -/

theorem roundFin_f32_lt (rm : BitVec 2) (neg : Bool) (m : Nat) (e : Int) : (roundFin 0 0 rm neg m e).1 < 2 ^ 32 := by
  have hrm : ∀ y : BitVec 2, y = 0 ∨ y = 1 ∨ y = 2 ∨ y = 3 := by decide
  have hover : overflowBits 0 0 rm neg < 2 ^ 32 := by rcases hrm rm with rfl | rfl | rfl | rfl <;> cases neg <;> decide
  have hsign : signBit 0 neg ≤ 2 ^ 31 := by cases neg <;> decide
  have hmax : maxFin 0 < 2 ^ 31 := by decide
  have hbits : ∀ b : Nat, (if maxFin 0 < b then (overflowBits 0 0 rm neg, fOF) else (signBit 0 neg + b, (0 : Flags))).1 < 2 ^ 32 := fun b => by
    split
    · exact hover
    · next hle => dsimp only; omega
  exact hbits _
theorem roundF_f32_lt (rm : BitVec 2) (v : FVal) : (roundF 0 0 rm v).1 < 2 ^ 32 := by
  cases v with
  | nan => exact (by decide : (0x7FC00000 : Nat) < 2 ^ 32)
  | inf neg =>
    show infBits 0 neg < 2 ^ 32
    cases neg <;> decide
  | fin neg m e =>
    rw [roundF]
    split
    · show signBit 0 neg < 2 ^ 32
      cases neg <;> decide
    · exact roundFin_f32_lt rm neg m e
theorem groupSums_lt {n : Nat} (hn : 0 < n) (acc : Nat) (p : Nat → FVal × FVal) : groupSums n acc p < 2 ^ 32 := by
  obtain ⟨k, rfl⟩ : ∃ k, n = k + 1 := ⟨n - 1, by omega⟩
  rw [groupSums_eq, List.range_succ, List.foldl_append]
  exact roundF_f32_lt 0 _

/-! ### i32 accumulation (R85) -/

/-- The element after a group, before it saturates. -/
def groupTotal (acc : Int) (p : Nat → Int) (g : Nat) : Int := satSums acc p g + ((List.range 32).map (fun i => p (32 * g + i))).sum
theorem satSums_succ (acc : Int) (p : Nat → Int) (g : Nat) : satSums acc p (g + 1) = max (-2147483648) (min 2147483647 (groupTotal acc p g)) := rfl
theorem satSums_range {n : Nat} (hn : 0 < n) (acc : Int) (p : Nat → Int) : -2147483648 ≤ satSums acc p n ∧ satSums acc p n ≤ 2147483647 := by
  obtain ⟨k, rfl⟩ : ∃ k, n = k + 1 := ⟨n - 1, by omega⟩
  rw [satSums_succ]
  omega

/-- The element that mma of i8 and mter accumulate, and MOVF_I where a group overflows. -/
theorem iAccum_spec (acc : Int) (x : Nat → Int × Int) (n : Nat) :
    (iAccum n acc ((List.range (32 * n)).map x)).1 = satSums acc (fun k => (x k).1 * (x k).2) n ∧
    ((∃ g < n, let v := groupTotal acc (fun k => (x k).1 * (x k).2) g; v < -2147483648 ∨ 2147483647 < v) →
      (iAccum n acc ((List.range (32 * n)).map x)).2.getLsbD 5 = true) := by
  rw [iAccum, groupsOf_map_range, List.foldl_map]
  induction n with
  | zero => exact ⟨rfl, fun ⟨g, hg, _⟩ => absurd hg (Nat.not_lt_zero g)⟩
  | succ n ih =>
    obtain ⟨hval, hflag⟩ := ih
    rw [List.range_succ (n := n), List.foldl_append, List.foldl_cons, List.foldl_nil]
    generalize hr : (List.range n).foldl _ (acc, (0 : Flags)) = r at hval hflag ⊢
    have htotal : r.1 + (((List.range 32).map (fun i => x (32 * n + i))).map (fun p => p.1 * p.2)).foldl (· + ·) 0 =
        groupTotal acc (fun k => (x k).1 * (x k).2) n := by
      rw [hval, List.map_map, ← List.sum_eq_foldl]; rfl
    dsimp only
    rw [htotal, satSums_succ]
    refine ⟨rfl, fun ⟨g, hg, hover⟩ => ?_⟩
    rw [BitVec.getLsbD_or]
    rcases Nat.lt_succ_iff_lt_or_eq.mp hg with hlt | rfl
    · rw [hflag ⟨g, hlt, hover⟩, Bool.true_or]
    · rw [if_neg (by omega), show fMOVF_I.getLsbD 5 = true from rfl, Bool.or_true]

/-- An i32 value read back from its pattern. -/
theorem decodeI_wrapI {v : Int} (h : -2147483648 ≤ v ∧ v ≤ 2147483647) : decodeI 5 (wrapI 5 v % 2 ^ 32) = v := by
  show sInt ((v % 2 ^ 32).toNat % 2 ^ 32) 32 = v
  rw [sInt]
  split <;> omega
theorem ckInt_intF (z : Int) : ckInt (intF z) = z := by
  rw [intF, ckInt, if_pos (Or.inl le_rfl)]
  show (if decide (z < 0) = true then (-1 : Int) else 1) * ((z.natAbs <<< 0 >>> 0 : Nat) : Int) = z
  rw [Nat.shiftLeft_zero, Nat.shiftRight_zero]
  by_cases hz : z < 0
  · rw [if_pos (decide_eq_true hz)]; omega
  · rw [if_neg (by simpa using hz)]; omega
end Sys2Proof.Machine

namespace Sys2Proof.Machine

/-! ## One row of mma and mter (R82 to R85, R199) -/

/-- The two rows of a product, element by element. -/
theorem zip_map_range {α β : Type} (n : Nat) (x : Nat → α) (y : Nat → β) :
    ((List.range n).map x).zip ((List.range n).map y) = (List.range n).map (fun k => (x k, y k)) := List.zip_map' ..

/-! ### Float formats -/

section
variable {f : BitVec 4} {n : Nat} (hf : isFloatFmt f = true) (hn : latDepth f = 32 * n) (a : Nat → Nat) (img : Nat) (bsum : List FVal) (acc : List Nat)
  (ck : FVal) (uf : Bool)

/-- The pairs whose products column j adds up. -/
def floatCol (f : BitVec 4) (a : Nat → Nat) (img j : Nat) : Nat → FVal × FVal :=
  fun k => (decodeF f (a k), decodeF f (elemN img (128 * k + j) (fmtBits f)))
/-- The pairs whose products the checksum column adds up. -/
def floatCk (f : BitVec 4) (a : Nat → Nat) (bsum : List FVal) : Nat → FVal × FVal := fun k => (decodeF f (a k), bsum.getD k (.fin false 0 0))

include hf

/-- The flag of a row is kept, and set by an element that is not finite. -/
theorem rowMma_float_flag (h : uf = true ∨ ∃ v ∈ (rowMma f f ((List.range (latDepth f)).map a) img bsum acc ck uf).1, notFinite v = true) :
    (rowMma f f ((List.range (latDepth f)).map a) img bsum acc ck uf).2.2.1 = true := by
  rw [rowMma.eq_def, if_pos hf] at h ⊢
  dsimp only at h ⊢
  rcases h with huf | ⟨v, hv, hfin⟩
  · rw [huf]; rfl
  · obtain ⟨c, hc, rfl⟩ := List.mem_map.mp hv
    rw [Bool.or_eq_true, Bool.or_eq_true]
    refine Or.inl (Or.inr (List.any_eq_true.mpr ⟨c, hc, ?_⟩))
    rw [hfin, Bool.true_or]
include hn

theorem rowMma_float_elements : (rowMma f f ((List.range (latDepth f)).map a) img bsum acc ck uf).1 =
    (List.range 128).map (fun j => groupSums n (acc.getD j 0) (floatCol f a img j)) := by
  have hdiv : 32 * n / 32 = n := Nat.mul_div_cancel_left n (by norm_num)
  rw [rowMma.eq_def, if_pos hf, hn, hdiv, List.map_map]
  dsimp only
  rw [List.map_map, upTo]
  refine List.map_congr_left (fun j _ => ?_)
  rw [Function.comp_apply, zip_map_range, fAccum_eq]
  refine congrArg (groupSums n (acc.getD j 0)) (funext fun k => ?_)
  rw [floatCol, latElem, Nat.mul_comm k 128]
  rfl
theorem rowMma_float_ck {g : Bool} {x : Nat} {e : Int} : (rowMma f f ((List.range (latDepth f)).map a) img bsum acc (.fin g x e) uf).2.1 =
    decodeF 0 (groupSums n (roundF 0 0 0 (.fin g x e)).1 (floatCk f a bsum)) := by
  have hdiv : 32 * n / 32 = n := Nat.mul_div_cancel_left n (by norm_num)
  rw [rowMma.eq_def, if_pos hf, hn, hdiv, upTo, List.map_map]
  dsimp only
  rw [zip_map_range, fAccum_eq]
  rfl
end

/-! ### i8 and t2 -/

section
variable {lf : BitVec 4} {n : Nat} (hlf : lf ≠ 13 → lf = 7) (hn : latDepth lf = 32 * n) (a : Nat → Nat) (img : Nat) (bsum : List FVal) (acc : List Nat)
  (ck : FVal) (uf : Bool)

/-- An element of a latch as an integer. -/
def latInt (lf : BitVec 4) (img k j : Nat) : Int :=
  if lf = 13 then (decodeT2 (elemN img (128 * k + j) (fmtBits lf))).1 else decodeI 7 (elemN img (128 * k + j) (fmtBits lf))
/-- The products that column j adds up. -/
def intCol (lf : BitVec 4) (a : Nat → Nat) (img j : Nat) : Nat → Int := fun k => decodeI 7 (a k) * latInt lf img k j
/-- Element j of a row, of a pattern before, saturates in one of its groups. -/
def colOverflows (lf : BitVec 4) (n : Nat) (a : Nat → Nat) (img v0 : Nat) (j : Nat) : Prop :=
  ∃ g < n, let v := groupTotal (decodeI 5 v0) (intCol lf a img j) g; v < -2147483648 ∨ 2147483647 < v

/-- The columns of a row, each with its flags. -/
def intCols (lf : BitVec 4) (a : Nat → Nat) (img : Nat) (acc : List Nat) (n j : Nat) : Int × Flags :=
  iAccum n (decodeI 5 (acc.getD j 0)) ((List.range (32 * n)).map (fun k => (decodeI 7 (a k), latInt lf img k j)))
/-- The flags of the codes of a latch image. -/
def codeFlags (lf : BitVec 4) (img k j : Nat) : Flags :=
  if lf = 13 then (decodeT2 (elemN img (128 * k + j) (fmtBits lf))).2 else 0

theorem intCols_overflow {j : Nat} (h : colOverflows lf n a img (acc.getD j 0) j) : (intCols lf a img acc n j).2.getLsbD 5 = true :=
  (iAccum_spec _ (fun k => (decodeI 7 (a k), latInt lf img k j)) n).2 h

include hlf hn

theorem rowMma_int : rowMma 7 lf ((List.range (latDepth lf)).map a) img bsum acc ck uf =
    ((List.range 128).map (fun j => wrapI 5 (intCols lf a img acc n j).1),
      intF (ckInt ck + (((((List.range (latDepth lf)).map (fun k => decodeI 7 (a k))).zip (bsum.map ckInt))).map (fun p => p.1 * p.2)).sum),
      uf || (List.range 128).any (fun j => decide ((intCols lf a img acc n j).2 ≠ 0)),
      (List.range 128).foldl (fun f j => f ||| (intCols lf a img acc n j).2) 0 |||
        (List.range (latDepth lf)).foldl (fun f k => (List.range 128).foldl (fun f j => f ||| codeFlags lf img k j) f) 0) := by
  have hdiv : 32 * n / 32 = n := Nat.mul_div_cancel_left n (by norm_num)
  have hval : ∀ k j, (if lf = 13 then decodeT2 (latElem img lf k j) else (decodeI lf (latElem img lf k j), (0 : Flags))) =
      (latInt lf img k j, codeFlags lf img k j) := fun k j => by
    rw [latInt, codeFlags, latElem, Nat.mul_comm k 128]
    split
    · rfl
    · next hne => rw [hlf hne]
  rw [rowMma.eq_def, if_neg (show ¬ isFloatFmt 7 = true from by decide)]
  simp only [hval, upTo, hn, hdiv, List.map_map, List.foldl_map, List.any_map, List.sum_eq_foldl, zip_map_range]
  rfl

theorem rowMma_int_elements : (rowMma 7 lf ((List.range (latDepth lf)).map a) img bsum acc ck uf).1 =
    (List.range 128).map (fun j => wrapI 5 (satSums (decodeI 5 (acc.getD j 0)) (intCol lf a img j) n)) := by
  rw [rowMma_int hlf hn]
  exact List.map_congr_left (fun j _ => congrArg (wrapI 5) (iAccum_spec _ (fun k => (decodeI 7 (a k), latInt lf img k j)) n).1)
/-- MOVF_I where an element saturates. -/
theorem rowMma_int_movf {j : Nat} (hj : j < 128) (h : colOverflows lf n a img (acc.getD j 0) j) :
    (rowMma 7 lf ((List.range (latDepth lf)).map a) img bsum acc ck uf).2.2.2.getLsbD 5 = true := by
  have hflags := getLsbD_foldl_or (g := fun j => (intCols lf a img acc n j).2) (intCols_overflow a img acc h) (List.mem_range.mpr hj) 0
  rw [rowMma_int hlf hn, BitVec.getLsbD_or, hflags, Bool.true_or]
/-- The flag of a row is kept, and set where an element saturates. -/
theorem rowMma_int_flag (h : uf = true ∨ ∃ j < 128, colOverflows lf n a img (acc.getD j 0) j) :
    (rowMma 7 lf ((List.range (latDepth lf)).map a) img bsum acc ck uf).2.2.1 = true := by
  rw [rowMma_int hlf hn]
  dsimp only
  rcases h with huf | ⟨j, hj, hover⟩
  · rw [huf, Bool.true_or]
  · have hset := intCols_overflow a img acc hover
    rw [Bool.or_eq_true]
    refine Or.inr (List.any_eq_true.mpr ⟨j, List.mem_range.mpr hj, decide_eq_true (fun h0 => ?_)⟩)
    rw [h0] at hset
    exact absurd hset (by decide)
/-- TERN_BAD where the latch holds the code 2. -/
theorem rowMma_int_tern {k j : Nat} (hk : k < latDepth lf) (hj : j < 128) (h13 : lf = 13) (h : elemN img (128 * k + j) (fmtBits lf) = 2) :
    (rowMma 7 lf ((List.range (latDepth lf)).map a) img bsum acc ck uf).2.2.2.getLsbD 6 = true := by
  have hcode : (codeFlags lf img k j).getLsbD 6 = true := by rw [codeFlags, if_pos h13]; exact decodeT2_bad h
  rw [rowMma_int hlf hn, BitVec.getLsbD_or, Bool.or_eq_true]
  refine Or.inr (foldl_reaches (P := fun a : Flags => a.getLsbD 6 = true) (fun b k' hb => ?_) (fun b => ?_) (List.mem_range.mpr hk) 0)
  · generalize List.range 128 = l
    induction l generalizing b with
    | nil => exact hb
    | cons j' r ih => exact ih _ (by rw [BitVec.getLsbD_or, hb, Bool.true_or])
  · exact getLsbD_foldl_or hcode (List.mem_range.mpr hj) b
theorem rowMma_int_ck {z : Int} {bs : Nat → Int} (hck : ck = intF z) (hbsum : bsum = (List.range (latDepth lf)).map (fun k => intF (bs k))) :
    (rowMma 7 lf ((List.range (latDepth lf)).map a) img bsum acc ck uf).2.1 =
      intF (z + ((List.range (latDepth lf)).map (fun k => decodeI 7 (a k) * bs k)).sum) := by
  have hcomp : (ckInt ∘ fun k => intF (bs k)) = bs := funext fun k => ckInt_intF (bs k)
  rw [rowMma_int hlf hn, hck, hbsum, ckInt_intF, List.map_map, hcomp, zip_map_range, List.map_map]
  rfl
end
end Sys2Proof.Machine

namespace Sys2Proof.Machine

/-! ## mma and mter (R82 to R85, R199) -/

/-- Element j of row i of an accumulator that starts at a key (R194). -/
def State.accElem (s : State) (k i j : Nat) : Nat := ofBytes (s.peek (k + 512 * i + 4 * j) 4)

/-- A row of an accumulator that is read from its start. -/
theorem row512_peek (s : State) (k : Nat) {rows r : Nat} (hr : r < rows) : row512 (s.peek k (512 * rows)) r = (List.range 128).map (s.accElem k r) := by
  rw [row512_eq]
  refine List.map_congr_left (fun j hj => ?_)
  have hj : j < 128 := List.mem_range.mp hj
  rw [show 32 = 8 * 4 from rfl, elemN_peek s k (by omega), State.accElem, show k + 512 * r + 4 * j = k + 4 * (128 * r + j) by ring]
theorem getD_row512_peek (s : State) (k : Nat) {rows r j : Nat} (hr : r < rows) (hj : j < 128) :
    (row512 (s.peek k (512 * rows)) r).getD j 0 = s.accElem k r j := by
  rw [row512_peek s k hr, getD_map_range _ hj]

theorem nrowOf_le (n : BitVec 7) : nrowOf n ≤ 128 := by
  rw [nrowOf]
  split
  · exact le_rfl
  · exact n.isLt.le

/-- The bytes of row r of A: those of the entries that the row takes (R199). -/
def rowOfA (m : MForm) (per r : Nat) : List Byte :=
  (List.range per).flatMap (fun i => (m.got.getD (r * per + i) ⟨[], false, 0, 0⟩).bytes)
theorem rowOfA_one (m : MForm) (r : Nat) : rowOfA m 1 r = (m.got.getD r ⟨[], false, 0, 0⟩).bytes := by
  rw [rowOfA, Nat.mul_one]
  exact List.append_nil _

section
variable {s : State} {m : MForm} (h : Completing s m) {seen : FormRead} (hread : m.read = some seen)
include h hread

/-- A row of mma or mter from what the form has read, the accumulator and its checksums. -/
theorem mmaRow_popForm {n rows : Nat} (hsrc : formSrc s.cur m.op = (s.cur.accAt n, 512 * rows)) (lat per r : Nat) (f lf : BitVec 4) :
    (s.popForm m).mmaRow m n lat f lf per r =
      rowMma f lf ((List.range (latDepth lf)).map (fun k => elemN (ofBytes (rowOfA m per r)) k (fmtBits f))) (ofBytes seen.bytes) seen.bsum
        (row512 (s.peek (s.accKey n) (512 * rows)) r) (ckOf (s.core s.sel.who.coreId) n r).1 (ckOf (s.core s.sel.who.coreId) n r).2 := by
  have hck : ckOf ((s.popForm m).core s.sel.who.coreId) n r = ckOf (s.core s.sel.who.coreId) n r := by rw [popForm_core]; rfl
  rw [State.mmaRow, hread, h.old, formSees_popForm h, hsrc, h.who, hck]
  rfl
end

/-- The patterns of a row of A whose entries have 256 bytes each. -/
theorem rowOfA_elements {m : MForm} {rows per r : Nat} (hlen : m.got.length = per * rows) (hbytes : ∀ e ∈ m.got, e.bytes.length = 256) (hr : r < rows) :
    (List.range (256 * per)).map (fun k => elemN (ofBytes (rowOfA m per r)) k 8) =
      (List.range (256 * per)).map (fun k => elemN (ofBytes (m.got.getD (per * r + k / 256) ⟨[], false, 0, 0⟩).bytes) (k % 256) 8) := by
  have hentry : ∀ i < per, (m.got.getD (r * per + i) ⟨[], false, 0, 0⟩).bytes.length = 256 := fun i hi => by
    have hin : r * per + i < m.got.length := by
      have := Nat.mul_le_mul_right per (show r + 1 ≤ rows from hr)
      rw [hlen, Nat.mul_comm per]
      rw [add_mul, one_mul] at this
      omega
    rw [List.getD_eq_getElem _ _ hin]
    exact hbytes _ (List.getElem_mem hin)
  refine List.map_congr_left (fun k hk => ?_)
  have hk : k < 256 * per := List.mem_range.mp hk
  have hslice := slice_flatMap hentry (i := k / 256) (o := k % 256) (k := 1) (by omega) (by omega)
  rw [Nat.div_add_mod] at hslice
  rw [show 8 = 8 * 1 from rfl, elemN_ofBytes, elemN_ofBytes, Nat.one_mul, Nat.one_mul, rowOfA, hslice, Nat.mul_comm per]

/-- The pattern of element k of row r of A, whose entries have 256 bytes each. -/
def elemOfA (m : MForm) (per r k : Nat) : Nat := elemN (ofBytes (m.got.getD (per * r + k / 256) ⟨[], false, 0, 0⟩).bytes) (k % 256) 8

/-- A form that accumulates integers in an accumulator: its rows, the entries a row of A takes, the latch and the format it is read
in (R85, R199). -/
structure IntForm (s : State) (m : MForm) (n rows per lat : Nat) (lf : BitVec 4) : Prop where
  acc : n < 16
  entries : 0 < per
  rows_le : rows ≤ 128
  format : lf ≠ 13 → lf = 7
  depth : latDepth lf = 256 * per
  effect : formEffect (s.popForm m) m = doMma (s.popForm m) m n 7
  computes : (s.popForm m).mmaRows m = (List.range rows).map ((s.popForm m).mmaRow m n lat 7 lf per)
  out : (s.popForm m).formOut m = ((s.popForm m).mmaRows m).flatMap (fun q => bytesOf (packElems 32 q.1) 512)
  src : formSrc s.cur m.op = (s.cur.accAt n, 512 * rows)
  dst : formDst s.cur m.op = (s.cur.accAt n, 512 * rows)

theorem intForm_mma {s : State} {m : MForm} {o : MRow} (ho : m.op = .mma o) (h7 : o.fmt = 7) :
    IntForm s m o.acc.toNat (nrowOf o.nrow) 1 o.lat.toNat 7 where
  acc := o.acc.isLt
  entries := Nat.one_pos
  rows_le := nrowOf_le o.nrow
  format := fun _ => rfl
  depth := rfl
  effect := by rw [formEffect, ho, ← h7]
  computes := by rw [State.mmaRows, ho, ← h7]
  out := by rw [State.formOut, ho]
  src := by rw [ho]; rfl
  dst := by rw [ho]; rfl
theorem intForm_mter {s : State} {m : MForm} {o : MRow} (ho : m.op = .mter o) : IntForm s m o.acc.toNat (nrowOf o.nrow) 4 o.lat.toNat 13 where
  acc := o.acc.isLt
  entries := by norm_num
  rows_le := nrowOf_le o.nrow
  format := fun hne => absurd rfl hne
  depth := rfl
  effect := by rw [formEffect, ho]
  computes := by rw [State.mmaRows, ho]
  out := by rw [State.formOut, ho]
  src := by rw [ho]; rfl
  dst := by rw [ho]; rfl

section
variable {s : State} {m : MForm} (h : Completing s m) {seen : FormRead} (hread : m.read = some seen)
include h hread

theorem mma_float_ends {o : MRow} (ho : m.op = .mma o) (hf : isFloatFmt o.fmt = true) {groups : Nat} (hgr : 0 < groups)
    (hdepth : latDepth o.fmt = 32 * groups) :
    ∃ t, exec .matrixOpComplete s = .next t ∧ t.cur.regs = s.cur.regs ∧
      memSameBut s t (s.accKey o.acc.toNat) (512 * nrowOf o.nrow) ∧ t.tag s.sel.who.coreId o.acc.toNat = 1 ∧
      (∀ r < nrowOf o.nrow,
        (∀ j < 128, t.accElem (s.accKey o.acc.toNat) r j = groupSums groups (s.accElem (s.accKey o.acc.toNat) r j)
          (floatCol o.fmt (fun k => elemN (ofBytes (m.got.getD r ⟨[], false, 0, 0⟩).bytes) k (fmtBits o.fmt)) (ofBytes seen.bytes) j)) ∧
        (∀ g x e, (ckOf (s.core s.sel.who.coreId) o.acc.toNat r).1 = .fin g x e →
          (ckOf (t.core s.sel.who.coreId) o.acc.toNat r).1 = decodeF 0 (groupSums groups (roundF 0 0 0 (.fin g x e)).1
            (floatCk o.fmt (fun k => elemN (ofBytes (m.got.getD r ⟨[], false, 0, 0⟩).bytes) k (fmtBits o.fmt)) seen.bsum))) ∧
        ((ckOf (s.core s.sel.who.coreId) o.acc.toNat r).2 = true ∨ (∃ j < 128, notFinite (t.accElem (s.accKey o.acc.toNat) r j) = true) →
          (ckOf (t.core s.sel.who.coreId) o.acc.toNat r).2 = true)) ∧
      (∀ r < 128, nrowOf o.nrow ≤ r → ckOf (t.core s.sel.who.coreId) o.acc.toNat r = ckOf (s.core s.sel.who.coreId) o.acc.toNat r) := by
  have hspan : formSrc s.cur m.op = (s.cur.accAt o.acc.toNat, 512 * nrowOf o.nrow) := by rw [ho]; rfl
  have hrow := fun r => mmaRow_popForm h hread hspan o.lat.toNat 1 r o.fmt o.fmt
  obtain ⟨t, hexec, hregs, hmem, htag, hel, hck, -⟩ := mma_writes h (rows := nrowOf o.nrow) (f := o.fmt) o.acc.isLt (by rw [formEffect, ho])
    (by rw [State.mmaRows, ho]) (by rw [State.formOut, ho]) (by rw [ho]; rfl)
  rw [if_pos hf] at htag
  refine ⟨t, hexec, hregs, hmem, htag, fun r hr => ?_, fun r hr hout => ?_⟩
  · have hckr := hck r (hr.trans_le (nrowOf_le _))
    rw [if_pos hr, hrow, rowOfA_one] at hckr
    have hcol : ∀ j < 128, t.accElem (s.accKey o.acc.toNat) r j = groupSums groups (s.accElem (s.accKey o.acc.toNat) r j)
        (floatCol o.fmt (fun k => elemN (ofBytes (m.got.getD r ⟨[], false, 0, 0⟩).bytes) k (fmtBits o.fmt)) (ofBytes seen.bytes) j) := fun j hj => by
      have helr := hel r hr j hj
      rw [hrow, rowOfA_one, rowMma_float_elements hf hdepth, getD_map_range _ hj, getD_row512_peek s _ hr hj,
        Nat.mod_eq_of_lt (groupSums_lt hgr _ _)] at helr
      exact helr
    refine ⟨hcol, fun g x e hfin => ?_, fun hflag => ?_⟩
    · rw [hckr, hfin]
      exact rowMma_float_ck hf hdepth _ _ _ _ _
    · rw [hckr]
      refine rowMma_float_flag hf _ _ _ _ _ _ (hflag.imp_right fun ⟨j, hj, hfin⟩ => ⟨_, ?_, hfin⟩)
      rw [rowMma_float_elements hf hdepth, hcol j hj, ← getD_row512_peek s _ hr hj]
      exact List.mem_map.mpr ⟨j, List.mem_range.mpr hj, rfl⟩
  · rw [hck r hr, if_neg (by omega)]

theorem mma_int_ends {n rows per lat : Nat} {lf : BitVec 4} (hform : IntForm s m n rows per lat lf)
    (hlen : m.got.length = per * rows) (hbytes : ∀ e ∈ m.got, e.bytes.length = 256) :
    ∃ t, exec .matrixOpComplete s = .next t ∧ t.cur.regs = s.cur.regs ∧
      memSameBut s t (s.accKey n) (512 * rows) ∧ t.tag s.sel.who.coreId n = 2 ∧
      (∀ r < rows, let sum := fun j => satSums (decodeI 5 (s.accElem (s.accKey n) r j)) (intCol lf (elemOfA m per r) (ofBytes seen.bytes) j)
        let ovf := ∃ j < 128, colOverflows lf (256 * per / 32) (elemOfA m per r) (ofBytes seen.bytes) (s.accElem (s.accKey n) r j) j
        (∀ j < 128, decodeI 5 (t.accElem (s.accKey n) r j) = sum j (256 * per / 32)) ∧
        ((ckOf (s.core s.sel.who.coreId) n r).2 = true ∨ ovf → (ckOf (t.core s.sel.who.coreId) n r).2 = true) ∧
        (ovf → t.cur.csr.flags.getLsbD 5 = true) ∧
        (∀ (z : Int) (bs : Nat → Int), (ckOf (s.core s.sel.who.coreId) n r).1 = intF z →
          seen.bsum = (List.range (256 * per)).map (fun k => intF (bs k)) →
          (ckOf (t.core s.sel.who.coreId) n r).1 = intF (z + ((List.range (256 * per)).map (fun k => decodeI 7 (elemOfA m per r k) * bs k)).sum))) ∧
      (lf = 13 → 0 < rows → (∃ k < 256 * per, ∃ j < 128, elemN (ofBytes seen.bytes) (128 * k + j) (fmtBits lf) = 2) →
        t.cur.csr.flags.getLsbD 6 = true) ∧
      (∀ r < 128, rows ≤ r → ckOf (t.core s.sel.who.coreId) n r = ckOf (s.core s.sel.who.coreId) n r) := by
  obtain ⟨hn, hper, hle, hlf, hdepth, heff, hrows, hout, hsrc, hdst⟩ := hform
  have hgroups : latDepth lf = 32 * (256 * per / 32) := by rw [hdepth]; omega
  have hrow : ∀ r < rows, (s.popForm m).mmaRow m n lat 7 lf per r =
      rowMma 7 lf ((List.range (latDepth lf)).map (elemOfA m per r)) (ofBytes seen.bytes) seen.bsum (row512 (s.peek (s.accKey n) (512 * rows)) r)
        (ckOf (s.core s.sel.who.coreId) n r).1 (ckOf (s.core s.sel.who.coreId) n r).2 := fun r hr => by
    rw [mmaRow_popForm h hread hsrc, hdepth, show fmtBits 7 = 8 from rfl, rowOfA_elements hlen hbytes hr]
    rfl
  obtain ⟨t, hexec, hregs, hmem, htag, hel, hck, hflags⟩ := mma_writes h hn heff hrows hout hdst
  have hflag : ∀ {r : Nat}, r < rows → ∀ {b : Nat}, ((s.popForm m).mmaRow m n lat 7 lf per r).2.2.2.getLsbD b = true → t.cur.csr.flags.getLsbD b = true :=
    fun hr _ hb => by
      have hset := getLsbD_foldl_or (g := fun r => ((s.popForm m).mmaRow m n lat 7 lf per r).2.2.2) hb (List.mem_range.mpr hr) 0
      rw [hflags, BitVec.getLsbD_or, hset, Bool.or_true]
  refine ⟨t, hexec, hregs, hmem, htag, fun r hr => ?_, fun h13 hpos ⟨k, hk, j, hj, hcode⟩ => ?_, fun r hr hout => ?_⟩
  · have hckr := hck r (hr.trans_le hle)
    rw [if_pos hr, hrow r hr] at hckr
    have hover : ∀ j < 128, colOverflows lf (256 * per / 32) (elemOfA m per r) (ofBytes seen.bytes) (s.accElem (s.accKey n) r j) j →
        colOverflows lf (256 * per / 32) (elemOfA m per r) (ofBytes seen.bytes) ((row512 (s.peek (s.accKey n) (512 * rows)) r).getD j 0) j :=
        fun j hj hover => by
      rw [getD_row512_peek s _ hr hj]
      exact hover
    refine ⟨fun j hj => ?_, fun hset => ?_, fun ⟨j, hj, hovf⟩ => hflag hr (b := 5) ?_, fun z bs hz hbs => ?_⟩
    · have helr := hel r hr j hj
      rw [hrow r hr, rowMma_int_elements hlf hgroups, getD_map_range _ hj, getD_row512_peek s _ hr hj] at helr
      rw [State.accElem, helr]
      exact decodeI_wrapI (satSums_range (by omega) _ _)
    · rw [hckr]
      dsimp only
      exact rowMma_int_flag hlf hgroups _ _ _ _ _ _ (hset.imp_right fun ⟨j, hj, hovf⟩ => ⟨j, hj, hover j hj hovf⟩)
    · rw [hrow r hr]
      exact rowMma_int_movf hlf hgroups _ _ _ _ _ _ hj (hover j hj hovf)
    · rw [← hdepth] at hbs ⊢
      rw [hckr]
      dsimp only
      exact rowMma_int_ck hlf hgroups _ _ _ _ _ _ hz hbs
  · refine hflag hpos ?_
    rw [hrow 0 hpos]
    exact rowMma_int_tern hlf hgroups _ _ _ _ _ _ (by rw [hdepth]; exact hk) hj h13 hcode
  · rw [hck r hr, if_neg (by omega)]
end
end Sys2Proof.Machine

namespace Sys2Proof.Machine

/-! ## mdrain: one element (R86, R200) -/

/-- One product of a scaled drain, in f32 (R86). -/
def scaleMul (x y : Nat) : Nat := (mulRound 0 0 0 (decodeF 0 x) (decodeF 0 y)).1
/-- An element that a drain converts without scales, from its accumulator's tag (R86). -/
def drainPlain (ovt : BitVec 10) (tag : BitVec 2) (dst : BitVec 4) (rm : BitVec 2) (x : Nat) : Nat :=
  let src : BitVec 4 := if tag = 1 then 0 else 5
  let v := if tag = 0 then 0 else x
  if dst = src then v else (convert ovt src dst rm v).1
/-- An element that a drain scales (R86). -/
def drainScaled (ovt : BitVec 10) (tag : BitVec 2) (dst : BitVec 4) (rm : BitVec 2) (a b x : Nat) : Nat :=
  let v := if tag = 0 then 0 else x
  let y := scaleMul (scaleMul (if tag = 1 then v else (convert 0 5 0 0 v).1) a) b
  if dst = 0 then y else (convert ovt 0 dst rm y).1

section
variable (ovt : BitVec 10) {tag : BitVec 2} (dst : BitVec 4) (rm : BitVec 2) (free : BitVec 4096) (x : Nat) (htag : tag ≠ 3)
include htag

theorem drainElem_plain : (drainElem ovt tag dst rm none free x).1 = drainPlain ovt tag dst rm x := by
  rw [drainElem, if_neg htag, drainPlain]
  dsimp only
  by_cases hd : dst = if tag = 1 then 0 else 5
  · rw [if_pos hd, if_pos hd.symm]
  · rw [if_neg hd, if_neg (Ne.symm hd)]
theorem drainElem_scaled (a b : Nat) : (drainElem ovt tag dst rm (some (a, b)) free x).1 = drainScaled ovt tag dst rm a b x := by
  have hint : ∀ v : Nat, convert 0 5 0 0 v = roundF 0 0 0 (intF (decodeI 5 v)) := fun _ => rfl
  rw [drainElem, if_neg htag, drainScaled, hint]
  dsimp only [scaleMul]
  by_cases h1 : tag = 1
  · simp only [h1]
    split <;> rfl
  · simp only [h1]
    split <;> rfl
end

/-! ## mdrain and macc.ld: the accumulator and its tile (R200, R201) -/

theorem drainRowAt_zero (fmt : BitVec 4) (tile : Nat) : drainRowAt fmt tile 0 = tile * 32768 := by
  rw [drainRowAt]
  split <;> omega

section
variable {s : State} {m : MForm} (h : Completing s m) {seen : FormRead} (hread : m.read = some seen)
include hread

/-- Row i of what a drain writes. -/
theorem drainRow_values {o : MDrain} (i : Nat) : (((s.popForm m).drainRow m o i).map (·.1)) =
    (List.range 128).map (fun j => (drainElem m.ovt seen.tag o.fmt o.rm
      (if (o.x.getD ⟨0, 0, false⟩).scl then some (elemN m.ka.toNat i 32, elemN m.kb.toNat j 32) else none) (Config.undef m.id (0x90000 + 128 * i + j))
      (elemN (ofBytes seen.bytes) (128 * i + j) 32)).1) := by
  rw [State.drainRow, hread, row512_eq]
  refine List.ext_getElem (by simp) (fun j h1 h2 => ?_)
  simp

include h

theorem mdrain_writes {o : MDrain} (ho : m.op = .mdrain o) {sz : Nat} (hsz : fmtBits o.fmt = 8 * sz) (htag : seen.tag ≠ 3) :
    ∃ t, exec .matrixOpComplete s = .next t ∧ t.cur.regs = s.cur.regs ∧
      memSameBut s t (poolKey s.sel.who.coreId (s.cur.tileAt o.tile.toNat)) (16384 * sz) ∧
      ∀ i < 128, ∀ j < 128, ofBytes (t.peek (poolKey s.sel.who.coreId (s.cur.tileAt o.tile.toNat) + (128 * i + j) * sz) sz) =
        (if (o.x.getD ⟨0, 0, false⟩).scl then
          drainScaled m.ovt seen.tag o.fmt o.rm (elemN m.ka.toNat i 32) (elemN m.kb.toNat j 32) (elemN (ofBytes seen.bytes) (128 * i + j) 32)
        else drainPlain m.ovt seen.tag o.fmt o.rm (elemN (ofBytes seen.bytes) (128 * i + j) 32)) % 2 ^ (8 * sz) := by
  have hbytes : (s.popForm m).formOut m = rowBytes sz (fun i => ((s.popForm m).drainRow m o i).map (·.1)) 128 := by
    rw [State.formOut, ho, rowBytes]
    dsimp only
    rw [hsz, show 16 * (8 * sz) = 128 * sz by ring]
  have hdst : (formDst s.cur m.op).1 = s.cur.tileAt o.tile.toNat := by
    rw [ho, Ctx.tileAt, ← drainRowAt_zero o.fmt]; rfl
  have hwrite := writeOut_popForm h
  rw [hdst, hbytes] at hwrite
  have heff : formEffect (s.popForm m) m = doDrain (s.popForm m) m o := by rw [formEffect, ho]
  rw [doDrain, h.who, hwrite] at heff
  generalize orFlags _ = fl at heff
  have hcur : ∀ (b : List Byte) (f : Ctx → Ctx), (((s.popForm m).poke (poolKey s.sel.who.coreId (s.cur.tileAt o.tile.toNat)) b).updCtx s.sel.who f).cur =
      f (s.cur.unbusy m.id) := fun b f => by
    rw [← popForm_cur]; exact State.ctx_updCtx_same _ _ _
  refine ends_of_effect h heff rfl (by rw [hcur]; rfl) (fun t hmem _ _ => ?_)
  have hstored : t.mem = (s.poke (poolKey s.sel.who.coreId (s.cur.tileAt o.tile.toNat))
      (rowBytes sz (fun i => ((s.popForm m).drainRow m o i).map (·.1)) 128)).mem := hmem
  refine ⟨?_, fun i hi j hj => ?_⟩
  · have hsame := memSameBut_of_stored h.wf hstored
    rw [length_rowBytes, show 128 * sz * 128 = 16384 * sz by ring] at hsame
    exact hsame
  · rw [element_of_stored h.wf hstored hi hj, drainRow_values hread, getD_map_range _ hj]
    split
    · rw [drainElem_scaled _ _ _ _ _ htag]
    · rw [drainElem_plain _ _ _ _ _ htag]
end

/-! ### macc.ld -/

/-- The checksum and flag of a row that macc.ld brings in, of integers or of f32 patterns. -/
theorem loadCk_int (v : Nat → Nat) : loadCk 5 ((List.range 128).map v) = (intF ((List.range 128).map (fun j => decodeI 5 (v j))).sum, false) := by
  rw [List.sum_eq_foldl, ← Function.comp_def, ← List.map_map]; rfl
theorem loadCk_float (v : Nat → Nat) : (loadCk 0 ((List.range 128).map v)).1 =
    decodeF 0 (sumRound 0 0 0 ((List.range 128).map (fun j => decodeF 0 (v j)))).1 := by
  rw [← Function.comp_def, ← List.map_map]; rfl
theorem loadCk_float_flag (v : Nat → Nat) : (loadCk 0 ((List.range 128).map v)).2 = true ↔
    (∃ j < 128, notFinite (v j) = true) ∨ ∃ g, (loadCk 0 ((List.range 128).map v)).1 = .inf g := by
  have hflag : ∀ l, (loadCk 0 l).2 = (l.any notFinite || decide ((loadCk 0 l).1 = .inf true) || decide ((loadCk 0 l).1 = .inf false)) := fun _ => rfl
  rw [hflag, Bool.or_eq_true, Bool.or_eq_true, decide_eq_true_eq, decide_eq_true_eq, List.any_map, List.any_eq_true, or_assoc, Bool.exists_bool,
    or_comm (a := _ = FVal.inf true)]
  simp only [List.mem_range, Function.comp_apply]

section
variable {s : State} {m : MForm} (h : Completing s m) {seen : FormRead} (hread : m.read = some seen)
include h hread

theorem maccLd_loads {o : MLd} (ho : m.op = .maccLd o) (hlen : seen.bytes.length = 65536) :
    ∃ t, exec .matrixOpComplete s = .next t ∧ t.cur.regs = s.cur.regs ∧ memSameBut s t (s.accKey o.acc.toNat) 65536 ∧
      t.peek (s.accKey o.acc.toNat) 65536 = seen.bytes ∧ t.tag s.sel.who.coreId o.acc.toNat = (if o.fmt = 0 then 1 else 2) ∧
      ∀ i < 128, ckOf (t.core s.sel.who.coreId) o.acc.toNat i =
        loadCk o.fmt ((List.range 128).map (fun j => elemN (ofBytes seen.bytes) (128 * i + j) 32)) := by
  have hwrite := writeOut_popForm h
  have hdst : (formDst s.cur m.op).1 = s.cur.accAt o.acc.toNat := by rw [ho]; rfl
  have hbytes : (s.popForm m).formOut m = seen.bytes := by rw [State.formOut, ho, hread]; rfl
  rw [hdst, hbytes] at hwrite
  have heff : formEffect (s.popForm m) m = doLoad (s.popForm m) m o := by rw [formEffect, ho]
  rw [doLoad, h.who, hwrite, hread, Option.getD_some] at heff
  refine ends_of_effect h heff rfl ?_ (fun t hmem _ hcore => ?_)
  · show (s.popForm m).cur.regs = _
    rw [popForm_cur]; rfl
  · have hstored : t.mem = (s.poke (s.accKey o.acc.toNat) seen.bytes).mem := hmem
    refine ⟨?_, ?_, ?_, fun i hi => ?_⟩
    · rw [← hlen]
      exact memSameBut_of_stored h.wf hstored
    · have hpeek := peek_of_stored h.wf hstored (o := 0) (n := 65536) (by omega)
      rw [List.drop_zero, List.take_of_length_le hlen.le, Nat.add_zero] at hpeek
      exact hpeek
    · rw [tag_of_core (hcore _)]
      exact tag_setTag _ _ o.acc.isLt _
    · rw [hcore, ckOf_setTag, State.core_updCore_same, upTo, ckOf_setRows o.acc.toNat (fun i => loadCk o.fmt (row512 seen.bytes i)) _ hi, if_pos hi,
        row512_eq]
end
end Sys2Proof.Machine

namespace Sys2Proof.Machine

/-! ## mkat (R202) -/

/-- What a form that fails at its completion raises. -/
def State.formTrap (s : State) (code : BitVec 8) (info : BitVec 64) : TrapArgs :=
  { code := code, info := info, pc := s.cur.issueNext, reason := 0, slots := 0, freeze := .none }

section
variable {s : State} {m : MForm} (h : Completing s m)
include h

theorem failForm_eq {u : State} (hu : (u.ctx s.sel.who).issueNext = s.cur.issueNext) (code : BitVec 8) (info : BitVec 64) :
    failForm u m code info = raiseCause u s.sel.who (s.formTrap code info) false m.inst := by
  rw [failForm, h.who, hu]
  rfl

theorem mkat_passes {o : MKat} (ho : m.op = .mkat o) (hh : katHash o.seed.toNat = o.hash) :
    ∃ t, exec .matrixOpComplete s = .next t ∧ t.cur.regs = s.cur.regs ∧ t.mem = s.mem ∧ t.cur = s.cur.unbusy m.id := by
  have heff : formEffect (s.popForm m) m = s.popForm m := by rw [formEffect, ho]; exact if_pos hh
  refine ends_of_effect h heff rfl (by rw [popForm_cur]; rfl) (fun t hmem hcur _ => ⟨hmem, ?_⟩)
  rw [hcur, popForm_cur]
theorem mkat_fails {o : MKat} (ho : m.op = .mkat o) (hh : katHash o.seed.toNat ≠ o.hash) :
    exec .matrixOpComplete s = .next (raiseCause (s.popForm m) s.sel.who (s.formTrap 0x03 ((katHash o.seed.toNat).setWidth 64)) false m.inst).settle := by
  have heff : formEffect (s.popForm m) m = failForm (s.popForm m) m 0x03 ((katHash o.seed.toNat).setWidth 64) := by
    rw [formEffect, ho]; exact if_neg hh
  rw [exec_completes h, heff, failForm_eq h (by rw [popForm_ctx]; rfl)]
end

/-! ## mchk (R203, R204) -/

theorem firstIdx_eq_findIdx? {α : Type} (p : α → Bool) : ∀ l : List α, firstIdx p l = l.findIdx? p
  | [] => rfl
  | x :: r => by rw [firstIdx, List.findIdx?_cons, firstIdx_eq_findIdx? p r]
/-- The first of some results that is the one sought. -/
theorem firstIdx_range_none {α : Type} [DecidableEq α] {v : α} {f : Nat → α} {n : Nat} (h : ∀ i < n, f i ≠ v) :
    firstIdx (fun x => decide (x = v)) ((List.range n).map f) = none := by
  rw [firstIdx_eq_findIdx?, List.findIdx?_eq_none_iff]
  intro x hx
  obtain ⟨i, hi, rfl⟩ := List.mem_map.mp hx
  exact decide_eq_false (h i (List.mem_range.mp hi))
theorem firstIdx_range_some {α : Type} [DecidableEq α] {v : α} {f : Nat → α} {n r : Nat} (hr : r < n) (hv : f r = v) (hbefore : ∀ i < r, f i ≠ v) :
    firstIdx (fun x => decide (x = v)) ((List.range n).map f) = some r := by
  rw [firstIdx_eq_findIdx?, List.findIdx?_eq_some_iff_getElem]
  exact ⟨by simpa using hr, by simpa using hv, fun j hj => by simpa using hbefore j hj⟩

/-- A counter of 16 bits that holds at its greatest value. -/
theorem toNat_satN (v : Nat) : (BitVec.ofNat 16 (satN v 16)).toNat = min 0xFFFF v := by
  rw [BitVec.toNat_ofNat, satN]
  omega
theorem satN_succ (n : BitVec 16) : BitVec.ofNat 16 (satN (n.toNat + 1) 16) = if n = 0xFFFF then 0xFFFF else n + 1 := by
  have hlt := n.isLt
  refine BitVec.eq_of_toNat_eq ?_
  rw [toNat_satN]
  split
  · next hn => rw [hn]; rfl
  · next hn =>
    have hne : n.toNat ≠ 65535 := fun he => hn (BitVec.eq_of_toNat_eq he)
    rw [BitVec.toNat_add]
    show min 65535 (n.toNat + 1) = (n.toNat + 1) % 2 ^ 16
    omega

/-- What mchk finds of row i of an accumulator (R203). -/
def State.rowResult (s : State) (o : MChk) (i : Nat) : Option Bool :=
  rowCheck (s.tag s.sel.who.coreId o.acc.toNat) ((List.range 128).map (s.accElem (s.accKey o.acc.toNat) i))
    (ckOf (s.core s.sel.who.coreId) o.acc.toNat i).1 (ckOf (s.core s.sel.who.coreId) o.acc.toNat i).2 o.tol.toNat
/-- The counters of mchk after a form, with the first failing row that it records. -/
def Csr.checked (c : Csr) (unch : Nat) (bad : Option Nat) : Csr :=
  { c with
    mchkUnchk := BitVec.ofNat 16 (satN (c.mchkUnchk.toNat + unch) 16), mchkN := BitVec.ofNat 16 (satN (c.mchkN.toNat + 1) 16),
    mchkFrow := match bad with | some r => BitVec.ofNat 8 r | none => c.mchkFrow }
/-- The state after mchk has counted its rows. -/
def State.checkForm (s : State) (m : MForm) (o : MChk) (bad : Option Nat) : State :=
  (s.popForm m).updCtx s.sel.who (fun c => { c with csr := c.csr.checked ((List.range 128).filter (fun i => decide (s.rowResult o i = none))).length bad })

section
variable {s : State} {m : MForm}

theorem checkForm_cur (o : MChk) (bad : Option Nat) : (s.checkForm m o bad).cur =
    { s.cur.unbusy m.id with csr := s.cur.csr.checked ((List.range 128).filter (fun i => decide (s.rowResult o i = none))).length bad } := by
  show ((s.popForm m).updCtx s.sel.who _).ctx s.sel.who = _
  rw [State.ctx_updCtx_same, popForm_ctx]
  rfl

theorem checkForm_counts (o : MChk) (bad : Option Nat) : (s.checkForm m o bad).mem = s.mem ∧
    (s.checkForm m o bad).cur.csr.mchkN = (if s.cur.csr.mchkN = 0xFFFF then 0xFFFF else s.cur.csr.mchkN + 1) ∧
    (s.checkForm m o bad).cur.csr.mchkUnchk.toNat =
      min 0xFFFF (s.cur.csr.mchkUnchk.toNat + ((List.range 128).filter (fun i => decide (s.rowResult o i = none))).length) := by
  rw [checkForm_cur]
  exact ⟨rfl, satN_succ _, toNat_satN _⟩

variable (h : Completing s m)
include h

theorem mchk_effect {o : MChk} (ho : m.op = .mchk o) : formEffect (s.popForm m) m =
    match firstIdx (fun r => decide (r = some true)) ((List.range 128).map (s.rowResult o)) with
    | some r => failForm (s.checkForm m o (some r)) m 0x04 (BitVec.ofNat 64 (o.acc.toNat + 16 * r))
    | none => s.checkForm m o none := by
  have hsrc : formSrc s.cur m.op = (s.cur.accAt o.acc.toNat, 512 * 128) := by rw [ho]; rfl
  have htag : (s.popForm m).tag s.sel.who.coreId o.acc.toNat = s.tag s.sel.who.coreId o.acc.toNat := by
    rw [State.tag, popForm_core]; rfl
  have hres : ((upTo 128).map (fun i => rowCheck ((s.popForm m).tag s.sel.who.coreId o.acc.toNat)
      (row512 (s.peek (s.accKey o.acc.toNat) (512 * 128)) i) (ckOf ((s.popForm m).core s.sel.who.coreId) o.acc.toNat i).1
        (ckOf ((s.popForm m).core s.sel.who.coreId) o.acc.toNat i).2 o.tol.toNat)) = (List.range 128).map (s.rowResult o) := by
    refine List.map_congr_left (fun i hi => ?_)
    rw [htag, row512_peek s _ (List.mem_range.mp hi), popForm_core]
    rfl
  have hunch : (((List.range 128).map (s.rowResult o)).filter (fun r => r.isNone)).length =
      ((List.range 128).filter (fun i => decide (s.rowResult o i = none))).length := by
    rw [List.filter_map, List.length_map]
    refine congrArg List.length (List.filter_congr (fun i _ => ?_))
    rw [Function.comp_apply]
    cases s.rowResult o i <;> rfl
  rw [formEffect, ho]
  dsimp only
  rw [doCheck, h.who, formSees_popForm h, hsrc, h.old, Option.getD_none]
  dsimp only
  rw [show poolKey s.sel.who.coreId (s.cur.accAt o.acc.toNat) = s.accKey o.acc.toNat from rfl, hres, hunch]
  generalize firstIdx _ _ = bad
  cases bad <;> rfl

theorem mchk_passes {o : MChk} (ho : m.op = .mchk o) (hres : ∀ i < 128, s.rowResult o i ≠ some true) :
    ∃ t, exec .matrixOpComplete s = .next t ∧ t.cur.regs = s.cur.regs ∧ t.mem = (s.checkForm m o none).mem ∧ t.cur = (s.checkForm m o none).cur := by
  have heff := mchk_effect h ho
  rw [firstIdx_range_none hres] at heff
  exact ends_of_effect h heff rfl (by rw [checkForm_cur]; rfl) (fun t hmem hcur _ => ⟨hmem, hcur⟩)
theorem mchk_fails {o : MChk} (ho : m.op = .mchk o) {r : Nat} (hr : r < 128) (hbad : s.rowResult o r = some true)
    (hbefore : ∀ i < r, s.rowResult o i ≠ some true) :
    exec .matrixOpComplete s = .next (raiseCause (s.checkForm m o (some r)) s.sel.who
      (s.formTrap 0x04 (BitVec.ofNat 64 (o.acc.toNat + 16 * r))) false m.inst).settle := by
  have heff := mchk_effect h ho
  rw [firstIdx_range_some hr hbad hbefore] at heff
  have hcur : (s.checkForm m o (some r)).ctx s.sel.who = (s.checkForm m o (some r)).cur := rfl
  rw [exec_completes h, heff]
  dsimp only
  rw [failForm_eq h (by rw [hcur, checkForm_cur]; rfl)]
end
end Sys2Proof.Machine

namespace Sys2Proof.Machine

/-! ## The check of a row (R203) -/

/-- An f32 pattern stands for a finite value unless its exponent field is full (R65). -/
theorem decodeF_notFinite {v : Nat} (h : notFinite v = true) : ∀ g n e, decodeF 0 v ≠ .fin g n e := by
  have hfield : natFld v 23 8 = 255 := by rw [natFld, Nat.shiftRight_eq_div_pow]; exact of_decide_eq_true h
  intro g n e
  rw [decodeF, show ffmt 0 = ⟨8, 23, 127, false⟩ from rfl]
  dsimp only
  rw [hfield]
  by_cases hm : v % 2 ^ 23 = 0
  · rw [if_neg (by simpa using hm), if_pos (by simp)]
    exact FVal.noConfusion
  · rw [if_pos (by simpa using hm)]
    exact FVal.noConfusion
theorem decodeF_finite {v : Nat} (h : notFinite v = false) : ∃ g n e, decodeF 0 v = .fin g n e := by
  have hfield : natFld v 23 8 ≠ 255 := by rw [natFld, Nat.shiftRight_eq_div_pow]; exact of_decide_eq_false h
  rw [decodeF, show ffmt 0 = ⟨8, 23, 127, false⟩ from rfl]
  dsimp only
  rw [if_neg (fun hc => hfield hc.1), if_neg (fun hc => hfield hc.1)]
  split
  · exact ⟨_, _, _, rfl⟩
  · exact ⟨_, _, _, rfl⟩

theorem abs_q (n : Bool) (m : Nat) (e : Int) : |(FVal.fin n m e).q| = m * 2 ^ e := by
  rw [FVal.q, abs_mul, abs_mul, Nat.abs_cast, abs_of_pos (zpow_pos (by norm_num : (0 : ℚ) < 2) e)]
  cases n <;> simp

/-- The place of the highest bit of a number, over the rationals. -/
theorem two_zpow_bitLen {m : Nat} (hm : 0 < m) (e : Int) :
    (2 : ℚ) ^ ((bitLen m : Int) - 1 + e) ≤ m * 2 ^ e ∧ (m : ℚ) * 2 ^ e < 2 ^ ((bitLen m : Int) - 1 + e + 1) := by
  have hpos := bitLen_pos hm
  have hlow : 2 ^ (bitLen m - 1) ≤ m := two_pow_le_of_bitLen (by omega)
  have htwo : (2 : ℚ) ≠ 0 := by norm_num
  have hpow : (0 : ℚ) < 2 ^ e := zpow_pos (by norm_num) e
  have hexp : ((bitLen m : Int) - 1) = ((bitLen m - 1 : Nat) : Int) := by omega
  constructor
  · rw [zpow_add₀ htwo, hexp, zpow_natCast]
    exact mul_le_mul_of_nonneg_right (by exact_mod_cast hlow) hpow.le
  · rw [show (bitLen m : Int) - 1 + e + 1 = (bitLen m : Int) + e by ring, zpow_add₀ htwo, zpow_natCast]
    exact mul_lt_mul_of_pos_right (by exact_mod_cast lt_two_pow_bitLen m) hpow
/-- The unit of a finite value does not shrink as its magnitude grows. -/
theorem ulpExp_mono {m m' : Nat} {e e' : Int} (h : (m : ℚ) * 2 ^ e ≤ m' * 2 ^ e') : ulpExp m e ≤ ulpExp m' e' := by
  rcases Nat.eq_zero_or_pos m with rfl | hm
  · rw [ulpExp, if_pos rfl, ulpExp]
    split <;> omega
  · have hm' : 0 < m' := by
      by_contra h0
      have hzero : m' = 0 := by omega
      rw [hzero, Nat.cast_zero, zero_mul] at h
      exact absurd h (not_le.mpr (mul_pos (by exact_mod_cast hm) (zpow_pos (by norm_num) e)))
    have hplace : (bitLen m : Int) - 1 + e < (bitLen m' : Int) - 1 + e' + 1 :=
      (zpow_lt_zpow_iff_right₀ (by norm_num : (1 : ℚ) < 2)).mp (((two_zpow_bitLen hm e).1.trans h).trans_lt (two_zpow_bitLen hm' e').2)
    rw [ulpExp, ulpExp, if_neg hm.ne', if_neg hm'.ne']
    omega
/-- The unit of the larger of two magnitudes is the larger of their units. -/
theorem ulp_of_top {m m' : Nat} {e e' : Int} {ulp : ℚ} (hzero : max ((m : ℚ) * 2 ^ e) (m' * 2 ^ e') = 0 → ulp = 2 ^ (-149 : Int))
    (hplace : ∀ k : Int, (2 : ℚ) ^ k ≤ max ((m : ℚ) * 2 ^ e) (m' * 2 ^ e') →
      max ((m : ℚ) * 2 ^ e) (m' * 2 ^ e') < (2 : ℚ) ^ (k + 1) → ulp = 2 ^ (max k (-126) - 23)) :
    ulp = 2 ^ max (ulpExp m e) (ulpExp m' e') := by
  have hone : ∀ (n : Nat) (d : Int), max ((m : ℚ) * 2 ^ e) (m' * 2 ^ e') = n * 2 ^ d → ulp = 2 ^ ulpExp n d := fun n d htop => by
    rw [htop] at hzero hplace
    rcases Nat.eq_zero_or_pos n with rfl | hn
    · rw [ulpExp, if_pos rfl]
      exact hzero (by rw [Nat.cast_zero, zero_mul])
    · rw [ulpExp, if_neg hn.ne']
      exact hplace _ (two_zpow_bitLen hn d).1 (two_zpow_bitLen hn d).2
  rcases le_total ((m : ℚ) * 2 ^ e) (m' * 2 ^ e') with h | h
  · rw [max_eq_right (ulpExp_mono h)]
    exact hone m' e' (max_eq_right h)
  · rw [max_eq_left (ulpExp_mono h)]
    exact hone m e (max_eq_left h)

/-- A difference on a grid against a tolerance in units. -/
theorem tolerance_lt {tol : Nat} {d u e0 : Int} {q : ℚ} (hu : e0 ≤ u) (hq : (d : ℚ) * 2 ^ e0 = q) :
    tol * 2 ^ (u - e0).toNat < d.natAbs ↔ (tol : ℚ) * 2 ^ u < |q| := by
  have hpow : (0 : ℚ) < 2 ^ e0 := zpow_pos (by norm_num) e0
  have habs : |q| = (d.natAbs : ℚ) * 2 ^ e0 := by rw [← hq, abs_mul, abs_of_pos hpow, Nat.cast_natAbs, Int.cast_abs]
  rw [habs, ← two_zpow_toNat hu, ← mul_assoc, mul_lt_mul_iff_left₀ hpow]
  exact_mod_cast Iff.rfl

theorem rowCheck_unchecked (tag : BitVec 2) (row : List Nat) (ck : FVal) (uf : Bool) (tol : Nat) (h : tag = 3 ∨ uf = true) :
    rowCheck tag row ck uf tol = none := by
  rw [rowCheck.eq_def, if_pos (by rcases h with rfl | rfl <;> simp)]

theorem rowCheck_int {tag : BitVec 2} (htag : tag = 2 ∨ tag = 0) (row : List Nat) (g : Bool) (n : Nat) (e : Int) (tol : Nat) :
    rowCheck tag row (.fin g n e) false tol =
      some (decide ((tol : ℚ) < |(((row.map (fun v => if tag = 0 then 0 else decodeI 5 v)).sum : Int) : ℚ) - (FVal.fin g n e).q|)) := by
  have h3 : ¬ (decide (tag = 3) || false) = true := by rcases htag with rfl | rfl <;> decide
  have h1 : tag ≠ 1 := by rcases htag with rfl | rfl <;> decide
  rw [rowCheck.eq_def, if_neg h3, if_neg h1]
  dsimp only
  rw [← List.sum_eq_foldl]
  generalize (row.map (fun v => if tag = 0 then 0 else decodeI 5 v)).sum = sum
  have hgrid : ((sum * ((2 ^ (0 - min e 0).toNat : Nat) : Int) - scaled (min e 0) (.fin g n e) : Int) : ℚ) * 2 ^ min e 0 = sum - (FVal.fin g n e).q := by
    have hone := two_zpow_toNat (min_le_right e 0)
    rw [zpow_zero] at hone
    push_cast
    rw [sub_mul, mul_assoc, hone, mul_one, scaled_mul_zpow (min_le_left e 0)]
  have hlt := tolerance_lt (tol := tol) (min_le_right e 0) hgrid
  rw [zpow_zero, mul_one] at hlt
  exact congrArg some (decide_eq_decide.mpr (by exact_mod_cast hlt))

theorem rowCheck_float (row : List Nat) (g : Bool) (n : Nat) (e : Int) (tol : Nat) {g' : Bool} {n' : Nat} {e' : Int}
    (hx : decodeF 0 (sumRound 0 0 0 (row.map (decodeF 0))).1 = .fin g' n' e') :
    rowCheck 1 row (.fin g n e) false tol =
      some (decide ((tol : ℚ) * 2 ^ max (ulpExp n' e') (ulpExp n e) < |(FVal.fin g' n' e').q - (FVal.fin g n e).q|)) := by
  have hfin : notFinite (sumRound 0 0 0 (row.map (decodeF 0))).1 = false := by
    by_contra hnot
    exact decodeF_notFinite (by simpa using hnot) _ _ _ hx
  rw [rowCheck.eq_def, if_neg (by decide), if_pos rfl]
  dsimp only
  rw [hfin, if_neg Bool.false_ne_true, hx]
  dsimp only
  generalize hu : max (ulpExp n' e') (ulpExp n e) = u
  have hgrid : ((scaled (min (min e' e) u) (.fin g' n' e') - scaled (min (min e' e) u) (.fin g n e) : Int) : ℚ) * 2 ^ min (min e' e) u =
      (FVal.fin g' n' e').q - (FVal.fin g n e).q := by
    rw [Int.cast_sub, sub_mul, scaled_mul_zpow (by omega), scaled_mul_zpow (by omega)]
  have hlt := tolerance_lt (tol := tol) (min_le_right (min e' e) u) hgrid
  exact congrArg some (decide_eq_decide.mpr hlt)
theorem rowCheck_float_unchecked (row : List Nat) (ck : FVal) (uf : Bool) (tol : Nat)
    (hx : ∀ g n e, decodeF 0 (sumRound 0 0 0 (row.map (decodeF 0))).1 ≠ .fin g n e) : rowCheck 1 row ck uf tol = none := by
  have hnot : notFinite (sumRound 0 0 0 (row.map (decodeF 0))).1 = true := by
    by_contra hfin
    obtain ⟨g, n, e, h⟩ := decodeF_finite (by simpa using hfin)
    exact hx g n e h
  rw [rowCheck.eq_def]
  split
  · rfl
  · rw [if_pos rfl]
    dsimp only
    rw [if_pos hnot]

theorem rowCheck_checks (tag : BitVec 2) (row : List Nat) (ck : FVal) (uf : Bool) (tol : Nat) :
    (tag = 3 ∨ uf = true → rowCheck tag row ck uf tol = none) ∧
    (∀ g n e, ck = .fin g n e → uf = false →
      (tag = 2 ∨ tag = 0 →
        let sum : Int := (row.map (fun v => if tag = 0 then 0 else decodeI 5 v)).sum
        rowCheck tag row ck uf tol = some (decide ((tol : ℚ) < |(sum : ℚ) - ck.q|))) ∧
      (tag = 1 →
        let x := decodeF 0 (sumRound 0 0 0 (row.map (decodeF 0))).1
        let top := max |x.q| |ck.q|
        (x = .nan ∨ x = .inf true ∨ x = .inf false → rowCheck tag row ck uf tol = none) ∧
        (∀ (g' : Bool) (n' : Nat) (e' : Int) (ulp : ℚ), x = .fin g' n' e' → (top = 0 → ulp = 2 ^ (-149 : Int)) →
          (∀ k : Int, (2 : ℚ) ^ k ≤ top → top < (2 : ℚ) ^ (k + 1) → ulp = 2 ^ (max k (-126) - 23)) →
          rowCheck tag row ck uf tol = some (decide ((tol : ℚ) * ulp < |x.q - ck.q|))))) := by
  refine ⟨rowCheck_unchecked tag row ck uf tol, ?_⟩
  rintro g n e rfl rfl
  refine ⟨fun htag => rowCheck_int htag row g n e tol, ?_⟩
  rintro rfl
  refine ⟨fun hx => rowCheck_float_unchecked row _ _ tol ?_, fun g' n' e' ulp hx hzero hplace => ?_⟩
  · intro g' n' e' hfin
    rw [hfin] at hx
    rcases hx with hx | hx | hx <;> exact FVal.noConfusion hx
  · rw [hx, abs_q, abs_q] at hzero hplace
    rw [rowCheck_float row g n e tol hx, ulp_of_top hzero hplace, hx]
end Sys2Proof.Machine

namespace Sys2Proof.Machine

/-! ## The known-answer product (R202) -/

/-- A value that mkat takes from a state of its generator. -/
def katValue (y : Nat) : Int := (BitVec.ofNat 4 (y / 4096)).toInt
theorem sInt_natFld (y : Nat) : sInt (natFld y 12 4) 4 = katValue y := by
  have hmod : BitVec.ofNat 4 (y / 2 ^ 12 % 2 ^ 4) = BitVec.ofNat 4 (y / 2 ^ 12) := by
    refine BitVec.eq_of_toNat_eq ?_
    rw [BitVec.toNat_ofNat, BitVec.toNat_ofNat, Nat.mod_mod]
  rw [sInt_eq_toInt, natFld, Nat.shiftRight_eq_div_pow, hmod]
  rfl

section
variable {x : Nat → Nat} (hx : ∀ n, x (n + 1) = (25173 * x n + 13849) % 65536)
include hx

theorem katTake_eq : ∀ n k : Nat, katTake n (x k) = ((List.range n).map (fun i => katValue (x (k + i + 1))), x (k + n))
  | 0, _ => rfl
  | n + 1, k => by
    have hnext : katNext (x k) = x (k + 1) := (hx k).symm
    have hrest : (List.range n).map ((fun i => katValue (x (k + i + 1))) ∘ Nat.succ) = (List.range n).map (fun i => katValue (x (k + 1 + i + 1))) :=
      List.map_congr_left (fun i _ => congrArg (fun j => katValue (x j)) (by rw [Nat.succ_eq_add_one]; ring))
    rw [katTake]
    rw [hnext, katTake_eq n (k + 1), sInt_natFld, List.range_succ_eq_map, List.map_cons, List.map_map, hrest, show k + 1 + n = k + (n + 1) by ring]
end

/-- The bytes of an integer wrapped to 32 bits. -/
theorem bytesOf_wrapN (v : Int) : bytesOf (wrapN v 32) 4 = (List.range 4).map (fun n => BitVec.ofInt 8 (v / 256 ^ n)) := by
  refine List.map_congr_left (fun n hn => ?_)
  have hn : n < 4 := List.mem_range.mp hn
  refine BitVec.eq_of_toNat_eq ?_
  rw [BitVec.toNat_ofNat, BitVec.toNat_ofInt, Nat.shiftRight_eq_div_pow, wrapN]
  interval_cases n <;> norm_num <;> omega

theorem katHash_eq (seed : Nat) (x : Nat → Nat) (h0 : x 0 = seed) (hx : ∀ n, x (n + 1) = (25173 * x n + 13849) % 65536) :
    katHash seed = crc32c ((List.range 8).flatMap (fun i => (List.range 128).flatMap (fun j =>
      (List.range 4).map (fun n => BitVec.ofInt 8
        (((List.range 32).map (fun k => katValue (x (32 * i + k + 1)) * katValue (x (256 + 128 * k + j + 1)))).sum / 256 ^ n))))) := by
  have hfirst := katTake_eq hx 256 0
  have hsecond := katTake_eq hx 4096 256
  rw [katHash, ← h0, hfirst]
  dsimp only
  rw [Nat.zero_add, hsecond]
  refine congrArg crc32c (List.flatMap_congr (fun i hi => List.flatMap_congr (fun j hj => ?_)))
  have hi : i < 8 := List.mem_range.mp hi
  have hj : j < 128 := List.mem_range.mp hj
  rw [bytesOf_wrapN, ← List.sum_eq_foldl]
  have hterms : (upTo 32).map (fun k => ((List.range 256).map (fun i => katValue (x (0 + i + 1)))).getD (i * 32 + k) 0 *
      ((List.range 4096).map (fun i => katValue (x (256 + i + 1)))).getD (k * 128 + j) 0) =
      (List.range 32).map (fun k => katValue (x (32 * i + k + 1)) * katValue (x (256 + 128 * k + j + 1))) := by
    refine List.map_congr_left (fun k hk => ?_)
    have hk : k < 32 := List.mem_range.mp hk
    rw [getD_map_range _ (by omega), getD_map_range _ (by omega), Nat.zero_add, Nat.mul_comm i, Nat.mul_comm k, ← Nat.add_assoc 256]
  rw [hterms]
end Sys2Proof.Machine

namespace Sys2Proof.Machine

/-! ## What every matrix form leaves (O31) -/

/-- The formats of a latch and what they fix (R41, R82): the depth in rows and, for a float format, the groups of 32 in it. -/
theorem latDepth_eq {f : BitVec 4} (hf : f ∈ ([1, 2, 3, 4, 7, 13] : List (BitVec 4))) :
    latDepth f = if f = 13 then 1024 else if f = 1 ∨ f = 2 then 128 else 256 := by
  revert hf; revert f; decide
theorem latDepth_float {f : BitVec 4} (hf : f ∈ ([1, 2, 3, 4] : List (BitVec 4))) :
    isFloatFmt f = true ∧ latDepth f = 32 * if f = 1 ∨ f = 2 then 4 else 8 := by
  revert hf; revert f; decide
theorem isFloatFmt_of_latch {f : BitVec 4} (hf : f ∈ ([1, 2, 3, 4, 7, 13] : List (BitVec 4))) (h7 : f ≠ 7) (h13 : f ≠ 13) : isFloatFmt f = true := by
  revert hf h7 h13; revert f; decide
/-- The widths that a drain writes are whole bytes (R41, R200). -/
theorem fmtBits_drain {f : BitVec 4} (hf : f ∈ ([0, 1, 2, 3, 4, 5, 7] : List (BitVec 4))) : fmtBits f = 8 * (fmtBits f / 8) := by
  revert hf; revert f; decide

/-- The sums of the rows of a latch, for the formats of a latch (R195). -/
theorem latSums_values {f : BitVec 4} (hf : f ∈ ([1, 2, 3, 4, 7, 13] : List (BitVec 4))) (img : Nat) {k : Nat} (hk : k < latDepth f) :
    let x := fun j => elemN img (128 * k + j) (fmtBits f)
    let v := (latSums f img).getD k .nan
    (f = 7 → v = intF ((List.range 128).map (fun j => decodeI 7 (x j))).sum) ∧
    (f = 13 → v = intF ((List.range 128).map (fun j => (decodeT2 (x j)).1)).sum) ∧
    (f ≠ 7 → f ≠ 13 → (∀ j < 128, ∃ g n e, decodeF f (x j) = .fin g n e) → v.q = ((List.range 128).map (fun j => (decodeF f (x j)).q)).sum) := by
  intro x v
  have hv : v = _ := latSums_getD f img hk
  rw [hv]
  refine ⟨fun h7 => ?_, fun h13 => ?_, fun h7 h13 hfin => ?_⟩
  · subst h7; rfl
  · subst h13; rfl
  · have hall : ∀ y ∈ (List.range 128).map (fun j => decodeF f (x j)), ∃ g n e, y = .fin g n e := fun y hy => by
      obtain ⟨j, hj, rfl⟩ := List.mem_map.mp hy
      exact hfin j (List.mem_range.mp hj)
    obtain ⟨g, n, e, hsum, hq, -⟩ := sumF_fin 0 hall
    rw [if_pos (isFloatFmt_of_latch hf h7 h13), hsum, hq, List.map_map]
    rfl

/-- Settles O31, form by form from what its completion leaves, then the check of a row over the rationals and the known-answer
product along its generator's states. -/
theorem matrixResults : Obligations.MatrixResults := by
  refine ⟨?_, rowCheck_checks, katHash_eq⟩
  intro s m seen w c q acc el ck uf inf done ends fails hfound hwho hval hmay hready hmoved hearly hold hread hidle hwf
  have h : Completing s m := ⟨hfound, hwho, hval, hmay, hready, hmoved, hearly, hold, fun hr => by rw [hread hr]; rfl, hidle, hwf⟩
  refine ⟨fun o ho => ?_, fun o ho => ?_, fun o ho hf => ?_, ?_, fun o ho hf htag => ?_, fun o ho hf hlen => ?_, fun o ho => ⟨fun hh => ?_, fun hh => ?_⟩,
    fun o ho => ⟨fun hres => ?_, fun r hr hbad hbefore => ?_⟩⟩
  · -- mzero
    obtain ⟨t, hexec, hregs, hmem, hzero, htag, hck⟩ := mzero_clears h ho
    exact ⟨t, hexec, hregs, hmem, hzero, htag, fun i hi => ⟨congrArg Prod.fst (hck i hi), congrArg Prod.snd (hck i hi)⟩⟩
  · -- mlat
    intro b lat x depth hlen hf
    obtain ⟨t, hexec, hregs, hmem, hpeek, hdef, hfmt, hsums, htern⟩ := mlat_fills h ho hlen
    refine ⟨t, hexec, hregs, hmem, hpeek, hdef, hfmt, fun k hk => ?_, fun h13 ⟨k, hk, j, hj, hx⟩ => htern h13 ⟨128 * k + j, ?_, ?_⟩⟩
    · rw [hsums]
      exact latSums_values hf _ (by rw [latDepth_eq hf]; exact hk)
    · have hk : k < if o.fmt = 13 then 1024 else if o.fmt = 1 ∨ o.fmt = 2 then 128 else 256 := hk
      rw [if_pos h13] at hk
      omega
    · have hx : elemN (ofBytes b) (128 * k + j) (fmtBits o.fmt) = 2 := hx
      rw [h13] at hx
      exact hx
  · -- mma of a float format
    obtain ⟨hfloat, hdepth⟩ := latDepth_float hf
    have hsome : m.read = some seen := hread (by rw [ho]; exact List.cons_ne_nil _ _)
    obtain ⟨t, hexec, hregs, hmem, htag, hrows, hrest⟩ := mma_float_ends h hsome ho hfloat (by split <;> decide) hdepth
    refine ⟨t, hexec, hregs, hmem, htag, fun r hr => ?_, fun r hr hout => ?_⟩
    · obtain ⟨hel, hckf, huf⟩ := hrows r hr
      exact ⟨hel, hckf, fun hset => huf (hset.imp_right fun ⟨j, hj, hinf⟩ => ⟨j, hj, decide_eq_true hinf⟩)⟩
    · exact ⟨congrArg Prod.fst (hrest r hr hout), congrArg Prod.snd (hrest r hr hout)⟩
  · -- mma of i8, and mter
    intro n rows per lat hform hlen hbytes
    have hints : m.read = some seen ∧ ∃ l, IntForm s m n rows per l lat := by
      rcases hform with ⟨o, ho, h7, rfl, rfl, rfl, rfl⟩ | ⟨o, ho, rfl, rfl, rfl, rfl⟩
      · exact ⟨hread (by rw [ho]; exact List.cons_ne_nil _ _), _, intForm_mma ho h7⟩
      · exact ⟨hread (by rw [ho]; exact List.cons_ne_nil _ _), _, intForm_mter ho⟩
    obtain ⟨hsome, l, hints⟩ := hints
    obtain ⟨t, hexec, hregs, hmem, htag, hrows, htern, hrest⟩ := mma_int_ends h hsome hints hlen hbytes
    exact ⟨t, hexec, hregs, hmem, htag, hrows, htern, fun r hr hout => ⟨congrArg Prod.fst (hrest r hr hout), congrArg Prod.snd (hrest r hr hout)⟩⟩
  · -- mdrain
    exact mdrain_writes h (hread (by rw [ho]; exact List.cons_ne_nil _ _)) ho (fmtBits_drain hf) htag
  · -- macc.ld
    have hsome : m.read = some seen := hread (by rw [ho]; exact List.cons_ne_nil _ _)
    obtain ⟨t, hexec, hregs, hmem, hpeek, htag, hck⟩ := maccLd_loads h hsome ho hlen
    refine ⟨t, hexec, hregs, hmem, hpeek, htag, fun i hi => ⟨fun h5 => ?_, fun h0 => ?_⟩⟩
    · have hcki := hck i hi
      rw [h5, loadCk_int] at hcki
      exact ⟨congrArg Prod.fst hcki, congrArg Prod.snd hcki⟩
    · have hcki := hck i hi
      rw [h0] at hcki
      refine ⟨(congrArg Prod.fst hcki).trans (loadCk_float _), ?_⟩
      show (ckOf (t.core c) o.acc.toNat i).2 = true ↔ _ ∨ ∃ g, (ckOf (t.core c) o.acc.toNat i).1 = .inf g
      rw [hcki, loadCk_float_flag]
      simp only [notFinite, decide_eq_true_eq]
      rfl
  · -- mkat, its hash found
    obtain ⟨t, hexec, hregs, hmem, hcur⟩ := mkat_passes h ho hh
    exact ⟨t, hexec, hregs, hmem, hcur⟩
  · -- mkat, another hash found
    exact mkat_fails h ho hh
  · -- mchk, no row failing
    obtain ⟨t, hexec, hregs, hmem, hcur⟩ := mchk_passes h ho hres
    obtain ⟨hsame, hn, hunch⟩ := checkForm_counts (s := s) (m := m) o none
    rw [← hmem] at hsame
    rw [← hcur] at hn hunch
    refine ⟨t, hexec, hregs, ⟨hsame, hn, hunch⟩, ?_⟩
    rw [hcur, checkForm_cur]; rfl
  · -- mchk, a row failing
    refine ⟨s.checkForm m o (some r), checkForm_counts o (some r), ?_, mchk_fails h ho hr hbad hbefore⟩
    rw [checkForm_cur]; rfl
end Sys2Proof.Machine

namespace Sys2Proof.Machine

/-! ## Integer arithmetic of the scalar slots (R102) -/

/-- The high half of a product of 128 bits. -/
theorem extractHigh_ofInt (x : Int) : (BitVec.ofInt 128 x).extractLsb' 64 64 = BitVec.ofInt 64 (x / 2 ^ 64) := by
  apply BitVec.eq_of_toNat_eq
  rw [BitVec.extractLsb'_toNat, BitVec.toNat_ofInt, BitVec.toNat_ofInt, Nat.shiftRight_eq_div_pow]
  omega
theorem extractHigh_ofNat (x : Nat) : (BitVec.ofNat 128 x).extractLsb' 64 64 = BitVec.ofNat 64 (x / 2 ^ 64) := by
  apply BitVec.eq_of_toNat_eq
  rw [BitVec.extractLsb'_toNat, BitVec.toNat_ofNat, BitVec.toNat_ofNat, Nat.shiftRight_eq_div_pow]
  omega
/-- A choice by ≤ is one by < where equal operands choose alike. -/
theorem ite_toInt_le {a b x y : BitVec 64} (hxy : a = b → x = y) : (if a.toInt ≤ b.toInt then x else y) = if a.slt b then x else y := by
  rcases lt_trichotomy a.toInt b.toInt with h | h | h
  · rw [if_pos h.le, if_pos (BitVec.slt_iff_toInt_lt.mpr h)]
  · rw [hxy (BitVec.eq_of_toInt_eq h), ite_self, ite_self]
  · rw [if_neg h.not_ge, if_neg (fun hs => h.not_gt (BitVec.slt_iff_toInt_lt.mp hs))]
theorem ite_toNat_le {a b x y : BitVec 64} (hxy : a = b → x = y) : (if a.toNat ≤ b.toNat then x else y) = if a.ult b then x else y := by
  rcases lt_trichotomy a.toNat b.toNat with h | h | h
  · rw [if_pos h.le, if_pos (BitVec.ult_iff_lt.mpr h)]
  · rw [hxy (BitVec.eq_of_toNat_eq h), ite_self, ite_self]
  · rw [if_neg h.not_ge, if_neg (fun hs => h.not_gt (BitVec.ult_iff_lt.mp hs))]
/-- The low bits of a field, as a number. -/
theorem toNat_extract_zero {n : Nat} (v : BitVec n) (k : Nat) : (v.extractLsb' 0 k).toNat = v.toNat % 2 ^ k := by
  rw [BitVec.extractLsb'_toNat, Nat.shiftRight_zero]

/-- Settles O1: each form is a shared integer form, and its value the one stated. -/
theorem scalarArithmetic : Obligations.ScalarArithmetic := by
  unfold Obligations.ScalarArithmetic
  intro o s a b R
  refine ⟨gives64_srInt (show exec (.add o) s = execAdd o s from rfl) ?_, gives64_srInt (show exec (.sub o) s = execSub o s from rfl) ?_,
    gives64_srInt (show exec (.mul o) s = execMul o s from rfl) ?_, gives64_srInt (show exec (.mulh o) s = execMulh o s from rfl) ?_,
    gives64_srInt (show exec (.mulhn o) s = execMulhn o s from rfl) ?_, gives64_srInt (show exec (.lea o) s = execLea o s from rfl) ?_,
    gives64_srInt (show exec (.min o) s = execMin o s from rfl) ?_, gives64_srInt (show exec (.max o) s = execMax o s from rfl) ?_,
    gives64_srInt (show exec (.minn o) s = execMinn o s from rfl) ?_, gives64_srInt (show exec (.maxn o) s = execMaxn o s from rfl) ?_⟩
  · rw [BitVec.ofInt_add, BitVec.ofInt_toInt, BitVec.ofInt_toInt]
  · exact BitVec.eq_of_toInt_eq (by rw [BitVec.toInt_sub, BitVec.toInt_ofInt])
  · rw [BitVec.ofNat_mul, BitVec.ofNat_toNat, BitVec.ofNat_toNat, BitVec.setWidth_eq, BitVec.setWidth_eq]
  · rw [extractHigh_ofInt]
  · rw [extractHigh_ofNat]
  · rw [toNat_extract_zero]; rfl
  · exact ite_toInt_le id
  · exact ite_toInt_le Eq.symm
  · exact ite_toNat_le id
  · exact ite_toNat_le Eq.symm

/-! ## Division (R104) -/

section
variable (a b : BitVec 64)

/-- A zero divisor. -/
theorem divQ_zero (sgn : Bool) : divQ sgn a 0 = BitVec.allOnes 64 := rfl
theorem divR_zero (sgn : Bool) : divR sgn a 0 = a := rfl

variable {b} (hb : b ≠ 0)
include hb

theorem divQ_signed : divQ true a b = BitVec.ofInt 64 (a.toInt.tdiv b.toInt) := by rw [divQ, if_neg hb, if_pos rfl]
theorem divR_signed : divR true a b = BitVec.ofInt 64 (a.toInt.tmod b.toInt) := by rw [divR, if_neg hb, if_pos rfl]
theorem divQ_unsigned : divQ false a b = a / b := by
  rw [divQ, if_neg hb]
  apply BitVec.eq_of_toNat_eq
  rw [if_neg Bool.false_ne_true, BitVec.toNat_udiv, BitVec.toNat_ofNat, Nat.mod_eq_of_lt ((Nat.div_le_self _ _).trans_lt a.isLt)]
theorem divR_unsigned : divR false a b = a % b := by
  rw [divR, if_neg hb]
  apply BitVec.eq_of_toNat_eq
  rw [if_neg Bool.false_ne_true, BitVec.toNat_umod, BitVec.toNat_ofNat, Nat.mod_eq_of_lt ((Nat.mod_le _ _).trans_lt a.isLt)]
/-- The quotient of the least dividend by -1 is 2^63, and wraps to the dividend. -/
theorem divQ_overflow (ha : a = 0x8000000000000000#64) (hn : b.toInt = -1) : divQ true a b = a := by
  rw [divQ_signed a hb, hn, ha]
  rfl
theorem divR_overflow (ha : a = 0x8000000000000000#64) (hn : b.toInt = -1) : divR true a b = 0 := by
  rw [divR_signed a hb, hn, ha]
  rfl
/-- Every other signed quotient is exact. -/
theorem toInt_divQ_signed (h : ¬ (a = 0x8000000000000000#64 ∧ b.toInt = -1)) : (divQ true a b).toInt = a.toInt.tdiv b.toInt := by
  have hsafe : a ≠ BitVec.intMin 64 ∨ b ≠ -1#64 := by
    by_contra hn
    push Not at hn
    obtain ⟨ha, hb1⟩ := hn
    exact h ⟨ha, by rw [hb1]; rfl⟩
  rw [divQ_signed a hb, BitVec.toInt_ofInt, ← BitVec.toInt_sdiv, BitVec.toInt_sdiv_of_ne_or_ne a b hsafe]
theorem toInt_divR_signed : (divR true a b).toInt = a.toInt.tmod b.toInt := by
  rw [divR_signed a hb, ← BitVec.toInt_srem, BitVec.ofInt_toInt]
/-- The identity of R104, over the words: it holds of the overflowing quotient too. -/
theorem divQ_mul_add_divR_signed : divQ true a b * b + divR true a b = a := by
  calc divQ true a b * b + divR true a b
      = BitVec.ofInt 64 (a.toInt.tdiv b.toInt) * BitVec.ofInt 64 b.toInt + BitVec.ofInt 64 (a.toInt.tmod b.toInt) := by
        rw [divQ_signed a hb, divR_signed a hb, BitVec.ofInt_toInt]
    _ = a := by rw [← BitVec.ofInt_mul, ← BitVec.ofInt_add, Int.tdiv_mul_add_tmod, BitVec.ofInt_toInt]
theorem divQ_mul_add_divR_unsigned : divQ false a b * b + divR false a b = a := by
  rw [divQ_unsigned a hb, divR_unsigned a hb]
  apply BitVec.eq_of_toNat_eq
  rw [BitVec.toNat_add, BitVec.toNat_mul, BitVec.toNat_udiv, BitVec.toNat_umod, Nat.mod_add_mod, Nat.div_add_mod', Nat.mod_eq_of_lt a.isLt]
end

/-- Settles O2: the four results are divQ and divR, case by case. -/
theorem scalarDivision : Obligations.ScalarDivision := by
  unfold Obligations.ScalarDivision
  intro o s a b dz R
  refine ⟨divQ true a b, divR true a b, divQ false a b, divR false a b, gives64_srOp (show exec (.div o) s = execDiv o s from rfl) rfl,
    gives64_srOp (show exec (.rem o) s = execRem o s from rfl) rfl, gives64_srOp (show exec (.divn o) s = execDivn o s from rfl) rfl,
    gives64_srOp (show exec (.remn o) s = execRemn o s from rfl) rfl, fun hb => ?_, fun hb => ⟨?_, ?_⟩,
      fun hb ha hn => ⟨divQ_overflow a hb ha hn, divR_overflow a hb ha hn⟩,
    fun hb h => ⟨toInt_divQ_signed a hb h, ?_⟩, fun hb => ⟨divQ_mul_add_divR_signed a hb, divQ_mul_add_divR_unsigned a hb⟩⟩
  · rw [hb]
    exact ⟨divQ_zero a true, divR_zero a true, divQ_zero a false, divR_zero a false⟩
  · rw [divQ_unsigned a hb, BitVec.toNat_udiv]
  · rw [divR_unsigned a hb, BitVec.toNat_umod]
    exact eq_tsub_of_add_eq (Nat.mod_add_div' _ _)
  · rw [toInt_divR_signed a hb, Int.tmod_def, mul_comm]
end Sys2Proof.Machine

namespace Sys2Proof.Machine

/-! ## Shifts, bit counts and extension (R102) -/

/-- The count of a shift: the low six bits of a word. -/
theorem cnt6_eq (b : BitVec 64) : cnt6 b = (b &&& 63#64).toNat := by
  rw [BitVec.toNat_and, cnt6]
  exact (Nat.and_two_pow_sub_one_eq_mod b.toNat 6).symm
theorem rotateLeft_cnt6 (a b : BitVec 64) : a.rotateLeft (cnt6 b) = a <<< cnt6 b ||| a >>> (64 - cnt6 b) := by
  rw [BitVec.rotateLeft_def, Nat.mod_eq_of_lt (show cnt6 b < 64 from Nat.mod_lt _ (by decide))]

section
variable (a : BitVec 64)

theorem bitLen_le : bitLen a.toNat ≤ 64 := by
  by_contra h
  exact (two_pow_le_of_bitLen (not_le.mp h)).not_gt a.isLt
theorem toNat_clz64 : (BitVec.ofNat 64 (clz64 a)).toNat = 64 - bitLen a.toNat := by
  rw [BitVec.toNat_ofNat, clz64]
  omega
/-- Above its significant bits a number has zeros alone. -/
theorem getLsbD_above_bitLen {i : Nat} (h : bitLen a.toNat ≤ i) : a.getLsbD i = false :=
  Nat.testBit_lt_two_pow ((lt_two_pow_bitLen a.toNat).trans_le (Nat.pow_le_pow_right (by decide) h))
/-- The highest significant bit is a 1. -/
theorem getLsbD_bitLen_pred (h : 0 < bitLen a.toNat) : a.getLsbD (bitLen a.toNat - 1) = true := by
  have hpos : a.toNat ≠ 0 := fun h0 => by rw [h0] at h; exact lt_irrefl 0 h
  rw [bitLen, if_neg hpos, Nat.add_sub_cancel]
  exact Nat.testBit_log2 hpos
/-- The count of leading zeros, by its bits. -/
theorem clz64_spec (v : BitVec 64) (hv : v = BitVec.ofNat 64 (clz64 a)) : v.toNat ≤ 64 ∧ (∀ k < v.toNat, a.getLsbD (63 - k) = false) ∧
    (v.toNat < 64 → a.getLsbD (63 - v.toNat) = true) := by
  have hlen := bitLen_le a
  rw [hv, toNat_clz64]
  refine ⟨Nat.sub_le _ _, fun k hk => getLsbD_above_bitLen a (by omega), fun h => ?_⟩
  rw [show 63 - (64 - bitLen a.toNat) = bitLen a.toNat - 1 by omega]
  exact getLsbD_bitLen_pred a (by omega)

/-- The count of trailing zeros, by its bits. -/
theorem ctz64_spec : ctz64 a ≤ 64 ∧ (∀ k < ctz64 a, a.getLsbD k = false) ∧ (ctz64 a < 64 → a.getLsbD (ctz64 a) = true) := by
  rw [ctz64, firstIdx_eq_findIdx?]
  cases h : (upTo 64).findIdx? (fun i => a.getLsbD i) with
  | none =>
    rw [List.findIdx?_eq_none_iff] at h
    exact ⟨le_rfl, fun k hk => h k (List.mem_range.mpr hk), fun hlt => absurd hlt (lt_irrefl 64)⟩
  | some n =>
    obtain ⟨hn, hone, hzeros⟩ := List.findIdx?_eq_some_iff_getElem.mp h
    rw [List.length_range] at hn
    simp only [List.getElem_range, Bool.not_eq_true] at hone hzeros
    exact ⟨hn.le, hzeros, fun _ => hone⟩
theorem toNat_ctz64 : (BitVec.ofNat 64 (ctz64 a)).toNat = ctz64 a := by
  obtain ⟨hle, -, -⟩ := ctz64_spec a
  rw [BitVec.toNat_ofNat, Nat.mod_eq_of_lt (by omega)]

/-- A sign extension of the low w bits, by their value. -/
theorem ofInt_sInt (w : Nat) : BitVec.ofInt 64 (sInt a.toNat w) = (a.setWidth w).signExtend 64 := by
  rw [sInt_eq_toInt, BitVec.ofNat_toNat]
  rfl
theorem ofNat_mod_two_pow (w : Nat) : BitVec.ofNat 64 (a.toNat % 2 ^ w) = (a.setWidth w).setWidth 64 := by
  rw [← BitVec.toNat_setWidth, BitVec.ofNat_toNat]
end

/-- The widths of sext and zext. -/
theorem extWidth_eq {w : Nat} {fn : BitVec 5} (h : w = 8 ∧ fn = 0 ∨ w = 16 ∧ fn = 1 ∨ w = 32 ∧ fn = 2) : extWidth fn = w := by
  rcases h with ⟨rfl, rfl⟩ | ⟨rfl, rfl⟩ | ⟨rfl, rfl⟩ <;> rfl

/-! ## Bit fields (R106) -/

section
variable (x : BitVec 12)

theorem bfPos_eq : bfPos x = (x.extractLsb' 6 6).toNat := by
  rw [BitVec.extractLsb'_toNat, Nat.shiftRight_eq_div_pow, bfPos]
  omega
theorem bfLen_eq : bfLen x = (x.extractLsb' 0 6).toNat + 1 := by rw [toNat_extract_zero, bfLen]; rfl

/-- The mask of a field has the bits of its places. -/
theorem getLsbD_bfMask {i : Nat} (hi : i < 64) : (bfMask x).getLsbD i = decide (bfPos x ≤ i ∧ i < bfPos x + bfLen x) := by
  rw [bfMask, BitVec.getLsbD_ofNat, Nat.testBit_mul_two_pow, Nat.testBit_two_pow_sub_one, decide_eq_true hi, Bool.true_and, ← Bool.decide_and,
    decide_eq_decide]
  omega
end

/-- The field of len bits at pos, as a number of its own width. -/
theorem ofNat_natFld (a : BitVec 64) (pos len : Nat) : BitVec.ofNat len (natFld a.toNat pos len) = a.extractLsb' pos len := by
  apply BitVec.eq_of_toNat_eq
  rw [BitVec.toNat_ofNat, BitVec.extractLsb'_toNat, natFld, Nat.mod_mod]
/-- bfx extracts the field, extended as FN[0] says. -/
theorem bfx_value (a : BitVec 64) (pos len : Nat) (sgn : Bool) :
    (if sgn then BitVec.ofInt 64 (sInt (natFld a.toNat pos len) len) else BitVec.ofNat 64 (natFld a.toNat pos len)) =
      if sgn then (a.extractLsb' pos len).signExtend 64 else (a.extractLsb' pos len).setWidth 64 := by
  cases sgn
  · rw [if_neg Bool.false_ne_true, if_neg Bool.false_ne_true, ← BitVec.ofNat_toNat, BitVec.extractLsb'_toNat]
    rfl
  · rw [if_pos rfl, if_pos rfl, sInt_eq_toInt, ofNat_natFld]
    rfl
/-- bfi puts the low bits of a in the field's places and keeps the others of d. -/
theorem bfi_value (a d : BitVec 64) (x : BitVec 12) {i : Nat} (hi : i < 64) :
    ((d &&& ~~~bfMask x) ||| ((a <<< bfPos x) &&& bfMask x)).getLsbD i =
      if bfPos x ≤ i ∧ i < bfPos x + bfLen x then a.getLsbD (i - bfPos x) else d.getLsbD i := by
  rw [BitVec.getLsbD_or, BitVec.getLsbD_and, BitVec.getLsbD_and, BitVec.getLsbD_not, getLsbD_bfMask x hi, BitVec.getLsbD_shiftLeft,
    decide_eq_true hi]
  by_cases h : bfPos x ≤ i ∧ i < bfPos x + bfLen x
  · simp [h]
  · simp [h]
/-- A field that a well-formed bfx or bfi names lies within the word. -/
theorem field_fits {x : BitVec 12} {p q : Bool}
    (h : (p && (x.extractLsb' 6 6).toNat + (x.extractLsb' 0 6).toNat + 1 ≤ 64 && q) = true) :
    (x.extractLsb' 6 6).toNat + ((x.extractLsb' 0 6).toNat + 1) ≤ 64 := by
  simp only [Bool.and_eq_true, decide_eq_true_eq] at h
  obtain ⟨⟨-, hle⟩, -⟩ := h
  exact hle

/-- Settles O3: the bits of each form's value. -/
theorem scalarBits : Obligations.ScalarBits := by
  unfold Obligations.ScalarBits
  refine ⟨fun o s => ?_, fun o s => ?_⟩
  · intro a b n R
    refine ⟨gives64_srInt (show exec (.and o) s = execAnd o s from rfl) rfl, gives64_srInt (show exec (.or o) s = execOr o s from rfl) rfl,
      gives64_srInt (show exec (.xor o) s = execXor o s from rfl) rfl, gives64_srInt (show exec (.andn o) s = execAndn o s from rfl) rfl,
      gives64_srInt (show exec (.shl o) s = execShl o s from rfl) ?_, gives64_srInt (show exec (.shr o) s = execShr o s from rfl) ?_,
      gives64_srInt (show exec (.sar o) s = execSar o s from rfl) ?_, gives64_srInt (show exec (.rotl o) s = execRotl o s from rfl) ?_,
      ⟨_, gives64_srInt (show exec (.clz o) s = execClz o s from rfl) rfl, clz64_spec a _ rfl⟩,
      ⟨_, gives64_srInt (show exec (.ctz o) s = execCtz o s from rfl) rfl, ?_⟩,
      gives64_srInt (show exec (.popc o) s = execPopc o s from rfl) rfl,
      fun w hw => ⟨gives64_srInt (show exec (.sext o) s = execSext o s from rfl) ?_,
        gives64_srInt (show exec (.zext o) s = execZext o s from rfl) ?_⟩,
      gives64_srInt (show exec (.sel o) s = execSel o s from rfl) rfl⟩
    · rw [cnt6_eq]
    · rw [cnt6_eq]
    · rw [cnt6_eq]
    · rw [rotateLeft_cnt6, cnt6_eq]
    · rw [toNat_ctz64]; exact ctz64_spec a
    · rw [extWidth_eq hw, ofInt_sInt]
    · rw [extWidth_eq hw, ofNat_mod_two_pow]
  · intro a d pos len R
    refine ⟨fun hwf => ⟨field_fits hwf, gives64_srxOp (show exec (.bfx o) s = execBfx o s from rfl) ?_⟩,
      fun hwf => ⟨field_fits hwf, _, gives64_srxOp (show exec (.bfi o) s = execBfi o s from rfl) rfl, fun i hi => ?_⟩⟩
    · rw [bfPos_eq, bfLen_eq]; exact bfx_value _ _ _ _
    · rw [bfi_value _ _ _ hi, bfPos_eq, bfLen_eq]

/-! ## Immediate forms (R105) -/

/-- lih puts its immediate above the low half of its destination. -/
theorem lih_value (v : BitVec 32) (d : BitVec 64) : v.setWidth 64 <<< 32 ||| (d &&& 0xFFFFFFFF#64) = v ++ d.setWidth 32 := by
  have hlow : d &&& 0xFFFFFFFF#64 = (d.setWidth 32).setWidth 64 := by
    rw [← ofNat_mod_two_pow, ← Nat.and_two_pow_sub_one_eq_mod, BitVec.ofNat_and, BitVec.ofNat_toNat, BitVec.setWidth_eq]
  rw [hlow, ← BitVec.setWidth_append_eq_shiftLeft_setWidth_or]
  exact BitVec.setWidth_eq _

/-- Settles O4: each form is a shared immediate form, or one landing under its guard. -/
theorem scalarImmediates : Obligations.ScalarImmediates := by
  unfold Obligations.ScalarImmediates
  intro o l s a sx zx n R
  have hsx : immS o.imm = sx := by cases hi : o.imm <;> simp only [immS, sx, hi]
  have hzx : immZ o.imm = zx := by cases hi : o.imm <;> simp only [immZ, zx, hi]
  refine ⟨gives64_siOp (show exec (.addi o) s = execAddi o s from rfl) ?_, gives64_siOp (show exec (.andi o) s = execAndi o s from rfl) ?_,
    gives64_siOp (show exec (.ori o) s = execOri o s from rfl) ?_, gives64_siOp (show exec (.xori o) s = execXori o s from rfl) ?_,
    gives64_siOp (show exec (.shli o) s = execShli o s from rfl) ?_, gives64_siOp (show exec (.shri o) s = execShri o s from rfl) ?_,
    gives64_siOp (show exec (.sari o) s = execSari o s from rfl) ?_, ?_, fun v hv => ?_⟩
  · rw [hsx, BitVec.ofInt_add, BitVec.ofInt_toInt, BitVec.ofInt_toInt]
  · rw [hzx]
  · rw [hzx]
  · rw [hzx]
  · rw [hzx, cnt6_eq]
  · rw [hzx, cnt6_eq]
  · rw [hzx, cnt6_eq]
  · show execLi l s = _
    rw [execLi]
    cases l.imm <;> rfl
  · show execLih l s = _
    rw [← lih_value, execLih, hv]
    rfl
end Sys2Proof.Machine

namespace Sys2Proof.Machine

/-! ## Comparisons and predicates (R107, R108, R110) -/

/-- The second operand of a comparison (R43). -/
def State.scRhs (s : State) (o : SC) : BitVec 64 :=
  match o.rhs with
  | .reg r => s.rd64 o.slot.slot 1 (sReg o.slot r)
  | .imm v => v.signExtend 64

/-- A comparison gives one predicate. -/
theorem gives_scOp {s : State} {i : Instr} {o : SC} {f : BitVec 64 → BitVec 64 → Bool} (h : exec i s = scOp o s f) {v : Bool}
    (hv : f (s.rd64 o.slot.slot 0 (sReg o.slot o.a)) (s.scRhs o) = v) :
    s.gives i o.slot.slot o.g (sPred o.slot o.pd) (if v then 1 else 0) 1 1 0 := by
  show exec i s = _
  rw [h, ← hv, ← predLand_eq]
  rfl
/-- A predicate form gives one predicate. -/
theorem gives_spOp {s : State} {i : Instr} {q : SP} {f : Bool → Bool → Bool} (h : exec i s = spOp q s f) {v : Bool}
    (hv : f ((s.rd q.slot.slot 0 (sPred q.slot q.pa)).getLsbD 0) ((s.rd q.slot.slot 1 (sPred q.slot q.pb)).getLsbD 0) = v) :
    s.gives i q.slot.slot q.g (sPred q.slot q.pd) (if v then 1 else 0) 1 1 0 := by
  show exec i s = _
  rw [h, ← hv, ← predLand_eq, spOp, guarded]

theorem decide_ne_eq_bne {α : Type} [DecidableEq α] (a b : α) : decide (a ≠ b) = (a != b) := by
  by_cases h : a = b <;> simp [h]
/-- A float relation with a NaN holds for ne alone. -/
theorem fcond_nan (c : Nat) {x y : FVal} (h : x = .nan ∨ y = .nan) : fcond c x y = decide (c = 1) := by
  have hn : anyNan [x, y] = true := by
    rcases h with rfl | rfl <;> simp [anyNan]
  unfold fcond
  rw [if_pos hn]
/-- A float relation of two numbers is one of their order. -/
theorem fcond_numbers {x y : FVal} (hx : x ≠ .nan) (hy : y ≠ .nan) :
    fcond 0 x y = (cmpF x y == .eq) ∧ fcond 1 x y = (cmpF x y != .eq) ∧ fcond 2 x y = (cmpF x y == .lt) ∧ fcond 3 x y = (cmpF x y != .gt) := by
  have hn : ¬ anyNan [x, y] = true := by simp [anyNan, hx, hy]
  unfold fcond
  simp only [if_neg hn]
  exact ⟨rfl, decide_ne_eq_bne _ _, rfl, decide_ne_eq_bne _ _⟩

/-- Settles O5: the condition's code picks the relation; each form gives one predicate. -/
theorem scalarPredicates : Obligations.ScalarPredicates := by
  unfold Obligations.ScalarPredicates
  intro o q s a b P x y
  have hb : s.scRhs o = b := by cases hr : o.rhs <;> simp only [State.scRhs, b, hr]
  have hcmp : exec (.cmp o) s = scOp o s (cmpCond o.cond.toNat) := rfl
  refine ⟨fun hc => gives_scOp hcmp ?_, fun hc => gives_scOp hcmp ?_, fun hc => gives_scOp hcmp ?_, fun hc => gives_scOp hcmp ?_,
    fun hc => gives_scOp hcmp ?_, fun hc => gives_scOp hcmp ?_, gives_spOp (show exec (.pset q) s = execPset q s from rfl) rfl,
    gives_spOp (show exec (.pand q) s = execPand q s from rfl) rfl, gives_spOp (show exec (.por q) s = execPor q s from rfl) rfl,
    gives_spOp (show exec (.pnot q) s = execPnot q s from rfl) rfl,
    fcond o.cond.toNat (f32Of a) (f32Of b), gives_scOp (show exec (.fcmp o) s = execFcmp o s from rfl) (by rw [hb]), ?_⟩
  · rw [hb, hc]; rfl
  · rw [hb, hc]; exact decide_ne_eq_bne _ _
  · rw [hb, hc]; rfl
  · rw [hb, hc]; rfl
  · rw [hb, hc]; rfl
  · rw [hb, hc]; rfl
  · intro fa fb
    refine ⟨fun hnan => ?_, fun ha hb => ?_⟩
    · rw [fcond_nan _ hnan, beq_eq_decide, decide_eq_decide]
      exact (BitVec.toNat_inj (y := 1#3)).trans Iff.rfl
    · obtain ⟨heq, hne, hlt, hle⟩ := fcond_numbers ha hb
      exact ⟨fun hc => by rw [hc]; exact heq, fun hc => by rw [hc]; exact hne, fun hc => by rw [hc]; exact hlt, fun hc => by rw [hc]; exact hle⟩

/-! ## f32 arithmetic and conversion (R109 to R111) -/

theorem setWidth_eq_extract_zero {n : Nat} (v : BitVec n) (k : Nat) : v.setWidth k = v.extractLsb' 0 k :=
  BitVec.eq_of_toNat_eq (by rw [toNat_extract_zero, BitVec.toNat_setWidth])

/-- The result of fcvt to i32 is sign-extended, and every other zero-extended (R111). -/
theorem fcvtResult_i32 (v : Nat) : fcvtResult (fcvtFmt 3) v = (BitVec.ofNat 32 v).signExtend 64 := by
  rw [fcvtResult, if_pos (by decide), sInt_eq_toInt]
  rfl
theorem fcvtResult_other {dst : BitVec 3} (h3 : dst ≠ 3) (v : Nat) : fcvtResult (fcvtFmt dst) v = BitVec.ofNat 64 v := by
  have hfmt : ∀ c : BitVec 3, c ≠ 3 → fcvtFmt c ≠ 5 := by decide
  rw [fcvtResult, if_neg (hfmt dst h3)]

/-- Settles O6: each form gives what its rounding function computes of the words' low halves. -/
theorem scalarFloat : Obligations.ScalarFloat := by
  unfold Obligations.ScalarFloat
  intro o s a b d rm R
  have hrm : o.fn.setWidth 2 = rm := setWidth_eq_extract_zero _ _
  refine ⟨gives64_srOp (show exec (.fadd o) s = execFadd o s from rfl) ?_, gives64_srOp (show exec (.fsub o) s = execFsub o s from rfl) ?_,
    gives64_srOp (show exec (.fmul o) s = execFmul o s from rfl) ?_, gives64_srOp (show exec (.fma o) s = execFma o s from rfl) ?_,
    gives64_srOp (show exec (.fmin o) s = execFmin o s from rfl) ?_, gives64_srOp (show exec (.fmax o) s = execFmax o s from rfl) ?_,
    fun src dst hsrc hdst _ _ => ⟨fun h3 => gives64_srOp (show exec (.fcvt o) s = execFcvt o s from rfl) ?_,
      fun h3 => gives64_srOp (show exec (.fcvt o) s = execFcvt o s from rfl) ?_⟩⟩
  · rw [hrm]; rfl
  · rw [hrm]; rfl
  · rw [hrm]; rfl
  · rw [hrm]; rfl
  · rw [toNat_extract_zero, toNat_extract_zero]; rfl
  · rw [toNat_extract_zero, toNat_extract_zero]; rfl
  · rw [hsrc, hdst, h3]
    exact Prod.ext (fcvtResult_i32 _) rfl
  · rw [hsrc, hdst]
    exact Prod.ext (fcvtResult_other h3 _) rfl
end Sys2Proof.Machine

namespace Sys2Proof.Machine

/-! ## Control transfers (R113 to R115) -/

/-- An operation under its guard changes the acting context when its effect does. -/
theorem does_of_guarded {s : State} {i : Instr} {sl : Slot} {g : Guard} {F : State → State} {f : Ctx → Ctx} (h : exec i s = guarded sl g s F)
    (hF : F s = s.upd f) : s.does i sl g f := by
  show exec i s = _
  rw [h, guarded, hF]

/-- An offset counts units of four bytes. -/
theorem offTarget_toInt (s : State) {k : Nat} (v : BitVec k) : s.offTarget v.toInt = s.cur.pc + v.signExtend 64 * 4#64 := by
  rw [State.offTarget, BitVec.ofInt_mul]
  rfl
theorem regTarget_eq (v : BitVec 64) : regTarget v = v &&& ~~~3#64 := shiftRight_shiftLeft_two v

/-- A result put in flight is made of nothing that others in flight change. -/
theorem result_upd {s : State} {f : Ctx → Ctx} (hf : (f s.cur).inst = s.cur.inst) : (s.upd f).result = s.result := by
  funext d v en lat fl
  rw [State.result, State.result, State.cur_upd, hf]
  rfl

/-- A taken call: the older results of a31 land by the next cycle, and its own joins them (R114). -/
theorem call_effect (x v : BitVec 64) (s : State) : jump x ((s.upd (landBy (.a 31) (s.t + 1))).land64 (.a 31) v 1 0) =
    s.upd (fun c => { landBy (.a 31) (s.t + 1) c with
      flight := (landBy (.a 31) (s.t + 1) c).flight ++ [s.result (.a 31) (v.setWidth 4096) 0xFFFFFFFFFFFFFFFF#4096 1 0], next := some (x, false) }) := by
  rw [jump, State.land64, State.landAll, land_eq, State.upd_upd, State.upd_upd, result_upd rfl]
  rfl

/-- Settles O7: a transfer sets the next bundle alone, and call puts a31 in flight. -/
theorem branchTargets : Obligations.BranchTargets := by
  unfold Obligations.BranchTargets
  intro b c n j s rel reg
  have hrel {k : Nat} (i : Imm k) : s.offTarget (offOf i) = rel i := by
    cases i
    · exact offTarget_toInt s _
    · exact offTarget_toInt s _
  refine ⟨does_of_guarded (show exec (.br b) s = execBr b s from rfl) ?_, ?_,
    does_of_guarded (show exec (.call b) s = execCall b s from rfl) ?_,
    does_of_guarded (show exec (.ret n) s = execRet n s from rfl) ?_, does_of_guarded (show exec (.jr j) s = execJr j s from rfl) ?_⟩
  · rw [hrel]; rfl
  · show execBc c s = _
    rw [execBc, guarded, hrel]
    cases s.guard c.slot.slot c.g <;> rfl
  · rw [hrel, call_effect]; rfl
  · rw [regTarget_eq]; rfl
  · rw [regTarget_eq]; rfl

/-! ## Loops and rotating bases (R116 to R120, R122) -/

/-- The context with more results in flight. -/
def Ctx.addFlight (c : Ctx) (l : List Landing) : Ctx := { c with flight := c.flight ++ l }

/-- The bases that ROT names. -/
theorem map_rotFiles {α : Type} (f : BitVec 2 → α) (r : BitVec 3) : (rotFiles r).map f =
    (if r.getLsbD 0 then [f 0] else []) ++ (if r.getLsbD 1 then [f 1] else []) ++ (if r.getLsbD 2 then [f 2] else []) := by
  rw [rotFiles, List.map_append, List.map_append, apply_ite (List.map f), apply_ite (List.map f), apply_ite (List.map f)]
  rfl
theorem rotFiles_ne_nil {r : BitVec 3} (h : r ≠ 0) : rotFiles r ≠ [] := by
  revert r
  decide

section
variable (lat : Nat) (v : BitVec 2 → BitVec 4)

/-- The results that writing bases puts in flight. -/
def State.baseResults (s : State) (l : List (BitVec 2)) : List Landing := l.map (fun f => s.result (.rb f) ((v f).setWidth 4096) 0xF#4096 lat 0)

theorem setBase_eq (s : State) (f : BitVec 2) : setBase lat (v f) s f = s.upd (fun c => c.addFlight (s.baseResults lat v [f])) := rfl
/-- Bases written one after another. -/
theorem foldl_setBase : ∀ (l : List (BitVec 2)), l ≠ [] → ∀ s : State,
    l.foldl (fun a f => setBase lat (v f) a f) s = s.upd (fun c => c.addFlight (s.baseResults lat v l))
  | [], h, _ => absurd rfl h
  | [f], _, s => setBase_eq lat v s f
  | f :: g :: r, _, s => by
    have hres : (setBase lat (v f) s f).baseResults lat v (g :: r) = s.baseResults lat v (g :: r) := by
      rw [State.baseResults, State.baseResults, setBase_eq, result_upd rfl]
    rw [List.foldl_cons, foldl_setBase (g :: r) (List.cons_ne_nil _ _), hres, setBase_eq, State.upd_upd]
    simp only [Ctx.addFlight, List.append_assoc]
    rfl
/-- A further change of the context after them, which may be none. -/
theorem foldl_setBase_upd (l : List (BitVec 2)) (s : State) (g : Ctx → Ctx) :
    (l.foldl (fun a f => setBase lat (v f) a f) s).upd g = s.upd (fun c => g (c.addFlight (s.baseResults lat v l))) := by
  cases l with
  | nil => simp only [List.foldl_nil, State.baseResults, List.map_nil, Ctx.addFlight, List.append_nil]
  | cons f r => rw [foldl_setBase lat v _ (List.cons_ne_nil _ _), State.upd_upd]
end


/-- A loop counter reaches 0 exactly where the branch is not taken. -/
theorem counter_next_zero (n : BitVec 32) : (if n = 0 then 0 else n - 1) = (0 : BitVec 32) ↔ n.toNat ≤ 1 := by
  split
  case isTrue h => simp [h]
  case isFalse h => bv_omega
/-- A loop: the named bases rotate, the counter counts down, and the branch is taken while it is not zero (R117). -/
theorem loop_effect (rot : BitVec 3) (lc : BitVec 3) (m : BitVec 32) (x : BitVec 64) (s : State) :
    (let u := ((rotFiles rot).foldl (fun a f => setBase 1 (s.rb f + 1) a f) s).landAll (.lc lc) (m.setWidth 4096) 1 0
     if m = 0 then u else jump x u) =
    s.upd (fun c => { c.addFlight (s.baseResults 1 (fun f => s.rb f + 1) (rotFiles rot) ++ [s.result (.lc lc) (m.setWidth 4096) 0xFFFFFFFF#4096 1 0]) with
      next := if m = 0 then c.next else some (x, false) }) := by
  have hland : ((rotFiles rot).foldl (fun a f => setBase 1 (s.rb f + 1) a f) s).landAll (.lc lc) (m.setWidth 4096) 1 0 =
      s.upd (fun c => c.addFlight (s.baseResults 1 (fun f => s.rb f + 1) (rotFiles rot) ++ [s.result (.lc lc) (m.setWidth 4096) 0xFFFFFFFF#4096 1 0])) := by
    have hres : ((rotFiles rot).foldl (fun a f => setBase 1 (s.rb f + 1) a f) s).result = s.result := by
      cases hl : rotFiles rot with
      | nil => rfl
      | cons f r => rw [foldl_setBase 1 (fun f => s.rb f + 1) _ (List.cons_ne_nil _ _), result_upd rfl]
    rw [State.landAll, land_eq, foldl_setBase_upd 1 (fun f => s.rb f + 1), hres]
    simp only [Ctx.addFlight, List.append_assoc]
    rfl
  rw [hland]
  by_cases h : m = 0
  · simp only [if_pos h]; rfl
  · simp only [if_neg h, jump, State.upd_upd]

/-- Settles O8: the results of the bases, then that of the counter, then the branch. -/
theorem loopForm : Obligations.LoopForm := by
  unfold Obligations.LoopForm
  refine ⟨fun o s => ?_, fun o s => ?_, fun o n s => ?_⟩
  · intro n base
    have hbases : s.baseResults 1 (fun f => s.rb f + 1) (rotFiles o.rot) =
        base 0 (o.rot.getLsbD 0) ++ base 1 (o.rot.getLsbD 1) ++ base 2 (o.rot.getLsbD 2) := map_rotFiles _ _
    refine does_of_guarded (show exec (.loop o) s = execLoop o s from rfl) ((loop_effect o.rot o.lc (if n = 0 then 0 else n - 1) _ s).trans ?_)
    simp only [counter_next_zero, hbases, offTarget_toInt, Ctx.addFlight, List.append_assoc]
  · refine does_of_guarded (show exec (.lbrk o) s = execLbrk o s from rfl) ?_
    rw [jump, offTarget_toInt, State.landAll, land_eq, State.upd_upd]
    rfl
  · intro base all
    have hall (v : BitVec 4) : s.baseResults 2 (fun _ => v) (rotFiles o.rot) = all v := map_rotFiles _ _
    refine ⟨fun h => does_of_guarded (show exec (.rrbSet o) s = execRrbSet o s from rfl) ?_,
      fun h => does_of_guarded (show exec (.rrbClr o) s = execRrbClr o s from rfl) ?_, exec_nop n s⟩
    · rw [foldl_setBase 2 (fun _ => o.v) _ (rotFiles_ne_nil h), hall]; rfl
    · rw [foldl_setBase 2 (fun _ => 0) _ (rotFiles_ne_nil h), hall]; rfl
end Sys2Proof.Machine

namespace Sys2Proof.Machine

/-! ## Waiting on a counter (R123) -/

theorem Ctx.cc_eq (c : Ctx) {n : Nat} (h : n < 16) : c.cc n = c.csr.ccnt[n] := by
  rw [Ctx.cc, List.getD_eq_getElem _ _ (by simpa using h), Vector.getElem_toList]
theorem getElem_setCC (c : Ctx) (n : Nat) (f : BitVec 32 → BitVec 32) (k : Fin 16) :
    (c.setCC n f).csr.ccnt[k] = if k.val = n then f c.csr.ccnt[k] else c.csr.ccnt[k] :=
  Vector.getElem_mapIdx k.isLt

section
variable {s : State} {i : Instr} {sl : Slot} {g : Guard} {cc : BitVec 4} {thr : BitVec 32}
  (h : exec i s = .next (if s.guard sl g then waitOn cc.toNat thr s else s))
include h

/-- A wait that is reached subtracts its threshold from its counter. -/
theorem wait_reached (hg : s.guard sl g = true) (hthr : thr.toNat ≤ (s.cur.csr.ccnt[cc.toNat]).toNat) :
    ∃ t, exec i s = .next t ∧ onlyCtx s.sel.who s t ∧ t.cur = { s.cur with csr := { s.cur.csr with ccnt := t.cur.csr.ccnt } } ∧
      ∀ k : Fin 16, t.cur.csr.ccnt[k] = if k.val = cc.toNat then s.cur.csr.ccnt[cc.toNat] - thr else s.cur.csr.ccnt[k] := by
  have hblock : s.waitBlock cc.toNat thr = none := by
    rw [State.waitBlock, Ctx.cc_eq _ cc.isLt, if_neg hthr.not_gt]
  refine ⟨s.upd (fun c => c.setCC cc.toNat (fun v => v - thr)), ?_, onlyCtx_upd (onlyCtx_refl _ s) rfl _, ?_, fun k => ?_⟩
  · rw [h, if_pos hg, waitOn, hblock]
  · rw [State.cur_upd]; rfl
  · rw [State.cur_upd, getElem_setCC]
    split
    case isTrue hk => simp only [← hk]; rfl
    case isFalse => rfl
/-- A wait below its threshold blocks its context and takes nothing. -/
theorem wait_below (hg : s.guard sl g = true) (hthr : (s.cur.csr.ccnt[cc.toNat]).toNat < thr.toNat) :
    ∃ t, exec i s = .next t ∧ t.mem = s.mem ∧
      t.cur = { s.cur with st := .blocked, block := .counter cc.toNat thr.toNat, moved := true } := by
  have hblock : s.waitBlock cc.toNat thr = some (.counter cc.toNat thr.toNat) := by
    rw [State.waitBlock, Ctx.cc_eq _ cc.isLt, if_pos hthr]
  refine ⟨blockOn s (.counter cc.toNat thr.toNat), ?_, blockOn_mem _ _, blockOn_cur _ _⟩
  rw [h, if_pos hg, waitOn, hblock]
end

/-! ## Halting and yielding (R122, R124, R226) -/

/-- With no write of CTX_HDL in flight a halt finds the register as it stands. -/
theorem hdlAfter_quiet (t : Nat) (v : BitVec 64) : ∀ l : List Landing, l.all (fun l => l.dest ≠ .csr 0x044) = true → hdlAfter t l v = v
  | [], _ => rfl
  | l :: r, h => by
    rw [List.all_cons, Bool.and_eq_true, decide_eq_true_eq] at h
    obtain ⟨hl, hr⟩ := h
    rw [hdlAfter, if_neg (fun hd => hl hd.1), hdlAfter_quiet t v r hr]
theorem enterHalt_cur (s : State) : (enterHalt s s.sel.who).cur = (enterHalt s s.sel.who).ctx s.sel.who := by
  rw [State.cur, enterHalt_sel]
/-- A halt outside a segment with no write of CTX_HDL in flight: what is in flight stays, and CTX_HDL picks the state. -/
theorem enterHalt_quiet {s : State} (hq : s.cur.flight.all (fun l => l.dest ≠ .csr 0x044) = true) :
    (enterHalt s s.sel.who).cur.flight = s.cur.flight ∧
    (enterHalt s s.sel.who).cur.st = if s.cur.csr.ctxHdl.getLsbD 0 || s.cur.csr.ctxHdl.getLsbD 1 then .dormant else .halted := by
  rw [enterHalt_cur, enterHalt_ctx]
  dsimp only
  refine ⟨List.filter_eq_self.mpr fun l hl => ?_, ?_⟩
  · have hd := of_decide_eq_true (List.all_eq_true.mp hq l hl)
    simp only [hd, false_and, decide_false, Bool.not_false]
  · have hhdl : hdlAfter (s.clkOf s.sel.who) (s.ctx s.sel.who).flight (s.ctx s.sel.who).csr.ctxHdl = s.cur.csr.ctxHdl := hdlAfter_quiet _ _ _ hq
    rw [hhdl]

/-- The contexts that a yield waits for. -/
theorem mem_readyOthers {s : State} {w : Who} {k : Nat} : k ∈ s.readyOthers w ↔ k < 4 ∧ k ≠ w.ctx ∧ (s.ctx { w with ctx := k }).st = .ready := by
  simp [State.readyOthers]

/-- Settles O10: the two waits alike, halt by the segment, yield by the ready contexts. -/
theorem waits : Obligations.Waits := by
  unfold Obligations.Waits
  refine ⟨fun o r s => ?_, fun o s hg => ⟨fun hseg => ?_, fun hseg => ?_, fun hnone => ?_, fun k hk hne hready => ?_⟩⟩
  · intro W
    have hW {i : Instr} {sl : Slot} {g : Guard} {cc : BitVec 4} {thr : BitVec 32}
        (h : exec i s = .next (if s.guard sl g then waitOn cc.toNat thr s else s)) : W i sl g cc thr :=
      ⟨fun hg => by rw [h, if_neg (by rw [hg]; decide)], wait_reached h, wait_below h⟩
    exact ⟨hW (show exec (.wait o) s = execWait o s from rfl), hW (show exec (.waitReg r) s = execWaitReg r s from rfl)⟩
  · show execHalt o s = _
    rw [execHalt, guarded_on _ _ _ _ hg, if_pos hseg]
  · refine ⟨enterHalt s s.sel.who, ?_, enterHalt_mem s _, ?_, ?_, ?_, fun hq => ?_⟩
    · show execHalt o s = _
      rw [execHalt, guarded_on _ _ _ _ hg, if_neg (by rw [hseg]; decide)]
    · exact enterHalt_run s s.sel.who
    · rw [enterHalt_cur, enterHalt_ctx]; rfl
    · rw [enterHalt_cur, enterHalt_ctx]; rfl
    · obtain ⟨hflight, hst⟩ := enterHalt_quiet hq
      refine ⟨hflight, fun h0 h1 => ?_, fun h => ?_⟩
      · rw [hst, h0, h1]; rfl
      · rw [hst, if_pos (by rwa [Bool.or_eq_true])]
  · have hempty : s.readyOthers s.sel.who = [] :=
      List.eq_nil_iff_forall_not_mem.mpr fun k hk => by
        obtain ⟨hlt, hne, hready⟩ := mem_readyOthers.mp hk
        exact hnone k hlt hne hready
    show execYield o s = _
    rw [execYield, guarded_on _ _ _ _ hg, hempty]
    rfl
  · have hmem : k ∈ s.readyOthers s.sel.who := mem_readyOthers.mpr ⟨hk, hne, hready⟩
    refine ⟨(leaveCore s s.sel.who).upd (fun c => { c with st := .blocked, block := .yield, yieldFor := s.readyOthers s.sel.who }), ?_, rfl, ?_⟩
    · show execYield o s = _
      rw [execYield, guarded_on _ _ _ _ hg]
      dsimp only
      rw [if_neg (fun he => List.ne_nil_of_mem hmem (List.isEmpty_iff.mp he))]
    · rw [State.cur_upd]
      exact ⟨rfl, rfl, hmem, leaveCore_run s s.sel.who⟩
end Sys2Proof.Machine

namespace Sys2Proof.Machine

/-! ## What a trap finds while writes are in flight (R126, R133) -/

/-- What an operation sees of a destination that nothing in flight writes. -/
theorem pickView_unwritten {d : Dest} (t free : Nat) : ∀ {l : List Landing} (v : BitVec 4096), (∀ x ∈ l, x.dest ≠ d) → pickView d t free l v = v
  | [], _, _ => rfl
  | x :: r, v, h => by
    rw [pickView, if_neg (fun hx => h x List.mem_cons_self hx.1), pickView_unwritten t free v (fun y hy => h y (List.mem_cons_of_mem _ hy))]
theorem setWidth_4096_64 (v : BitVec 64) : (v.setWidth 4096).setWidth 64 = v := by
  rw [BitVec.setWidth_setWidth_of_le _ (by decide), BitVec.setWidth_eq]

section
variable {c : Ctx} {t free : Nat}

theorem clears_quiet {l : Landing} (h : l.dest ≠ .csr 0x006) : l.clears t free = false := by
  rw [Landing.clears, decide_eq_false h, Bool.false_and, Bool.false_and, Bool.false_and]
theorem tvecAt_quiet (h : ∀ l ∈ c.flight, l.dest ≠ .csr 0x008) : c.tvecAt t free = c.csr.tvec := by
  rw [Ctx.tvecAt, pickView_unwritten t free _ h, setWidth_4096_64]
theorem validAt_quiet (h : ∀ l ∈ c.flight, l.dest ≠ .csr 0x006) : c.validAt t free = c.trap.valid := by
  have hany : c.flight.any (fun l => l.clears t free) = false := List.any_eq_false.mpr fun l hl => by simp [clears_quiet (h l hl)]
  rw [Ctx.validAt, hany, Bool.not_false, Bool.and_true]

/-! ### The record of a trap -/

variable (a : TrapArgs)

theorem record_held (h : c.validAt t free = true) : c.record t free a = c := if_pos h
theorem record_free (h : c.validAt t free = false) :
    c.record t free a = { c with trap := a.toTrap c, flight := c.flight.filter (fun l => !l.clears t free) } :=
  if_neg (by rw [h]; decide)
/-- A record changes the trap registers and what is in flight alone. -/
theorem record_frame (c : Ctx) (t free : Nat) : c.record t free a =
    { c with trap := (c.record t free a).trap, flight := (c.record t free a).flight } := by
  unfold Ctx.record
  split <;> rfl
theorem record_flight_subset (c : Ctx) (t free : Nat) : ∀ l ∈ (c.record t free a).flight, l ∈ c.flight := by
  unfold Ctx.record
  split
  · exact fun _ hl => hl
  · exact fun _ hl => List.mem_of_mem_filter hl
theorem record_flight_quiet (h : ∀ l ∈ c.flight, l.dest ≠ .csr 0x006) : (c.record t free a).flight = c.flight := by
  unfold Ctx.record
  split
  · rfl
  · exact List.filter_eq_self.mpr fun l hl => by rw [clears_quiet (h l hl)]; rfl
end

/-! ## Where a trap goes (R126, R329) -/

section
variable {s : State} {a : TrapArgs}

theorem takeTrap_cur (s : State) (a : TrapArgs) : (takeTrap s s.sel.who a).cur = (takeTrap s s.sel.who a).ctx s.sel.who := by
  rw [State.cur, takeTrap_sel]
theorem raiseTrap_taken (h : (!retryable a.code && s.cur.inSeg && s.vectored s.sel.who) = false) :
    raiseTrap s a = (takeTrap s s.sel.who a).upd (fun c => { c with moved := true }) := if_neg (by rw [h]; decide)
/-- A retryable trap freezes its context in place. -/
theorem raiseTrap_retryable (hr : retryable a.code = true) : (raiseTrap s a).cur =
    { s.cur.record s.t s.free a with
      st := if s.cur.st = .halted then .halted else .frozen, from_ := if s.cur.st = .frozen then s.cur.from_ else s.cur.st, freeze := a.freeze,
      retry := some ⟨a.code, a.pc, a.info⟩, moved := true } := by
  have htake : takeTrap s s.sel.who a = trapFreeze s s.sel.who a := if_pos hr
  rw [raiseTrap_taken (by rw [hr]; rfl), State.cur_upd, takeTrap_cur, htake, trapFreeze_ctx]
  rfl
theorem vectored_of (htv : (s.cur.tvecAt s.t s.free).getLsbD 0 = true) (hheld : s.cur.validAt s.t s.free = false) (hst : s.cur.st ≠ .halted) :
    s.vectored s.sel.who = true := by
  show ((s.cur.tvecAt s.t s.free).getLsbD 0 && !s.cur.validAt s.t s.free && decide (s.cur.st ≠ .halted)) = true
  rw [htv, hheld, decide_eq_true hst]
  rfl
theorem not_vectored_of (h : (s.cur.tvecAt s.t s.free).getLsbD 0 = false ∨ s.cur.validAt s.t s.free = true) : s.vectored s.sel.who = false := by
  show ((s.cur.tvecAt s.t s.free).getLsbD 0 && !s.cur.validAt s.t s.free && decide (s.cur.st ≠ .halted)) = false
  rcases h with h | h <;> rw [h]
  · rfl
  · rw [Bool.not_true, Bool.and_false, Bool.false_and]
/-- Outside a segment another goes to TVEC when it may. -/
theorem raiseTrap_vectored (hr : retryable a.code = false) (hv : s.vectored s.sel.who = true) (hseg : s.cur.inSeg = false) :
    raiseTrap s a = (trapVector s s.sel.who a).upd (fun c => { c with moved := true }) := by
  rw [raiseTrap_taken (by rw [hseg, Bool.and_false, Bool.false_and]), takeTrap, if_neg (by rw [hr]; decide), if_pos hv]
theorem trapVector_cur : ((trapVector s s.sel.who a).upd (fun c => { c with moved := true })).cur = { s.cur.record s.t s.free a with
    csr := { s.cur.csr with pmode := s.cur.csr.mode, mode := true },
    st := if s.cur.st = .blocked ∨ s.cur.st = .dormant then .ready else s.cur.st, block := .none, entryNext := false,
    pc := s.cur.tvecAt s.t s.free &&& ~~~3#64, arrive := .taken, rep := 0, repOn := false, sig := { s.cur.sig with live := false }, moved := true } := by
  rw [← shiftRight_shiftLeft_two, State.cur_upd]
  show ({ (trapVector s s.sel.who a).ctx s.sel.who with moved := true } : Ctx) = _
  rw [trapVector_ctx]
  rfl
/-- Inside a segment it waits for the commit. -/
theorem raiseTrap_deferred (hr : retryable a.code = false) (hv : s.vectored s.sel.who = true) (hseg : s.cur.inSeg = true) :
    raiseTrap s a = s.upd (fun c => { c with pend := some ⟨a, c.segInst⟩, moved := true }) :=
  if_pos (by rw [hr, hseg, hv]; rfl)
/-- One that may not go there is terminal. -/
theorem raiseTrap_terminal (hr : retryable a.code = false) (hv : s.vectored s.sel.who = false) : ∃ (k : Csr) (h : List Nat), (raiseTrap s a).cur =
    { (s.cur.record s.t s.free a).dropSeg with st := .halted, from_ := .halted, csr := k, holds := h, moved := true } := by
  obtain ⟨k, h, hctx⟩ := trapTerminal_ctx s s.sel.who a
  have htake : takeTrap s s.sel.who a = trapTerminal s s.sel.who a := by
    rw [takeTrap, if_neg (by rw [hr]; decide), if_neg (by rw [hv]; decide)]
  refine ⟨k, h, ?_⟩
  rw [raiseTrap_taken (by rw [hv, Bool.and_false]), State.cur_upd, takeTrap_cur, htake, hctx]
  rfl

/-- Wherever a trap goes, the registers stay, and what is in flight but for what the record discards. -/
theorem raiseTrap_frame (s : State) (a : TrapArgs) : (raiseTrap s a).cur.regs = s.cur.regs ∧
    ((raiseTrap s a).cur.flight = s.cur.flight ∨ (raiseTrap s a).cur.flight = (s.cur.record s.t s.free a).flight) := by
  have hregs : (s.cur.record s.t s.free a).regs = s.cur.regs := by rw [record_frame]
  cases hr : retryable a.code
  case true => rw [raiseTrap_retryable hr]; exact ⟨hregs, .inr rfl⟩
  case false =>
    cases hv : s.vectored s.sel.who
    case false =>
      obtain ⟨k, h, hcur⟩ := raiseTrap_terminal hr hv
      rw [hcur]
      exact ⟨hregs, .inr rfl⟩
    case true =>
      cases hseg : s.cur.inSeg
      case false => rw [raiseTrap_vectored hr hv hseg, trapVector_cur]; exact ⟨hregs, .inr rfl⟩
      case true => rw [raiseTrap_deferred hr hv hseg, State.cur_upd]; exact ⟨rfl, .inl rfl⟩
end

/-! ## The trap instruction (R125) -/

/-- The issue of a trap counts as made for the repeat count. -/
def State.countedIssue (s : State) : State := s.upd (fun c => { c with rep := c.rep - 1, repOn := decide (0 < c.rep) })

section
variable {s : State} {o : STR}

theorem countedIssue_cur (s : State) : s.countedIssue.cur = { s.cur with rep := s.cur.rep - 1, repOn := decide (0 < s.cur.rep) } := State.cur_upd s _
theorem countedIssue_tvecAt (s : State) : s.countedIssue.cur.tvecAt s.countedIssue.t s.countedIssue.free = s.cur.tvecAt s.t s.free := by
  rw [countedIssue_cur]; rfl
theorem countedIssue_validAt (s : State) : s.countedIssue.cur.validAt s.countedIssue.t s.countedIssue.free = s.cur.validAt s.t s.free := by
  rw [countedIssue_cur]; rfl
/-- The record of a trap instruction, its repeat count among it. -/
theorem countedIssue_record (a : TrapArgs) (hh : s.cur.validAt s.t s.free = false) :
    (s.countedIssue.cur.record s.countedIssue.t s.countedIssue.free a).trap = a.toTrap s.countedIssue.cur := by
  rw [record_free a ((countedIssue_validAt s).trans hh)]

theorem execTrap_on (hg : s.guard o.slot.slot o.g = true) :
    exec (.trap o) s = .next (raiseTrap s.countedIssue (s.issueTrap 0x06 (o.code.setWidth 64) .none)) :=
  (show exec (.trap o) s = execTrap o s from rfl).trans (guarded_on _ _ s _ hg)
/-- A trap instruction that goes to TVEC. -/
theorem trap_vectored (htv : (s.cur.tvecAt s.t s.free).getLsbD 0 = true) (hh : s.cur.validAt s.t s.free = false) (hst : s.cur.st ≠ .halted)
    (hseg : s.cur.inSeg = false) : let n := (raiseTrap s.countedIssue (s.issueTrap 0x06 (o.code.setWidth 64) .none)).cur
    n.trap = (s.issueTrap 0x06 (o.code.setWidth 64) .none).toTrap s.countedIssue.cur ∧ n.csr.pmode = s.cur.csr.mode ∧ n.csr.mode = true ∧
      n.pc = s.cur.tvecAt s.t s.free &&& ~~~3#64 := by
  have hv : s.countedIssue.vectored s.countedIssue.sel.who = true :=
    vectored_of ((countedIssue_tvecAt s).symm ▸ htv) ((countedIssue_validAt s).trans hh) (by rw [countedIssue_cur]; exact hst)
  rw [raiseTrap_vectored rfl hv (by rw [countedIssue_cur]; exact hseg), trapVector_cur]
  exact ⟨countedIssue_record _ hh, by rw [countedIssue_cur], rfl, by rw [countedIssue_tvecAt]⟩
/-- One that is terminal for want of EN. -/
theorem trap_terminal (htv : (s.cur.tvecAt s.t s.free).getLsbD 0 = false) :
    let n := (raiseTrap s.countedIssue (s.issueTrap 0x06 (o.code.setWidth 64) .none)).cur
    n.st = .halted ∧ (s.cur.validAt s.t s.free = false → n.trap = (s.issueTrap 0x06 (o.code.setWidth 64) .none).toTrap s.countedIssue.cur) := by
  obtain ⟨k, l, hn⟩ := raiseTrap_terminal (s := s.countedIssue) (a := s.issueTrap 0x06 (o.code.setWidth 64) .none) rfl
    (not_vectored_of (.inl ((countedIssue_tvecAt s).symm ▸ htv)))
  rw [hn]
  exact ⟨rfl, countedIssue_record _⟩
end

/-- Settles O11: by where the trap goes, and what its record finds. -/
theorem traps : Obligations.Traps := by
  unfold Obligations.Traps
  refine ⟨fun s a => ?_, fun o s => ?_⟩
  · intro c t n tv held quiet written
    obtain ⟨hregs, hflight⟩ := raiseTrap_frame s a
    have hrecord (hh : held = false) (hx : n.trap = (c.record s.t s.free a).trap) : n.trap = a.toTrap c := by rw [hx, record_free a hh]
    have hwritten (hh : held = false) (hx : n.trap = (c.record s.t s.free a).trap) : written := by
      dsimp only [written]
      rw [hrecord hh hx]
      exact ⟨rfl, rfl, rfl, rfl, rfl, rfl, rfl⟩
    refine ⟨raiseTrap_mem s a, hregs, fun l hl => ?_, fun hq => ⟨tvecAt_quiet fun l hl => (hq l hl).2, validAt_quiet fun l hl => (hq l hl).1, ?_⟩, ?_,
      fun hr => ?_, fun hr htv hh hst hseg => ?_, fun hr htv hh hst hseg => raiseTrap_deferred hr (vectored_of htv hh hst) hseg, fun hr h => ?_⟩
    · rcases hflight with hf | hf
      · exact hf ▸ hl
      · exact record_flight_subset a c s.t s.free l (hf ▸ hl)
    · rcases hflight with hf | hf
      · exact hf
      · exact hf.trans (record_flight_quiet a fun l hl => (hq l hl).1)
    · rw [retryable, Bool.or_eq_true, Bool.or_eq_true, decide_eq_true_eq, decide_eq_true_eq, decide_eq_true_eq, or_assoc]
    · -- retryable
      have hn : n = _ := raiseTrap_retryable hr
      refine ⟨?_, by rw [hn], ?_, fun hst => ?_, fun hh => ?_, fun hh => hwritten hh (by rw [hn])⟩
      · rw [hn, record_frame]
      · rw [hn, record_frame]
      · rw [hn]; exact if_neg hst
      · rw [hn, record_held a hh]
    · -- to TVEC
      have hraise := raiseTrap_vectored hr (vectored_of htv hh hst) hseg
      have hn : n = _ := (congrArg State.cur hraise).trans trapVector_cur
      refine ⟨hwritten hh (by rw [hn]), ?_, by rw [hn], by rw [hn], by rw [hn], by rw [hn], by rw [hn], ?_⟩
      · rw [hrecord hh (by rw [hn])]; rfl
      · dsimp only [t]
        rw [hraise]
        exact onlyCtx_upd (onlyCtx_upd (onlyCtx_refl _ s) rfl _) rfl _
    · -- terminal
      obtain ⟨k, l, hn⟩ := raiseTrap_terminal hr (not_vectored_of h)
      have hn : n = _ := hn
      refine ⟨by rw [hn], by rw [hn]; rfl, fun hh => ?_, fun hh => hwritten hh (by rw [hn]; rfl)⟩
      rw [hn, record_held a hh]
      rfl
  · intro tv held
    refine ⟨fun hg => (show exec (.trap o) s = execTrap o s from rfl).trans (guarded_off _ _ s _ hg),
      fun hg => ⟨_, execTrap_on hg, raiseTrap_mem _ _, ?_, fun htv hh hst hseg => ?_, fun htv => ?_⟩⟩
    · obtain ⟨hregs, -⟩ := raiseTrap_frame s.countedIssue (s.issueTrap 0x06 (o.code.setWidth 64) .none)
      rw [hregs, countedIssue_cur]
    · obtain ⟨htrap, hpmode, hmode, hpc⟩ := trap_vectored (o := o) htv hh hst hseg
      rw [htrap, countedIssue_cur]
      exact ⟨rfl, rfl, rfl, rfl, rfl, hpmode, hmode, hpc⟩
    · obtain ⟨hst, htrap⟩ := trap_terminal (o := o) htv
      refine ⟨hst, fun hh => ?_⟩
      rw [htrap hh]
      exact ⟨rfl, rfl⟩
end Sys2Proof.Machine

namespace Sys2Proof.Machine

/-! ## A line read at its home slice (R244, R410) -/

/-- What the reading of a line leaves alone: the bytes of memory, the contexts and the acting parties. -/
structure ReadKept (s t : State) : Prop where
  mem : t.mem = s.mem
  ctxs : t.ctxs = s.ctxs
  sel : t.sel = s.sel

theorem readKept_refl (s : State) : ReadKept s s := ⟨rfl, rfl, rfl⟩

theorem ReadKept.trans {s t u : State} (h : ReadKept s t) (h' : ReadKept t u) : ReadKept s u :=
  ⟨h'.mem.trans h.mem, h'.ctxs.trans h.ctxs, h'.sel.trans h.sel⟩

theorem readKept_updChip (s : State) (n : Nat) (f : Chip → Chip) : ReadKept s (s.updChip n f) := ⟨rfl, rfl, rfl⟩

theorem touchLine_readKept (s : State) (n a : Nat) (w : Who) (ef wr : Bool) : ReadKept s (touchLine s n a w ef wr).1 := by
  unfold touchLine
  dsimp only
  split
  · exact ⟨rfl, rfl, rfl⟩
  · split
    · exact ⟨rfl, rfl, rfl⟩
    · exact readKept_refl s

theorem countHeld_readKept (s : State) (n : Nat) (st : Stage) : ReadKept s (countHeld s n st) := by
  unfold countHeld
  split
  · exact readKept_updChip s _ _
  · exact readKept_refl s

theorem writeBack_readKept (s : State) (n : Nat) (x : Pkt) (o : Option (Nat × Nat)) : ReadKept s (writeBack s n x o) := by
  unfold writeBack
  split
  · exact readKept_refl s
  · exact ⟨(countHeld_readKept _ n _).mem, (countHeld_readKept _ n _).ctxs, (countHeld_readKept _ n _).sel⟩

theorem fillLine_readKept (s : State) (n a : Nat) : ReadKept s (fillLine s n a) := by
  unfold fillLine
  dsimp only
  split
  · exact ⟨rfl, rfl, rfl⟩
  · split
    · exact ⟨rfl, rfl, rfl⟩
    · exact readKept_refl s

theorem homeLine_readKept (n g : Nat) (w : Who) (wr : Bool) (s : State) (a : Nat) : ReadKept s (homeLine n g w wr s a) := by
  have hfill : ReadKept s (fillIn s n a w false wr (ownPkt n)).1 := (touchLine_readKept s n a w false wr).trans (writeBack_readKept _ _ _ _)
  unfold homeLine
  dsimp only
  split
  · exact readKept_refl s
  · split
    · exact hfill
    · exact hfill.trans ((readKept_updChip _ _ _).trans (fillLine_readKept _ _ _))

theorem skipRead_readKept (s : State) (pc : Nat) : ReadKept s (s.skipRead pc) := by
  have hfold : ∀ (l : List (Nat × Nat)) (u : State),
      ReadKept u (l.foldl (fun t q => homeLine q.1 (s.gctxOf s.sel.who.chip) s.sel.who false t q.2) u) := by
    intro l
    induction l with
    | nil => exact readKept_refl
    | cons q r ih => exact fun u => (homeLine_readKept _ _ _ _ u q.2).trans (ih _)
  exact hfold _ s

theorem skipRead_cur (s : State) (pc : Nat) : (s.skipRead pc).cur = s.cur := by
  have hread := skipRead_readKept s pc
  rw [State.cur, State.ctx, hread.ctxs, hread.sel]
  rfl

/-! ## Return from exception (R55, R127) -/

section
variable {s : State} {o : SRF}

theorem trapPc_quiet (h : ∀ l ∈ s.cur.flight, l.dest ≠ .csr 0x005) : s.trapPc = s.cur.trap.pc := by
  rw [State.trapPc, State.csrPick, pickView_unwritten _ _ _ h, setWidth_4096_64]

theorem trapMode_quiet (h : ∀ l ∈ s.cur.flight, l.dest ≠ .csr 0x004) : s.trapMode = s.cur.csr.pmode := by
  rw [State.trapMode, State.csrPick, pickView_unwritten _ _ _ h, setWidth_4096_64]
  cases s.cur.csr.pmode <;> rfl

/-- The mode restored and VALID cleared, on a state that may be the one after reading a bundle. -/
def State.returned (s u : State) : State :=
  u.upd (fun c => { c with csr := { c.csr with mode := s.trapMode }, trap := { c.trap with valid := false } })

/-- What a skip leaves of its context, whatever state its read of the bundle leads to. -/

theorem cur_skipped {u : State} (hu : u.cur = s.cur) (x : BitVec 64) :
    ((jump x (s.returned u)).upd (fun c => { c with rep := 0, repOn := false })).cur =
      { s.cur with csr := { s.cur.csr with mode := s.trapMode }, trap := { s.cur.trap with valid := false }, next := some (x, false), rep := 0, repOn := false } := by
  rw [State.cur_upd, jump, State.cur_upd, State.returned, State.cur_upd, hu]

theorem execRfe_user (hg : s.guard o.slot.slot o.g = true) (hm : s.cur.csr.mode = false) :
    exec (.rfe o) s = .next (raiseTrap s (s.privTrap o.slot.slot.index 0x4E)) := by
  have hf : rfeFault o s = some (s.privTrap o.slot.slot.index 0x4E) := if_pos (by rw [hm]; rfl)
  show execRfe o s = _
  rw [execRfe, hf, guardedFault_trap _ _ _ _ _ hg]

theorem rfeFault_plain (hm : s.cur.csr.mode = true) (hs : o.skip = false) : rfeFault o s = none := by
  rw [rfeFault, hm, hs]; rfl

theorem rfeFault_skip (hm : s.cur.csr.mode = true) (hs : o.skip = true) : rfeFault o s = s.skipFault s.trapPc.toNat := by
  rw [rfeFault, hm, hs]; rfl
/-- rfe to the bundle that the trap recorded resumes it; to another it is a transfer. -/

theorem execRfe_plain (hg : s.guard o.slot.slot o.g = true) (hm : s.cur.csr.mode = true) (hs : o.skip = false) :
    exec (.rfe o) s = .next (if s.trapPc = s.cur.trap.recorded then
      (s.returned s).upd (fun c => { c with next := some (s.trapPc, true), sig := s.cur.trap.sig, rep := s.cur.trap.rep, repOn := s.cur.trap.repOn,
                                            resume := if s.cur.trap.repOn then some s.cur.trap.held else none })
      else jump (s.trapPc &&& ~~~3#64) (s.returned s)) := by
  show execRfe o s = _
  rw [execRfe, rfeFault_plain hm hs, guardedFault_ok _ _ _ _ hg, hs, ← regTarget_eq]
  rfl

theorem execRfe_skip (hg : s.guard o.slot.slot o.g = true) (hm : s.cur.csr.mode = true) (hs : o.skip = true) (hf : s.skipFault s.trapPc.toNat = none) :
    exec (.rfe o) s = .next ((jump (s.trapPc + BitVec.ofNat 64 (4 * (s.rawAt s.sel.who s.trapPc.toNat).len))
      (s.returned (s.skipRead s.trapPc.toNat))).upd (fun c => { c with rep := 0, repOn := false })) := by
  show execRfe o s = _
  rw [execRfe, rfeFault_skip hm hs, hf, guardedFault_ok _ _ _ _ hg, hs]
  rfl

theorem execRfe_skipFault (hg : s.guard o.slot.slot o.g = true) (hm : s.cur.csr.mode = true) (hs : o.skip = true) {a : TrapArgs}
    (hf : s.skipFault s.trapPc.toNat = some a) : exec (.rfe o) s = .next (raiseTrap s a) := by
  show execRfe o s = _
  rw [execRfe, rfeFault_skip hm hs, hf, guardedFault_trap _ _ _ _ _ hg]
/-- The fetch of the bundle at TRAP_PC faults by its translation first. -/

theorem skipFault_translation {pc : Nat} (h : (s.bundleFault pc).isSome = true) : s.skipFault pc = s.bundleFault pc := by
  obtain ⟨a, ha⟩ := Option.isSome_iff_exists.mp h
  rw [State.skipFault, ha]
end

/-- Settles O12: in user mode PRIV, else by whether rfe skips and what its fetch finds. -/

theorem returnFromException : Obligations.ReturnFromException := by
  unfold Obligations.ReturnFromException
  intro o s pc
  refine ⟨fun hq => ⟨trapPc_quiet fun l hl => (hq l hl).2, trapMode_quiet fun l hl => (hq l hl).1⟩, execRfe_user, fun hg hm hs => ?_,
    fun hg hm hs hf => ?_, fun hg hm hs => ⟨fun a hf => execRfe_skipFault hg hm hs hf, skipFault_translation⟩⟩
  · have hctx : onlyCtx s.sel.who s (s.returned s) := onlyCtx_upd (onlyCtx_refl _ s) rfl _
    refine ⟨_, execRfe_plain hg hm hs, ?_⟩
    by_cases hrec : s.trapPc = s.cur.trap.recorded
    · rw [if_pos hrec, State.cur_upd, State.returned, State.cur_upd]
      exact ⟨onlyCtx_upd hctx rfl _, rfl, rfl, rfl, fun _ => ⟨rfl, rfl, rfl⟩, fun hne => absurd hrec hne⟩
    · rw [if_neg hrec, jump, State.cur_upd, State.returned, State.cur_upd]
      exact ⟨onlyCtx_upd hctx rfl _, rfl, rfl, rfl, fun heq => absurd heq hrec, fun _ => rfl⟩
  · have hread := skipRead_readKept s pc.toNat
    have hwho : (s.skipRead pc.toNat).sel.who = s.sel.who := congrArg Sel.who hread.sel
    have hctx : onlyCtx s.sel.who (s.skipRead pc.toNat) (s.returned (s.skipRead pc.toNat)) := onlyCtx_upd (onlyCtx_refl _ _) hwho _
    refine ⟨_, execRfe_skip hg hm hs hf, onlyCtx_upd (onlyCtx_upd hctx hwho _) hwho _, ?_, ?_⟩
    · rw [State.upd_mem, jump, State.upd_mem, State.returned, State.upd_mem, hread.mem]
    · rw [cur_skipped (skipRead_cur s pc.toNat)]
      exact ⟨rfl, rfl, rfl, rfl, rfl⟩
end Sys2Proof.Machine

namespace Sys2Proof.Machine

/-! ## Identifiers and copies (R130, R134) -/

/-- The identifier of each code. -/
theorem Idents.sel_of_mem {ids : Idents} {k : Nat} {x : BitVec 64} (h : (k, x) ∈ [(0, ids.core), (1, ids.clus), (2, ids.chip), (3, ids.stage), (4, ids.ctx),
    (5, ids.gang), (6, ids.nchips), (7, ids.nstages), (8, ids.ncores)]) : ids.sel k = x := by
  simp only [List.mem_cons, Prod.mk.injEq, List.not_mem_nil, or_false] at h
  rcases h with ⟨rfl, rfl⟩ | ⟨rfl, rfl⟩ | ⟨rfl, rfl⟩ | ⟨rfl, rfl⟩ | ⟨rfl, rfl⟩ | ⟨rfl, rfl⟩ |
    ⟨rfl, rfl⟩ | ⟨rfl, rfl⟩ | ⟨rfl, rfl⟩ <;> rfl

theorem ofNat_mul_two_pow (n x l : Nat) : BitVec.ofNat n (x * 2 ^ l) = BitVec.ofNat n x <<< l := by
  apply BitVec.eq_of_toNat_eq
  rw [BitVec.toNat_shiftLeft, BitVec.toNat_ofNat, BitVec.toNat_ofNat, Nat.shiftLeft_eq, Nat.mod_mul_mod]

/-- Codes of the files that cp writes whole, and of those of several lanes. -/
theorem wideFile_iff (fc : BitVec 4) : (2 ≤ fc.toNat ∧ fc.toNat ≤ 5) ↔ (fc = 2 ∨ fc = 3 ∨ fc = 4 ∨ fc = 5) := by
  revert fc
  decide
theorem fileReg_full (s : State) {fc : BitVec 4} (h : fc = 2 ∨ fc = 3 ∨ fc = 4 ∨ fc = 5) (n : BitVec 5) :
    (s.fileReg fc n).full = BitVec.ofNat 4096 (2 ^ 1024 - 1) := by
  rcases h with rfl | rfl | rfl | rfl <;> rfl
/-- Every lane of a word repeated. -/
theorem extract_packElems_replicate (v : BitVec 64) {k : Nat} (hk : k < 16) :
    (BitVec.ofNat 4096 (packElems 64 (List.replicate 16 v.toNat))).extractLsb' (64 * k) 64 = v := by
  apply BitVec.eq_of_toNat_eq
  rw [BitVec.extractLsb'_toNat, toNat_ofNat_packElems (by rw [List.length_replicate]; decide), mul_comm]
  exact (elemN_packElems 64 _ k).trans (by rw [List.getD_replicate _ hk, Nat.mod_eq_of_lt v.isLt])

section
variable {s : State} {o : SR} {fc : BitVec 4} (hfc : o.fn.extractLsb' 0 4 = fc)
include hfc

theorem cp_word (h : fc = 0 ∨ fc = 1 ∨ fc = 6 ∨ fc = 7 ∨ fc = 8) :
    s.gives64 (.cp o) o.slot.slot o.g (s.fileReg fc o.d) (s.rd64 o.slot.slot 0 (sReg o.slot o.a)) 3 0 := by
  have hnarrow : ¬ (2 ≤ fc.toNat ∧ fc.toNat ≤ 5) := by
    rcases h with rfl | rfl | rfl | rfl | rfl <;> decide
  show execCp o s = _
  simp only [execCp, guarded, hfc, if_neg hnarrow]
  rfl
theorem cp_lane (h : fc = 2 ∨ fc = 3 ∨ fc = 4 ∨ fc = 5) (h4 : o.fn.getLsbD 4 = false) :
    s.gives (.cp o) o.slot.slot o.g (s.fileReg fc o.d)
      ((s.rd64 o.slot.slot 0 (sReg o.slot o.a)).setWidth 4096 <<< (64 * (o.b.extractLsb' 0 4).toNat))
      (0xFFFFFFFFFFFFFFFF#4096 <<< (64 * (o.b.extractLsb' 0 4).toNat)) 3 0 := by
  show execCp o s = _
  simp only [execCp, guarded, hfc, if_pos ((wideFile_iff fc).mpr h), h4, ofNat_mul_two_pow, BitVec.ofNat_toNat, toNat_extract_zero]
  rfl
theorem cp_lanes (h : fc = 2 ∨ fc = 3 ∨ fc = 4 ∨ fc = 5) (h4 : o.fn.getLsbD 4 = true) :
    s.gives (.cp o) o.slot.slot o.g (s.fileReg fc o.d)
      (BitVec.ofNat 4096 (packElems 64 (List.replicate 16 (s.rd64 o.slot.slot 0 (sReg o.slot o.a)).toNat))) (BitVec.ofNat 4096 (2 ^ 1024 - 1)) 3 0 := by
  show execCp o s = _
  simp only [execCp, guarded, hfc, if_pos ((wideFile_iff fc).mpr h), h4, if_true, State.landAll, fileReg_full s h]
end

/-- Settles O13: by the code of idr, and by the file that cp names. -/
theorem identifiersAndCopies : Obligations.IdentifiersAndCopies := by
  unfold Obligations.IdentifiersAndCopies
  intro o s v fc ids
  refine ⟨fun k x hx hk => ?_, cp_word rfl, fun h => ⟨cp_lane rfl h, fun h4 => ⟨_, cp_lanes rfl h h4, fun k => extract_packElems_replicate v⟩⟩⟩
  rw [← Idents.sel_of_mem hx, ← hk]
  rfl

/-! ## Access to registers (R55, R132, R133) -/

/-- What a csrw puts in flight (R133): a loop counter lands in its own file, and a rotating base ignores the write. -/
def State.csrResults (s : State) (o : SRX) : List Landing :=
  let v := (s.rd64 o.slot.slot 0 (sReg o.slot o.a)).setWidth 4096
  if 0x018 ≤ o.x.toNat ∧ o.x.toNat < 0x01B then []
  else if 0x010 ≤ o.x.toNat ∧ o.x.toNat < 0x016 then [s.result (.lc (BitVec.ofNat 3 (o.x.toNat - 0x010))) v 0xFFFFFFFF#4096 3 0]
  else [s.result (.csr o.x) v 0xFFFFFFFFFFFFFFFF#4096 3 0]

section
variable {s : State} {o : SRX}

theorem csrWrite_eq (s : State) (o : SRX) :
    csrWrite o s = if s.csrResults o = [] then s else s.upd (fun c => c.addFlight (s.csrResults o)) := by
  unfold csrWrite State.csrResults csrDest
  dsimp only
  by_cases hrb : 0x018 ≤ o.x.toNat ∧ o.x.toNat < 0x01B
  · have hlc : ¬ (0x010 ≤ o.x.toNat ∧ o.x.toNat < 0x016) := by omega
    simp only [if_neg hlc, if_pos hrb, if_true]
  · by_cases hlc : 0x010 ≤ o.x.toNat ∧ o.x.toNat < 0x016
    · simp only [if_neg hrb, if_pos hlc, List.cons_ne_nil, if_false]; rfl
    · simp only [if_neg hrb, if_neg hlc, List.cons_ne_nil, if_false]; rfl
/-- A write, then the result of the read beside it. -/
theorem csrWrite_land64 (d : Dest) (v : BitVec 64) : (csrWrite o s).land64 d v 3 0 =
    s.upd (fun c => c.addFlight (s.csrResults o ++ [s.result d (v.setWidth 4096) d.full 3 0])) := by
  rw [csrWrite_eq, State.land64, State.landAll, land_eq]
  split
  case isTrue h => rw [h]; rfl
  case isFalse =>
    rw [State.upd_upd, result_upd rfl]
    simp only [Ctx.addFlight, List.append_assoc]
theorem sReg_full (sl : SSlot) (n : BitVec 5) : (sReg sl n).full = 0xFFFFFFFFFFFFFFFF#4096 := by cases sl <;> rfl

/-- An access that only supervisor mode has raises PRIV in user mode. -/
theorem csrFault_eq (op : Nat) (rd wr : Bool) : csrFault o op rd wr s =
    if s.cur.csr.mode = false ∧ (rd && csrSuperRead o.x || wr && csrSuperWrite o.x) = true then some (s.privTrap o.slot.slot.index op) else none := by
  rw [csrFault]
  cases s.cur.csr.mode <;> simp
/-- An access under a true guard: its effect, or PRIV. -/
theorem exec_access (hg : s.guard o.slot.slot o.g = true) {i : Instr} {op : Nat} {rd wr : Bool} {f : State → State}
    (h : exec i s = guardedFault o.slot.slot o.g s (csrFault o op rd wr s) f) : exec i s =
    if s.cur.csr.mode = false ∧ (rd && csrSuperRead o.x || wr && csrSuperWrite o.x) = true then .next (raiseTrap s (s.privTrap o.slot.slot.index op))
    else .next (f s) := by
  rw [h, csrFault_eq]
  split
  · exact guardedFault_trap _ _ _ _ _ hg
  · exact guardedFault_ok _ _ _ _ hg
end

/-! ## The overflow table (R77, R135) -/

section
variable {s : State} {o : SR}

/-- One entry of the table as a write stores it. -/
def ovtEntryStored (v : BitVec 64) (i : Nat) : Nat :=
  let code := (v.extractLsb' (2 * i) 2).toNat
  if code = 3 ∨ (i = 4 ∧ code = 2) then 0 else code

theorem ovtEntryStored_lt (v : BitVec 64) (i : Nat) : ovtEntryStored v i < 4 := by
  unfold ovtEntryStored
  dsimp only
  split
  · decide
  · exact (v.extractLsb' (2 * i) 2).isLt
theorem ovtStore_eq (v : BitVec 64) : ovtStore v = BitVec.ofNat 10 (ovtEntryStored v 0 + 4 * ovtEntryStored v 1 + 16 * ovtEntryStored v 2 +
    64 * ovtEntryStored v 3 + 256 * ovtEntryStored v 4) := by
  have hfield (lo : Nat) : natFld v.toNat lo 2 = (v.extractLsb' lo 2).toNat := by rw [BitVec.extractLsb'_toNat, natFld]
  simp only [ovtStore, ovtEntryStored, hfield]
theorem ovtStore_entry (v : BitVec 64) {i : Nat} (hi : i < 5) : ((ovtStore v).extractLsb' (2 * i) 2).toNat = ovtEntryStored v i := by
  have h0 := ovtEntryStored_lt v 0
  have h1 := ovtEntryStored_lt v 1
  have h2 := ovtEntryStored_lt v 2
  have h3 := ovtEntryStored_lt v 3
  have h4 := ovtEntryStored_lt v 4
  rw [ovtStore_eq, BitVec.extractLsb'_toNat, BitVec.toNat_ofNat, Nat.shiftRight_eq_div_pow]
  interval_cases i <;> omega

theorem ovtLd_user (hg : s.guard o.slot.slot o.g = true) (hm : s.cur.csr.mode = false) :
    exec (.ovtLd o) s = .next (raiseTrap s (s.privTrap o.slot.slot.index 0x55)) := by
  have hf : ovtFault o s = some (s.privTrap o.slot.slot.index 0x55) := if_pos (by rw [hm]; rfl)
  show execOvtLd o s = _
  rw [execOvtLd, hf, guardedFault_trap _ _ _ _ _ hg]
theorem ovtLd_super (hg : s.guard o.slot.slot o.g = true) (hm : s.cur.csr.mode = true) : exec (.ovtLd o) s =
    .next (s.upd (fun c => { c with csr := { c.csr with ovt := ovtStore (s.rd64 o.slot.slot 0 (sReg o.slot o.a)) } })) := by
  have hf : ovtFault o s = none := if_neg (by rw [hm]; decide)
  show execOvtLd o s = _
  rw [execOvtLd, hf, guardedFault_ok _ _ _ _ hg]
end

/-- Settles O14: by the mode, and by the file that a write lands in. -/
theorem csrAccess : Obligations.CsrAccess := by
  unfold Obligations.CsrAccess
  refine ⟨fun o s hg => ?_, fun o s hg => ⟨ovtLd_user hg, fun hm => ⟨_, ovtLd_super hg hm, onlyCtx_upd (onlyCtx_refl _ s) rfl _, ?_, fun i hi => ?_⟩⟩⟩
  · intro n v out inn add priv user
    refine ⟨?_, ?_, ?_⟩
    · rw [exec_access hg (show exec (.csrr o) s = execCsrr o s from rfl), State.land64, State.landAll, land_eq, sReg_full]
      simp only [Bool.true_and, Bool.false_and, Bool.or_false]
      rfl
    · rw [exec_access hg (show exec (.csrw o) s = execCsrw o s from rfl), csrWrite_eq, apply_ite Host.Outcome.next]
      simp only [Bool.true_and, Bool.false_and, Bool.false_or]
      rfl
    · rw [exec_access hg (show exec (.csrx o) s = execCsrx o s from rfl), csrWrite_land64, sReg_full]
      simp only [Bool.true_and, Bool.or_eq_true]
      rfl
  · rw [State.cur_upd]
  · rw [State.cur_upd]
    exact ovtStore_entry _ hi
end Sys2Proof.Machine

namespace Sys2Proof.Machine

/-! ## Launch and translation records (R353, R357, R368) -/

/-- A walk without a status of its own has found no fault. -/
theorem walkFaults_of_status (vf g : Nat) : ∀ {l : List WalkRes}, walkStatus l = 0 → walkFaults vf g l = []
  | [], _ => rfl
  | .ok _ :: r, h => walkFaults_of_status vf g (l := r) h
  | .bad :: _, h => absurd h (show (2 : Nat) ≠ 0 by decide)
  | .fault _ _ :: _, h => absurd h (show (1 : Nat) ≠ 0 by decide)

section
variable {s : State} {vf q : Nat} {b : List Byte}

/-- A launch that fails by no fault of its walk. -/
theorem walkFaults_of_launchStatus {n : Nat} (h7 : s.launchStatus n vf b ≠ 7) (hf : s.launchFirst n vf b = 0) (g : Nat) :
    walkFaults vf g (s.launchRead n vf b).walk = [] := by
  refine walkFaults_of_status vf g ?_
  by_contra hw
  refine h7 ?_
  rw [State.launchStatus, if_neg (by rw [hf]; decide), if_pos hw]

variable (hrec : s.nextRecord s.sel.who.chip = some (vf, q, b))
include hrec

theorem launchRecord_accepts (hk : recKind b ≠ 1) (hst : s.launchStatus s.sel.who.chip vf b = 0) :
    exec .launchRecord s = .next (acceptLaunch (takeRecord s s.sel.who.chip vf q) s.sel.who.chip vf q b) := by
  show execLaunchRecord s = _
  unfold execLaunchRecord
  simp only [hrec, if_neg hk, hst, ne_eq, not_true_eq_false, if_false]
theorem launchRecord_fails (hk : recKind b ≠ 1) (h0 : s.launchStatus s.sel.who.chip vf b ≠ 0) (h7 : s.launchStatus s.sel.who.chip vf b ≠ 7) :
    exec .launchRecord s = .next (failLaunch (takeRecord s s.sel.who.chip vf q) s.sel.who.chip vf q b (s.launchStatus s.sel.who.chip vf b)) := by
  show execLaunchRecord s = _
  unfold execLaunchRecord
  simp only [hrec, if_neg hk, if_pos h0]
  split
  case isTrue hf => rw [walkFaults_of_launchStatus h7 hf]; rfl
  case isFalse => rfl
theorem launchRecord_next (hk : recKind b ≠ 1) : ∃ t, exec .launchRecord s = .next t := by
  show ∃ t, execLaunchRecord s = .next t
  unfold execLaunchRecord
  simp only [hrec, if_neg hk]
  split <;> exact ⟨_, rfl⟩

/-- A translation record that is not the end of one held back. -/
theorem translationRecord_bad (hk : recKind b = 1) (hid : s.sel.id ≠ 1) (hbad : recordBad s s.sel.who.chip vf b = true) :
    exec .translationRecord s = .next (failLaunch (takeRecord s s.sel.who.chip vf q) s.sel.who.chip vf q b 1) := by
  show execTranslationRecord s = _
  unfold execTranslationRecord
  simp only [if_neg hid, hrec, hk, ne_eq, not_true_eq_false, if_false, hbad, if_true]
theorem translationRecord_installs (hk : recKind b = 1) (hid : s.sel.id ≠ 1) (hbad : recordBad s s.sel.who.chip vf b = false)
    (hmode : natFld (fieldAt b 40 8) 0 2 ≠ 2) :
    let r := xtApply (takeRecord s s.sel.who.chip vf q) s.sel.who.chip vf (natFld (fieldAt b 40 8) 0 2) (fieldAt b 16 2) (fieldAt b 0 8)
      (natFld (fieldAt b 40 8) 3 19) ((fieldAt b 40 8).testBit 2)
    exec .translationRecord s = .next (xtComplete r.1 s.sel.who.chip vf q b r.2) := by
  show execTranslationRecord s = _
  unfold execTranslationRecord
  simp only [if_neg hid, hrec, hk, ne_eq, not_true_eq_false, if_false, hbad, Bool.false_eq_true, decide_eq_false hmode, Bool.false_and]
theorem translationRecord_next (hk : recKind b = 1) (hid : s.sel.id ≠ 1) : ∃ t, exec .translationRecord s = .next t := by
  show ∃ t, execTranslationRecord s = .next t
  unfold execTranslationRecord
  simp only [if_neg hid, hrec, hk, ne_eq, not_true_eq_false, if_false]
  split
  · exact ⟨_, rfl⟩
  · split <;> exact ⟨_, rfl⟩
end

/-- The end of a translation record that set an absent bit (R368). -/
theorem translationRecord_ends {s : State} {st vf q : Nat} {b : List Byte} {r : List (Nat × Nat × Nat × List Byte)}
    (hw : (s.chip s.sel.who.chip).xtWait = (st, vf, q, b) :: r) (hid : s.sel.id = 1)
    (huses : s.oldBitUses s.sel.who.chip (fieldAt b 16 2) (natFld (fieldAt b 40 8) 3 19 % 4096) (natFld (natFld (fieldAt b 40 8) 3 19) 12 7) st = false) :
    exec .translationRecord s = .next ((xtComplete s s.sel.who.chip vf q b 0).updChip s.sel.who.chip (fun c => { c with xtWait := r })) := by
  show execTranslationRecord s = _
  unfold execTranslationRecord
  simp only [if_pos hid, hw, huses, Bool.false_eq_true, if_false]

/-! ## Fault reports (R364, R365) -/

section
variable {s : State}

/-- The hypervisor's records go first. -/
theorem faultReport_hyper {r : FaultRec} {l : List FaultRec} (hroom : s.ringRoom s.sel.who.chip 0 0x50100 = true)
    (hp : (s.chip s.sel.who.chip).hpending = r :: l) : exec .faultReportWrite s =
    .next ((ringPut s s.sel.who.chip 0 0x50100 r.bytes).updChip s.sel.who.chip (fun c => { c with hpending := c.hpending.tail })) := by
  show execFaultReportWrite s = _
  unfold execFaultReportWrite
  simp only [if_pos hroom, hp, List.head?_cons]
/-- Then those of the VFs, each to the ring of its kind. -/
theorem faultReport_function {v left : Nat} {r : FaultRec} (hp : (s.chip s.sel.who.chip).hpending = [])
    (hv : s.nextReporter s.sel.who.chip = some (v, left)) (hr : s.nextFault s.sel.who.chip v = some r) :
    let s1 := (ringPut s s.sel.who.chip (v + 1) r.ring r.bytes).updChip s.sel.who.chip (fun c =>
      { c with pending := c.pending.set v (dropFirst r (c.pending.get v [])), repPtr := v, repLeft := left })
    exec .faultReportWrite s = .next (if r.terminal then afterTerminal s1 s.sel.who.chip v r else s1) := by
  show execFaultReportWrite s = _
  unfold execFaultReportWrite
  simp only [hp, List.head?_nil, ite_self, hv, hr]

/-! ## Resuming and dirty pages (R365, R369) -/

theorem frResume_other (h : s.gcVf s.sel.who.chip (natFld s.sel.val.toNat 16 16) ≠ s.sel.id) : exec .frResume s = .next s := if_pos h
theorem frResume_running (h : s.gcVf s.sel.who.chip (natFld s.sel.val.toNat 16 16) = s.sel.id)
    (hrun : (s.chip s.sel.who.chip).running = some (natFld s.sel.val.toNat 16 16)) : exec .frResume s =
    .next (s.updCtx (whoOf s.sel.who.chip s.sel.val.toNat) (fun c => if c.st = .frozen && resumable c.freeze then c.thaw else c)) :=
  (if_neg (not_not_intro h)).trans (if_pos hrun)

/-- A saved context whose freeze meets a test is no longer frozen by it. -/
def Gang.thawSaved (g : Nat) (p : FreezeCause → Bool) (k : Nat) (q : Gang) : Gang :=
  if k = g then { q with savedCtx := q.savedCtx.map (fun c =>
    if c.2.st = .frozen && p c.2.freeze then (c.1, { c.2 with freeze := .none, retry := none }) else c) }
  else q
/-- What resuming leaves of a gang context. -/
theorem thawWhere_gang (s : State) (g : Nat) (p : FreezeCause → Bool) (n k : Nat) :
    (thawWhere s g p).gang n k = Gang.thawSaved g p k (s.gang n k) := by
  have hchips : (thawWhere s g p).chips =
      s.chips.map (fun h => (h.1, { h.2 with gangs := h.2.gangs.map (fun q => (q.1, Gang.thawSaved g p q.1 q.2)) })) := by
    have hgang : (fun q : Nat × Gang => (q.1, Gang.thawSaved g p q.1 q.2)) =
        fun q => if q.1 = g then (q.1, { q.2 with savedCtx := q.2.savedCtx.map (fun c =>
          if c.2.st = .frozen && p c.2.freeze then (c.1, { c.2 with freeze := .none, retry := none }) else c) }) else q := by
      funext q
      unfold Gang.thawSaved
      split <;> rfl
    rw [hgang]
    rfl
  have hchip : (thawWhere s g p).chip n = { s.chip n with gangs := (s.chip n).gangs.map (fun q => (q.1, Gang.thawSaved g p q.1 q.2)) } := by
    rw [State.chip, hchips]
    exact AMap.get_mapVal s.chips (fun _ h => { h with gangs := h.gangs.map (fun q => (q.1, Gang.thawSaved g p q.1 q.2)) }) n Chip.reset rfl
  have hreset : Gang.thawSaved g p k Gang.reset = Gang.reset := by
    unfold Gang.thawSaved
    split <;> rfl
  rw [State.gang, hchip]
  exact AMap.get_mapVal _ (Gang.thawSaved g p) k _ hreset
theorem thawSaved_dirty (g : Nat) (p : FreezeCause → Bool) (k : Nat) (q : Gang) : (Gang.thawSaved g p k q).dirty = q.dirty := by
  unfold Gang.thawSaved
  split <;> rfl
theorem dirtySet_dirty (s : State) (n : Nat) (r : DlogReq) : ((dirtySet s n r).gang n r.gctx).dirty = (s.gang n r.gctx).dirty ++ [(r.ext, r.page)] := by
  show ((thawWhere (s.updGang n r.gctx (fun g => { g with dirty := g.dirty ++ [(r.ext, r.page)] })) r.gctx
    (fun f => f = .dlog r.id)).gang n r.gctx).dirty = _
  rw [thawWhere_gang, thawSaved_dirty, State.gang_updGang_same]

variable {r : DlogReq} (hr : (s.chip s.sel.who.chip).dlogWait.find? (fun r => r.id = s.sel.id) = some r)
include hr

/-- The oldest dirty record of a VF is written, and its page is dirty from then on. -/
theorem dirtyLog_writes (hroom : s.ringRoom s.sel.who.chip 0 (vfBlock r.vf + 0x20) = true)
    (hold : ((s.chip s.sel.who.chip).dlogWait.find? (fun q => q.vf = r.vf)).map (·.id) = some r.id) :
    ∃ t, exec .dirtyLogRecord s = .next t ∧ (r.ext, r.page) ∈ (t.gang s.sel.who.chip r.gctx).dirty := by
  have hexec : exec .dirtyLogRecord s = .next (dirtySet ((ringPut s s.sel.who.chip 0 (vfBlock r.vf + 0x20) (bytesOf (r.gpa / 2 ^ 21 * 2 ^ 21) 8)).updChip
      s.sel.who.chip (fun h => { h with dlogWait := h.dlogWait.filter (fun q => q.id ≠ r.id) })) s.sel.who.chip r) := by
    show execDirtyLogRecord s = _
    unfold execDirtyLogRecord
    simp only [hr, if_pos hroom, if_pos hold]
  refine ⟨_, hexec, ?_⟩
  rw [dirtySet_dirty]
  exact List.mem_append_right _ List.mem_cons_self
theorem dirtyLog_full (hroom : s.ringRoom s.sel.who.chip 0 (vfBlock r.vf + 0x20) = false) (htold : r.told = false) :
    exec .dirtyLogRecord s = .next (dirtyFull s s.sel.who.chip r) := by
  show execDirtyLogRecord s = _
  unfold execDirtyLogRecord
  simp only [hr, hroom, htold, Bool.false_eq_true, if_false]
end

/-- DL_CLEAR clears the dirty pages of one VF's gang contexts. -/
theorem dlClear_clears {s : State} (hreg : s.sel.reg < 126) (hclr : s.sel.val.getLsbD 6 = true) :
    ∃ t, exec .dlClear s = .next t ∧ t.mem = s.mem ∧ t.ctxs = s.ctxs ∧
      ∀ q ∈ (t.chip s.sel.who.chip).gangs, s.gcVf s.sel.who.chip q.1 = s.sel.reg → q.2.dirty = [] := by
  have hon : ¬ (126 ≤ s.sel.reg || !s.sel.val.getLsbD 6) = true := by
    rw [hclr]; simpa using hreg
  refine ⟨_, (if_neg hon : execDlClear s = _), rfl, rfl, fun q hq hvf => ?_⟩
  rw [State.chip_updChip_same] at hq
  obtain ⟨p, -, rfl⟩ := List.mem_map.mp hq
  by_cases hp : s.gcVf s.sel.who.chip p.1 = s.sel.reg
  · rw [if_pos hp]
  · rw [if_neg hp] at hvf
    exact absurd hvf hp

/-- Settles O51: row by row. -/
theorem launchesAndReports : Obligations.LaunchesAndReports := by
  unfold Obligations.LaunchesAndReports
  intro s n
  refine ⟨fun vf q b hrec => ?_, fun st vf q b r => translationRecord_ends, fun r l => faultReport_hyper, fun v left r => faultReport_function, ?_,
    ?_, fun r hr => ⟨dirtyLog_writes hr, dirtyLog_full hr⟩, dlClear_clears⟩
  · exact ⟨launchRecord_accepts hrec, launchRecord_fails hrec, launchRecord_next hrec, translationRecord_bad hrec, translationRecord_installs hrec,
      translationRecord_next hrec⟩
  · rintro g w rfl rfl
    exact ⟨frResume_other, frResume_running⟩
  · rintro g rfl
    rfl
end Sys2Proof.Machine

namespace Sys2Proof.Machine

/-! ## Shared forms, fields, and lengths (R14, R38) -/

section
variable {s : State} {i : Instr} {o : VOp}

/-- A form whose whole result is g lane by lane gives g, without flags. -/
theorem givesLanes_of_map {lat : Nat} {f : Nat → List Nat → List Nat → List Nat} (h : exec i s = vWhole o s lat f) {g : Nat → Nat}
    (hg : f (vLanes o) (s.vElems o.slot 0 o.a (vLanes o) (fmtBits o.ext.fmt)) (s.vElems o.slot 1 o.b (vLanes o) (fmtBits o.ext.fmt)) =
      (upTo (vLanes o)).map g) : s.givesLanes i o lat (fun k => (g k, 0)) :=
  givesLanes_whole h (by rw [hg, List.map_map]; rfl)
/-- A form that sets signs in a float format and wraps in an integer one. -/
theorem givesLanes_sign (sign : Bool → Bool) (fi : Int → Int) (h : exec i s = vElemwise o s (vLat o 2 4) (fun a _ _ _ =>
      (if isFloatFmt o.ext.fmt then signTo o.ext.fmt a sign else wrapI o.ext.fmt (fi (decodeI o.ext.fmt a)), 0))) :
    s.givesLanes i o (vLat o 2 4) (fun k => if isFloatFmt o.ext.fmt then (signTo o.ext.fmt (s.vSrc o 0 k) sign, 0)
      else (wrapI o.ext.fmt (fi (decodeI o.ext.fmt (s.vSrc o 0 k))), 0)) :=
  givesLanes_elemwise h (fun _ => apply_ite (·, (0 : Flags)) _ _ _)
/-- A reduction gives element 0 alone. -/
theorem givesElems_reduce {f : List Nat → Nat × Flags} (h : exec i s = vReduce o s f) :
    s.givesElems i o (fmtBits o.ext.fmt) [true] [f (selected (s.vMaskBits o (vLanes o)) (s.vElems o.slot 0 o.a (vLanes o) (fmtBits o.ext.fmt)))] 6 :=
  h.trans rfl
/-- A scan gives each selected element what the selected elements up to it give. -/
theorem givesElems_scan {f : List Nat → Nat × Flags} (h : exec i s = vScan o s f) :
    s.givesElems i o (fmtBits o.ext.fmt) (s.vMaskBits o (vLanes o)) ((upTo (vLanes o)).map (fun k =>
      f (selected ((s.vMaskBits o (vLanes o)).take (k + 1)) ((s.vElems o.slot 0 o.a (vLanes o) (fmtBits o.ext.fmt)).take (k + 1))))) 8 :=
  h.trans rfl
/-- A lane-mask form gives all 128 bits. -/
theorem gives_maskOp {f : BitVec 128 → BitVec 128 → BitVec 128} (h : exec i s = vMaskOp o s f) :
    s.gives i o.slot.slot o.g (vMask o.slot (o.d.setWidth 3))
      ((f ((s.rd o.slot.slot 0 (vMask o.slot (o.a.setWidth 3))).setWidth 128)
        ((s.rd o.slot.slot 1 (vMask o.slot (o.b.setWidth 3))).setWidth 128)).setWidth 4096) (vMask o.slot (o.d.setWidth 3)).full 2 0 :=
  h.trans rfl
end

/-- A field read from a number is the bits extracted. -/
theorem natFld_toNat {n : Nat} (v : BitVec n) (lo len : Nat) : natFld v.toNat lo len = (v.extractLsb' lo len).toNat :=
  (BitVec.extractLsb'_toNat ..).symm
theorem length_vElems (s : State) (sl : VSlot) (pos : Nat) (r : BitVec 5) (n w : Nat) : (s.vElems sl pos r n w).length = n := by
  rw [State.vElems, elemsOf, List.length_map, List.length_range]
theorem length_vMaskBits (s : State) (o : VOp) (n : Nat) : (s.vMaskBits o n).length = n := by
  rw [State.vMaskBits, List.length_map, List.length_range]

/-! ## Elementwise arithmetic (R141 to R143) -/

/-- Settles O16: each form is elementwise, and gives each lane what the statement says of its format. -/
theorem vectorArithmetic : Obligations.VectorArithmetic := by
  unfold Obligations.VectorArithmetic
  intro o s
  refine ⟨?_, ?_, ?_, ?_, ?_, ?_, ?_, ?_, ?_, ?_, ?_, ?_, ?_⟩
  · exact givesLanes_arith (show exec (.vadd o) s = execVadd o s from rfl) (fun _ => rfl)
  · exact givesLanes_arith (show exec (.vsub o) s = execVsub o s from rfl) (fun _ => rfl)
  · exact givesLanes_arith (show exec (.vmul o) s = execVmul o s from rfl) (fun _ => rfl)
  · exact givesLanes_arith (show exec (.vfma o) s = execVfma o s from rfl) (fun _ => rfl)
  · exact givesLanes_arith (show exec (.vfms o) s = execVfms o s from rfl) (fun _ => rfl)
  · exact givesLanes_arith (show exec (.vfnma o) s = execVfnma o s from rfl) (fun _ => rfl)
  · exact givesLanes_elemwise (show exec (.vmin o) s = execVmin o s from rfl) (fun _ => rfl)
  · exact givesLanes_elemwise (show exec (.vmax o) s = execVmax o s from rfl) (fun _ => rfl)
  · exact givesLanes_elemwise (show exec (.vclamp o) s = execVclamp o s from rfl) (fun _ => rfl)
  · exact givesLanes_sign (fun _ => false) (fun n => n.natAbs) (show exec (.vabs o) s = execVabs o s from rfl)
  · exact givesLanes_sign (fun neg => !neg) (fun n => -n) (show exec (.vneg o) s = execVneg o s from rfl)
  · exact givesLanes_elemwise (show exec (.vsatadd o) s = execVsatadd o s from rfl) (fun _ => rfl)
  · exact givesLanes_elemwise (show exec (.vsatsub o) s = execVsatsub o s from rfl) (fun _ => rfl)

/-! ## vdot4 (R144) -/

/-- An i32 element of vdot4: four exact products, one wrap. -/
theorem dot4Elem_int (ovt : BitVec 10) (f : BitVec 4) (rm : BitVec 2) (x y : Nat → Nat) (d : Nat) :
    dot4Elem ovt f 5 rm ((upTo 4).map (fun k => (x k, y k))) d =
      (wrapI 5 (decodeI 5 d + (decodeI f (x 0) * decodeI f (y 0) + decodeI f (x 1) * decodeI f (y 1) + decodeI f (x 2) * decodeI f (y 2) +
        decodeI f (x 3) * decodeI f (y 3))), 0) := by
  simp [dot4Elem, List.range_succ]
/-- An f32 element of vdot4: the group's products and the accumulator, one rounding. -/
theorem dot4Elem_float {f2 : BitVec 4} (h : f2 ≠ 5) (ovt : BitVec 10) (f : BitVec 4) (rm : BitVec 2) (x y : Nat → Nat) (d : Nat) :
    dot4Elem ovt f f2 rm ((upTo 4).map (fun k => (x k, y k))) d =
      (let g := groupProducts ((upTo 4).map (fun k => (decodeF f (x k), decodeF f (y k))))
       let r := sumRound ovt 0 rm (decodeF 0 d :: g.1)
       (r.1, r.2 ||| g.2)) := by
  rw [dot4Elem, if_neg h, List.map_map]
  rfl
/-- vdot4 gives each 32-bit element the sum that dot4Elem makes of its four pairs. -/
theorem vdot4_gives (o : VOp) (s : State) :
    let n := lanesOf o.w o.ext.fmt2
    let el := fun (pos : Nat) (r : BitVec 5) (k : Nat) => (s.vElems o.slot pos r (4 * n) (fmtBits o.ext.fmt)).getD k 0
    s.givesElems (.vdot4 o) o 32 (s.vMaskBits o n) ((upTo n).map (fun j =>
      dot4Elem s.ovt o.ext.fmt o.ext.fmt2 o.ext.rm ((upTo 4).map (fun k => (el 0 o.a (4 * j + k), el 1 o.b (4 * j + k))))
        ((s.vElems o.slot 3 o.d n 32).getD j 0))) 5 :=
  (show execVdot4 o s = _ from rfl)

/-- Settles O17: by the kind of the accumulator. -/
theorem vectorDotProduct : Obligations.VectorDotProduct := by
  unfold Obligations.VectorDotProduct
  intro o s
  have hgives := vdot4_gives o s
  refine ⟨fun h => ?_, fun h => ?_⟩
  · simp only [h, dot4Elem_int] at hgives ⊢
    exact hgives
  · simp only [dot4Elem_float h] at hgives
    exact hgives

/-! ## Logic and shifts (R145) -/

/-- The shift count is IMM16[5:0], or the element of SB modulo the width. -/
theorem shiftCount_eq (o : VOp) (b : Nat) :
    shiftCount o b = if o.ext.imm16.getLsbD 15 then (o.ext.imm16.extractLsb' 0 6).toNat else b % fmtBits o.ext.fmt := by
  rw [shiftCount, natFld_toNat]

/-- Settles O18: each form is elementwise; shifts are products and quotients by powers of two. -/
theorem vectorLogicAndShifts : Obligations.VectorLogicAndShifts := by
  unfold Obligations.VectorLogicAndShifts
  intro o s
  have hvsar : exec (.vsar o) s = vElemwise o s 2 (fun a b _ _ => (wrapN (sInt a (fmtBits o.ext.fmt) / 2 ^ shiftCount o b) (fmtBits o.ext.fmt), 0)) := rfl
  refine ⟨?_, ?_, ?_, ?_, ?_, ?_, ?_, ?_⟩
  · exact givesLanes_elemwise (show exec (.vand o) s = execVand o s from rfl) (fun _ => rfl)
  · exact givesLanes_elemwise (show exec (.vor o) s = execVor o s from rfl) (fun _ => rfl)
  · exact givesLanes_elemwise (show exec (.vxor o) s = execVxor o s from rfl) (fun _ => rfl)
  · exact givesLanes_elemwise (show exec (.vandn o) s = execVandn o s from rfl) (fun _ => rfl)
  · exact givesLanes_elemwise (show exec (.vnot o) s = execVnot o s from rfl) (fun _ => rfl)
  · exact givesLanes_elemwise (show exec (.vshl o) s = execVshl o s from rfl) (fun _ => by rw [shiftCount_eq, Nat.shiftLeft_eq])
  · exact givesLanes_elemwise (show exec (.vshr o) s = execVshr o s from rfl) (fun _ => by rw [shiftCount_eq, Nat.shiftRight_eq_div_pow])
  · exact givesLanes_elemwise hvsar (fun _ => by rw [shiftCount_eq])

end Sys2Proof.Machine

namespace Sys2Proof.Machine

/-! ## vcmp: a lane mask of n bits (R146) -/

/-- Bit k of a list of bits packed, each written as 0 or 1. -/
theorem getLsbD_packBits (p : Nat → Bool) (n : Nat) {k : Nat} (hk : k < 4096) :
    (BitVec.ofNat 4096 (packElems 1 ((upTo n).map (fun i => if p i then 1 else 0)))).getLsbD k = (decide (k < n) && p k) := by
  have helem := elemN_packElems 1 ((upTo n).map (fun i => if p i then 1 else 0)) k
  rw [elemN, natFld, Nat.mul_one] at helem
  rw [BitVec.getLsbD_ofNat, decide_eq_true hk, Bool.true_and, Nat.testBit_eq_decide_div_mod_eq, ← Nat.shiftRight_eq_div_pow]
  by_cases hn : k < n
  · rw [getD_map_range _ hn, pow_one] at helem
    rw [helem, decide_eq_true hn]
    cases p k <;> rfl
  · rw [List.getD_eq_default _ _ (by rw [List.length_map, List.length_range]; omega), pow_one] at helem
    rw [helem, decide_eq_false hn]
    rfl
/-- Bit k of the bits written: as selected below the lanes, all of them from there to bit 127. -/
theorem getLsbD_packWritten (m : List Bool) {k : Nat} (hk : k < 128) :
    (BitVec.ofNat 4096 (packMask 1 (m ++ List.replicate (128 - m.length) true))).getLsbD k = if k < m.length then m.getD k false else true := by
  rw [BitVec.getLsbD_ofNat, decide_eq_true (by omega), Bool.true_and, testBit_packMask Nat.one_pos, Nat.div_one]
  split
  case isTrue h => rw [List.getD_append _ _ _ _ h]
  case isFalse h => rw [List.getD_append_right _ _ _ _ (by omega), List.getD_replicate _ (by omega)]

/-- The lanes of vcmp that hold. -/
def State.vcmpBit (s : State) (o : VOp) (k : Nat) : Bool :=
  vcond o.ext.fmt (o.ext.imm16.extractLsb' 0 3).toNat (s.vSrc o 0 k) (s.vSrc o 1 k)
/-- vcmp gives its bits packed, and writes what the mask selects and all that lies past the lanes. -/
theorem vcmp_gives (o : VOp) (s : State) :
    s.gives (.vcmp o) o.slot.slot o.g (vMask o.slot (o.d.setWidth 3))
      (BitVec.ofNat 4096 (packElems 1 ((upTo (vLanes o)).map (fun k => if s.vcmpBit o k then 1 else 0))))
      (BitVec.ofNat 4096 (packMask 1 (s.vMaskBits o (vLanes o) ++ List.replicate (128 - (s.vMaskBits o (vLanes o)).length) true))) 2 0 := by
  show execVcmp o s = _
  simp only [execVcmp, natFld_toNat, length_vMaskBits]
  rfl

/-! ## Selection, moves, counts of mask bits, conversions (R147 to R150) -/

/-- Settles O19: vcmp bit by bit; the other forms as lists of elements. -/
theorem vectorCompareSelectConvert : Obligations.VectorCompareSelectConvert := by
  unfold Obligations.VectorCompareSelectConvert
  intro o s
  refine ⟨⟨_, _, vcmp_gives o s, fun k hk => ⟨fun hn => ⟨?_, ?_⟩, fun hn => ⟨?_, ?_⟩⟩⟩, ?vsel, ?vmov, ?vbcast, ?viota, ?vcvt, ?vpack, ?vunpack⟩
  · rw [getLsbD_packBits _ _ (by omega), decide_eq_true hn, Bool.true_and]
    rfl
  · rw [getLsbD_packWritten _ hk, length_vMaskBits, if_pos hn]
  · rw [getLsbD_packBits _ _ (by omega), decide_eq_false (Nat.not_lt.mpr hn), Bool.false_and]
  · rw [getLsbD_packWritten _ hk, length_vMaskBits, if_neg (Nat.not_lt.mpr hn)]
  case vsel => exact (show execVsel o s = _ from rfl)
  case vmov => exact givesLanes_elemwise (show exec (.vmov o) s = execVmov o s from rfl) (fun _ => rfl)
  case vbcast =>
    refine givesLanes_of_map (show exec (.vbcast o) s = execVbcast o s from rfl) ?_
    rw [natFld_toNat, List.map_const', List.length_range]
    rfl
  case viota =>
    have hviota : exec (.viota o) s = vWhole o s 2 (fun n _ _ => (upTo n).map (fun k =>
      wrapI o.ext.fmt (countBelow (s.rd o.slot.slot 5 (vMask o.slot (o.a.setWidth 3))).toNat k : Nat))) := rfl
    exact givesLanes_of_map hviota rfl
  case vcvt => exact (show execVcvt o s = _ from rfl)
  case vpack => exact (show execVpack o s = _ from rfl)
  case vunpack =>
    show execVunpack o s = _
    simp only [execVunpack, natFld_toNat]
    rfl

end Sys2Proof.Machine

namespace Sys2Proof.Machine

/-! ## The elements that a mask selects (R152) -/

theorem selected_cons (b : Bool) (m : List Bool) (x : Nat) (a : List Nat) :
    selected (b :: m) (x :: a) = if b then x :: selected m a else selected m a := by
  cases b <;> rfl
/-- As many are selected as the mask has ones among the elements. -/
theorem length_selected : ∀ (m : List Bool) (a : List Nat), (selected m a).length = ((m.take a.length).filter id).length
  | [], a => by cases a <;> rfl
  | _ :: _, [] => rfl
  | b :: m, x :: a => by
    have ih := length_selected m a
    rw [selected_cons, List.length_cons, List.take_succ_cons]
    cases b
    · exact ih
    · exact congrArg (· + 1) ih
/-- A selected element stands after as many as the mask selects below it. -/
theorem getD_selected : ∀ (m : List Bool) (a : List Nat) (k : Nat), k < a.length → m.getD k false = true →
    (selected m a).getD ((m.take k).filter id).length 0 = a.getD k 0
  | [], _, _, _, hm => absurd hm (by simp)
  | b :: m, x :: a, 0, _, hm => by
    rw [List.getD_cons_zero] at hm
    rw [selected_cons, if_pos hm]
    rfl
  | b :: m, x :: a, k + 1, hk, hm => by
    have ih := getD_selected m a k (by simpa using hk) (by simpa using hm)
    rw [selected_cons, List.take_succ_cons, List.getD_cons_succ]
    cases b
    · exact ih
    · exact ih

/-! ## Permutation and compaction (R151, R152) -/

/-- Settles O20: whole forms lane by lane, and compaction by the places of the selected elements. -/
theorem vectorPermutation : Obligations.VectorPermutation := by
  unfold Obligations.VectorPermutation
  intro o s n w a b m h p k0 below kept R
  have hlen := length_vElems s o.slot 0 o.a n w
  have hshuf : ∀ {q : Nat}, p = q → R (.vshuf o) (shufElem q n (s.vElems o.slot 0 o.a n w) (s.vElems o.slot 1 o.b n w)) := by
    rintro q rfl
    refine givesLanes_of_map (show exec (.vshuf o) s = execVshuf o s from rfl) ?_
    rw [natFld_toNat]
  refine ⟨?vperm, hshuf, hshuf, hshuf, hshuf, ?vslide, ?vcompress, ?count, ?place, ?vexpand⟩
  case vperm => exact givesLanes_of_map (show exec (.vperm o) s = execVperm o s from rfl) rfl
  case vslide =>
    refine givesLanes_of_map (show exec (.vslide o) s = execVslide o s from rfl) ?_
    dsimp only
    rw [natFld_toNat]
    rfl
  case vcompress => exact (show execVcompress o s = _ from rfl)
  case count => exact (length_selected m _).trans (by rw [hlen])
  case place => exact fun k hk hm => getD_selected m _ k (by rwa [hlen]) hm
  case vexpand => exact (show execVexpand o s = _ from rfl)

end Sys2Proof.Machine

namespace Sys2Proof.Machine

/-! ## Segments (R155) -/

/-- The segment of element k starts at the last head at or below it, or at element 0. -/
theorem segStart_spec (m : List Bool) : ∀ k, segStart m k ≤ k ∧ (m.getD (segStart m k) false = true ∨ segStart m k = 0) ∧
    ∀ j, segStart m k < j → j ≤ k → m.getD j false = false
  | 0 => ⟨Nat.le_refl 0, .inr rfl, fun j hlo hhi => absurd hlo (Nat.not_lt.mpr hhi)⟩
  | k + 1 => by
    obtain ⟨hle, hhead, hnone⟩ := segStart_spec m k
    rw [segStart]
    split
    case isTrue h => exact ⟨Nat.le_refl _, .inl h, fun j hlo hhi => absurd hlo (Nat.not_lt.mpr hhi)⟩
    case isFalse h =>
      refine ⟨Nat.le_succ_of_le hle, hhead, fun j hlo hhi => ?_⟩
      rcases Nat.le_succ_iff.mp hhi with hk | rfl
      · exact hnone j hlo hk
      · exact Bool.eq_false_of_not_eq_true h

/-! ## Reductions and scans (R153 to R155) -/

/-- Settles O21: reductions and scans are shared forms; segments start where segStart says. -/
theorem vectorReduceAndScan : Obligations.VectorReduceAndScan := by
  unfold Obligations.VectorReduceAndScan
  intro o s
  refine ⟨?_, ?_, ?_, ?_, ?_, segStart (s.vMaskBits o (vLanes o)), segStart_spec _, ?_⟩
  · exact (givesElems_reduce (show exec (.vredadd o) s = execVredadd o s from rfl) :)
  · exact (givesElems_reduce (show exec (.vredmax o) s = execVredmax o s from rfl) :)
  · exact (givesElems_reduce (show exec (.vredmin o) s = execVredmin o s from rfl) :)
  · exact (givesElems_scan (show exec (.vscanAdd o) s = execVscanAdd o s from rfl) :)
  · exact (givesElems_scan (show exec (.vscanMax o) s = execVscanMax o s from rfl) :)
  · exact (show execVsegscan o s = _ from rfl)

/-! ## Masks, copies and scale registers (R156, R157, R162, R206) -/

/-- Every part of a register packed from one value is that value. -/
theorem extract_packElems_const {w n : Nat} (hfit : n * w ≤ 4096) (v : BitVec w) {j : Nat} (hj : j < n) :
    (BitVec.ofNat 4096 (packElems w (List.replicate n v.toNat))).extractLsb' (w * j) w = v := by
  have helem : elemN (packElems w (List.replicate n v.toNat)) j w = v.toNat := by
    rw [elemN_packElems, List.getD_replicate _ hj, Nat.mod_eq_of_lt v.isLt]
  refine BitVec.eq_of_toNat_eq ?_
  rw [← natFld_toNat, toNat_ofNat_packElems (by rwa [List.length_replicate]), Nat.mul_comm]
  exact helem
/-- A file code names vector elements exactly when it is one of x, y, z and w. -/
theorem isVecFile_iff (fc : BitVec 4) : isVecFile fc = true ↔ fc = 2 ∨ fc = 3 ∨ fc = 4 ∨ fc = 5 := decide_eq_true_iff

section
variable (o : VOp) (s : State)

/-- A copy to a vector file is by element, under the mask. -/
theorem vcp_vector (h : isVecFile (o.ext.imm16.extractLsb' 0 4) = true) :
    exec (.vcp o) s = .next (if s.guard o.slot.slot o.g then
      landElems s (s.fileReg (o.ext.imm16.extractLsb' 0 4) o.d) (fmtBits o.ext.fmt) (s.vMaskBits o (vLanes o))
        ((s.vElems o.slot 0 o.a (vLanes o) (fmtBits o.ext.fmt)).map (fun v => (v, 0))) 3
      else s) := by
  show execVcp o s = _
  simp only [execVcp, guarded, if_pos h]
  rfl
/-- A copy to any other file is one 64-bit element. -/
theorem vcp_scalar (h : ¬ isVecFile (o.ext.imm16.extractLsb' 0 4) = true) :
    s.gives64 (.vcp o) o.slot.slot o.g (s.fileReg (o.ext.imm16.extractLsb' 0 4) o.d)
      (BitVec.ofNat 64 (elemN (s.rd o.slot.slot 0 (s.vReg o.slot o.a)).toNat (o.ext.imm16.extractLsb' 4 4).toNat 64)) 3 0 := by
  show execVcp o s = _
  simp only [execVcp, guarded, if_neg h, natFld_toNat]
  rfl
end

/-- Settles O22: by the file code for vcp, and part by part for kset. -/
theorem masksCopiesAndScales : Obligations.MasksCopiesAndScales := by
  unfold Obligations.MasksCopiesAndScales
  intro o c ks km s
  refine ⟨?mand, ?mor, ?mnot, ?mpopc, fun h => vcp_vector o s ((isVecFile_iff _).mpr h), fun h => vcp_scalar o s (mt (isVecFile_iff _).mp h),
    ?sfcp, ⟨_, ?kset, fun j hj => extract_packElems_const (by decide) ks.val hj⟩, ?kmov⟩
  case mand => exact gives_maskOp (show exec (.mand o) s = execMand o s from rfl)
  case mor => exact gives_maskOp (show exec (.mor o) s = execMor o s from rfl)
  case mnot => exact gives_maskOp (show exec (.mnot o) s = execMnot o s from rfl)
  case mpopc => exact (show execMpopc o s = _ from rfl)
  case sfcp => exact (show execSfcp c s = _ from rfl)
  case kset => exact (show execKset ks s = _ from rfl)
  case kmov => exact (show execKmov km s = _ from rfl)

end Sys2Proof.Machine

namespace Sys2Proof.Machine

/-! ## Special functions (R158 to R161) -/

/-- Element k of a source of an F form, in its format: 0 SA, 1 SB, 2 DST. -/
def State.fSrc (s : State) (o : FA) (pos : Nat) (r : BitVec 4) (k : Nat) : Nat :=
  (elemsOf (s.rd .f pos (.w r)).toNat (lanesOf o.w o.fmt) (fmtBits o.fmt)).getD k 0
/-- An F form lands every element at its latency, one cycle later in 1,024 bits. -/
def State.givesF (s : State) (i : Instr) (o : FA) (lat : Nat) (r : Nat → Nat → Nat → Nat × Flags) : Prop :=
  exec i s = .next (if s.guard .f o.g then
    landElems s (.w o.d) (fmtBits o.fmt) (List.replicate (lanesOf o.w o.fmt) true)
      ((upTo (lanesOf o.w o.fmt)).map (fun k => r (s.fSrc o 2 o.d k) (s.fSrc o 0 o.a k) (s.fSrc o 1 o.b k)))
      (if o.w = 2 then lat + 1 else lat) else s)
theorem givesF_elemwise {s : State} {i : Instr} {o : FA} {lat : Nat} {f : Nat → Nat → Nat → Nat × Flags} (h : exec i s = fElemwise o s lat f) :
    s.givesF i o lat f := h.trans (fElemwise_eq o s lat f)

/-- Settles O23: every form is elementwise over DST, SA and SB. -/
theorem specialFunctions : Obligations.SpecialFunctions := by
  unfold Obligations.SpecialFunctions
  intro o s
  refine ⟨?_, ?_, ?_, ?_, ?_, ?_, ?_, ?_, ?_, ?_, ?_, ?_, ?_⟩
  · exact (givesF_elemwise (show exec (.sfrcp o) s = execSfrcp o s from rfl) :)
  · exact (givesF_elemwise (show exec (.sfrsq o) s = execSfrsq o s from rfl) :)
  · exact (givesF_elemwise (show exec (.sfrcpr o) s = execSfrcpr o s from rfl) :)
  · exact (givesF_elemwise (show exec (.sfrsqr o) s = execSfrsqr o s from rfl) :)
  · exact (givesF_elemwise (show exec (.sfexp2 o) s = execSfexp2 o s from rfl) :)
  · exact (givesF_elemwise (show exec (.sflog2 o) s = execSflog2 o s from rfl) :)
  · exact (givesF_elemwise (show exec (.sfsin o) s = execSfsin o s from rfl) :)
  · exact (givesF_elemwise (show exec (.sfcos o) s = execSfcos o s from rfl) :)
  · exact (givesF_elemwise (show exec (.sftanh o) s = execSftanh o s from rfl) :)
  · exact (givesF_elemwise (show exec (.sfsigm o) s = execSfsigm o s from rfl) :)
  · exact (givesF_elemwise (show exec (.sferf o) s = execSferf o s from rfl) :)
  · exact (givesF_elemwise (show exec (.sfsqrt o) s = execSfsqrt o s from rfl) :)
  · exact (givesF_elemwise (show exec (.sfdiv o) s = execSfdiv o s from rfl) :)

end Sys2Proof.Machine

namespace Sys2Proof.Machine

/-! ## Writes one after another (R168, R254) -/

/-- A write covers a key. -/
def covers (q : Nat × List Byte) (x : Nat) : Prop := q.1 ≤ x ∧ x < q.1 + q.2.length
/-- The byte that a write leaves at a key. -/
def byteAt (q : Nat × List Byte) (x : Nat) : Byte := q.2.getD (x - q.1) 0
/-- Memory after writes in order. -/
def memPuts (m : List Host.Cell) (ws : List (Nat × List Byte)) : List Host.Cell := ws.foldl (fun m q => memPut m q.1 q.2) m

theorem memGet_put_covered {m : List Host.Cell} (hwf : Memory.wf m = true) {q : Nat × List Byte} {x : Nat} (h : covers q x) :
    memGet (memPut m q.1 q.2) x = byteAt q x := (memGet_memPut q.2 m q.1 x hwf).trans (if_pos h)
theorem memGet_put_apart {m : List Host.Cell} (hwf : Memory.wf m = true) {q : Nat × List Byte} {x : Nat} (h : ¬ covers q x) :
    memGet (memPut m q.1 q.2) x = memGet m x := (memGet_memPut q.2 m q.1 x hwf).trans (if_neg h)

theorem wf_memPuts : ∀ (ws : List (Nat × List Byte)) {m : List Host.Cell}, Memory.wf m = true → Memory.wf (memPuts m ws) = true
  | [], _, h => h
  | q :: r, _, h => wf_memPuts r (wf_memPut q.2 _ q.1 h)
theorem memGet_memPuts_apart {x : Nat} : ∀ {ws : List (Nat × List Byte)} {m : List Host.Cell}, Memory.wf m = true →
    (∀ q ∈ ws, ¬ covers q x) → memGet (memPuts m ws) x = memGet m x
  | [], _, _, _ => rfl
  | q :: r, m, hwf, h => by
    obtain ⟨hq, hr⟩ := List.forall_mem_cons.mp h
    exact (memGet_memPuts_apart (wf_memPut q.2 m q.1 hwf) hr).trans (memGet_put_apart hwf hq)
/-- The last write that covers a key is the one that is read there. -/
theorem memGet_memPuts_last {m : List Host.Cell} (hwf : Memory.wf m = true) {pre post : List (Nat × List Byte)} {q : Nat × List Byte} {x : Nat}
    (hq : covers q x) (hpost : ∀ r ∈ post, ¬ covers r x) : memGet (memPuts m (pre ++ q :: post)) x = byteAt q x := by
  have hpre := wf_memPuts pre hwf
  rw [memPuts, List.foldl_append, List.foldl_cons]
  exact (memGet_memPuts_apart (wf_memPut q.2 _ q.1 hpre) hpost).trans (memGet_put_covered hpre hq)
/-- Writes that agree at a key that one of them covers. -/
theorem memGet_memPuts_agree {x : Nat} {v : Byte} : ∀ {ws : List (Nat × List Byte)} {m : List Host.Cell}, Memory.wf m = true →
    (∃ q ∈ ws, covers q x) → (∀ q ∈ ws, covers q x → byteAt q x = v) → memGet (memPuts m ws) x = v
  | [], _, _, h, _ => by obtain ⟨_, hq, _⟩ := h; cases hq
  | q :: r, m, hwf, h, hv => by
    obtain ⟨hvq, hvr⟩ := List.forall_mem_cons.mp hv
    by_cases hr : ∃ p ∈ r, covers p x
    · exact memGet_memPuts_agree (ws := r) (m := memPut m q.1 q.2) (wf_memPut q.2 m q.1 hwf) hr hvr
    · have hapart : ∀ p ∈ r, ¬ covers p x := fun p hp hc => hr ⟨p, hp, hc⟩
      have hq : covers q x := by
        obtain ⟨p, hp, hc⟩ := h
        rcases List.mem_cons.mp hp with rfl | hp
        · exact hc
        · exact absurd hc (hapart p hp)
      exact (memGet_memPuts_last hwf (pre := []) hq hapart).trans (hvq hq)

/-! ## The 64-byte pieces of an access (R254) -/

/-- A piece lies within the access, and within one block of 64 bytes. -/
theorem mem_piecesOf {k n : Nat} {r : Nat × Nat} (h : r ∈ piecesOf k n) :
    0 < r.2 ∧ r.1 + r.2 ≤ n ∧ ∀ i, r.1 ≤ i → i < r.1 + r.2 → (k + r.1) / 64 = (k + i) / 64 := by
  unfold piecesOf at h
  split at h
  · cases h
  · obtain ⟨i, hi, rfl⟩ := List.mem_map.mp h
    have hi := List.mem_range.mp hi
    refine ⟨?_, ?_, fun j hj hj' => ?_⟩ <;> dsimp only at * <;> omega
/-- Every byte of an access lies in a piece. -/
theorem exists_piece {k n j : Nat} (h : j < n) : ∃ r ∈ piecesOf k n, r.1 ≤ j ∧ j < r.1 + r.2 := by
  have hn : n ≠ 0 := by omega
  refine ⟨_, by rw [piecesOf, if_neg hn]; exact List.mem_map.mpr ⟨(k + j) / 64 - k / 64, List.mem_range.mpr (by omega), rfl⟩, ?_, ?_⟩
  all_goals dsimp only; omega
/-- An access within one block of 64 bytes is one piece. -/
theorem piecesOf_one {k n : Nat} (hn : 0 < n) (h : (k + n - 1) / 64 = k / 64) : piecesOf k n = [(0, n)] := by
  rw [piecesOf, if_neg (by omega), h, Nat.sub_self, zero_add]
  simp only [upTo, List.range_one, List.map_cons, List.map_nil]
  congr 2 <;> omega
/-- An aligned access of at most 64 bytes, a power of two, lies in one block. -/
theorem piecesOf_aligned {k n : Nat} (hn : 0 < n) (h64 : n ∣ 64) (hk : n ∣ k) : piecesOf k n = [(0, n)] := by
  refine piecesOf_one hn ?_
  obtain ⟨c, hc⟩ := h64
  obtain ⟨d, rfl⟩ := hk
  have hpos : 0 < c := Nat.pos_of_ne_zero (by rintro rfl; omega)
  rw [hc, ← Nat.div_div_eq_div_mul, ← Nat.div_div_eq_div_mul, Nat.mul_div_cancel_left d hn]
  congr 1
  refine Nat.div_eq_of_lt_le ?_ ?_
  · rw [mul_comm]; omega
  · rw [add_mul, one_mul, mul_comm]; omega

theorem splitWrites_cons (q : Nat × List Byte) (r : List (Nat × List Byte)) : splitWrites (q :: r) =
    (piecesOf q.1 q.2.length).map (fun p => (q.1 + p.1, (q.2.drop p.1).take p.2)) ++ splitWrites r := List.flatMap_cons
theorem splitWrites_one (q : Nat × List Byte) : splitWrites [q] =
    (piecesOf q.1 q.2.length).map (fun p => (q.1 + p.1, (q.2.drop p.1).take p.2)) := by
  rw [splitWrites_cons, splitWrites, List.flatMap_nil, List.append_nil]
/-- A piece of a write leaves the write's own bytes, in one block of 64 bytes. -/
theorem mem_splitWrites {ws : List (Nat × List Byte)} {p : Nat × List Byte} (h : p ∈ splitWrites ws) :
    ∃ q ∈ ws, ∀ x, covers p x → covers q x ∧ byteAt p x = byteAt q x ∧ p.1 / 64 = x / 64 := by
  obtain ⟨q, hq, hp⟩ := List.mem_flatMap.mp h
  obtain ⟨r, hr, rfl⟩ := List.mem_map.mp hp
  obtain ⟨_, hfit, hblock⟩ := mem_piecesOf hr
  refine ⟨q, hq, fun x hx => ?_⟩
  obtain ⟨hlo, hhi⟩ := hx
  simp only [List.length_take, List.length_drop] at hlo hhi
  obtain ⟨i, rfl⟩ := Nat.exists_eq_add_of_le (show q.1 ≤ x by omega)
  refine ⟨⟨by omega, by omega⟩, ?_, hblock i (by omega) (by omega)⟩
  rw [byteAt, byteAt, List.getD_eq_getElem?_getD, List.getD_eq_getElem?_getD, List.getElem?_take, if_pos (by omega), List.getElem?_drop]
  congr 2
  omega
/-- The pieces of a write cover what it covers. -/
theorem splitWrites_covers {ws : List (Nat × List Byte)} {q : Nat × List Byte} (hq : q ∈ ws) {x : Nat} (h : covers q x) :
    ∃ p ∈ splitWrites ws, covers p x := by
  obtain ⟨hlo, hhi⟩ := h
  obtain ⟨r, hr, hr1, hr2⟩ := exists_piece (k := q.1) (show x - q.1 < q.2.length by omega)
  obtain ⟨_, hfit, _⟩ := mem_piecesOf hr
  refine ⟨_, List.mem_flatMap.mpr ⟨q, hq, List.mem_map.mpr ⟨r, hr, rfl⟩⟩, ?_, ?_⟩
  · dsimp only; omega
  · simp only [List.length_take, List.length_drop]; omega
/-- Writes that each lie in one block are their own pieces. -/
theorem splitWrites_whole : ∀ {ws : List (Nat × List Byte)}, (∀ q ∈ ws, piecesOf q.1 q.2.length = [(0, q.2.length)]) → splitWrites ws = ws
  | [], _ => rfl
  | q :: r, h => by
    obtain ⟨hq, hr⟩ := List.forall_mem_cons.mp h
    rw [splitWrites_cons, hq, splitWrites_whole hr, List.map_singleton, List.drop_zero, List.take_length, Nat.add_zero, List.singleton_append]

/-! ## Pieces that are left for later (R254, log 40) -/

section
variable {free : Nat} {ws : List (Nat × List Byte)}

/-- Some piece that is left lies in the block of an address. -/
def leftAt (free : Nat) (ws : List (Nat × List Byte)) (x : Nat) : Bool := (laterPieces free ws).any (fun q => q.1 / 64 = x / 64)
/-- The writes of a store that are performed at once. -/
def writesNow (free : Nat) (ws : List (Nat × List Byte)) : List (Nat × List Byte) :=
  if laterPieces free ws = [] then ws else (splitWrites ws).filter (fun q => !(laterPieces free ws).contains q)

theorem leftAt_of_none (h : laterPieces free ws = []) (x : Nat) : leftAt free ws x = false := by rw [leftAt, h]; rfl
/-- What is left is chosen block by block. -/
theorem mem_laterPieces_of_block {p q : Nat × List Byte} (hp : p ∈ laterPieces free ws) (hq : q ∈ splitWrites ws) (h : p.1 / 64 = q.1 / 64) :
    q ∈ laterPieces free ws := by
  unfold laterPieces at hp ⊢
  dsimp only at hp ⊢
  split at hp
  · cases hp
  · next hc =>
    rw [if_neg hc]
    refine List.mem_filter.mpr ⟨hq, ?_⟩
    rw [← h]
    exact (List.mem_filter.mp hp).2
theorem leftAt_iff {p : Nat × List Byte} (hp : p ∈ splitWrites ws) {x : Nat} (h : p.1 / 64 = x / 64) :
    leftAt free ws x = true ↔ p ∈ laterPieces free ws := by
  constructor
  · intro hl
    obtain ⟨q, hq, hqx⟩ := List.any_eq_true.mp hl
    exact mem_laterPieces_of_block hq hp ((of_decide_eq_true hqx).trans h.symm)
  · exact fun hl => List.any_eq_true.mpr ⟨p, hl, decide_eq_true h⟩
/-- What is performed at once is some write's own bytes, in a block of which nothing is left. -/
theorem mem_writesNow {p : Nat × List Byte} (hp : p ∈ writesNow free ws) {x : Nat} (hx : covers p x) :
    leftAt free ws x = false ∧ ∃ q ∈ ws, covers q x ∧ byteAt p x = byteAt q x := by
  unfold writesNow at hp
  split at hp
  · next hnone => exact ⟨leftAt_of_none hnone x, p, hp, hx, rfl⟩
  · obtain ⟨hsplit, hkept⟩ := List.mem_filter.mp hp
    obtain ⟨q, hq, hpiece⟩ := mem_splitWrites hsplit
    obtain ⟨hcov, hbyte, hblock⟩ := hpiece x hx
    refine ⟨Bool.eq_false_iff.mpr (fun hl => ?_), q, hq, hcov, hbyte⟩
    rw [List.contains_iff_mem.mpr ((leftAt_iff hsplit hblock).mp hl)] at hkept
    cases hkept
/-- Where nothing is left, what a write covers is performed at once. -/
theorem writesNow_covers {q : Nat × List Byte} (hq : q ∈ ws) {x : Nat} (hx : covers q x) (hl : leftAt free ws x = false) :
    ∃ p ∈ writesNow free ws, covers p x := by
  unfold writesNow
  split
  · exact ⟨q, hq, hx⟩
  · obtain ⟨p, hp, hcov⟩ := splitWrites_covers hq hx
    obtain ⟨_, _, hpiece⟩ := mem_splitWrites hp
    refine ⟨p, List.mem_filter.mpr ⟨hp, ?_⟩, hcov⟩
    rw [Bool.not_eq_true', Bool.eq_false_iff]
    intro hc
    rw [(leftAt_iff hp (hpiece x hcov).2.2).mpr (List.contains_iff_mem.mp hc)] at hl
    cases hl
/-- Of writes that each lie in one block, those of the blocks that are left are not performed at once. -/
theorem writesNow_whole (h : ∀ q ∈ ws, piecesOf q.1 q.2.length = [(0, q.2.length)]) : writesNow free ws = ws.filter (fun q => !leftAt free ws q.1) := by
  have hsplit := splitWrites_whole h
  unfold writesNow
  split
  · next hnone => exact (List.filter_eq_self.mpr (fun q _ => by rw [leftAt_of_none hnone]; rfl)).symm
  · rw [hsplit]
    refine List.filter_congr (fun q hq => congrArg _ ?_)
    rw [Bool.eq_iff_iff, List.contains_iff_mem]
    exact (leftAt_iff (hsplit.symm ▸ hq) rfl).symm
end

/-! ## Writes in a core's pool (R239) -/

theorem poolKey_add (c : CoreId) (a k : Nat) : poolKey c (a + k) = poolKey c a + k := by unfold poolKey keyAt; omega
theorem pokeAll_mem (c : CoreId) : ∀ (ws : List (Nat × List Byte)) (s : State), (pokeAll s c ws).mem = memPuts s.mem (ws.map (fun q => (poolKey c q.1, q.2)))
  | [], _ => rfl
  | q :: r, s => pokeAll_mem c r (s.poke (poolKey c q.1) q.2)
theorem covers_poolKey {c : CoreId} {q : Nat × List Byte} {x : Nat} : covers (poolKey c q.1, q.2) (poolKey c x) ↔ covers q x := by
  unfold covers poolKey keyAt
  dsimp only
  omega
theorem byteAt_poolKey (c : CoreId) (q : Nat × List Byte) (x : Nat) : byteAt (poolKey c q.1, q.2) (poolKey c x) = byteAt q x := by
  unfold byteAt poolKey keyAt
  dsimp only
  congr 1
  omega
/-- A key that a write in a pool covers is one of that pool. -/
theorem exists_poolKey {c : CoreId} {q : Nat × List Byte} {x : Nat} (h : covers (poolKey c q.1, q.2) x) : ∃ y, x = poolKey c y ∧ covers q y := by
  obtain ⟨k, rfl⟩ := Nat.exists_eq_add_of_le h.1
  have hkey : (poolKey c q.1, q.2).1 + k = poolKey c (q.1 + k) := (poolKey_add c q.1 k).symm
  rw [hkey] at h ⊢
  exact ⟨_, rfl, covers_poolKey.mp h⟩

section
variable {s : State} (hwf : Memory.wf s.mem = true) {c : CoreId} {ws : List (Nat × List Byte)}
include hwf

theorem memGet_pokeAll_apart {x : Nat} (h : ∀ q ∈ ws, ¬ covers (poolKey c q.1, q.2) x) : memGet (pokeAll s c ws).mem x = memGet s.mem x := by
  rw [pokeAll_mem]
  refine memGet_memPuts_apart hwf (fun q hq => ?_)
  obtain ⟨p, hp, rfl⟩ := List.mem_map.mp hq
  exact h p hp
theorem memGet_pokeAll_agree {x : Nat} {v : Byte} (h : ∃ q ∈ ws, covers q x) (hv : ∀ q ∈ ws, covers q x → byteAt q x = v) :
    memGet (pokeAll s c ws).mem (poolKey c x) = v := by
  rw [pokeAll_mem]
  obtain ⟨q, hq, hx⟩ := h
  refine memGet_memPuts_agree hwf ⟨_, List.mem_map.mpr ⟨q, hq, rfl⟩, covers_poolKey.mpr hx⟩ (fun r hr hc => ?_)
  obtain ⟨p, hp, rfl⟩ := List.mem_map.mp hr
  exact (byteAt_poolKey c p x).trans (hv p hp (covers_poolKey.mp hc))
theorem memGet_pokeAll_last {pre post : List (Nat × List Byte)} {q : Nat × List Byte} {x : Nat} (hq : covers q x) (hpost : ∀ r ∈ post, ¬ covers r x) :
    memGet (pokeAll s c (pre ++ q :: post)).mem (poolKey c x) = byteAt q x := by
  rw [pokeAll_mem, List.map_append, List.map_cons]
  refine (memGet_memPuts_last hwf (covers_poolKey.mpr hq) (fun r hr => ?_)).trans (byteAt_poolKey c q x)
  obtain ⟨p, hp, rfl⟩ := List.mem_map.mp hr
  exact fun hc => hpost p hp (covers_poolKey.mp hc)

/-- A byte outside all writes of a store stays as it was. -/
theorem memGet_writesNow_apart (free : Nat) {x : Nat} (h : ∀ q ∈ ws, ¬ covers (poolKey c q.1, q.2) x) :
    memGet (pokeAll s c (writesNow free ws)).mem x = memGet s.mem x := by
  refine memGet_pokeAll_apart hwf (fun p hp hc => ?_)
  obtain ⟨y, rfl, hy⟩ := exists_poolKey hc
  obtain ⟨_, q, hq, hcov, _⟩ := mem_writesNow hp hy
  exact h q hq (covers_poolKey.mpr hcov)
/-- So does one in a block that is left for later. -/
theorem memGet_writesNow_left {free : Nat} {x : Nat} (h : leftAt free ws x = true) :
    memGet (pokeAll s c (writesNow free ws)).mem (poolKey c x) = memGet s.mem (poolKey c x) := by
  refine memGet_pokeAll_apart hwf (fun p hp hc => ?_)
  have hl := (mem_writesNow hp (covers_poolKey.mp hc)).1
  rw [h] at hl
  cases hl
/-- What one write of a store leaves: its bytes, but for the blocks that are left for later. -/
theorem memGet_writesNow_one (free : Nat) (q : Nat × List Byte) {x : Nat} (hx : covers q x) :
    memGet (pokeAll s c (writesNow free [q])).mem (poolKey c x) = if leftAt free [q] x then memGet s.mem (poolKey c x) else byteAt q x := by
  split
  case isTrue hl => exact memGet_writesNow_left hwf hl
  case isFalse hl =>
    refine memGet_pokeAll_agree hwf (writesNow_covers (List.mem_singleton_self q) hx (Bool.eq_false_iff.mpr hl)) (fun p hp hc => ?_)
    obtain ⟨_, r, hr, _, hbyte⟩ := mem_writesNow hp hc
    rw [hbyte, List.mem_singleton.mp hr]
end

end Sys2Proof.Machine

namespace Sys2Proof.Machine

/-! ## What comes before an access's packet (R249) -/

/-- t is s but for the clamped operations that its acting context has counted. -/
def clampOnly (s t : State) : Prop :=
  t = { s with ctxs := t.ctxs } ∧ ∃ b k, t.cur = { s.cur with csr := { s.cur.csr with scopeClamp := b, memClamps := k } }

theorem clampOnly_refl (s : State) : clampOnly s s := ⟨rfl, _, _, rfl⟩
theorem clampCount_clampOnly (s : State) (ord : Bool) (sc : BitVec 3) : clampOnly s (clampCount s ord sc) := by
  unfold clampCount
  split
  · exact ⟨rfl, _, _, State.cur_upd _ _⟩
  · exact clampOnly_refl s
/-- The clamp that an access with an extension counts. -/
def extClamp (x : Option MExt) (s : State) : State := x.elim s (fun e => clampCount s (e.ord ≠ 0) e.scope)
theorem extClamp_clampOnly (x : Option MExt) (s : State) : clampOnly s (extClamp x s) := by
  cases x with
  | none => exact clampOnly_refl s
  | some e => exact clampCount_clampOnly s _ _
theorem daClamp_eq (o : DA) (s : State) : daClamp o s = extClamp o.x s := by unfold daClamp; cases o.x <;> rfl
theorem dtClamp_eq (o : DT) (s : State) : dtClamp o s = extClamp o.x s := by unfold dtClamp; cases o.x <;> rfl
theorem daClamp_clampOnly (o : DA) (s : State) : clampOnly s (daClamp o s) := daClamp_eq o s ▸ extClamp_clampOnly o.x s
theorem dtClamp_clampOnly (o : DT) (s : State) : clampOnly s (dtClamp o s) := dtClamp_eq o s ▸ extClamp_clampOnly o.x s

/-- What an operation leaves alone before its packets stand: memory, packets, numbers, and the results of the acting context. -/
structure Prepared (s u : State) : Prop where
  mem : u.mem = s.mem
  pkts : u.pkts = s.pkts
  sel : u.sel = s.sel
  nextId : u.nextId = s.nextId
  free : u.free = s.free
  regs : u.cur.regs = s.cur.regs
  flight : u.cur.flight = s.cur.flight

theorem Prepared.trans {s t u : State} (h : Prepared s t) (h' : Prepared t u) : Prepared s u where
  mem := h'.mem.trans h.mem
  pkts := h'.pkts.trans h.pkts
  sel := h'.sel.trans h.sel
  nextId := h'.nextId.trans h.nextId
  free := h'.free.trans h.free
  regs := h'.regs.trans h.regs
  flight := h'.flight.trans h.flight
theorem Prepared.poolIdle {s u : State} (h : Prepared s u) (hidle : s.poolIdle) : u.poolIdle := by
  intro p hp
  rw [h.pkts] at hp
  exact hidle p hp
theorem clampOnly.prepared {s t : State} (h : clampOnly s t) : Prepared s t := by
  obtain ⟨heq, b, k, hcur⟩ := h
  exact ⟨by rw [heq], by rw [heq], by rw [heq], by rw [heq], by rw [heq], by rw [hcur], by rw [hcur]⟩
theorem prepared_upd (s : State) {f : Ctx → Ctx} (hregs : (f s.cur).regs = s.cur.regs) (hflight : (f s.cur).flight = s.cur.flight) :
    Prepared s (s.upd f) := ⟨rfl, rfl, rfl, rfl, rfl, by rw [State.cur_upd, hregs], by rw [State.cur_upd, hflight]⟩
theorem setBusy_prepared (s : State) (e : Elem) (id : Nat) (core : Bool) : Prepared s (setBusy s e id core) := prepared_upd s rfl rfl
theorem takeWindow_prepared (s : State) (n : Nat) : Prepared s (takeWindow s n) := prepared_upd s rfl rfl

/-! ## The packet of an access (R179, R183, R282) -/

/-- q is the packet p, further on its way: numbered in its flow, and at another stage. -/
def Pkt.onItsWay (p q : Pkt) : Prop := q = { p with stage := q.stage, since := q.since, seq := q.seq, ords := q.ords }

theorem Pkt.onItsWay.trans {p q r : Pkt} (h : p.onItsWay q) (h' : q.onItsWay r) : p.onItsWay r := by
  unfold Pkt.onItsWay at h h' ⊢
  rw [h', h]
theorem Pkt.onItsWay.op {p q : Pkt} (h : p.onItsWay q) : q.op = p.op := by rw [h]
theorem Pkt.onItsWay.isPool {p q : Pkt} (h : p.onItsWay q) : q.isPool = p.isPool := by rw [Pkt.isPool, Pkt.isPool, h.op]

/-- With no store to a scratchpad held back, settling only moves packets on. -/
theorem settle_pkts_idle {s : State} (h : s.poolIdle) : ∃ f : Pkt → Pkt, (∀ p : Pkt, p.onItsWay (f p)) ∧ s.settle.pkts = s.pkts.map f := by
  rw [State.settle, settlePools_idle h]
  refine ⟨fun p => if p.stage = Stage.core ∧ !p.isPool ∧ s.mayLeave p then { p with stage := .router, since := s.now } else p, fun p => ?_, rfl⟩
  dsimp only
  split <;> rfl
theorem onItsWay_settle {s : State} (h : s.poolIdle) {p : Pkt} (hp : p ∈ s.pkts) : ∃ q ∈ s.settle.pkts, p.onItsWay q := by
  obtain ⟨f, hf, hpkts⟩ := settle_pkts_idle h
  exact ⟨f p, hpkts ▸ List.mem_map_of_mem hp, hf p⟩
theorem length_settle_idle {s : State} (h : s.poolIdle) : s.settle.pkts.length = s.pkts.length := by
  obtain ⟨f, _, hpkts⟩ := settle_pkts_idle h
  rw [hpkts, List.length_map]
theorem settle_cur (s : State) : s.settle.cur = s.cur := by rw [State.cur, settle_sel, settle_ctx]; rfl

/-- An access that issues adds its packet, last of all. -/
theorem issuePkt_pkts (s : State) (p : Pkt) (held : Bool) : ∃ q, p.onItsWay q ∧ (issuePkt s p held).pkts = s.pkts ++ [q] := by
  unfold issuePkt
  dsimp only
  split
  · exact ⟨{ p with stage := .buffered }, rfl, rfl⟩
  · exact ⟨(numberPkt _ p).2, rfl, rfl⟩
theorem issuePkt_mem (s : State) (p : Pkt) (held : Bool) : (issuePkt s p held).mem = s.mem := by unfold issuePkt; dsimp only; split <;> rfl
theorem issuePkt_sel (s : State) (p : Pkt) (held : Bool) : (issuePkt s p held).sel = s.sel := by unfold issuePkt; dsimp only; split <;> rfl
theorem issuePkt_xfers (s : State) (p : Pkt) (held : Bool) : (issuePkt s p held).xfers = s.xfers := by unfold issuePkt; dsimp only; split <;> rfl
theorem numberPkt_cur {s : State} {p : Pkt} (hwho : p.who = s.sel.who) :
    ∃ a b, (numberPkt s p).1.cur = { s.cur with seqs := a, ords := b } := by
  rw [numberPkt, hwho]
  exact ⟨_, _, cur_updCtx_who s _⟩
/-- Of its context it fixes what earlier loads have read, and numbers the packet in its flow. -/
theorem issuePkt_cur {s : State} {p : Pkt} (hwho : p.who = s.sel.who) (held : Bool) :
    ∃ a b, (issuePkt s p held).cur = { s.cur.fixLoads with seqs := a, ords := b } := by
  have hfix : (s.fresh.upd Ctx.fixLoads).cur = s.cur.fixLoads := State.cur_upd s.fresh _
  unfold issuePkt
  dsimp only
  split
  · exact ⟨_, _, hfix⟩
  · obtain ⟨a, b, hcur⟩ := numberPkt_cur (s := s.fresh.upd Ctx.fixLoads) hwho
    exact ⟨a, b, hcur.trans (by rw [hfix])⟩

/-- What an access that goes out leaves: its packet is there, and its context has only numbered it. -/
theorem access_goes {s u : State} (hu : Prepared s u) (hidle : s.poolIdle) {p : Pkt} (hpool : p.isPool = false) (hwho : p.who = s.sel.who)
    (held : Bool) : let t := (issuePkt u p held).settle
    t.mem = s.mem ∧ t.cur.regs = s.cur.regs ∧ t.cur.flight = s.cur.fixLoads.flight ∧ t.cur.busy = u.cur.busy ∧ t.cur.csr = u.cur.csr ∧
      t.pkts.length = s.pkts.length + 1 ∧ ∃ q ∈ t.pkts, p.onItsWay q := by
  intro t
  obtain ⟨q, hq, hpkts⟩ := issuePkt_pkts u p held
  obtain ⟨a, b, hcur⟩ := issuePkt_cur (hwho.trans (congrArg Sel.who hu.sel.symm)) held
  have hsettled : (issuePkt u p held).poolIdle := poolIdle_append (hu.poolIdle hidle) (hq.isPool.trans hpool) hpkts
  have hctx : t.cur = { u.cur.fixLoads with seqs := a, ords := b } := (settle_cur _).trans hcur
  obtain ⟨r, hr, hqr⟩ := onItsWay_settle hsettled (hpkts ▸ List.mem_append_right _ (List.mem_singleton_self q))
  refine ⟨?_, ?_, ?_, ?_, ?_, ?_, r, hr, hq.trans hqr⟩
  · rw [settle_mem_idle hsettled, issuePkt_mem, hu.mem]
  · rw [hctx]; exact hu.regs
  · rw [hctx]; exact congrArg (List.map _) hu.flight
  · rw [hctx]; rfl
  · rw [hctx]; rfl
  · rw [length_settle_idle hsettled, hpkts, List.length_append, hu.pkts]; rfl

end Sys2Proof.Machine

namespace Sys2Proof.Machine

/-! ## An operation that may fault (R166) -/

section
variable {s : State} {i : Instr} {sl : Slot} {g : Guard} {flt : Option TrapArgs} {f : State → State}
  (h : exec i s = guardedFault sl g s flt f) (hg : s.guard sl g = true)
include h hg
theorem exec_faults {a : TrapArgs} (hflt : flt = some a) : exec i s = .next (raiseTrap s a) := by rw [h, hflt, guardedFault_trap sl g s a f hg]
theorem exec_acts (hflt : flt = none) : exec i s = .next (f s) := by rw [h, hflt, guardedFault_ok sl g s f hg]
end

/-! ## Operands of a state whose contexts alone differ (R31, R116) -/

section
variable {s u : State} (heq : u = { s with ctxs := u.ctxs }) (hregs : u.cur.regs = s.cur.regs) (hflight : u.cur.flight = s.cur.flight)
include heq hregs hflight
theorem rd_of_ctxs (sl : Slot) (pos : Nat) (d : Dest) : u.rd sl pos d = s.rd sl pos d := by
  have ht : u.t = s.t := by rw [heq]; rfl
  have hfree : u.free = s.free := by rw [heq]
  rw [State.rd, State.rd, readView, readView, hregs, hflight, ht, hfree]
theorem fileReg_of_ctxs (fc : BitVec 4) (n : BitVec 5) : u.fileReg fc n = s.fileReg fc n := by
  have ht : u.t = s.t := by rw [heq]; rfl
  have hfree : u.free = s.free := by rw [heq]
  simp only [State.fileReg, State.rb, hregs, hflight, ht, hfree]
theorem daSrc_of_ctxs (o : DA) : u.daSrc o = s.daSrc o := by
  rw [State.daSrc, State.daSrc, fileReg_of_ctxs heq hregs hflight, rd_of_ctxs heq hregs hflight]
end

/-! ## Window stores (R164, R170, R242, R296) -/

theorem takeWindow_winAvail (s : State) (n : Nat) {k : Nat} (hk : k < 16) : (takeWindow s n).cur.csr.winAvail.toList.getD k 0 =
    if k = n then s.cur.csr.winAvail.toList.getD k 0 - 1 else s.cur.csr.winAvail.toList.getD k 0 := by
  rw [takeWindow, State.cur_upd]
  simp [hk]

section
variable {o : DA} {s : State} (hwin : isWindow (s.eaDA o (daW o)) = true)
include hwin
theorem stvFault_window : stvFault o s =
    if !(s.cur.winBinding (winOf (s.eaDA o (daW o)))).getLsbD 63 || s.cur.limit < winOff (s.eaDA o (daW o)) + daW o
    then some (s.rangeTrap o.slot.slot.index 1 (s.eaRaw o.slot o.base)) else none := if_pos hwin
theorem stvFault_window_none (hb : (s.cur.winBinding (winOf (s.eaDA o (daW o)))).getLsbD 63 = true)
    (hlim : winOff (s.eaDA o (daW o)) + daW o ≤ s.cur.limit) : stvFault o s = none := by
  rw [stvFault_window hwin, hb, decide_eq_false (Nat.not_lt.mpr hlim)]
  rfl
end

/-- The state from which a window store sends its packet: clamped, with one unit taken. -/
def State.windowTaken (s : State) (o : DA) (n : Nat) : State := takeWindow (daClamp o s) n
theorem windowTaken_prepared (o : DA) (s : State) (n : Nat) : Prepared s (s.windowTaken o n) :=
  (daClamp_clampOnly o s).prepared.trans (takeWindow_prepared _ n)
/-- A window store addresses the place that its window names in the state it issues from. -/
theorem windowTaken_target (o : DA) (s : State) (n a : Nat) : ((s.windowTaken o n).windowTarget a).1 = (s.windowTarget a).1 := by
  obtain ⟨_, b, k, hcur⟩ := daClamp_clampOnly o s
  have hbind : (s.windowTaken o n).cur.winBinding (winOf a) = s.cur.winBinding (winOf a) := by
    rw [State.windowTaken, takeWindow, State.cur_upd, hcur]
    rfl
  rw [State.windowTarget, State.windowTarget, hbind]
theorem windowTaken_daSrc (o : DA) (s : State) (n : Nat) : (s.windowTaken o n).daSrc o = s.daSrc o := by
  obtain ⟨heq, _⟩ := daClamp_clampOnly o s
  have hp := windowTaken_prepared o s n
  refine daSrc_of_ctxs ?_ hp.regs hp.flight o
  rw [State.windowTaken, takeWindow, heq]
  rfl
theorem windowTaken_winAvail (o : DA) (s : State) (n : Nat) {k : Nat} (hk : k < 16) : (s.windowTaken o n).cur.csr.winAvail.toList.getD k 0 =
    if k = n then s.cur.csr.winAvail.toList.getD k 0 - 1 else s.cur.csr.winAvail.toList.getD k 0 := by
  obtain ⟨_, b, v, hcur⟩ := daClamp_clampOnly o s
  rw [State.windowTaken, takeWindow_winAvail _ n hk, hcur]

/-- Settles O26: the fault, the block, and the packet that takes one unit. -/
theorem windowStores : Obligations.WindowStores := by
  unfold Obligations.WindowStores
  intro o s hg hidle w a n bound hwin
  have hexec : exec (.stv o) s = guardedFault o.slot.slot o.g s (stvFault o s) (fun s =>
      if isWindow (s.eaDA o (daW o)) then
        if s.cur.csr.winAvail.toList.getD (winOf (s.eaDA o (daW o))) 0 = 0 then blockOn s (.window (winOf (s.eaDA o (daW o))))
        else windowStore o s (s.eaDA o (daW o))
      else scratchStore o s [(s.eaDA o (daW o), bytesOf (s.daSrc o) (daW o))]) := rfl
  refine ⟨fun hbad => exec_faults hexec hg ?_, fun hb hlim havail => ?_, fun hb hlim havail => ?_⟩
  · refine (stvFault_window hwin).trans (if_pos ?_)
    rcases hbad with hb | hlim
    · rw [show (s.cur.winBinding (winOf (s.eaDA o (daW o)))).getLsbD 63 = false from hb]
      rfl
    · rw [Bool.or_eq_true]
      exact .inr (decide_eq_true hlim)
  · rw [exec_acts hexec hg (stvFault_window_none hwin hb hlim)]
    exact congrArg Host.Outcome.next ((if_pos hwin).trans (if_pos havail))
  · refine ⟨_, (exec_acts hexec hg (stvFault_window_none hwin hb hlim)).trans
      (congrArg Host.Outcome.next ((if_pos hwin).trans (if_neg havail))), ?_⟩
    have hp := windowTaken_prepared o s n
    obtain ⟨hmem, hregs, _, _, hcsr, hlen, q, hq, hway⟩ := access_goes hp hidle
      (p := { (s.windowTaken o n).mkPkt o.slot.slot o.x a ((s.windowTaken o n).windowTarget a) (.store (bytesOf ((s.windowTaken o n).daSrc o) w)) with
        win := some n, ea := (s.windowTaken o n).eaRaw o.slot o.base }) rfl (congrArg Sel.who hp.sel) true
    refine ⟨hmem, hregs, fun k hk => ?_, hlen, q, hq, ?_⟩
    · exact (congrArg (fun c : Csr => c.winAvail.toList.getD k 0) hcsr).trans (windowTaken_winAvail o s n hk)
    · rw [hway]
      exact ⟨hp.nextId, congrArg Sel.who hp.sel, rfl, congrArg (fun v => AccOp.store (bytesOf v w)) (windowTaken_daSrc o s n), windowTaken_target o s n a⟩

end Sys2Proof.Machine

namespace Sys2Proof.Machine

/-! ## Global loads, stores and atomics (R176, R177) -/

theorem setBusy_busy (s : State) (e : Elem) (id : Nat) (core : Bool) : (setBusy s e id core).cur.busy = s.cur.busy ++ [⟨e, id, core⟩] :=
  congrArg Ctx.busy (State.cur_upd s _)
theorem clampOnly.busy {s t : State} (h : clampOnly s t) : t.cur.busy = s.cur.busy := by
  obtain ⟨_, b, k, hcur⟩ := h
  rw [hcur]
/-- The state with a destination marked busy for the access to come. -/
theorem setBusy_of_clamp {s u : State} (h : clampOnly s u) (e : Elem) {id : Nat} (hid : id = s.nextId) : Prepared s (setBusy u e id false) ∧
    ⟨e, s.nextId, false⟩ ∈ (setBusy u e id false).cur.busy := by
  refine ⟨h.prepared.trans (setBusy_prepared u _ _ _), ?_⟩
  rw [setBusy_busy, hid]
  exact List.mem_append_right _ (List.mem_singleton_self _)

section
variable {s : State} {i : Instr} {sl : Slot} {g : Guard} {flt : Option TrapArgs} {f : State → State} {ea va : Nat} {op : AccOp}

/-- An access as the statement about global accesses has it: its fault in its place, else its packet and its busy bit. -/
def State.globalAccess (s : State) (i : Instr) (flt : Option TrapArgs) (ea va : Nat) (op : AccOp) (d : Option Dest) : Prop :=
  (∀ f, flt = some f → exec i s = .next (raiseTrap s f)) ∧
  (flt = none → ∃ t, exec i s = .next t ∧ t.mem = s.mem ∧ t.cur.regs = s.cur.regs ∧ t.cur.flight = s.cur.fixLoads.flight ∧
    t.pkts.length = s.pkts.length + 1 ∧ (∃ p ∈ t.pkts, p.id = s.nextId ∧ p.who = s.sel.who ∧ p.va = va ∧ p.ea = ea ∧ p.op = op) ∧
    (∀ r, d = some r → ⟨.reg r, s.nextId, false⟩ ∈ t.cur.busy) ∧ (d = none → t.cur.busy = s.cur.busy))

/-- An operation that sends a packet of its own from a prepared state is such an access. -/
theorem globalAccess_of_issue (h : exec i s = guardedFault sl g s flt f) (hg : s.guard sl g = true) (hidle : s.poolIdle) {u : State} {p : Pkt} {held : Bool}
    {d : Option Dest} (hf : f s = (issuePkt u p held).settle) (hu : Prepared s u) (hpool : p.isPool = false) (hid : p.id = s.nextId)
    (hwho : p.who = s.sel.who) (hbusy : ∀ r, d = some r → ⟨.reg r, s.nextId, false⟩ ∈ u.cur.busy) (hnone : d = none → u.cur.busy = s.cur.busy) :
    s.globalAccess i flt p.ea p.va p.op d := by
  refine ⟨fun a ha => exec_faults h hg ha, fun hnf => ⟨_, exec_acts h hg hnf, ?_⟩⟩
  obtain ⟨hmem, hregs, hflight, hb, _, hlen, q, hq, hway⟩ := access_goes hu hidle hpool hwho held
  rw [hf, hb]
  refine ⟨hmem, hregs, hflight, hlen, ⟨q, hq, ?_⟩, hbusy, hnone⟩
  rw [hway]
  exact ⟨hid, hwho, rfl, rfl, rfl⟩
end

theorem ldg_access (o : DA) {s : State} (hg : s.guard o.slot.slot o.g = true) (hidle : s.poolIdle) :
    s.globalAccess (.ldg o) (globalFault o s true false) (s.eaRaw o.slot o.base) (s.eaDA o (szBytes o.sz)) (.load (szBytes o.sz) (s.fileReg o.fc o.dreg))
      (some (s.fileReg o.fc o.dreg)) := by
  obtain ⟨hp, hbusy⟩ := setBusy_of_clamp (daClamp_clampOnly o s) (.reg (s.fileReg o.fc o.dreg)) rfl
  exact globalAccess_of_issue (show exec (.ldg o) s = execLdg o s from rfl) hg hidle rfl hp rfl rfl rfl
    (fun r hr => by cases hr; exact hbusy) (fun hr => by cases hr)
theorem stg_access (o : DA) {s : State} (hg : s.guard o.slot.slot o.g = true) (hidle : s.poolIdle) :
    s.globalAccess (.stg o) (globalFault o s false true) (s.eaRaw o.slot o.base) (s.eaDA o (szBytes o.sz)) (.store (bytesOf (s.daSrc o) (szBytes o.sz))) none :=
  globalAccess_of_issue (show exec (.stg o) s = execStg o s from rfl) hg hidle rfl (daClamp_clampOnly o s).prepared rfl rfl rfl
    (fun r hr => by cases hr) (fun _ => (daClamp_clampOnly o s).busy)
theorem atomicIssue_eq (m : DM) (f : Nat) (s : State) : atomicIssue m f s =
    (issuePkt (setBusy (extClamp m.x s) (.reg (s.fileReg m.fc m.dreg)) (extClamp m.x s).nextId false)
      { s.mkPkt m.slot.slot m.x (s.eaBase m.slot m.base (atomicSize m)) (s.targetOf (s.eaBase m.slot m.base (atomicSize m)))
          (.atomic f (atomicSize m) (s.rd64 m.slot.slot 1 (s.fileReg m.fc m.vreg))
            (s.rd64 m.slot.slot 2 (s.fileReg m.fc ((s.extOf m.x).step.extractLsb' 4 5))) (s.fileReg m.fc m.dreg)) with
        ea := (extClamp m.x s).eaReg m.slot m.base } true).settle := by
  unfold atomicIssue
  cases m.x <;> rfl
theorem clampOnly.eaReg {s t : State} (h : clampOnly s t) (sl : DSlot) (base : BitVec 4) : t.eaReg sl base = s.eaReg sl base := by
  have hp := h.prepared
  obtain ⟨heq, _⟩ := h
  rw [State.eaReg, State.rd64, rd_of_ctxs heq hp.regs hp.flight]
  rfl
/-- Every atomic issues one access, whatever its operation. -/
theorem atomic_access {m : DM} {i : Instr} {f : Nat} {s : State} (h : exec i s = atomicOp m f s) (hg : s.guard m.slot.slot m.g = true) (hidle : s.poolIdle) :
    s.globalAccess i (atomicFault m s) (s.eaReg m.slot m.base) (s.eaBase m.slot m.base (atomicSize m))
      (.atomic f (atomicSize m) (s.rd64 m.slot.slot 1 (s.fileReg m.fc m.vreg))
        (s.rd64 m.slot.slot 2 (s.fileReg m.fc ((s.extOf m.x).step.extractLsb' 4 5))) (s.fileReg m.fc m.dreg)) (some (s.fileReg m.fc m.dreg)) := by
  have hclamp := extClamp_clampOnly m.x s
  obtain ⟨hp, hbusy⟩ := setBusy_of_clamp hclamp (.reg (s.fileReg m.fc m.dreg)) hclamp.prepared.nextId
  rw [← hclamp.eaReg]
  exact globalAccess_of_issue h hg hidle (atomicIssue_eq m f s) hp rfl rfl rfl (fun r hr => by cases hr; exact hbusy) (fun hr => by cases hr)

/-! ## What an atomic writes (R177, R178) -/

theorem sInt_toNat {k : Nat} (v : BitVec k) : sInt v.toNat k = v.toInt := by rw [sInt_eq_toInt, BitVec.ofNat_toNat, BitVec.setWidth_eq]
/-- Only the bits of an atomic's size count of its operand. -/
theorem atomicNew_operand (f : Nat) {n : Nat} (old : Nat) {w : BitVec (8 * n)} {x : BitVec 64} (hw : w = x.setWidth (8 * n)) (c : Nat) :
    atomicNew f n old x.toNat c = atomicNew f n old w.toNat c := by
  have hmod : x.toNat % 2 ^ (8 * n) = w.toNat % 2 ^ (8 * n) := by rw [hw, BitVec.toNat_setWidth, Nat.mod_mod]
  unfold atomicNew
  dsimp only
  rw [hmod]
/-- What each integer atomic writes, by the operands of its size. -/
theorem atomicNew_values {n : Nat} (v w : BitVec (8 * n)) (c : BitVec 64) :
    let A := fun (f : Nat) => atomicNew f n v.toNat w.toNat c.toNat
    A 0x18 = (some (v + w).toNat, 0) ∧ A 0x19 = (some (if v.sle w then v else w).toNat, 0) ∧ A 0x1A = (some (if v.sle w then w else v).toNat, 0) ∧
    A 0x1B = (some (if v.ule w then v else w).toNat, 0) ∧ A 0x1C = (some (if v.ule w then w else v).toNat, 0) ∧
    A 0x1D = (some (v &&& w).toNat, 0) ∧ A 0x1E = (some (v ||| w).toNat, 0) ∧ A 0x1F = (some (v ^^^ w).toNat, 0) ∧
    A 0x20 = (some w.toNat, 0) ∧ A 0x21 = (if v = c.setWidth (8 * n) then some w.toNat else none, 0) := by
  have hv : v.toNat % 2 ^ (8 * n) = v.toNat := Nat.mod_eq_of_lt v.isLt
  have hw : w.toNat % 2 ^ (8 * n) = w.toNat := Nat.mod_eq_of_lt w.isLt
  have hc : (v.toNat = c.toNat % 2 ^ (8 * n)) = (v = c.setWidth (8 * n)) := by
    rw [← BitVec.toNat_inj, BitVec.toNat_setWidth]
  simp only [atomicNew, hv, hw, hc, sInt_toNat, BitVec.toNat_add, BitVec.toNat_and, BitVec.toNat_or, BitVec.toNat_xor, apply_ite BitVec.toNat,
    BitVec.sle, BitVec.ule, decide_eq_true_eq, min_def, max_def, and_self]

/-- Settles O27: every form issues one access, and what the atomics write is computed by their operands of its size. -/
theorem globalAccesses : Obligations.GlobalAccesses := by
  unfold Obligations.GlobalAccesses
  refine ⟨fun o m s hgo hgm hidle => ?_, fun n v w x c _ hw => ?_, fun v x c => ?_⟩
  · refine ⟨ldg_access o hgo hidle, stg_access o hgo hidle, ?_, ?_, ?_, ?_, ?_, ?_, ?_, ?_, ?_, ?_, ?_, ?_⟩
    all_goals exact atomic_access rfl hgm hidle
  · intro A
    have hA : A = fun f => atomicNew f n v.toNat w.toNat c.toNat := funext fun f => atomicNew_operand f _ hw _
    rw [hA]
    exact atomicNew_values v w c
  · have hv : v.toNat % 2 ^ (8 * 4) = v.toNat := Nat.mod_eq_of_lt v.isLt
    have hx : x.toNat % 2 ^ (8 * 4) = (x.setWidth 32).toNat := (BitVec.toNat_setWidth ..).symm
    simp only [atomicNew, hv, hx, and_self]

/-! ## fence, L2 control and wwait (R171, R182, R185) -/

/-- A clamp changes nothing that the scope of a fence depends on. -/
theorem clampOnly.scopeAs {s t : State} (h : clampOnly s t) (sc : BitVec 3) : t.scopeAs sc = s.scopeAs sc := by
  obtain ⟨heq, _⟩ := h
  rw [heq]
  rfl
theorem fence_recorded {f : DF} {s : State} (hg : s.guard f.slot.slot f.g = true) : ∃ t x, exec (.fence f) s = .next t ∧ t.mem = s.mem ∧ t.pkts = s.pkts ∧
    t.cur.regs = s.cur.regs ∧ t.cur.fences = s.cur.fences ++ [x] ∧ x.kind = f.kind.toNat ∧ x.scope = s.scopeAs f.scope := by
  have hclamp := clampCount_clampOnly s true f.scope
  have hp := hclamp.prepared
  have hscope := hclamp.scopeAs f.scope
  obtain ⟨_, b, k, hcur⟩ := hclamp
  have hexec : exec (.fence f) s = guarded f.slot.slot f.g s (fun s => (clampCount s true f.scope).upd (fun c => { c with
    fences := c.fences ++ [⟨c.po + 2, if f.kind = 3 then 3 else f.kind.toNat, (clampCount s true f.scope).scopeAs f.scope⟩] })) := rfl
  refine ⟨_, ⟨s.cur.po + 2, if f.kind = 3 then 3 else f.kind.toNat, s.scopeAs f.scope⟩, hexec.trans (guarded_on f.slot.slot f.g s _ hg),
    hp.mem, hp.pkts, ?_, ?_, ?_, rfl⟩
  · rw [State.cur_upd]; exact hp.regs
  · rw [State.cur_upd, hscope, hcur]
  · dsimp only
    split
    · next h => rw [h]; rfl
    · rfl
theorem l2_access {o : DL} {i : Instr} {kind : Nat} {s : State} (h : exec i s = l2Issue o kind s) (hg : s.guard o.slot.slot o.g = true) (hidle : s.poolIdle) :
    s.globalAccess i (dlFault o s) (s.rd64 o.slot.slot 0 (dBase o.slot o.base)).toNat (s.rd64 o.slot.slot 0 (dBase o.slot o.base)).toNat
      (.l2 kind (s.dlLen o) o.ret.toNat) none :=
  globalAccess_of_issue h hg hidle rfl (clampOnly_refl s).prepared rfl rfl rfl (fun r hr => by cases hr) (fun _ => rfl)

/-- Settles O29: a fence is recorded, an L2 control form is one access, and wwait stalls or passes. -/
theorem fencesAndCacheControl : Obligations.FencesAndCacheControl := by
  unfold Obligations.FencesAndCacheControl
  intro f l w s hgf hgl hgw hidle L
  have hL {i : Instr} {kind : Nat} (h : exec i s = l2Issue l kind s) : L i kind := by
    obtain ⟨hfault, hgoes⟩ := l2_access h hgl hidle
    refine ⟨hfault, fun hnone => ?_⟩
    obtain ⟨t, ht, hmem, hregs, _, _, ⟨p, hp, hid, _, hva, _, hop⟩, _, _⟩ := hgoes hnone
    exact ⟨t, ht, hmem, hregs, p, hp, hid, hva, hop⟩
  have hwait : exec (.wwait w) s = .next (if s.windowOut s.sel.who w.win.toNat s.cur.po then stallCycle s else s) := guarded_on w.slot.slot w.g s _ hgw
  refine ⟨fence_recorded hgf, hL rfl, hL rfl, hL rfl, fun hout => ?_, fun hout => ?_⟩
  · rw [hwait, hout]; rfl
  · rw [hwait, hout]
    refine ⟨stallCycle s, rfl, stallCycle_mem s, rfl, stallCycle_cur s, ?_⟩
    rw [stallCycle, State.core_upd, State.core_updCore_same]

end Sys2Proof.Machine

namespace Sys2Proof.Machine

/-! ## Tile transfers (R172 to R175) -/

/-- What a tile transfer says of each of its lines. -/
def Pkt.lineOf (p : Pkt) : Who × Nat × Nat × AccOp := (p.who, p.xfer, p.va, p.op)
theorem Pkt.onItsWay.lineOf {p q : Pkt} (h : p.onItsWay q) : q.lineOf = p.lineOf := by rw [h]; rfl
theorem isPool_false {p : Pkt} (h : ∀ ws, p.op ≠ .pool ws) : p.isPool = false := by
  unfold Pkt.isPool
  split
  · next ws hop => exact absurd hop (h ws)
  · rfl
theorem issuePkt_idle {s : State} (h : s.poolIdle) {p : Pkt} (hp : p.isPool = false) (held : Bool) : (issuePkt s p held).poolIdle := by
  obtain ⟨q, hq, hpkts⟩ := issuePkt_pkts s p held
  exact poolIdle_append h (hq.isPool.trans hp) hpkts

/-- t is s with the lines l sent: one packet for each, behind those of s; memory, transfers, registers and busy bits stay. -/
structure LinesSent (s t : State) (xfer : Nat) (op : Nat → AccOp) (l : List (Nat × Nat)) : Prop where
  mem : t.mem = s.mem
  sel : t.sel = s.sel
  xfers : t.xfers = s.xfers
  regs : t.cur.regs = s.cur.regs
  busy : t.cur.busy = s.cur.busy
  lines : t.pkts.map Pkt.lineOf = s.pkts.map Pkt.lineOf ++ l.map (fun q => (s.sel.who, xfer, q.2, op q.1))

theorem linesSent_one {s : State} {p : Pkt} (hwho : p.who = s.sel.who) (held : Bool) {off : Nat} {op : Nat → AccOp} (hop : p.op = op off) :
    LinesSent s (issuePkt s p held) p.xfer op [(off, p.va)] := by
  obtain ⟨a, b, hcur⟩ := issuePkt_cur hwho held
  obtain ⟨q, hq, hpkts⟩ := issuePkt_pkts s p held
  refine ⟨issuePkt_mem s p held, issuePkt_sel s p held, issuePkt_xfers s p held, by rw [hcur]; rfl, by rw [hcur]; rfl, ?_⟩
  rw [hpkts, List.map_append, List.map_singleton, List.map_singleton, hq.lineOf, Pkt.lineOf, hwho, hop]

section
variable {s t u : State} {xfer : Nat} {op : Nat → AccOp} {l r : List (Nat × Nat)}

theorem LinesSent.append (h : LinesSent s t xfer op l) (h' : LinesSent t u xfer op r) : LinesSent s u xfer op (l ++ r) where
  mem := h'.mem.trans h.mem
  sel := h'.sel.trans h.sel
  xfers := h'.xfers.trans h.xfers
  regs := h'.regs.trans h.regs
  busy := h'.busy.trans h.busy
  lines := by rw [h'.lines, h.lines, h.sel, List.append_assoc, ← List.map_append]
/-- Lines that move on are still those lines. -/
theorem LinesSent.moved (h : LinesSent s t xfer op l) {f : Pkt → Pkt} (hf : ∀ p, (f p).lineOf = p.lineOf) :
    LinesSent s { t with pkts := t.pkts.map f } xfer op l where
  mem := h.mem
  sel := h.sel
  xfers := h.xfers
  regs := h.regs
  busy := h.busy
  lines := by rw [← h.lines, List.map_map]; exact List.map_congr_left (fun p _ => hf p)
theorem LinesSent.settle (h : LinesSent s t xfer op l) (hidle : t.poolIdle) : LinesSent s t.settle xfer op l := by
  obtain ⟨f, hf, hpkts⟩ := settle_pkts_idle hidle
  rw [settle_idle hidle, hpkts]
  exact h.moved (fun p => (hf p).lineOf)
theorem LinesSent.count (h : LinesSent s t xfer op l) : t.pkts.length = s.pkts.length + l.length := by
  simpa only [List.length_map, List.length_append] using congrArg List.length h.lines
theorem LinesSent.line (h : LinesSent s t xfer op l) {q : Nat × Nat} (hq : q ∈ l) :
    ∃ p ∈ t.pkts, p.who = s.sel.who ∧ p.xfer = xfer ∧ p.va = q.2 ∧ p.op = op q.1 := by
  have hmem : (s.sel.who, xfer, q.2, op q.1) ∈ t.pkts.map Pkt.lineOf := by
    rw [h.lines]
    exact List.mem_append_right _ (List.mem_map.mpr ⟨q, hq, rfl⟩)
  obtain ⟨p, hp, heq⟩ := List.mem_map.mp hmem
  simp only [Pkt.lineOf, Prod.mk.injEq] at heq
  exact ⟨p, hp, heq⟩
end

theorem issueLines_cons (o : DT) (xfer : Nat) (op : Nat → AccOp) (bad : Nat → Bool) (held : Bool) (s : State) (q : Nat × Nat) (r : List (Nat × Nat)) :
    issueLines o xfer op bad held s (q :: r) = issueLines o xfer op bad held
      (issuePkt s { s.mkPkt o.slot.slot o.x q.2 (s.targetOf q.2) (op q.1) with xfer := xfer, poison := bad q.1 } held) r := rfl
theorem issueLines_sent (o : DT) (xfer : Nat) (op : Nat → AccOp) (bad : Nat → Bool) (held : Bool) : ∀ (l : List (Nat × Nat)) (s : State),
    LinesSent s (issueLines o xfer op bad held s l) xfer op l
  | [], s => ⟨rfl, rfl, rfl, rfl, rfl, (List.append_nil _).symm⟩
  | q :: r, s => by
    rw [issueLines_cons]
    exact (linesSent_one (p := { s.mkPkt o.slot.slot o.x q.2 (s.targetOf q.2) (op q.1) with xfer := xfer, poison := bad q.1 }) rfl held rfl).append
      (issueLines_sent o xfer op bad held r _)
theorem issueLines_idle (o : DT) (xfer : Nat) {op : Nat → AccOp} (hop : ∀ off ws, op off ≠ .pool ws) (bad : Nat → Bool) (held : Bool) :
    ∀ (l : List (Nat × Nat)) {s : State}, s.poolIdle → (issueLines o xfer op bad held s l).poolIdle
  | [], _, h => h
  | q :: r, _, h => issueLines_idle o xfer hop bad held r (issuePkt_idle h (isPool_false (hop q.1)) held)

/-- What the start of a transfer adds: its record, and its tile's busy bit. -/
theorem startXfer_effect (o : DT) (out : Bool) (s : State) : let u := startXfer o out (dtClamp o s)
    u.mem = s.mem ∧ u.pkts = s.pkts ∧ u.sel = s.sel ∧ u.cur.regs = s.cur.regs ∧
      u.cur.busy = s.cur.busy ++ [⟨.tile o.tile.toNat, s.nextId, false⟩] ∧
      u.xfers = s.xfers ++ [⟨s.nextId, s.sel.who, out, o.tile.toNat, s.cur.inst, out && s.cur.inSeg, []⟩] := by
  have hclamp := dtClamp_clampOnly o s
  have hp := hclamp.prepared
  have hkept := hclamp.busy
  obtain ⟨heq, b, k, hcur⟩ := hclamp
  have hxfers : (dtClamp o s).xfers = s.xfers := by rw [heq]
  have hbusy := setBusy_busy (dtClamp o s).fresh (.tile o.tile.toNat) (dtClamp o s).nextId false
  refine ⟨hp.mem, hp.pkts, hp.sel, ?_, ?_, ?_⟩
  · exact (setBusy_prepared (dtClamp o s).fresh (.tile o.tile.toNat) (dtClamp o s).nextId false).regs.trans hp.regs
  · refine hbusy.trans ?_
    rw [hp.nextId]
    exact congrArg (· ++ _) (show (dtClamp o s).fresh.cur.busy = s.cur.busy from hkept)
  · show (dtClamp o s).xfers ++ _ = _
    rw [hxfers, hp.nextId, hp.sel, hcur]
    rfl

section
variable {o : DT} {s t : State} {op : Nat → AccOp}

/-- What the lines of a transfer that has been started leave, in the terms of the state it issued in. -/
theorem transfer_started {out : Bool} (h : LinesSent (startXfer o out (dtClamp o s)) t s.nextId op (s.dtLines o)) :
    t.mem = s.mem ∧ t.cur.regs = s.cur.regs ∧
      t.xfers = s.xfers ++ [⟨s.nextId, s.sel.who, out, o.tile.toNat, s.cur.inst, out && s.cur.inSeg, []⟩] ∧
      ⟨.tile o.tile.toNat, s.nextId, false⟩ ∈ t.cur.busy ∧ t.pkts.length = s.pkts.length + (s.dtLines o).length ∧
      ∀ q ∈ s.dtLines o, ∃ p ∈ t.pkts, p.who = s.sel.who ∧ p.xfer = s.nextId ∧ p.va = q.2 ∧ p.op = op q.1 := by
  obtain ⟨hmem, hpkts, hsel, hregs, hbusy, hxfers⟩ := startXfer_effect o out s
  refine ⟨h.mem.trans hmem, h.regs.trans hregs, h.xfers.trans hxfers, ?_, ?_, fun q hq => ?_⟩
  · rw [h.busy, hbusy]
    exact List.mem_append_right _ (List.mem_singleton_self _)
  · rw [h.count, hpkts]
  · obtain ⟨p, hp, hwho, hrest⟩ := h.line hq
    exact ⟨p, hp, hwho.trans (congrArg Sel.who hsel), hrest⟩
theorem startXfer_idle {out : Bool} (h : s.poolIdle) : (startXfer o out (dtClamp o s)).poolIdle := by
  obtain ⟨_, hpkts, _⟩ := startXfer_effect o out s
  intro p hp
  rw [hpkts] at hp
  exact h p hp
end

/-- What a line of an stt is: in a segment a store of the tile's bytes, else one that waits for the tile to be read out. -/
def lineOp (s : State) (o : DT) (off : Nat) : AccOp :=
  if s.cur.inSeg then .store (s.peek (poolKey s.sel.who.coreId (s.cur.tileAt o.tile.toNat) + off) 128) else .sttRow 128 off

theorem ldt_sends {o : DT} {s : State} (hg : s.guard o.slot.slot o.g = true) (hidle : s.poolIdle) (hflt : dtFault o s true false = none) :
    ∃ t, exec (.ldt o) s = .next t ∧ LinesSent (startXfer o false (dtClamp o s)) t s.nextId (fun off => .row 128 off) (s.dtLines o) := by
  refine ⟨_, exec_acts (show exec (.ldt o) s = execLdt o s from rfl) hg hflt, ?_⟩
  refine (issueLines_sent o s.nextId _ _ false _ _).settle (issueLines_idle o s.nextId (fun off ws h => ?_) _ false _ (startXfer_idle hidle))
  cases h
/-- In a segment the lines of an stt hold the tile's bytes; outside one they wait until it is read out. -/
theorem stt_sends {o : DT} {s : State} (hg : s.guard o.slot.slot o.g = true) (hflt : dtFault o s false true = none) :
    ∃ t, exec (.stt o) s = .next t ∧ LinesSent (startXfer o true (dtClamp o s)) t s.nextId (lineOp s o) (s.dtLines o) := by
  refine ⟨_, exec_acts (show exec (.stt o) s = execStt o s from rfl) hg hflt, ?_⟩
  dsimp only
  split
  case isTrue hseg =>
    have hop : lineOp s o = fun off => .store (s.peek (poolKey s.sel.who.coreId (s.cur.tileAt o.tile.toNat) + off) 128) := funext fun off => if_pos hseg
    rw [hop]
    exact issueLines_sent o s.nextId _ _ true _ _
  case isFalse hseg =>
    have hop : lineOp s o = fun off => .sttRow 128 off := funext fun off => if_neg hseg
    rw [hop]
    exact (issueLines_sent o s.nextId _ _ false _ _).moved (fun p => by split <;> rfl)
theorem ldtp_sends {o : DT} {s : State} (hg : s.guard o.slot.slot o.g = true) (hidle : s.poolIdle) (hflt : dtFault o s false false = none) :
    ∃ t, exec (.ldtp o) s = .next t ∧ LinesSent (dtClamp o s) t 0 (fun _ => .prefetch 128)
      ((s.dtLines o).filter (fun q => (s.xlatFault o.slot.slot.index q.2 true false false).isNone)) := by
  refine ⟨_, exec_acts (show exec (.ldtp o) s = execLdtp o s from rfl) hg hflt, ?_⟩
  refine (issueLines_sent o 0 _ _ false _ _).settle
    (issueLines_idle o 0 (fun off ws h => ?_) _ false _ ((dtClamp_clampOnly o s).prepared.poolIdle hidle))
  cases h

/-- Settles O28: each form issues its lines one by one, or raises its fault in their place. -/
theorem tileTransfers : Obligations.TileTransfers := by
  unfold Obligations.TileTransfers
  intro o s hg hidle id T line
  refine ⟨⟨fun f hf => ?_, fun hflt => ?_⟩, ⟨fun f hf => ?_, fun hflt => ?_⟩, ⟨fun f hf => ?_, fun hflt => ?_⟩⟩
  · exact exec_faults (show exec (.ldt o) s = execLdt o s from rfl) hg hf
  · obtain ⟨t, ht, hsent⟩ := ldt_sends hg hidle hflt
    obtain ⟨hmem, hregs, hrest⟩ := transfer_started hsent
    exact ⟨t, ht, hmem, hregs, hrest⟩
  · exact exec_faults (show exec (.stt o) s = execStt o s from rfl) hg hf
  · obtain ⟨t, ht, hsent⟩ := stt_sends hg hflt
    obtain ⟨hmem, hregs, hrest⟩ := transfer_started hsent
    exact ⟨t, ht, hmem, hregs, hrest⟩
  · exact exec_faults (show exec (.ldtp o) s = execLdtp o s from rfl) hg hf
  · obtain ⟨t, ht, hsent⟩ := ldtp_sends hg hidle hflt
    have hclamp := dtClamp_clampOnly o s
    have hp := hclamp.prepared
    refine ⟨t, ht, hsent.mem.trans hp.mem, hsent.regs.trans hp.regs, hsent.xfers.trans (by rw [hclamp.1]), hsent.busy.trans hclamp.busy, fun q hq hok => ?_⟩
    obtain ⟨p, hpk, hwho, hrest⟩ := hsent.line (List.mem_filter.mpr ⟨hq, Option.isNone_iff_eq_none.mpr hok⟩)
    exact ⟨p, hpk, hwho.trans (congrArg Sel.who hp.sel), hrest⟩

end Sys2Proof.Machine

namespace Sys2Proof.Machine

/-! ## Scratchpad addresses (R165, R166, R169) -/

theorem localFault_bad {s : State} {a : Nat} (sl : Nat) (h : s.cur.limit ≤ a) : s.localFault sl a = some (s.rangeTrap sl 1 a) := if_pos h
theorem localFault_good {s : State} {a : Nat} (sl : Nat) (h : a < s.cur.limit) : s.localFault sl a = none := if_neg (Nat.not_le.mpr h)
theorem findSome?_ite {α β : Type} (p : α → Prop) [DecidablePred p] (f : α → β) : ∀ l : List α,
    l.findSome? (fun a => if p a then some (f a) else none) = (l.find? (fun a => p a)).map f
  | [] => rfl
  | a :: r => by
    rw [List.findSome?_cons, List.find?_cons]
    by_cases h : p a
    · rw [if_pos h, decide_eq_true h]; rfl
    · rw [if_neg h, decide_eq_false h, findSome?_ite p f r]
/-- Of the bad elements of gth and sct the first is the one named (log 51). -/
theorem idxFault_eq (o : DA) (s : State) : idxFault o s =
    ((s.eaElems o).find? (fun a => s.cur.limit ≤ a)).map (fun a => s.rangeTrap o.slot.slot.index 1 a) := findSome?_ite _ _ _
theorem idxFault_none {o : DA} {s : State} (h : ∀ a ∈ s.eaElems o, a < s.cur.limit) : idxFault o s = none := by
  rw [idxFault_eq, List.find?_eq_none.mpr (fun a ha => by simpa using h a ha)]
  rfl

theorem dvd_eaDA (s : State) (o : DA) (n : Nat) : n ∣ s.eaDA o n := Dvd.intro_left _ rfl
/-- An access lies around its effective address. -/
theorem eaDA_around (s : State) (o : DA) {n : Nat} (hn : 0 < n) : s.eaDA o n ≤ s.eaRaw o.slot o.base ∧ s.eaRaw o.slot o.base < s.eaDA o n + n := by
  refine ⟨Nat.div_mul_le_self _ _, ?_⟩
  have := Nat.lt_div_mul_add (a := s.eaRaw o.slot o.base) hn
  exact this
theorem szBytes_pos (sz : BitVec 2) : 0 < szBytes sz := Nat.two_pow_pos _
theorem szBytes_dvd (sz : BitVec 2) : szBytes sz ∣ 64 := pow_dvd_pow 2 (show sz.toNat ≤ 6 by have := sz.isLt; omega)
theorem wBytes_cases (sz : BitVec 2) : wBits sz / 8 = 32 ∨ wBits sz / 8 = 64 ∨ wBits sz / 8 = 128 ∨ wBits sz / 8 = 0 := by
  unfold wBits
  split
  · exact .inl rfl
  · exact .inr (.inl rfl)
  · exact .inr (.inr (.inl rfl))
  · exact .inr (.inr (.inr rfl))

/-! ## The pieces that a load notes (R254) -/

theorem loadSrc_one {a n : Nat} (sl : Nat) (hn : 0 < n) (h64 : n ∣ 64) (ha : n ∣ a) : loadSrc sl a n = [] := by
  rw [loadSrc, piecesOf_aligned hn h64 ha]
  rfl
theorem piecesOf_two {a : Nat} (ha : 128 ∣ a) : piecesOf a 128 = [(0, 64), (64, 64)] := by
  obtain ⟨d, rfl⟩ := ha
  have hcount : (128 * d + 128 - 1) / 64 - 128 * d / 64 + 1 = 2 := by omega
  rw [piecesOf, if_neg (by norm_num), hcount]
  simp only [upTo, List.range_succ, List.range_zero, List.nil_append, List.cons_append, List.map_cons, List.map_nil, List.cons.injEq, Prod.mk.injEq, and_true]
  omega
/-- What ldv notes: nothing, but in its widest form two pieces. -/
theorem loadSrc_vector (sl : Nat) (s : State) (o : DA) : let w := wBits o.sz / 8
    loadSrc sl (s.eaDA o w) w = if w ≤ 64 then [] else
      [{ off := s.eaDA o w, n := 64, bit := 0, fmt := 0, slot := sl, at_ := s.eaDA o w },
       { off := s.eaDA o w + 64, n := 64, bit := 512, fmt := 0, slot := sl, at_ := s.eaDA o w }] := by
  intro w
  have hd : w ∣ s.eaDA o w := dvd_eaDA s o w
  rcases wBytes_cases o.sz with h | h | h | h
  all_goals
    have hw : w = _ := h
    rw [hw] at hd ⊢
  · exact loadSrc_one sl (by norm_num) (by norm_num) hd
  · exact loadSrc_one sl (by norm_num) (by norm_num) hd
  · rw [loadSrc, piecesOf_two hd]
    rfl
  · rfl

/-! ## A scratchpad load (R168, R181, R334) -/

/-- t is s with the result x put in flight, last: memory, packets, registers and pc stay. -/
structure Loaded (s t : State) (x : Landing) : Prop where
  mem : t.mem = s.mem
  pkts : t.pkts = s.pkts
  regs : t.cur.regs = s.cur.regs
  pc : t.cur.pc = s.cur.pc
  flight : t.cur.flight = s.cur.flight ++ [x]

section
variable {s t u : State} {x : Landing}

theorem Loaded.upd (h : Loaded s t x) {f : Ctx → Ctx} (hregs : ∀ c, (f c).regs = c.regs) (hpc : ∀ c, (f c).pc = c.pc)
    (hflight : ∀ c, (f c).flight = c.flight) : Loaded s (t.upd f) x where
  mem := h.mem
  pkts := h.pkts
  regs := by rw [State.cur_upd, hregs, h.regs]
  pc := by rw [State.cur_upd, hpc, h.pc]
  flight := by rw [State.cur_upd, hflight, h.flight]
theorem Loaded.noteLoad (h : Loaded s t x) (lat : Nat) (acq : Bool) : Loaded s (noteLoad t lat acq) x := h.upd (fun _ => rfl) (fun _ => rfl) (fun _ => rfl)
theorem Loaded.poolPoison (h : Loaded s t x) (slot a n : Nat) : Loaded s (poolPoison t slot a n) x := by
  unfold Machine.poolPoison
  split
  · exact h.upd (fun _ => rfl) (fun _ => rfl) (fun _ => rfl)
  · exact h
theorem Loaded.noteSrc (h : Loaded s t x) (src : List PoolSrc) : Loaded s (t.noteSrc src) { x with pool := src } where
  mem := h.mem
  pkts := h.pkts
  regs := by rw [State.noteSrc, State.cur_upd, h.regs]
  pc := by rw [State.noteSrc, State.cur_upd, h.pc]
  flight := by
    rw [State.noteSrc, State.cur_upd]
    dsimp only
    rw [h.flight, List.dropLast_concat, List.getLast?_concat]
    rfl
theorem clampOnly.result (h : clampOnly s u) (d : Dest) (v en : BitVec 4096) (lat : Nat) (fl : Flags) : u.result d v en lat fl = s.result d v en lat fl := by
  obtain ⟨heq, b, k, hcur⟩ := h
  have ht : u.t = s.t := by rw [heq]; rfl
  have hinst : u.cur.inst = s.cur.inst := by rw [hcur]; rfl
  rw [State.result, State.result, ht, hinst]
/-- The result that a clamped operation puts in flight. -/
theorem clampOnly.loaded (h : clampOnly s u) (d : Dest) (v en : BitVec 4096) (lat : Nat) (fl : Flags) :
    Loaded s (u.land d v en lat fl) (s.result d v en lat fl) := by
  have hp := h.prepared
  have hpc : u.cur.pc = s.cur.pc := by
    obtain ⟨_, b, k, hcur⟩ := h
    rw [hcur]
  refine ⟨hp.mem, hp.pkts, ?_, ?_, ?_⟩
  · rw [land_cur]; exact hp.regs
  · rw [land_cur]; exact hpc
  · rw [land_cur, ← h.result]; exact congrArg (· ++ _) hp.flight
end

/-- A load of n bytes puts its value in flight, with the pieces it has read. -/
theorem scratchLoad_loaded (o : DA) (s : State) (a n lat : Nat) (val : List Byte → Nat) (en : BitVec 4096) :
    Loaded s (scratchLoad o s a n lat val en)
      { s.result (s.fileReg o.fc o.dreg) (BitVec.ofNat 4096 (val (scratchRead s s.sel.who a n))) en lat 0 with pool := loadSrc o.slot.slot.index a n } := by
  have hland := (daClamp_clampOnly o s).loaded (s.fileReg o.fc o.dreg) (BitVec.ofNat 4096 (val (scratchRead s s.sel.who a n))) en lat 0
  unfold scratchLoad
  dsimp only
  refine Loaded.poolPoison (Loaded.noteLoad ?_ _ _) _ _ _
  split
  · next hnone =>
    rw [List.isEmpty_iff.mp hnone]
    exact hland
  · exact hland.noteSrc _
theorem foldl_poolPoison_loaded {s : State} {x : Landing} (slot n : Nat) : ∀ (l : List Nat) {t : State}, Loaded s t x →
    Loaded s (l.foldl (fun s a => poolPoison s slot a n) t) x
  | [], _, h => h
  | a :: r, _, h => foldl_poolPoison_loaded slot n r (h.poolPoison slot a n)
/-- All addresses lie in one block of 64 bytes. -/
theorem sameBlock_iff (l : List Nat) : l.all (fun a => l.head?.any (fun h => a / 64 = h / 64)) = true ↔ ∀ a ∈ l, a / 64 = l.headD 0 / 64 := by
  cases l with
  | nil => simp
  | cons h r => simp only [List.all_eq_true, List.head?_cons, Option.any_some, decide_eq_true_eq, List.headD_cons]
theorem execGth_loaded {o : DA} {s : State} (hg : s.guard o.slot.slot o.g = true) (h : ∀ a ∈ s.eaElems o, a < s.cur.limit) :
    let e := szBytes o.sz
    ∃ t, exec (.gth o) s = .next t ∧ Loaded s t
      { s.result (s.fileReg o.fc o.dreg) (BitVec.ofNat 4096 (packElems (8 * e) ((s.eaIdx o).map (fun a => ofBytes (scratchRead s s.sel.who a e)))))
          (BitVec.ofNat 4096 (2 ^ 1024 - 1)) 10 0 with
        pool := if ∀ a ∈ s.eaIdx o, a / 64 = (s.eaIdx o).headD 0 / 64 then []
          else (s.eaIdx o).mapIdx (fun i a => ⟨a, e, 8 * e * i, 0, o.slot.slot.index, a⟩) } := by
  intro e
  refine ⟨_, exec_acts (show exec (.gth o) s = execGth o s from rfl) hg (idxFault_none h), ?_⟩
  dsimp only
  refine foldl_poolPoison_loaded _ _ _ ?_
  have hland := ((daClamp_clampOnly o s).loaded (s.fileReg o.fc o.dreg)
    (BitVec.ofNat 4096 (packElems (8 * e) ((s.eaIdx o).map (fun a => ofBytes (scratchRead s s.sel.who a e))))) (BitVec.ofNat 4096 (2 ^ 1024 - 1)) 10 0).noteLoad
    10 (daOrd o = 1)
  by_cases hsame : ∀ a ∈ s.eaIdx o, a / 64 = (s.eaIdx o).headD 0 / 64
  · rw [if_pos ((sameBlock_iff _).mpr hsame), if_pos hsame]
    exact hland
  · rw [if_neg (fun h => hsame ((sameBlock_iff _).mp h)), if_neg hsame]
    exact hland.noteSrc _

/-! ## What a load of the own scratchpad reads (R179, R183) -/

theorem length_overlay (a : Nat) (base : List Byte) (k : Nat) (new : List Byte) : (overlay a base k new).length = base.length := List.length_mapIdx
theorem length_scratchRead (s : State) (w : Who) (a n : Nat) : (scratchRead s w a n).length = n := by
  have hfold : ∀ (l : List (Nat × List Byte)) (b : List Byte), (l.foldl (fun l q => overlay a l q.1 q.2) b).length = b.length := by
    intro l
    induction l with
    | nil => exact fun _ => rfl
    | cons q r ih => exact fun b => (ih _).trans (length_overlay a b q.1 q.2)
  exact (hfold _ _).trans (length_peek s _ n)
/-- A write of the whole range is all that is read. -/
theorem overlay_whole {a : Nat} {base new : List Byte} (h : new.length = base.length) : overlay a base a new = new := by
  refine List.ext_getElem ((length_overlay a base a new).trans h.symm) (fun i h1 h2 => ?_)
  have hi : a ≤ a + i ∧ a + i < a + new.length := ⟨Nat.le_add_right a i, by omega⟩
  simp only [overlay, List.getElem_mapIdx]
  rw [if_pos hi, Nat.add_sub_cancel_left, List.getD_eq_getElem _ _ h2]
/-- Without a write held back a read is the pool's bytes. -/
theorem scratchRead_pool {s : State} {w : Who} (h : ∀ p ∈ s.pkts, p.who ≠ w ∨ p.performed = true) (a n : Nat) :
    scratchRead s w a n = s.peek (poolKey w.coreId a) n := by
  have hnone : s.ownWrites w = [] := List.flatMap_eq_nil_iff.mpr (fun p hp => if_pos (h p hp))
  rw [scratchRead, hnone]
  rfl
theorem poolWrites_held {p : Pkt} {w : Who} {a : Nat} {b : List Byte} (hwho : p.who = w) (hperf : p.performed = false)
    (hop : p.op = .pool [(a, b)] ∨ (p.op = .store b ∧ p.target = .pool w.clus w.core a ∧ p.dst = w.chip ∧ p.pieces = [])) :
    Pkt.poolWrites w p = [(a, b)] := by
  have hheld : ¬ (p.who ≠ w ∨ p.performed = true) := by rw [hwho, hperf]; simp
  rw [Pkt.poolWrites, if_neg hheld]
  rcases hop with hop | ⟨hop, htarget, hdst, hpieces⟩
  · rw [hop]
  · rw [hop, htarget]
    dsimp only
    rw [if_pos ⟨hdst, rfl, rfl⟩, if_pos hpieces]
/-- A read of just the bytes of the last write held back gives that write's bytes. -/
theorem scratchRead_held {s : State} {w : Who} {p : Pkt} {a : Nat} {b : List Byte} (h : Pkt.poolWrites w p = [(a, b)]) :
    scratchRead { s with pkts := s.pkts ++ [p] } w a b.length = b := by
  have hown : State.ownWrites { s with pkts := s.pkts ++ [p] } w = s.ownWrites w ++ [(a, b)] := by
    rw [State.ownWrites, List.flatMap_append, List.flatMap_singleton, h]
    rfl
  rw [scratchRead, hown, List.foldl_append]
  exact overlay_whole (length_scratchRead s w a b.length).symm

/-! ## kld (R205) -/

theorem execKld_good {o : KLd} {s : State} (hg : s.guard .k o.g = true) (h : o.addr.toNat * 512 + kldBytes o ≤ s.cur.limit) :
    let a := o.addr.toNat * 512
    let b := ofBytes (scratchRead s s.sel.who a (kldBytes o))
    let v := packElems 32 ((elemsOf b 128 (fmtBits o.fmt)).map (fun x => if o.fmt = 0 then x else (convert 0 o.fmt 0 0 x).1))
    ∃ t, exec (.kld o) s = .next t ∧ Loaded s t { s.result (.c o.c) (BitVec.ofNat 4096 v) (BitVec.allOnes 4096) 8 0 with
      pool := (upTo 128).map (fun i => ⟨a + fmtBits o.fmt / 8 * i, fmtBits o.fmt / 8, 32 * i, o.fmt, 9, a⟩) } := by
  intro a b v
  refine ⟨_, exec_acts (show exec (.kld o) s = execKld o s from rfl) hg (if_neg (Nat.not_lt.mpr h)), ?_⟩
  have hland := ((clampOnly_refl s).loaded (.c o.c) (BitVec.ofNat 4096 v) (BitVec.allOnes 4096) 8 0).noteSrc
    ((upTo 128).map (fun i => ⟨a + fmtBits o.fmt / 8 * i, fmtBits o.fmt / 8, 32 * i, o.fmt, 9, a⟩))
  dsimp only
  split
  · exact hland.upd (fun _ => rfl) (fun _ => rfl) (fun _ => rfl)
  · exact hland
/-- An element of a scale register filled from 128 values. -/
theorem scale_element (f : Nat → Nat) (b w : Nat) {j : Nat} (hj : j < 128) :
    elemN (BitVec.ofNat 4096 (packElems 32 ((elemsOf b 128 w).map f))).toNat j 32 = f (elemN b j w) % 2 ^ 32 := by
  have hlen : ((elemsOf b 128 w).map f).length = 128 := by rw [List.length_map, elemsOf, List.length_map, List.length_range]
  rw [toNat_ofNat_packElems (by rw [hlen]), elemN_packElems, elemsOf, List.map_map, getD_map_range _ hj]
  rfl

/-- Settles O24: the load's address and its value in flight, and what a read of the own scratchpad shows. -/
theorem scratchpadLoads : Obligations.ScratchpadLoads := by
  unfold Obligations.ScratchpadLoads
  refine ⟨?_, fun s w a n => ⟨fun h => scratchRead_pool h a n, fun p b hwho hperf hlen hop => ?_⟩, ?_⟩
  · intro o s hg e w ea rd trap ok piece L
    have hL {i : Instr} {size lat : Nat} {val : List Byte → Nat} {en : BitVec 4096} {pieces : List PoolSrc} (h : exec i s =
        guardedFault o.slot.slot o.g s (daLocalFault o s size) (fun s => scratchLoad o s (s.eaDA o size) size lat val en))
        (hsrc : loadSrc o.slot.slot.index (s.eaDA o size) size = pieces) :
        L i (val (scratchRead s s.sel.who (s.eaDA o size) size)) en lat pieces := by
      subst hsrc
      refine ⟨fun hbad => exec_faults h hg (localFault_bad _ hbad), fun hgood => ?_⟩
      obtain ⟨hmem, hpkts, hregs, hpc, hflight⟩ := scratchLoad_loaded o s (s.eaDA o size) size lat val en
      exact ⟨_, exec_acts h hg (localFault_good _ hgood), hmem, hpkts, hregs, hpc, hflight⟩
    have hone : loadSrc o.slot.slot.index (s.eaDA o e) e = [] := loadSrc_one _ (szBytes_pos o.sz) (szBytes_dvd o.sz) (dvd_eaDA s o e)
    refine ⟨fun n hn => ?_, ?_, ?_, ?_, fun hgood => ?_, fun a ha => ?_⟩
    · obtain ⟨hle, hlt⟩ := eaDA_around s o hn
      exact ⟨hle, hlt, dvd_eaDA s o n⟩
    · exact hL (show exec (.ldv o) s = execLdv o s from rfl) (loadSrc_vector _ s o)
    · exact hL (show exec (.lds o) s = execLds o s from rfl) hone
    · exact hL (show exec (.ldb o) s = execLdb o s from rfl) hone
    · obtain ⟨t, ht, hmem, hpkts, hregs, hpc, hflight⟩ := execGth_loaded hg hgood
      exact ⟨t, ht, hmem, hpkts, hregs, hpc, hflight⟩
    · refine exec_faults (show exec (.gth o) s = execGth o s from rfl) hg ?_
      rw [idxFault_eq, ha]
      rfl
  · subst hlen
    exact scratchRead_held (poolWrites_held hwho hperf hop)
  · intro o s hg a n
    refine ⟨fun hlim => exec_faults (show exec (.kld o) s = execKld o s from rfl) hg (if_pos hlim), fun hlim => ?_⟩
    obtain ⟨t, ht, hmem, _, hregs, _, hflight⟩ := execKld_good hg hlim
    exact ⟨t, _, ht, hmem, hregs, hflight, fun j hj => scale_element _ _ _ hj⟩

end Sys2Proof.Machine

namespace Sys2Proof.Machine

/-! ## A store to the own scratchpad (R168, R182, R183, R254) -/

theorem cur_of_ctxs {s t : State} (hsel : t.sel = s.sel) (hctxs : t.ctxs = s.ctxs) : t.cur = s.cur := by
  rw [State.cur, State.cur, State.ctx, State.ctx, hsel, hctxs]
theorem pokeAll_pkts (s : State) (c : CoreId) (ws : List (Nat × List Byte)) : (pokeAll s c ws).pkts = s.pkts :=
  foldl_keeps State.pkts (fun (t : State) (q : Nat × List Byte) => t.poke (poolKey c q.1) q.2) (fun _ _ => rfl) ws s

/-- The state in which a store's packet is made: the clamp counted, and what earlier loads have read fixed. -/
def State.storeReady (s : State) (o : DA) : State := (daClamp o s).upd Ctx.fixLoads
/-- The packet of a store to the own scratchpad. -/
def State.storePkt (s : State) (o : DA) (ws : List (Nat × List Byte)) : Pkt :=
  (s.storeReady o).mkPkt o.slot.slot o.x 0 (.pool s.sel.who.clus s.sel.who.core 0, s.sel.who.chip, 0) (.pool ws)

section
variable {o : DA} {s : State} {ws : List (Nat × List Byte)}

/-- What a store leaves in its context, and what it starts from. -/
theorem storeReady_kept (o : DA) (s : State) : let u := s.storeReady o
    u.mem = s.mem ∧ u.pkts = s.pkts ∧ u.sel = s.sel ∧ u.nextId = s.nextId ∧ u.free = s.free ∧ u.cur.regs = s.cur.regs ∧
      u.cur.flight = s.cur.fixLoads.flight ∧ u.cur.inSeg = s.cur.inSeg := by
  have hclamp := daClamp_clampOnly o s
  have hp := hclamp.prepared
  obtain ⟨_, b, k, hcur⟩ := hclamp
  have hu : (s.storeReady o).cur = (daClamp o s).cur.fixLoads := State.cur_upd _ _
  refine ⟨hp.mem, hp.pkts, hp.sel, hp.nextId, hp.free, ?_, ?_, ?_⟩
  all_goals rw [hu, hcur]; rfl
theorem storePkt_fields (o : DA) (s : State) (ws : List (Nat × List Byte)) : let p := s.storePkt o ws
    p.id = s.nextId ∧ p.who = s.sel.who ∧ p.stage = .core ∧ p.performed = false ∧ p.op = .pool ws := by
  obtain ⟨_, _, hsel, hid, _⟩ := storeReady_kept o s
  exact ⟨hid, congrArg Sel.who hsel, rfl, rfl, rfl⟩
theorem scratchStore_eq (o : DA) (s : State) (ws : List (Nat × List Byte)) : scratchStore o s ws =
    let u := s.storeReady o
    let p := s.storePkt o ws
    if s.cur.inSeg then { u.fresh with pkts := s.pkts ++ [{ p with stage := .buffered }] }
    else if u.mayLeave p then
      (if (laterPieces s.free ws).isEmpty then pokeAll u s.sel.who.coreId ws else performPool { u.fresh with pkts := s.pkts ++ [p] } p)
    else { u.fresh with pkts := s.pkts ++ [p] } := by
  obtain ⟨_, hpkts, hsel, _, hfree, _, _, hseg⟩ := storeReady_kept o s
  rw [← hpkts, ← hseg, ← hfree]
  dsimp only
  unfold State.storePkt
  rw [← hsel]
  rfl

/-- A store that does not leave its core stands among the packets, at a stage, with its writes. -/
def storeWaits (s t : State) (st : Stage) (ws : List (Nat × List Byte)) : Prop :=
  ∃ p, t.mem = s.mem ∧ t.cur.regs = s.cur.regs ∧ t.cur.flight = s.cur.fixLoads.flight ∧ t.pkts = s.pkts ++ [p] ∧ p.id = s.nextId ∧
    p.who = s.sel.who ∧ p.stage = st ∧ p.performed = false ∧ p.op = .pool ws

theorem scratchStore_buffered (hseg : s.cur.inSeg = true) : storeWaits s (scratchStore o s ws) .buffered ws := by
  obtain ⟨hmem, _, _, _, _, hregs, hflight, _⟩ := storeReady_kept o s
  obtain ⟨hid, hwho, _, hperf, hop⟩ := storePkt_fields o s ws
  rw [scratchStore_eq]
  dsimp only
  rw [if_pos hseg]
  exact ⟨_, hmem, hregs, hflight, rfl, hid, hwho, rfl, hperf, hop⟩
theorem scratchStore_held (hseg : s.cur.inSeg = false) (hmay : (s.storeReady o).mayLeave (s.storePkt o ws) = false) :
    storeWaits s (scratchStore o s ws) .core ws := by
  obtain ⟨hmem, _, _, _, _, hregs, hflight, _⟩ := storeReady_kept o s
  obtain ⟨hid, hwho, hstage, hperf, hop⟩ := storePkt_fields o s ws
  rw [scratchStore_eq]
  dsimp only
  rw [hseg, hmay]
  exact ⟨_, hmem, hregs, hflight, rfl, hid, hwho, hstage, hperf, hop⟩

/-- t is s with a store performed but for the pieces left for later, for which a packet stands. -/
structure StoreDone (s t : State) (ws : List (Nat × List Byte)) : Prop where
  mem : t.mem = (pokeAll s s.sel.who.coreId (writesNow s.free ws)).mem
  regs : t.cur.regs = s.cur.regs
  flight : t.cur.flight = s.cur.fixLoads.flight
  whole : laterPieces s.free ws = [] → t.pkts = s.pkts
  left : laterPieces s.free ws ≠ [] → t.pkts.length = s.pkts.length + 1 ∧
    ∃ p ∈ t.pkts, p.id = s.nextId ∧ p.op = .pool (laterPieces s.free ws) ∧ p.stage = .core ∧ p.told = 1

theorem performPool_left {u : State} {p : Pkt} (hop : p.op = .pool ws) (hlater : laterPieces u.free ws ≠ []) : performPool u p =
    { pokeAll u p.who.coreId (writesNow u.free ws) with
      pkts := updWhere (fun q => q.id = p.id) (fun q => { q with op := .pool (laterPieces u.free ws), stage := .core, told := 1 }) u.pkts } := by
  have hne : (laterPieces u.free ws).isEmpty = false := Bool.eq_false_iff.mpr (fun h => hlater (List.isEmpty_iff.mp h))
  unfold performPool
  rw [hop]
  dsimp only
  rw [hne, writesNow, if_neg hlater, pokeAll_pkts]
  rfl
theorem scratchStore_done (hseg : s.cur.inSeg = false) (hmay : (s.storeReady o).mayLeave (s.storePkt o ws) = true) :
    StoreDone s (scratchStore o s ws) ws := by
  obtain ⟨hmem, hpkts, hsel, _, hfree, hregs, hflight, _⟩ := storeReady_kept o s
  obtain ⟨hid, hwho, _, _, hop⟩ := storePkt_fields o s ws
  rw [scratchStore_eq]
  dsimp only
  rw [hseg, hmay, if_neg Bool.false_ne_true, if_pos rfl]
  by_cases hlater : laterPieces s.free ws = []
  · have hcur : (pokeAll (s.storeReady o) s.sel.who.coreId ws).cur = (s.storeReady o).cur :=
      cur_of_ctxs (pokeAll_sel _ _ _) (pokeAll_ctxs _ _ _)
    rw [if_pos (List.isEmpty_iff.mpr hlater)]
    refine ⟨?_, by rw [hcur, hregs], by rw [hcur, hflight], fun _ => (pokeAll_pkts _ _ _).trans hpkts, fun h => absurd hlater h⟩
    rw [writesNow, if_pos hlater, pokeAll_mem, pokeAll_mem, hmem]
  · have hlater' : laterPieces (s.storeReady o).free ws ≠ [] := hfree.symm ▸ hlater
    rw [if_neg (fun h => hlater (List.isEmpty_iff.mp h)),
      performPool_left (u := { (s.storeReady o).fresh with pkts := s.pkts ++ [s.storePkt o ws] }) hop hlater', hwho]
    have hcur : ∀ (c : CoreId) (l : List (Nat × List Byte)),
        (pokeAll { (s.storeReady o).fresh with pkts := s.pkts ++ [s.storePkt o ws] } c l).cur = (s.storeReady o).cur :=
      fun c l => cur_of_ctxs (pokeAll_sel _ _ _) (pokeAll_ctxs _ _ _)
    refine ⟨?_, (congrArg Ctx.regs (hcur _ _)).trans hregs, (congrArg Ctx.flight (hcur _ _)).trans hflight, fun h => absurd h hlater, fun _ => ⟨?_, ?_⟩⟩
    · show (pokeAll _ _ (writesNow (s.storeReady o).free ws)).mem = _
      rw [pokeAll_mem, pokeAll_mem, hfree]
      exact congrArg (memPuts · _) hmem
    · rw [updWhere, List.length_map, List.length_append]
      rfl
    · refine ⟨_, List.mem_map.mpr ⟨s.storePkt o ws, List.mem_append_right _ (List.mem_singleton_self _), if_pos (decide_eq_true rfl)⟩, hid, ?_, rfl, rfl⟩
      exact congrArg (fun f => AccOp.pool (laterPieces f ws)) hfree
end

/-! ## The bytes of a store (R168) -/

theorem getD_bytesOf (v : Nat) {n k : Nat} (hk : k < n) : (bytesOf v n).getD k 0 = BitVec.ofNat 8 (v / 2 ^ (8 * k)) := by
  rw [bytesOf, getD_map_range _ hk, Nat.shiftRight_eq_div_pow]
theorem byteAt_bytesOf (a v : Nat) {n k : Nat} (hk : k < n) : byteAt (a, bytesOf v n) (a + k) = BitVec.ofNat 8 (v / 2 ^ (8 * k)) := by
  rw [byteAt, Nat.add_sub_cancel_left]
  exact getD_bytesOf v hk
theorem covers_bytesOf {a v n x : Nat} : covers (a, bytesOf v n) x ↔ a ≤ x ∧ x < a + n := by
  rw [covers, length_bytesOf]

section
variable {s t : State} (hwf : Memory.wf s.mem = true)
include hwf

/-- What a store of one run of bytes leaves in memory. -/
theorem stored_one {a v n : Nat} (h : StoreDone s t [(a, bytesOf v n)]) : let key := fun a => poolKey s.sel.who.coreId a
    memSameBut s t (key a) n ∧ ∀ k < n, memGet t.mem (key a + k) =
      if leftAt s.free [(a, bytesOf v n)] (a + k) then memGet s.mem (key a + k) else BitVec.ofNat 8 (v / 2 ^ (8 * k)) := by
  intro key
  refine ⟨fun x hx => ?_, fun k hk => ?_⟩
  · rw [h.mem]
    refine memGet_writesNow_apart hwf _ (fun q hq hc => hx ?_)
    rw [List.mem_singleton.mp hq, covers_bytesOf] at hc
    exact hc
  · rw [h.mem, ← poolKey_add, memGet_writesNow_one hwf _ _ (covers_bytesOf.mpr ⟨Nat.le_add_right a k, by omega⟩), byteAt_bytesOf a v hk]
end

/-! ## The elements of sct (R169) -/

/-- The writes of sct: element i of a value at the i-th address, n bytes each. -/
def elemWrites (as : List Nat) (v n : Nat) : List (Nat × List Byte) := as.mapIdx (fun i a => (a, bytesOf (elemN v i (8 * n)) n))

theorem length_eaIdx (s : State) (o : DA) : (s.eaIdx o).length = 128 / szBytes o.sz := by
  rw [State.eaIdx, List.length_map, State.eaElems, List.length_map, List.length_range]
theorem dvd_eaIdx {s : State} {o : DA} {a : Nat} (h : a ∈ s.eaIdx o) : szBytes o.sz ∣ a := by
  obtain ⟨b, _, rfl⟩ := List.mem_map.mp h
  exact Dvd.intro_left _ rfl
theorem mem_elemWrites {as : List Nat} {v n : Nat} {q : Nat × List Byte} (h : q ∈ elemWrites as v n) :
    ∃ i, ∃ hi : i < as.length, q = (as[i], bytesOf (elemN v i (8 * n)) n) := by
  obtain ⟨i, hi, heq⟩ := List.mem_mapIdx.mp h
  exact ⟨i, hi, heq.symm⟩
/-- Aligned elements of one size overlap only where their addresses are equal. -/
theorem eq_of_overlap {n a b x : Nat} (ha : n ∣ a) (hb : n ∣ b) (hxa : a ≤ x ∧ x < a + n) (hxb : b ≤ x ∧ x < b + n) : a = b := by
  obtain ⟨c, rfl⟩ := ha
  obtain ⟨d, rfl⟩ := hb
  have hc : x / n = c := Nat.div_eq_of_lt_le (by rw [mul_comm]; exact hxa.1) (by rw [add_mul, one_mul, mul_comm]; exact hxa.2)
  have hd : x / n = d := Nat.div_eq_of_lt_le (by rw [mul_comm]; exact hxb.1) (by rw [add_mul, one_mul, mul_comm]; exact hxb.2)
  rw [← hc, hd]

section
variable {s t : State} (hwf : Memory.wf s.mem = true) {as : List Nat} {v n : Nat} (hn : 0 < n) (h64 : n ∣ 64) (has : ∀ a ∈ as, n ∣ a)
  (h : StoreDone s t (elemWrites as v n))

include hn h64 has in
theorem elemWrites_whole : ∀ q ∈ elemWrites as v n, piecesOf q.1 q.2.length = [(0, q.2.length)] := by
  intro q hq
  obtain ⟨i, hi, rfl⟩ := mem_elemWrites hq
  rw [length_bytesOf]
  exact piecesOf_aligned hn h64 (has _ (List.getElem_mem hi))
include hwf h in
theorem stored_elems_apart {x : Nat} (hx : ∀ a ∈ as, ¬ (poolKey s.sel.who.coreId a ≤ x ∧ x < poolKey s.sel.who.coreId a + n)) :
    memGet t.mem x = memGet s.mem x := by
  rw [h.mem]
  refine memGet_writesNow_apart hwf _ (fun q hq hc => ?_)
  obtain ⟨i, hi, rfl⟩ := mem_elemWrites hq
  exact hx _ (List.getElem_mem hi) (covers_bytesOf.mp hc)
include hwf hn h64 has h in
/-- Of elements with one address the highest is the one that is stored. -/
theorem stored_elems_last {k : Nat} (hk : k < as.length) (hlast : ∀ j (_ : j < as.length), k < j → as[j] ≠ as[k]) {b : Nat} (hb : b < n) :
    memGet t.mem (poolKey s.sel.who.coreId as[k] + b) = if leftAt s.free (elemWrites as v n) as[k] then memGet s.mem (poolKey s.sel.who.coreId as[k] + b)
      else BitVec.ofNat 8 (elemN v k (8 * n) / 2 ^ (8 * b)) := by
  have hcov : covers (as[k], bytesOf (elemN v k (8 * n)) n) (as[k] + b) := covers_bytesOf.mpr ⟨Nat.le_add_right _ _, by omega⟩
  have hmem : (as[k], bytesOf (elemN v k (8 * n)) n) ∈ elemWrites as v n := List.mem_mapIdx.mpr ⟨k, hk, rfl⟩
  have hwhole := elemWrites_whole (v := v) hn h64 has
  have hblock : as[k] / 64 = (as[k] + b) / 64 := by
    obtain ⟨c, hc⟩ := h64
    obtain ⟨d, hd⟩ := has _ (List.getElem_mem hk)
    have hpos : 0 < c := Nat.pos_of_ne_zero (by rintro rfl; omega)
    rw [hd, hc, ← Nat.div_div_eq_div_mul, ← Nat.div_div_eq_div_mul, Nat.mul_div_cancel_left d hn, Nat.mul_add_div hn, Nat.div_eq_of_lt hb, Nat.add_zero]
  rw [h.mem, ← poolKey_add]
  split
  case isTrue hl =>
    refine memGet_writesNow_left hwf ?_
    rw [leftAt, ← hblock]
    exact hl
  case isFalse hl =>
    rw [writesNow_whole hwhole]
    obtain ⟨pre, post, hsplit, hpost⟩ : ∃ pre post, elemWrites as v n = pre ++ (as[k], bytesOf (elemN v k (8 * n)) n) :: post ∧
        ∀ q ∈ post, ¬ covers q (as[k] + b) := by
      refine ⟨(elemWrites as v n).take k, (elemWrites as v n).drop (k + 1), ?_, fun q hq hc => ?_⟩
      · have hlen : k < (elemWrites as v n).length := by rw [elemWrites, List.length_mapIdx]; exact hk
        have hget : (elemWrites as v n)[k] = (as[k], bytesOf (elemN v k (8 * n)) n) := List.getElem_mapIdx ..
        rw [← hget, ← List.drop_eq_getElem_cons hlen, List.take_append_drop]
      · obtain ⟨i, hi, heq⟩ := List.mem_iff_getElem.mp hq
        rw [List.getElem_drop] at heq
        have hlen : k + 1 + i < as.length := by
          rw [List.length_drop, elemWrites, List.length_mapIdx] at hi
          omega
        have hget : q = (as[k + 1 + i], bytesOf (elemN v (k + 1 + i) (8 * n)) n) := heq.symm.trans (List.getElem_mapIdx ..)
        rw [hget] at hc
        exact hlast _ hlen (by omega) (eq_of_overlap (has _ (List.getElem_mem hlen)) (has _ (List.getElem_mem hk)) (covers_bytesOf.mp hc) (covers_bytesOf.mp hcov))
    have hkeep (P : Nat × List Byte → Bool) (hP : P (as[k], bytesOf (elemN v k (8 * n)) n) = true) : (elemWrites as v n).filter P =
        pre.filter P ++ (as[k], bytesOf (elemN v k (8 * n)) n) :: post.filter P := by
      rw [hsplit, List.filter_append, List.filter_cons_of_pos hP]
    rw [hkeep _ (by rw [Bool.eq_false_iff.mpr hl]; rfl), memGet_pokeAll_last hwf hcov (fun q hq => hpost q (List.mem_of_mem_filter hq)), byteAt_bytesOf _ _ hb]
end

/-- Settles O25: the fault, the store held back or buffered, and the bytes that a store leaves. -/
theorem scratchpadStores : Obligations.ScratchpadStores := by
  unfold Obligations.ScratchpadStores
  intro o s hg hwf e w ea me src s0 may waits key left done S trap els
  have hdone {ws : List (Nat × List Byte)} {t : State} (h : StoreDone s t ws) : done t ws := ⟨h.regs, h.flight, h.whole, h.left⟩
  have hwaits {i : Instr} {st : Stage} {ws : List (Nat × List Byte)} (he : exec i s = .next (scratchStore o s ws))
      (h : storeWaits s (scratchStore o s ws) st ws) : waits i st ws := by
    obtain ⟨p, hmem, hregs, hflight, hpkts, hrest⟩ := h
    exact ⟨_, p, he, hmem, hregs, hflight, hpkts, hrest⟩
  have hS {i : Instr} {a n : Nat} (he : exec i s = .next (scratchStore o s [(a, bytesOf src n)])) : S i a n := by
    refine ⟨fun hseg hmay => ?_, fun hseg hmay => hwaits he (scratchStore_held hseg hmay), fun hseg => hwaits he (scratchStore_buffered hseg)⟩
    have hst := scratchStore_done hseg hmay
    exact ⟨_, he, hdone hst, stored_one hwf hst⟩
  have hsts : exec (.sts o) s = guardedFault o.slot.slot o.g s (daLocalFault o s e) (fun s => scratchStore o s [(s.eaDA o e, bytesOf (s.daSrc o) e)]) := rfl
  have hstv : exec (.stv o) s = execStv o s := rfl
  have hsct : exec (.sct o) s = guardedFault o.slot.slot o.g s (idxFault o s) (fun s => scratchStore o s (elemWrites (s.eaIdx o) (s.daSrc o) e)) := rfl
  have hstvFault (hwin : isWindow (s.eaDA o w) = false) : stvFault o s = s.localFault o.slot.slot.index ea :=
    if_neg (Bool.eq_false_iff.mp hwin)
  have hstore (hok : ∀ a ∈ s.eaElems o, a < s.cur.limit) : exec (.sct o) s = .next (scratchStore o s els) := exec_acts hsct hg (idxFault_none hok)
  refine ⟨fun hbad => exec_faults hsts hg (localFault_bad _ hbad), fun hwin hbad => exec_faults hstv hg ((hstvFault hwin).trans (localFault_bad _ hbad)),
    fun a ha => exec_faults hsct hg (by rw [idxFault_eq, ha]; rfl), fun hok => hS (exec_acts hsts hg (localFault_good _ hok)), fun hwin hok => hS ?_,
    fun hok hseg hmay => ?_, fun hok hseg hmay => hwaits (hstore hok) (scratchStore_held hseg hmay),
    fun hok hseg => hwaits (hstore hok) (scratchStore_buffered hseg)⟩
  · exact (exec_acts hstv hg ((hstvFault hwin).trans (localFault_good _ hok))).trans (congrArg Host.Outcome.next (if_neg (Bool.eq_false_iff.mp hwin)))
  · have hst : StoreDone s (scratchStore o s els) els := scratchStore_done hseg hmay
    have hlen : (s.eaIdx o).length = 128 / e := length_eaIdx s o
    refine ⟨_, hstore hok, hdone hst, fun x hx => stored_elems_apart hwf hst hx, fun k hk hlast => ?_⟩
    intro a b hb
    have hk' : k < (s.eaIdx o).length := hlen ▸ hk
    have ha : a = (s.eaIdx o)[k] := List.getD_eq_getElem _ _ hk'
    rw [ha]
    refine stored_elems_last hwf (szBytes_pos o.sz) (szBytes_dvd o.sz) (fun a ha => dvd_eaIdx ha) hst hk' (fun j hj hkj => ?_) hb
    have hne := hlast j (hlen ▸ hj) hkj
    rwa [List.getD_eq_getElem _ _ hj, List.getD_eq_getElem _ _ hk'] at hne

end Sys2Proof.Machine

namespace Sys2Proof.Machine

/-! ## An access at its home slice and at its memory controller (R244, R247, R409, R410) -/

theorem mem_putPkt {s : State} {q r : Pkt} (hr : r ∈ (s.putPkt q).pkts) (hid : r.id = q.id) : r = q := by
  obtain ⟨x, _, rfl⟩ := List.mem_map.mp hr
  by_cases hx : x.id = q.id
  · exact if_pos (decide_eq_true hx)
  · rw [if_neg (fun h => hx (of_decide_eq_true h))] at hid
    exact absurd hid hx

/-- What a slice that touches a line leaves alone besides the bytes of memory. -/
structure SliceKept (s t : State) : Prop where
  read : ReadKept s t
  pkts : t.pkts = s.pkts
  poison : t.poison = s.poison
  uncorr : t.uncorr = s.uncorr
  sunk : t.sunk = s.sunk
  mig : ∀ n, (t.chip n).mig = (s.chip n).mig

theorem sliceKept_refl (s : State) : SliceKept s s := ⟨readKept_refl s, rfl, rfl, rfl, rfl, fun _ => rfl⟩
theorem SliceKept.trans {s t u : State} (h : SliceKept s t) (h' : SliceKept t u) : SliceKept s u where
  read := h.read.trans h'.read
  pkts := h'.pkts.trans h.pkts
  poison := h'.poison.trans h.poison
  uncorr := h'.uncorr.trans h.uncorr
  sunk := h'.sunk.trans h.sunk
  mig n := (h'.mig n).trans (h.mig n)
theorem sliceKept_updChip (s : State) (n : Nat) {f : Chip → Chip} (hf : (f (s.chip n)).mig = (s.chip n).mig) : SliceKept s (s.updChip n f) := by
  refine ⟨readKept_updChip s n f, rfl, rfl, rfl, rfl, fun m => ?_⟩
  rw [State.chip_updChip]
  split
  case isTrue h => rw [hf, h]
  case isFalse => rfl
theorem sliceKept_updGang (s : State) (n g : Nat) (f : Gang → Gang) : SliceKept s (s.updGang n g f) := sliceKept_updChip s n rfl
theorem countGrant_sliceKept (s : State) (p : Pkt) : SliceKept s (s.countGrant p) := by
  unfold State.countGrant
  split
  · exact sliceKept_refl s
  · exact sliceKept_updChip _ _ (by rfl)
theorem touchLine_sliceKept (s : State) (n a : Nat) (w : Who) (ef wr : Bool) : SliceKept s (touchLine s n a w ef wr).1 := by
  unfold touchLine
  dsimp only
  split
  · dsimp only
    exact sliceKept_updChip s n rfl
  · split
    · dsimp only
      exact sliceKept_updChip s n rfl
    · exact sliceKept_refl s
/-- A line that the L2 holds has no victim. -/
theorem dirtyOut_of_touched {s : State} {n a : Nat} {w : Who} {ef wr : Bool} (h : (touchLine s n a w ef wr).2 = true) : s.dirtyOut n a w = none := by
  unfold touchLine at h
  dsimp only at h
  split at h
  case h_1 i hi => exact if_pos (by rw [hi]; rfl)
  case h_2 =>
    split at h
    · cases h
    · cases h

theorem countHeld_pkts (s : State) (n : Nat) (st : Stage) : (countHeld s n st).pkts = s.pkts := by
  unfold countHeld; split <;> rfl
/-- A request that a slice holds is counted, which changes its chip's stall count alone. -/
theorem countHeld_mig (s : State) (n : Nat) (st : Stage) : ((countHeld s n st).chip n).mig =
    { (s.chip n).mig with stalls := if st = .wmHold then inc32 (s.chip n).mig.stalls else (s.chip n).mig.stalls } := by
  unfold countHeld
  split
  · rw [State.chip_updChip_same]
  · rfl
theorem writeBack_pkts (s : State) (n : Nat) (x : Pkt) (b g : Nat) : (writeBack s n x (some (b, g))).pkts =
    s.pkts ++ [x.backOf s.nextId n s.now g b (mcStage (s.chip n).mig b)] := countHeld_pkts _ _ _
theorem writeBack_sends (s : State) (n : Nat) (x : Pkt) (b g : Nat) : ∃ r ∈ (writeBack s n x (some (b, g))).pkts,
    r.op = .writeBack g ∧ r.va = b ∧ r.dst = n ∧ r.slack = x.slack ∧ r.stage = mcStage (s.chip n).mig b := by
  rw [writeBack_pkts]
  exact ⟨_, List.mem_append_right _ (List.mem_singleton_self _), rfl, rfl, rfl, rfl, rfl⟩
/-- The stage of a request does not depend on the count of those held. -/
theorem mcStage_stalls (m : Mig) (k : BitVec 32) (a : Nat) : mcStage { m with stalls := k } a = mcStage m a := rfl
/-- The packets after a writeback: those before it, and the writeback itself. -/
theorem mem_writeBack {s : State} {n : Nat} {x r : Pkt} {o : Option (Nat × Nat)} (hr : r ∈ (writeBack s n x o).pkts) (hb : r.isWriteBack = false) :
    r ∈ s.pkts := by
  match o with
  | none => exact hr
  | some (b, g) =>
    rw [writeBack_pkts, List.mem_append, List.mem_singleton] at hr
    rcases hr with hr | rfl
    · exact hr
    · cases hb

section
variable {s : State} {p : Pkt}

/-- The packet of the step stands at its home slice, which grants it. -/
structure AtSlice (s : State) (p : Pkt) : Prop where
  found : s.thePkt = some p
  stage : p.stage = .slice
  eligible : s.eligible p = true
  wins : s.wins p = true

/-- The state in which its line has been touched, a miss counted in its gang's bytes. -/
def State.sliceTouched (s : State) (p : Pkt) : State :=
  let q := touchLine (s.countGrant p) p.dst (s.pktDpa p) p.who p.ef p.isWrite
  q.1.updGang p.dst p.gctx (fun g => { g with hbmBytes := g.hbmBytes + (if q.2 then 0 else 128) })
theorem sliceTouched_kept (s : State) (p : Pkt) : SliceKept s (s.sliceTouched p) := by
  have hline := touchLine_sliceKept (s.countGrant p) p.dst (s.pktDpa p) p.who p.ef p.isWrite
  unfold State.sliceTouched
  exact ((countGrant_sliceKept s p).trans hline).trans (sliceKept_updGang _ _ _ _)

/-- An access that the slice serves goes on with its line there. -/
theorem served_kept {u : State} (hu : SliceKept s u) (q : Pkt) : let t := u.putPkt q
    t.mem = s.mem ∧ t.ctxs = s.ctxs ∧ ∀ r ∈ t.pkts, r.id = q.id → r.isWriteBack = false → r = q :=
  ⟨hu.read.mem, hu.read.ctxs, fun _ hr hid _ => mem_putPkt hr hid⟩

variable (h : AtSlice s p)
include h

theorem not_refused : ¬ (p.stage ≠ .slice || !s.eligible p || !s.wins p) = true := by
  rw [h.stage, h.eligible, h.wins]; decide
theorem slice_past_own (hcap : s.capLimit p.dst ≤ s.pktDpa p) (hpre : p.isPrefetch = false) (hown : p.dst = p.who.chip) :
    exec .homeSliceAccess s = .next (answer (pktFault (s.countGrant p) (p.grant s.now .slice) 0x0C .none) (p.grant s.now .slice)) := by
  show execHomeSliceAccess s = _
  rw [execHomeSliceAccess, h.found]
  dsimp only
  rw [if_neg (not_refused h)]
  exact (if_pos hcap).trans ((if_neg (Bool.eq_false_iff.mp hpre)).trans (if_pos hown))
theorem slice_past_other (hcap : s.capLimit p.dst ≤ s.pktDpa p) (hpre : p.isPrefetch = false) (hother : p.dst ≠ p.who.chip) :
    exec .homeSliceAccess s = .next (answer (s.countGrant p) { p.grant s.now .slice with fault := 0x0C }) := by
  show execHomeSliceAccess s = _
  rw [execHomeSliceAccess, h.found]
  dsimp only
  rw [if_neg (not_refused h)]
  exact (if_pos hcap).trans ((if_neg (Bool.eq_false_iff.mp hpre)).trans (if_neg hother))
theorem slice_within (hcap : s.pktDpa p < s.capLimit p.dst) : exec .homeSliceAccess s =
    let u := s.sliceTouched p
    let st := mcStage (s.chip p.dst).mig (s.pktDpa p)
    if s.buffers p.dst (s.pktDpa p) then .next ((s.countGrant p).putPkt (p.grant s.now .ready))
    else if (touchLine (s.countGrant p) p.dst (s.pktDpa p) p.who p.ef p.isWrite).2 then .next (u.putPkt (p.grant s.now .ready))
    else .next (writeBack (countHeld (u.putPkt (p.grant s.now st)) p.dst st) p.dst (p.grant s.now .slice)
      ((s.countGrant p).dirtyOut p.dst (s.pktDpa p) p.who)) := by
  show execHomeSliceAccess s = _
  rw [execHomeSliceAccess, h.found]
  dsimp only
  rw [if_neg (not_refused h)]
  exact if_neg (Nat.not_le.mpr hcap)
/-- R244, R247, R410: below the limit the access goes on with its line, or to memory with its victim on the way there. -/
theorem slice_serves (hcap : s.pktDpa p < s.capLimit p.dst) : let a := s.pktDpa p; let m := (s.chip p.dst).mig; let s1 := s.countGrant p
    ∃ t, exec .homeSliceAccess s = .next t ∧ t.mem = s.mem ∧ t.ctxs = s.ctxs ∧
      (∀ r ∈ t.pkts, r.id = p.id → r.isWriteBack = false →
        r = p.grant s.now (if s.buffers p.dst a || (touchLine s1 p.dst a p.who p.ef p.isWrite).2 then .ready else mcStage m a)) ∧
      (s.buffers p.dst a = false → ∀ b g, s1.dirtyOut p.dst a p.who = some (b, g) →
        ∃ r ∈ t.pkts, r.op = .writeBack g ∧ r.va = b ∧ r.dst = p.dst ∧ r.slack = (p.grant s.now .slice).slack ∧ r.stage = mcStage m b) := by
  intro a m s1
  rw [slice_within h hcap]
  cases hbuf : s.buffers p.dst a with
  | true =>
    obtain ⟨hmem, hctxs, hpkt⟩ := served_kept (countGrant_sliceKept s p) (p.grant s.now .ready)
    exact ⟨_, if_pos rfl, hmem, hctxs, hpkt, fun hno => nomatch hno⟩
  | false =>
    cases htouch : (touchLine s1 p.dst a p.who p.ef p.isWrite).2 with
    | true =>
      obtain ⟨hmem, hctxs, hpkt⟩ := served_kept (sliceTouched_kept s p) (p.grant s.now .ready)
      refine ⟨_, (if_neg Bool.false_ne_true).trans (if_pos rfl), hmem, hctxs, hpkt, fun _ b g hout => ?_⟩
      rw [dirtyOut_of_touched htouch] at hout
      cases hout
    | false =>
      obtain ⟨hmem, hctxs, hpkt⟩ := served_kept (sliceTouched_kept s p) (p.grant s.now (mcStage m a))
      have hheld := countHeld_readKept ((s.sliceTouched p).putPkt (p.grant s.now (mcStage m a))) p.dst (mcStage m a)
      have hback := writeBack_readKept (countHeld ((s.sliceTouched p).putPkt (p.grant s.now (mcStage m a))) p.dst (mcStage m a)) p.dst (p.grant s.now .slice) (s1.dirtyOut p.dst a p.who)
      refine ⟨_, (if_neg Bool.false_ne_true).trans (if_neg Bool.false_ne_true), (hheld.trans hback).mem.trans hmem,
        (hheld.trans hback).ctxs.trans hctxs, fun r hr hid hb => hpkt r ?_ hid hb, fun _ b g hout => ?_⟩
      · rw [← countHeld_pkts _ p.dst (mcStage m a)]
        exact mem_writeBack hr hb
      · have hsame : mcStage ((countHeld ((s.sliceTouched p).putPkt (p.grant s.now (mcStage m a))) p.dst (mcStage m a)).chip p.dst).mig b = mcStage m b := by
          rw [countHeld_mig, mcStage_stalls]
          exact congrArg (mcStage · b) ((sliceTouched_kept s p).mig p.dst)
        rw [hout, ← hsame]
        exact writeBack_sends _ _ _ b g
end
end Sys2Proof.Machine

namespace Sys2Proof.Machine

/-! ## A request at its memory controller (R244, R409) -/

theorem cellsShow_readKept (s : State) (n a : Nat) : ReadKept s (cellsShow s n a) := by
  unfold cellsShow State.lineFails
  dsimp only
  split
  · split
    · exact readKept_refl s
    · exact ⟨rfl, rfl, rfl⟩
  · split
    · exact readKept_updChip s _ _
    · exact readKept_refl s
theorem cellsShow_zero {s : State} (n a : Nat) (h : s.sel.val = 0) : cellsShow s n a = s := by
  unfold cellsShow
  rw [h]
  rfl
theorem fillLine_sound {s : State} {n a : Nat} (hu : s.uncorr.contains (hbmKey n (a / 128 * 128)) = false)
    (hs : s.sunk.contains (hbmKey n (a / 128 * 128)) = false) : fillLine s n a = s :=
  (if_neg (Bool.eq_false_iff.mp hu)).trans (if_neg (Bool.eq_false_iff.mp hs))
theorem mem_setPoison (s : State) (k : Nat) {i n : Nat} (h : i < n) : k + i ∈ (s.setPoison k n).poison :=
  List.mem_append_left _ (List.mem_map.mpr ⟨i, List.mem_range.mpr h, rfl⟩)
theorem fillLine_failed {s : State} {n a : Nat} (hu : s.uncorr.contains (hbmKey n (a / 128 * 128)) = true) :
    (∀ i < 128, hbmKey n (a / 128 * 128) + i ∈ (fillLine s n a).poison) ∧
      (let st := stackOf ((s.chip n).mig.maskAt a) a; ((fillLine s n a).chip n).mig.ue.get st 0 = inc32 ((s.chip n).mig.ue.get st 0)) := by
  unfold fillLine
  dsimp only
  rw [if_pos hu]
  refine ⟨fun i hi => mem_setPoison s _ hi, ?_⟩
  rw [State.chip_updChip_same]
  exact AMap.get_set_same _ _ _ _

/-- The tags of a request are not those of the controllers' map, or its period is being moved (R409). -/
def Mig.staleTags (m : Mig) (ph : Nat) (mk : BitVec 12) (a : Nat) : Bool :=
  decide (ph ≠ m.phase.toNat % 256) || decide (mk ≠ m.maskAt a) || (m.active && m.marked && decide (m.wm = periodOf a))

/-- The packet of the step stands at its memory controller, which accepts it. -/
structure AtController (s : State) (p : Pkt) (ph : Nat) (mk : BitVec 12) : Prop where
  found : s.thePkt = some p
  stage : p.stage = .mc ph mk
  eligible : s.eligible p = true
  wins : s.wins p = true
  val : s.sel.val ≠ 3

/-- The state in which a stale request has been counted and is to be sent again. -/
def State.replayed (s : State) (p : Pkt) : State :=
  let st := mcStage (s.chip p.dst).mig (s.pktDpa p)
  ((s.countGrant p).putPkt (p.grant s.now st)).updChip p.dst (fun c => { c with mig := { c.mig with replays := inc32 c.mig.replays } })
/-- The state in which the line of a request has come from memory. -/
def State.filled (s : State) (p : Pkt) : State := fillLine (cellsShow (s.countGrant p) p.dst (s.pktDpa p)) p.dst (s.pktDpa p)

theorem filled_readKept (s : State) (p : Pkt) : ReadKept s (s.filled p) :=
  (countGrant_sliceKept s p).read.trans ((cellsShow_readKept _ _ _).trans (fillLine_readKept _ _ _))

section
variable {s : State} {p : Pkt} {ph : Nat} {mk : BitVec 12} (h : AtController s p ph mk)
include h

theorem controller_accepts : ¬ (!s.eligible p || !s.wins p) = true := by rw [h.eligible, h.wins]; decide
theorem mc_stale (hstale : (s.chip p.dst).mig.staleTags ph mk (s.pktDpa p) = true) :
    exec .mcRequestAccept s = .next (countHeld (s.replayed p) p.dst (mcStage (s.chip p.dst).mig (s.pktDpa p))) := by
  show execMcRequestAccept s = _
  rw [execMcRequestAccept, if_neg h.val, h.found]
  dsimp only
  rw [h.stage]
  exact (if_neg (controller_accepts h)).trans (if_pos hstale)
theorem mc_current (hstale : (s.chip p.dst).mig.staleTags ph mk (s.pktDpa p) = false) (hback : p.isWriteBack = false) :
    exec .mcRequestAccept s = .next ((s.filled p).putPkt (p.grant s.now .ready)) := by
  show execMcRequestAccept s = _
  rw [execMcRequestAccept, if_neg h.val, h.found]
  dsimp only
  rw [h.stage]
  refine (if_neg (controller_accepts h)).trans ((if_neg (Bool.eq_false_iff.mp hstale)).trans ?_)
  split
  case h_1 g hop => rw [Pkt.isWriteBack, hop] at hback; cases hback
  case h_2 => rfl
theorem mc_back (hstale : (s.chip p.dst).mig.staleTags ph mk (s.pktDpa p) = false) (hback : p.isWriteBack = true) :
    ∃ t, exec .mcRequestAccept s = .next t ∧ t.mem = s.mem ∧ t.poison = s.poison ∧ t.pkts = s.pkts.filter (fun q => q.id ≠ p.id) := by
  have hkept := countGrant_sliceKept s p
  unfold Mig.staleTags at hstale
  show ∃ t, execMcRequestAccept s = .next t ∧ _
  rw [execMcRequestAccept, if_neg h.val, h.found]
  dsimp only
  rw [h.stage]
  dsimp only
  rw [if_neg (controller_accepts h), if_neg (Bool.eq_false_iff.mp hstale)]
  split
  case h_1 g hop => exact ⟨_, rfl, hkept.read.mem, hkept.poison, congrArg _ hkept.pkts⟩
  case h_2 hop =>
    unfold Pkt.isWriteBack at hback
    split at hback
    case h_1 g hg => exact absurd hg (hop g)
    case h_2 => cases hback

/-- R244: a sound line comes from memory as it is. -/
theorem mc_sound (hstale : (s.chip p.dst).mig.staleTags ph mk (s.pktDpa p) = false) (hback : p.isWriteBack = false) (hval : s.sel.val = 0)
    (hu : s.uncorr.contains (hbmKey p.dst (s.pktDpa p / 128 * 128)) = false) (hs : s.sunk.contains (hbmKey p.dst (s.pktDpa p / 128 * 128)) = false) :
    exec .mcRequestAccept s = .next ((s.countGrant p).putPkt (p.grant s.now .ready)) := by
  have hkept := countGrant_sliceKept s p
  have hval' : (s.countGrant p).sel.val = 0 := by rw [hkept.read.sel, hval]
  rw [mc_current h hstale hback, State.filled, cellsShow_zero _ _ hval', fillLine_sound (by rw [hkept.uncorr, hu]) (by rw [hkept.sunk, hs])]
/-- R244: a line that cannot be corrected comes poisoned, and is counted. -/
theorem mc_failed (hstale : (s.chip p.dst).mig.staleTags ph mk (s.pktDpa p) = false) (hback : p.isWriteBack = false) (hval : s.sel.val = 0)
    (hu : s.uncorr.contains (hbmKey p.dst (s.pktDpa p / 128 * 128)) = true) : let m := (s.chip p.dst).mig
    ∃ t, exec .mcRequestAccept s = .next t ∧ t.mem = s.mem ∧ (∀ i < 128, hbmKey p.dst (s.pktDpa p / 128 * 128) + i ∈ t.poison) ∧
      (let st := stackOf (m.maskAt (s.pktDpa p)) (s.pktDpa p); (t.chip p.dst).mig.ue.get st 0 = inc32 (m.ue.get st 0)) := by
  have hkept := countGrant_sliceKept s p
  have hval' : (s.countGrant p).sel.val = 0 := by rw [hkept.read.sel, hval]
  obtain ⟨hpoison, hcount⟩ := fillLine_failed (s := s.countGrant p) (n := p.dst) (a := s.pktDpa p) (by rw [hkept.uncorr, hu])
  rw [hkept.mig] at hcount
  rw [mc_current h hstale hback, State.filled, cellsShow_zero _ _ hval']
  exact ⟨_, rfl, (fillLine_readKept _ _ _).mem.trans hkept.read.mem, hpoison, hcount⟩
/-- R409: a stale request is counted and sent again; a current one goes on. -/
theorem mc_goes : let m := (s.chip p.dst).mig; let stale := m.staleTags ph mk (s.pktDpa p); let st := mcStage m (s.pktDpa p)
    ∃ t, exec .mcRequestAccept s = .next t ∧ t.mem = s.mem ∧ (∀ q ∈ t.pkts, q.id = p.id → q = p.grant s.now (if stale then st else .ready)) ∧
      (stale = true → (t.chip p.dst).mig.replays = inc32 m.replays ∧
        (t.chip p.dst).mig.stalls = if st = .wmHold then inc32 m.stalls else m.stalls) := by
  intro m stale st
  have hkept := countGrant_sliceKept s p
  cases hstale : stale with
  | true =>
    have hmig : ((s.replayed p).chip p.dst).mig = { m with replays := inc32 m.replays } := by
      show (State.chip (State.updChip _ _ _) p.dst).mig = _
      rw [State.chip_updChip_same]
      show { ((s.countGrant p).chip p.dst).mig with replays := inc32 ((s.countGrant p).chip p.dst).mig.replays } = _
      rw [hkept.mig]
    refine ⟨_, mc_stale h hstale, (countHeld_readKept _ _ _).mem.trans hkept.read.mem, fun q hq hid => ?_, fun _ => ?_⟩
    · rw [countHeld_pkts] at hq
      exact mem_putPkt hq hid
    · rw [countHeld_mig, hmig]
      exact ⟨rfl, rfl⟩
  | false =>
    cases hback : p.isWriteBack with
    | true =>
      obtain ⟨t, ht, hmem, _, hpkts⟩ := mc_back h hstale hback
      refine ⟨t, ht, hmem, fun q hq hid => ?_, fun hno => nomatch hno⟩
      rw [hpkts] at hq
      exact absurd hid (of_decide_eq_true (List.mem_filter.mp hq).2)
    | false =>
      exact ⟨_, mc_current h hstale hback, (filled_readKept s p).mem, fun q hq hid => mem_putPkt hq hid, fun hno => nomatch hno⟩
end
end Sys2Proof.Machine

namespace Sys2Proof.Machine

/-! ## An access performed (R180, R263 to R265, R369) -/

theorem poolIdle_putPkt {s : State} (h : s.poolIdle) {p : Pkt} (hp : p.isPool = false) : (s.putPkt p).poolIdle := by
  intro q hq hpool
  obtain ⟨x, hx, rfl⟩ := List.mem_map.mp hq
  by_cases hid : x.id = p.id
  · rw [if_pos (decide_eq_true hid), hp] at hpool
    cases hpool
  · rw [if_neg (fun h => hid (of_decide_eq_true h))] at hpool ⊢
    exact h x hx hpool
theorem bumpExpect_kept (s : State) (p : Pkt) : (bumpExpect s p).mem = s.mem ∧ (bumpExpect s p).pkts = s.pkts := by
  unfold bumpExpect; split <;> exact ⟨rfl, rfl⟩
/-- An answer changes no memory. -/
theorem answer_mem_idle {s : State} (h : s.poolIdle) {p : Pkt} (hp : p.isPool = false) : (answer s p).mem = s.mem := by
  obtain ⟨hmem, hpkts⟩ := bumpExpect_kept (sendBack s p) p
  have hidle : (bumpExpect (sendBack s p) p).poolIdle := by
    rw [State.poolIdle, hpkts]
    exact poolIdle_putPkt h hp
  exact (settle_mem_idle hidle).trans hmem
theorem askDirty_mem (s : State) (n g : Nat) (w : Who) (ext page : Nat) : (askDirty s n g w ext page).mem = s.mem := by
  unfold askDirty; dsimp only; split <;> rfl
theorem mergeLimit_mem (s : State) (w : Who) (slot gran : Nat) : (mergeLimit s w slot gran).mem = s.mem := by
  unfold mergeLimit
  dsimp only
  split
  · exact State.fileFault_mem _ _ _ _
  · exact takeTrap_mem _ _ _

theorem unitGate_clear {s : State} {l : List (Nat × Nat)} (h : s.unitHeld l = []) (go : Out) : unitGate s l go = go :=
  if_pos (List.isEmpty_iff.mpr h)
theorem revTouch_l2 {s : State} {p : Pkt} {k l r : Nat} (hop : p.op = .l2 k l r) : s.revTouch p = none := by
  unfold State.revTouch
  rw [hop]
  cases p.target <;> rfl

section
variable {s : State} {p : Pkt}

theorem sorrel_plain (hrev : s.revTouch p = none) (hl2 : ∀ k l r, p.op ≠ .l2 k l r) : sorrelPerform s p = .next (performNow s p) := by
  rw [sorrelPerform, hrev]
  dsimp only
  split
  case h_1 k l r hop => exact absurd hop (hl2 k l r)
  case h_2 => rfl
  case h_3 hsome _ => cases hsome
theorem sorrel_l2 {k l r : Nat} (hop : p.op = .l2 k l r) (hpool : s.poolMeets p.dst p.gctx (s.l2Copies p l) = .no) (hk : k ≠ 0) :
    sorrelPerform s p = .next (performNow s p) := by
  rw [sorrelPerform, hop]
  dsimp only
  rw [hpool]
  exact if_neg hk

variable {rev gran : Nat} (hrev : s.revTouch p = some (rev, gran))
include hrev

theorem not_l2_of_granule (k l r : Nat) : p.op ≠ .l2 k l r := by
  intro hop
  rw [revTouch_l2 hop] at hrev
  cases hrev
/-- An access of a granule that meets nothing at Sorrel, its copies made, is performed. -/
theorem sorrel_clear (hmeets : s.sorrelMeets p rev gran = .no) {need : Nat} (hneed : need = if p.writes then (s.gang p.dst p.gctx).needCount rev gran else 0)
    (hheld : s.unitHeld (s.copyLines p.dst p.gctx rev gran need) = []) {s1 : State}
    (hcopies : (if p.writes then prepareWrite s p.dst p.gctx rev gran p.who else some s) = some s1) :
    sorrelPerform s p = .next (performNow s1 p) := by
  rw [sorrelPerform, hrev]
  dsimp only
  split
  case h_1 k l r hop => exact absurd hop (not_l2_of_granule hrev k l r)
  case h_2 hnone _ => cases hnone
  case h_3 hsome _ =>
    cases hsome
    rw [hmeets]
    dsimp only
    rw [← hneed, unitGate_clear hheld, hcopies]
theorem sorrel_read (hmeets : s.sorrelMeets p rev gran = .no) (hw : p.writes = false) : sorrelPerform s p = .next (performNow s p) :=
  sorrel_clear hrev hmeets (need := 0) (by rw [hw]; rfl) rfl (by rw [hw]; rfl)
theorem sorrel_write (hmeets : s.sorrelMeets p rev gran = .no) (hw : p.writes = true)
    (hheld : s.unitHeld (s.copyLines p.dst p.gctx rev gran ((s.gang p.dst p.gctx).needCount rev gran)) = []) {s1 : State}
    (hcopies : prepareWrite s p.dst p.gctx rev gran p.who = some s1) : sorrelPerform s p = .next (performNow s1 p) :=
  sorrel_clear hrev hmeets (by rw [hw]; rfl) hheld (by rw [hw]; exact hcopies)
/-- An access that comes to wait at Sorrel, or that a page ends there, changes no memory. -/
theorem sorrel_waits (hstage : p.stage = .ready) (hpool : p.isPool = false) (hidle : s.poolIdle) (hmeets : s.sorrelMeets p rev gran ≠ .no) :
    ∃ t, sorrelPerform s p = .next t ∧ t.mem = s.mem := by
  have hfirst : decide (p.stage = .sorrel) = false := by rw [hstage]; rfl
  rw [sorrelPerform, hrev]
  dsimp only
  split
  case h_1 k l r hop => exact absurd hop (not_l2_of_granule hrev k l r)
  case h_2 hnone _ => cases hnone
  case h_3 hsome _ =>
    cases hsome
    rw [hfirst]
    cases hwait : s.sorrelMeets p rev gran with
    | no => exact absurd hwait hmeets
    | full => exact ⟨_, rfl, mergeLimit_mem _ _ _ _⟩
    | absent a e pg =>
      refine ⟨_, rfl, ?_⟩
      split <;> rfl
    | bad a code => exact ⟨_, rfl, answer_mem_idle hidle hpool⟩
    | clean e pg => exact ⟨_, rfl, askDirty_mem _ _ _ _ _ _⟩
end

/-- The packet of the step is ready to be performed whole, with nothing of its chip in its way. -/
structure MayPerform (s : State) (p : Pkt) : Prop where
  found : s.thePkt = some p
  stage : p.stage = .ready
  pool : p.isPool = false
  host : s.hostDown p = false
  vote : s.voteStops p = false
  turn : s.inTurn p = true
  whole : s.sel.val = 0

section
variable {s : State} {p : Pkt}

theorem performed_asks (h : MayPerform s p) {e pg : Nat} (hlog : s.needsLog p = some (e, pg)) :
    exec .accessPerformed s = .next (askDirty (s.putPkt { p with stage := .dlog }) p.dst p.gctx p.who e pg) := by
  show execAccessPerformed s = _
  rw [execAccessPerformed, h.found]
  dsimp only
  rw [h.pool, h.stage, h.host, h.vote, h.turn, hlog, h.whole]
  rfl
theorem performed_eq (h : MayPerform s p) (hlog : s.needsLog p = none) : exec .accessPerformed s = sorrelPerform s p := by
  show execAccessPerformed s = _
  rw [execAccessPerformed, h.found]
  dsimp only
  rw [h.pool, h.stage, h.host, h.vote, h.turn, hlog, h.whole]
  rfl
theorem granted_eq (hp : s.thePkt = some p) (hstage : p.stage = .sorrel) (hvote : s.voteStops p = false) :
    exec .sorrelSlotGrant s = sorrelPerform s p := by
  show execSorrelSlotGrant s = _
  rw [execSorrelSlotGrant, hp]
  dsimp only
  rw [hstage, hvote]
  rfl
end
end Sys2Proof.Machine

namespace Sys2Proof.Machine

/-! ## What an access leaves in memory (R176, R177, R254) -/

theorem poolIdle_filter {s t : State} (h : s.poolIdle) {P : Pkt → Bool} (ht : t.pkts = s.pkts.filter P) : t.poolIdle := by
  intro q hq hpool
  rw [ht] at hq
  exact h q (List.mem_of_mem_filter hq) hpool
theorem clearBusy_ctx (s : State) (w : Who) (id : Nat) : (clearBusy s w id).ctx w = { s.ctx w with busy := (s.ctx w).busy.filter (fun b => b.id ≠ id) } :=
  State.ctx_updCtx_same _ _ _
theorem endPkt_mem_idle {s : State} (h : s.poolIdle) (p : Pkt) : (endPkt s p).mem = s.mem :=
  settle_mem_idle (s := clearBusy (s.dropPkt p.id) p.who p.id) (poolIdle_filter h rfl)
theorem endPkt_ctx (s : State) (p : Pkt) : (endPkt s p).ctx p.who = { s.ctx p.who with busy := (s.ctx p.who).busy.filter (fun b => b.id ≠ p.id) } :=
  (settle_ctx _ _).trans (clearBusy_ctx (s.dropPkt p.id) p.who p.id)

/-- The state in which what a load has brought back is in its register. -/
def State.loadLanded (s : State) (p : Pkt) (d : Dest) : State :=
  (endPkt s p).updCtx p.who (fun c => (c.putReg p.inst d (BitVec.ofNat 4096 (ofBytes p.result)) d.full).setFlags (s.clkOf p.who) p.inst p.rflags)
theorem loadLanded_ctx (s : State) (p : Pkt) (d : Dest) : let c := (s.loadLanded p d).ctx p.who
    c.pc = (s.ctx p.who).pc ∧
    c.regs = (s.ctx p.who).regs.set d (merge ((s.ctx p.who).regs.get d) (BitVec.ofNat 4096 (ofBytes p.result)) d.full) ∧
    c.busy = (s.ctx p.who).busy.filter (fun b => b.id ≠ p.id) := by
  unfold State.loadLanded
  rw [State.ctx_updCtx_same, endPkt_ctx]
  exact ⟨rfl, rfl, rfl⟩
/-- R176, R334: what a load brings back lands in its register once no earlier result of it is in flight. -/
theorem load_lands {s : State} {p : Pkt} (hp : s.thePkt = some p) {k : Nat} {d : Dest} (hop : p.op = .load k d) (hland : s.mayLand p = true)
    (hkeep : p.dropLanding = false) (hsound : p.poison = false) (hfree : ∀ l ∈ (s.ctx p.who).flight, l.dest ≠ d) :
    exec .globalLoadLand s = .next (s.loadLanded p d) := by
  have hnone : (s.ctx p.who).flight.any (fun l => l.dest = d) = false := List.any_eq_false.mpr (fun l hl h => hfree l hl (of_decide_eq_true h))
  show execGlobalLoadLand s = _
  rw [execGlobalLoadLand, hp]
  dsimp only
  rw [hop]
  dsimp only
  rw [hland, hkeep, hnone, hsound]
  rfl

theorem left_all {p : Pkt} (h : p.pieces = []) (k : Nat) : p.left k (fun _ => true) = piecesOf k p.op.bytes := by
  rw [Pkt.left, h]
  exact (congrArg (List.map Prod.fst) (List.filter_eq_self.mpr (fun _ _ => rfl))).trans (List.zipIdx_map_fst 0 _)
theorem writePieces_mem (p : Pkt) (k : Nat) (b : List Byte) : ∀ (l : List (Nat × Nat)) (s : State),
    (writePieces s p k b l).mem = memPuts s.mem (l.map (fun q => (k + q.1, (b.drop q.1).take q.2)))
  | [], _ => rfl
  | q :: r, s => by
    rw [writePieces, List.foldl_cons]
    refine (writePieces_mem p k b r _).trans ?_
    cases p.poison <;> rfl
theorem coverLines_mem (s : State) (p : Pkt) (k n : Nat) : (coverLines s p k n).mem = s.mem := by
  unfold coverLines; dsimp only; split <;> rfl
/-- A store writes its bytes piece by piece. -/
theorem memEffect_store_mem (s : State) {p : Pkt} {b : List Byte} (hop : p.op = .store b) (hwhole : p.pieces = []) :
    (memEffect s p).1.mem = memPuts s.mem (splitWrites [(s.pktKey p, b)]) := by
  rw [memEffect, hop]
  dsimp only
  rw [coverLines_mem, writePieces_mem, left_all hwhole, hop, splitWrites_one]
  rfl
theorem memEffect_store {s : State} (hwf : Memory.wf s.mem = true) {p : Pkt} {b : List Byte} (hop : p.op = .store b) (hwhole : p.pieces = []) :
    let r := (memEffect s p).1
    memSameBut s r (s.pktKey p) b.length ∧ ∀ k < b.length, memGet r.mem (s.pktKey p + k) = b.getD k 0 := by
  intro r
  have hmem : r.mem = _ := memEffect_store_mem s hop hwhole
  have hpiece : ∀ {q x}, q ∈ splitWrites [(s.pktKey p, b)] → covers q x → covers (s.pktKey p, b) x ∧ byteAt q x = byteAt (s.pktKey p, b) x := by
    intro q x hq hx
    obtain ⟨w, hw, hall⟩ := mem_splitWrites hq
    obtain ⟨hc, hb, _⟩ := hall x hx
    rw [List.mem_singleton.mp hw] at hc hb
    exact ⟨hc, hb⟩
  refine ⟨fun x hx => ?_, fun k hk => ?_⟩
  · rw [hmem]
    exact memGet_memPuts_apart hwf (fun q hq hc => hx (hpiece hq hc).1)
  · have hcov : covers (s.pktKey p, b) (s.pktKey p + k) := ⟨Nat.le_add_right _ _, Nat.add_lt_add_left hk _⟩
    rw [hmem, memGet_memPuts_agree hwf (splitWrites_covers (List.mem_singleton_self _) hcov) (fun q hq hc => (hpiece hq hc).2), byteAt, Nat.add_sub_cancel_left]
theorem memEffect_atomic_result (s : State) {p : Pkt} {f k : Nat} {v c : BitVec 64} {d : Dest} (hop : p.op = .atomic f k v c d) :
    (memEffect s p).2.result = s.peek (s.pktKey p) k := by
  rw [memEffect, hop]

/-! ## The end of a tile transfer (R173, R187) -/

theorem pokeAll_xfers (s : State) (c : CoreId) (ws : List (Nat × List Byte)) : (pokeAll s c ws).xfers = s.xfers :=
  foldl_keeps State.xfers (fun (t : State) (q : Nat × List Byte) => t.poke (poolKey c q.1) q.2) (fun _ _ => rfl) ws s
theorem performPool_xfers (s : State) (p : Pkt) : (performPool s p).xfers = s.xfers := by
  unfold performPool
  split
  · exact pokeAll_xfers _ _ _
  · rfl
theorem settle_xfers (s : State) : s.settle.xfers = s.xfers :=
  foldl_keeps State.xfers _ (fun t p => by split; exacts [performPool_xfers t p, rfl]) _ s

/-- A transfer has gone: its busy bit is clear. -/
def State.endXfer (s : State) (x : Xfer) : State := (clearBusy { s with xfers := s.xfers.filter (fun y => y.id ≠ x.id) } x.who x.id).settle
theorem endXfer_xfers (s : State) (x : Xfer) : (s.endXfer x).xfers = s.xfers.filter (fun y => y.id ≠ x.id) := settle_xfers _
theorem endXfer_busy (s : State) (x : Xfer) : ((s.endXfer x).ctx x.who).busy = (s.ctx x.who).busy.filter (fun b => b.id ≠ x.id) :=
  congrArg Ctx.busy ((settle_ctx _ _).trans (clearBusy_ctx _ _ _))

theorem readTile_idle {s : State} (h : s.poolIdle) (x : Xfer) : (readTile s x).poolIdle := by
  intro q hq hpool
  obtain ⟨p, hp, rfl⟩ := List.mem_map.mp hq
  dsimp only at hpool ⊢
  split at hpool
  case isTrue hx =>
    rw [if_pos hx]
    split at hpool
    · cases hpool
    · exact h p hp hpool
  case isFalse hx =>
    rw [if_neg hx]
    exact h p hp hpool
/-- What writes of bytes, poison and late faults leave, the landing of a tile leaves. -/
theorem landTile_keeps {β : Type} (part : State → β) (hpoke : ∀ t k b, part (State.poke t k b) = part t) (hpois : ∀ t k n, part (State.setPoison t k n) = part t)
    (hlate : ∀ t w c i n f, part (lateFor t w c i n f) = part t) (hpkts : ∀ (t : State) l, part { t with pkts := l } = part t) (s : State) (x : Xfer) :
    part (landTile s x) = part s := by
  refine (hpkts _ _).trans (foldl_keeps part _ (fun t p => ?_) _ s)
  have hput (c : Prop) [Decidable c] (k : Nat) (l : List Nat) :
      part (if c then t.poke k p.result else l.foldl (fun u i => u.poke (k + i) [p.result.getD i 0]) t) = part t := by
    split
    · exact hpoke _ _ _
    · exact foldl_keeps part _ (fun _ _ => hpoke _ _ _) l t
  dsimp only
  split
  · split
    · rw [hpois, hlate]
      exact hput _ _ _
    · exact hput _ _ _
  · rfl
theorem landTile_busy (s : State) (x : Xfer) (w : Who) : ((landTile s x).ctx w).busy = (s.ctx w).busy := by
  refine landTile_keeps (fun t => (t.ctx w).busy) (fun _ _ _ => rfl) (fun _ _ _ => rfl) (fun t v c i n f => ?_) (fun _ _ => rfl) s x
  rw [lateFor, State.ctx_updCtx]
  split
  case isTrue h => rw [h]
  case isFalse => rfl
theorem landTile_xfers (s : State) (x : Xfer) : (landTile s x).xfers = s.xfers :=
  landTile_keeps State.xfers (fun _ _ _ => rfl) (fun _ _ _ => rfl) (fun _ _ _ _ _ _ => rfl) (fun _ _ => rfl) s x

/-- The transfer of the step may move whole. -/
structure MayMove (s : State) (x : Xfer) : Prop where
  found : s.xfers.find? (fun x => x.id = s.sel.id) = some x
  buffered : x.buffered = false
  whole : s.sel.val = 0
  units : s.unitsReady x.who.coreId [((s.ctx x.who).tileAt x.tile, 32768)] = true

section
variable {s : State} {x : Xfer} (h : MayMove s x)
include h

/-- An stt whose lines all wait for its tile reads it. -/
theorem tile_reads (hout : x.out = true) (hlines : ∀ q ∈ s.linesOf x, q.stage = .readout) :
    exec .tileRowsDone s = .next ((readTile s x).endXfer x) := by
  have hall : (s.linesOf x).all (fun p => p.stage = .readout) = true := List.all_eq_true.mpr (fun q hq => decide_eq_true (hlines q hq))
  show execTileRowsDone s = _
  rw [execTileRowsDone, h.found]
  dsimp only
  rw [hout, h.buffered, h.units, h.whole, if_pos rfl, hall]
  rfl
/-- An ldt whose lines have all come back lands, after an stt that reads its tile and with no form before it. -/
theorem tile_lands (hout : x.out = false) (hlines : ∀ q ∈ s.linesOf x, s.mayLand q = true)
    (hafter : ∀ y ∈ s.xfers, ¬ (y.out = true ∧ y.buffered = false ∧ y.who = x.who ∧ y.tile = x.tile)) (hmq : (s.core x.who.coreId).mq = []) :
    exec .tileRowsDone s = .next ((landTile s x).endXfer x) := by
  have hall : (s.linesOf x).all s.mayLand = true := List.all_eq_true.mpr hlines
  have hnone : s.xfers.any (fun y => y.out && !y.buffered && y.who = x.who && y.tile = x.tile) = false := by
    refine List.any_eq_false.mpr (fun y hy hyes => hafter y hy ?_)
    simpa [and_assoc] using hyes
  show execTileRowsDone s = _
  rw [execTileRowsDone, h.found]
  dsimp only
  rw [hout, h.buffered, h.units, h.whole, if_neg Bool.false_ne_true, hall, hnone, hmq]
  rfl
end
end Sys2Proof.Machine

namespace Sys2Proof.Machine

/-! ## The events of an access in memory (R176 to R180, R244, R247, R369, R409 to R411) -/

/-- Settles O41: each event of an access by the state it meets, from its home slice to its landing. -/
theorem memoryEvents : Obligations.MemoryEvents := by
  unfold Obligations.MemoryEvents
  intro s p hp a m
  refine ⟨fun hstage helig hwins => ?slice, fun hval => if_pos hval, fun ph mk hstage helig hwins hval => ?controller,
    fun hstage hpool hhost hvote hturn hwhole => ?perform, fun hstage hvote rev gran hrev hmeets => ?sorrel,
    fun k d hop hland hkeep hsound hidle hfree => ?land, fun b hop _ hwhole hwf => memEffect_store hwf hop hwhole,
    fun f k v c d hop => memEffect_atomic_result s hop, fun x hx hout hbuf hwhole hidle hunits hlines => ?reads,
    fun x hx hout hbuf hwhole hunits hlines hafter hmq => ?lands⟩
  case slice =>
    have h : AtSlice s p := ⟨hp, hstage, helig, hwins⟩
    exact ⟨fun hcap hpre => ⟨slice_past_own h hcap hpre, slice_past_other h hcap hpre⟩, slice_serves h⟩
  case controller =>
    have h : AtController s p ph mk := ⟨hp, hstage, helig, hwins, hval⟩
    exact ⟨fun hstale hzero hback hu hs => mc_sound h hstale hback hzero hu hs, fun hstale hzero hback hu => mc_failed h hstale hback hzero hu,
      fun hstale hback => mc_back h hstale hback, mc_goes h⟩
  case perform =>
    have h : MayPerform s p := ⟨hp, hstage, hpool, hhost, hvote, hturn, hwhole⟩
    refine ⟨fun e pg hlog => performed_asks h hlog, fun hlog hrev hl2 => (performed_eq h hlog).trans (sorrel_plain hrev hl2),
      fun hlog k l r hop hmeets hk => (performed_eq h hlog).trans (sorrel_l2 hop hmeets hk), fun hlog rev gran hrev => ?_⟩
    rw [performed_eq h hlog]
    exact ⟨sorrel_read hrev, fun hmeets hw hheld s1 hcopies => sorrel_write hrev hmeets hw hheld hcopies,
      fun hmeets hidle => sorrel_waits hrev hstage hpool hidle hmeets⟩
  case sorrel =>
    rw [granted_eq hp hstage hvote]
    exact ⟨sorrel_read hrev hmeets, fun hw hheld s1 hcopies => sorrel_write hrev hmeets hw hheld hcopies⟩
  case land => exact ⟨_, load_lands hp hop hland hkeep hsound hfree, endPkt_mem_idle hidle p, loadLanded_ctx s p d⟩
  case reads =>
    exact ⟨_, tile_reads ⟨hx, hbuf, hwhole, hunits⟩ hout hlines, settle_mem_idle (readTile_idle hidle x), endXfer_xfers _ _, endXfer_busy _ _⟩
  case lands =>
    refine ⟨_, tile_lands ⟨hx, hbuf, hwhole, hunits⟩ hout hlines hafter hmq, ?_, ?_⟩
    · rw [endXfer_xfers, landTile_xfers]
    · rw [endXfer_busy, landTile_busy]
end Sys2Proof.Machine

namespace Sys2Proof.Machine

/-! ## The issue of matrix forms (R189, R192, R193) -/

/-- A context with the busy bits that a form or command sets. -/
def Ctx.withBusy (c : Ctx) (l : List Elem) (id : Nat) (core : Bool) : Ctx := { c with busy := c.busy ++ l.map (fun e => ⟨e, id, core⟩) }
/-- A context with a form's claims (R189). -/
def Ctx.claiming (c : Ctx) (k : Nat × Nat) : Ctx := { c with owedA := c.owedA + k.1, owedB := c.owedB + k.2 }
/-- Busy bits set one by one, then a change of their context, are one change of it. -/
theorem setBusy_all_upd (id : Nat) (core : Bool) (g : Ctx → Ctx) : ∀ (l : List Elem) (s : State),
    (l.foldl (fun s e => setBusy s e id core) s).upd g = s.upd (fun c => g (c.withBusy l id core))
  | [], s => congrArg s.upd (funext fun c => congrArg (fun b => g { c with busy := b }) (List.append_nil c.busy).symm)
  | e :: r, s => by
    have hcons (c : Ctx) : (c.withBusy [e] id core).withBusy r id core = c.withBusy (e :: r) id core :=
      congrArg (fun b => { c with busy := b }) (List.append_assoc c.busy _ _)
    rw [List.foldl_cons, setBusy_all_upd id core g r]
    exact (State.upd_upd s _ _).trans (congrArg s.upd (funext fun c => congrArg g (hcons c)))
theorem mEnqueue_eq (i : Instr) (elems : List Elem) (ka kb : BitVec 4096) (s : State) : ∃ m : MForm,
    (m.op = i ∧ m.id = s.nextId ∧ m.who = s.sel.who ∧ m.issued = s.t ∧ m.started = false ∧ m.need = (claims i).1 + (claims i).2 ∧ m.ovt = s.ovt) ∧
    mEnqueue i elems ka kb s =
      (s.fresh.upd (fun c => (c.withBusy elems s.nextId true).claiming (claims i))).updCore s.coreId (fun c => { c with mq := c.mq ++ [m] }) := by
  refine ⟨_, ?_, congrArg (fun u : State => u.updCore s.coreId (fun c => { c with mq := c.mq ++ [_] }))
    (setBusy_all_upd s.nextId true (fun c => c.claiming (claims i)) elems s.fresh)⟩
  exact ⟨rfl, rfl, rfl, rfl, rfl, rfl, rfl⟩
/-- A form in its queue, with its claims and busy bits. -/
theorem mEnqueue_formIssued (i : Instr) (elems : List Elem) (ka kb : BitVec 4096) (s : State) :
    s.formIssued (mEnqueue i elems ka kb s) i elems (claims i).1 (claims i).2 := by
  obtain ⟨m, ⟨hop, hid, hwho, hissued, hstarted, hneed, hovt⟩, heq⟩ := mEnqueue_eq i elems ka kb s
  rw [heq]
  refine ⟨m, hop, hid, hwho, hissued, hstarted, hneed, hovt, rfl, rfl, fun w hw => ?_, ?_, State.core_updCore_same _ _ _, fun c hc => ?_⟩
  · rw [State.ctx_updCore]
    exact (State.ctx_upd s.fresh _ w).trans (if_neg hw)
  · exact (State.cur_updCore _ _ _).trans (State.cur_upd s.fresh _)
  · exact (State.core_updCore _ _ _ _).trans (if_neg hc)

section
variable {s : State} {i : Instr} {g : Guard} {elems : List Elem} {ka kb : State → BitVec 4096}
  (h : exec i s = mIssue i g elems ka kb s) (hg : s.guard .m g = true)
include h hg
theorem mIssue_blocks {b : BlockCause} (hfifo : fifoBlock i s = some b) : exec i s = .next (blockOn s b) := by
  rw [h, mIssue, guarded_on .m g s _ hg, hfifo]
theorem mIssue_stalls (hfifo : fifoBlock i s = none) (hfull : s.mqFull = true) : exec i s = .next (stallCycle s) := by
  rw [h, mIssue, guarded_on .m g s _ hg, hfifo]
  exact congrArg Host.Outcome.next (if_pos hfull)
theorem mIssue_enters (hfifo : fifoBlock i s = none) (hroom : s.mqFull = false) :
    ∃ t, exec i s = .next t ∧ s.formIssued t i elems (claims i).1 (claims i).2 := by
  rw [h, mIssue, guarded_on .m g s _ hg, hfifo]
  refine ⟨_, congrArg Host.Outcome.next (if_neg ?_), mEnqueue_formIssued i elems _ _ s⟩
  rw [hroom]
  exact Bool.false_ne_true
end

theorem nrowOf_ne_zero (n : BitVec 7) : nrowOf n ≠ 0 := by
  unfold nrowOf
  split
  · decide
  · next h => exact fun hn => h (BitVec.eq_of_toNat_eq hn)
/-- A form that claims no entry waits for none. -/
theorem fifoBlock_of_claims {i : Instr} (s : State) (h : claims i = (0, 0)) : fifoBlock i s = none := by
  rw [fifoBlock, h]
  rfl
theorem unclaimed_pos {c : Ctx} : (c.owedA < c.fifoA.length → c.unclaimed false ≠ 0) ∧ (c.owedB < c.fifoB.length → c.unclaimed true ≠ 0) :=
  ⟨fun h => Nat.sub_ne_zero_of_lt h, fun h => Nat.sub_ne_zero_of_lt h⟩
/-- A form that claims entries of the A FIFO alone waits for an unclaimed one there. -/
theorem fifoBlock_a {i : Instr} (s : State) {n : Nat} (h : claims i = (n, 0)) (hn : n ≠ 0) :
    fifoBlock i s = if s.cur.owedA < s.cur.fifoA.length then none else some (.fifo false) := by
  rw [fifoBlock, h]
  by_cases ha : s.cur.owedA < s.cur.fifoA.length
  · rw [if_pos ha, if_neg (fun hu => unclaimed_pos.1 ha hu.2), if_neg (fun hu => hu.1 rfl)]
  · rw [if_neg ha, if_pos ⟨hn, Nat.sub_eq_zero_of_le (Nat.not_lt.mp ha)⟩]
/-- mlat claims entries of the B FIFO alone. -/
theorem fifoBlock_mlat (s : State) (r : MRow) :
    fifoBlock (.mlat r) s = if s.cur.owedB < s.cur.fifoB.length then none else some (.fifo true) := by
  rw [fifoBlock, if_neg (fun hu => hu.1 rfl)]
  by_cases hb : s.cur.owedB < s.cur.fifoB.length
  · rw [if_pos hb, if_neg (fun hu => unclaimed_pos.2 hb hu.2)]
  · rw [if_neg hb, if_pos ⟨show 128 ≠ 0 by decide, Nat.sub_eq_zero_of_le (Nat.not_lt.mp hb)⟩]

/-- Settles O30: a form with the entries that it claims enters its queue or stalls; one without them blocks. -/
theorem matrixIssue : Obligations.MatrixIssue := by
  unfold Obligations.MatrixIssue
  intro r d a k c s waiting hasA hasB rows full
  have hlat : fifoBlock (.mlat r) s = if hasB then none else some (.fifo true) := fifoBlock_mlat s r
  have hma : fifoBlock (.mma r) s = if hasA then none else some (.fifo false) := fifoBlock_a s rfl (nrowOf_ne_zero _)
  have hter : fifoBlock (.mter r) s = if hasA then none else some (.fifo false) := fifoBlock_a s rfl (Nat.mul_ne_zero (by decide) (nrowOf_ne_zero _))
  have hroom (hw : waiting < 16) : s.mqFull = false := decide_eq_false (Nat.not_le.mpr hw)
  have hfull {i : Instr} {g : Guard} {elems : List Elem} {ka kb : State → BitVec 4096} (h : exec i s = mIssue i g elems ka kb s)
      (hf : fifoBlock i s = none) : full i g := fun hg hw => mIssue_stalls h hg hf (decide_eq_true hw)
  have ezero : exec (.mzero r) s = execMzero r s := rfl
  have elat : exec (.mlat r) s = execMlat r s := rfl
  have emma : exec (.mma r) s = execMma r s := rfl
  have emter : exec (.mter r) s = execMter r s := rfl
  have edrain : exec (.mdrain d) s = execMdrain d s := rfl
  have eld : exec (.maccLd a) s = execMaccLd a s := rfl
  have ekat : exec (.mkat k) s = execMkat k s := rfl
  have echk : exec (.mchk c) s = execMchk c s := rfl
  have free {i : Instr} (h : claims i = (0, 0)) := fifoBlock_of_claims s h
  exact ⟨fun hg hw => mIssue_enters ezero hg (free rfl) (hroom hw), fun hg hb hw => mIssue_enters elat hg (hlat.trans (if_pos hb)) (hroom hw),
    fun hg ha hw => mIssue_enters emma hg (hma.trans (if_pos ha)) (hroom hw),
    fun hg ha hw => mIssue_enters emter hg (hter.trans (if_pos ha)) (hroom hw),
    fun hg hw => mIssue_enters edrain hg (free rfl) (hroom hw), fun hg hw => mIssue_enters eld hg (free rfl) (hroom hw),
    fun hg hw => mIssue_enters ekat hg (free rfl) (hroom hw), fun hg hw => mIssue_enters echk hg (free rfl) (hroom hw),
    fun hg hb => mIssue_blocks elat hg (hlat.trans (if_neg hb)),
    fun hg ha => ⟨mIssue_blocks emma hg (hma.trans (if_neg ha)), mIssue_blocks emter hg (hter.trans (if_neg ha))⟩,
    hfull ezero (free rfl), hfull edrain (free rfl), hfull eld (free rfl), hfull ekat (free rfl), hfull echk (free rfl),
    fun hb => hfull elat (hlat.trans (if_pos hb)),
    fun ha => ⟨hfull emma (hma.trans (if_pos ha)), hfull emter (hter.trans (if_pos ha))⟩⟩

end Sys2Proof.Machine

namespace Sys2Proof.Machine

/-! ## Room in a queue (R234, R236) -/

theorem room_ok_iff (c : Ctx) (q : Nat) :
    c.room q = .ok ↔ if c.inRing q then c.ring.length + c.ovfWait.length < c.csr.ovfQuota.toNat else c.queueLen q < 64 := by
  rw [Ctx.room, Ctx.ringUsed]
  cases c.inRing q <;> simp only [Bool.false_eq_true, if_true, if_false] <;> split <;> simp_all
  split <;> simp_all
theorem room_quota_iff (c : Ctx) (q : Nat) :
    c.room q = .quota ↔ if c.inRing q then c.csr.ovfQuota.toNat ≤ c.ring.length + c.ovfWait.length
      else 64 ≤ c.queueLen q ∧ c.csr.ovfQuota.toNat < c.ring.length + c.ovfWait.length + 32 := by
  rw [Ctx.room, Ctx.ringUsed]
  cases c.inRing q <;> simp only [Bool.false_eq_true, if_true, if_false] <;> split <;> simp_all
theorem room_block {c : Ctx} {q : Nat} (hok : c.room q ≠ .ok) (hquota : c.room q ≠ .quota) : c.room q = .block := by
  cases h : c.room q with
  | ok => exact absurd h hok
  | block => rfl
  | quota => exact absurd h hquota

/-! ## A command under its guard (R55, R235, R236) -/

section
variable {s : State} {i : Instr} {o : EOp} {priv : Bool} {op q : Nat} {own : State → Option TrapArgs} {act : State → State}
  (h : exec i s = eIssue o priv op q own act s) (hg : s.guard .e o.g = true)
include h hg
theorem eIssue_private (hpriv : priv = true) (hmode : s.cur.csr.mode = false) :
    ∃ a : TrapArgs, a.code = 0x07 ∧ a.pc = s.cur.pc ∧ exec i s = .next (raiseTrap s a) := by
  refine ⟨s.privTrap 10 op, rfl, rfl, exec_faults h hg ?_⟩
  unfold eFault
  rw [hpriv, hmode]
  rfl

variable (hpriv : priv = true → s.cur.csr.mode = true)
include hpriv
omit h hg in
theorem eFault_permitted (x : Option TrapArgs) : eFault priv op q x s =
    x.or (if s.cur.room q = .quota then some (s.issueTrap 0x0A (quotaInfo s.cur q 0) .quota) else none) := by
  have hp : (priv && !s.cur.csr.mode) = false := by
    cases hpr : priv with
    | false => rfl
    | true => rw [hpriv hpr]; rfl
  unfold eFault
  rw [hp, if_neg Bool.false_ne_true]
  cases x <;> rfl
theorem eIssue_faults {a : TrapArgs} (ha : own s = some a) : exec i s = .next (raiseTrap s a) :=
  exec_faults h hg ((eFault_permitted hpriv _).trans (by rw [ha, Option.some_or]))
variable (hown : own s = none)
include hown
theorem eIssue_quota (hq : s.cur.room q = .quota) :
    ∃ a : TrapArgs, a.code = 0x0A ∧ a.freeze = .quota ∧ a.pc = s.cur.pc ∧ exec i s = .next (raiseTrap s a) := by
  refine ⟨s.issueTrap 0x0A (quotaInfo s.cur q 0) .quota, rfl, rfl, rfl, exec_faults h hg ((eFault_permitted hpriv _).trans ?_)⟩
  rw [hown, Option.none_or]
  exact if_pos hq
theorem eIssue_enters (hq : s.cur.room q ≠ .quota) : exec i s = .next (if s.cur.room q = .block then blockOn s (.queue q) else act s) := by
  refine exec_acts h hg ((eFault_permitted hpriv _).trans ?_)
  rw [hown, Option.none_or]
  exact if_neg hq
theorem eIssue_blocks (hq : s.cur.room q = .block) : exec i s = .next (blockOn s (.queue q)) := by
  rw [eIssue_enters h hg hpriv hown (by rw [hq]; decide), if_pos hq]
theorem eIssue_acts (hq : s.cur.room q = .ok) : exec i s = .next (act s) := by
  rw [eIssue_enters h hg hpriv hown (by rw [hq]; decide), if_neg (by rw [hq]; decide)]
end

/-! ## A command on its way into its queue (R207, R234, R291, R331) -/

/-- A context with late faults to raise (R436). -/
def Ctx.withLate (c : Ctx) (l : List LateFault) : Ctx := { c with late := l }
/-- u is s but for the late faults of its acting context. -/
def lateOnly (s u : State) : Prop := onlyCtx s.sel.who s u ∧ ∃ l, u.cur = s.cur.withLate l

theorem lateOnly_refl (s : State) : lateOnly s s := ⟨⟨rfl, fun _ _ => rfl⟩, _, rfl⟩
theorem poolPoison_lateOnly (s : State) (slot a n : Nat) : lateOnly s (poolPoison s slot a n) := by
  unfold poolPoison
  split
  · exact ⟨⟨rfl, fun w hw => (State.ctx_upd s _ w).trans (if_neg hw)⟩, _, State.cur_upd s _⟩
  · exact lateOnly_refl s
theorem upd_congr {s : State} {f g : Ctx → Ctx} (h : f s.cur = g s.cur) : s.upd f = s.upd g := congrArg (s.setCtx s.sel.who) h

/-- A context that owes a command's destination, its earlier loads read (R207). -/
def Ctx.owes (c : Ctx) (d : Dest) (id t : Nat) : Ctx :=
  { c with flight := if d = .none then c.fixLoads.flight else (c.fixLoads.owe d id t).flight }
theorem owes_eq (c : Ctx) (d : Dest) (id t : Nat) : (if d = .none then c.fixLoads else c.fixLoads.owe d id t) = c.owes d id t := by
  unfold Ctx.owes
  split <;> rfl
/-- q is the command k, numbered in its flow. -/
def ECmd.numbered (k q : ECmd) : Prop := q = { k with dst := q.dst, seq := q.seq, ords := q.ords, mode := q.mode, parts := q.parts }
/-- A context with its flows numbered on. -/
def Ctx.reseq (c : Ctx) (sq : AMap (Nat × Nat) Nat) (od : List (Nat × Nat)) : Ctx := { c with seqs := sq, ords := od }
/-- A command's lane is of its own flow or of the scheduler's, and leads where the command goes. -/
theorem lane_numbered {k q : ECmd} (h : k.numbered q) {f d : Nat} (hl : k.lane = some (f, d)) : q.lane = some (f, q.dst) := by
  have hop : q.op = k.op := by rw [h]
  have hflow : q.flow = k.flow := by rw [h]
  unfold ECmd.lane at hl ⊢
  rw [hop, hflow]
  split at hl
  · injection hl with hl; injection hl with hf; rw [hf]
  · injection hl with hl; injection hl with hf; rw [hf]
  · injection hl with hl; injection hl with hf; rw [hf]
  · cases hl
theorem numberCmd_none {s : State} {w : Who} {k : ECmd} (h : k.lane = none) : numberCmd s w k = (s, k) := by
  unfold numberCmd
  rw [h]
/-- A command of a lane takes the next numbers there. -/
theorem numberCmd_some {s : State} {k : ECmd} {f d : Nat} (h : k.lane = some (f, d)) : ∃ q : ECmd, k.numbered q ∧
    q.seq = s.cur.seqs.get (q.dst, f) 0 ∧ numberCmd s s.sel.who k =
      (s.upd (fun c => c.reseq (c.seqs.set (q.dst, f) ((q.seq + q.parts) % 4096)) (c.ords.filter (fun x => x ≠ (q.dst, f)))), q) := by
  refine ⟨(numberCmd s s.sel.who k).2, ?_, ?_, ?_⟩
  all_goals
    unfold numberCmd
    rw [h]
  all_goals rfl
/-- A command enters its queue numbered. -/
theorem numberCmd_enter (s : State) (k : ECmd) : ∃ (q : ECmd) (sq : AMap (Nat × Nat) Nat) (od : List (Nat × Nat)), k.numbered q ∧
    (∀ f n, q.lane = some (f, n) → q.seq = s.cur.seqs.get (n, f) 0 ∧ sq.get (n, f) 0 = (q.seq + q.parts) % 4096) ∧
    (numberCmd s s.sel.who k).1.upd (fun c => c.enter (.e (numberCmd s s.sel.who k).2)) = s.upd (fun c => (c.reseq sq od).enter (.e q)) := by
  cases hl : k.lane with
  | none =>
    refine ⟨k, s.cur.seqs, s.cur.ords, rfl, fun f n h => ?_, ?_⟩
    · rw [hl] at h; cases h
    · rw [numberCmd_none hl]; exact upd_congr rfl
  | some x =>
    obtain ⟨q, hq, hseq, heq⟩ := numberCmd_some (s := s) hl
    refine ⟨q, s.cur.seqs.set (q.dst, x.1) ((q.seq + q.parts) % 4096), s.cur.ords.filter (fun y => y ≠ (q.dst, x.1)), hq, fun f n h => ?_, ?_⟩
    · rw [lane_numbered hq hl] at h
      cases h
      exact ⟨hseq, AMap.get_set_same _ _ _ _⟩
    · rw [heq]
      dsimp only
      rw [State.upd_upd]
      exact upd_congr rfl

/-- A context with a command among those that its commit releases (R331). -/
def Ctx.closes (c : Ctx) (k : ECmd) : Ctx := { c with closing := c.closing ++ [k] }
section
variable {d : Dest} {k : ECmd} {u : State}
theorem sendE_owes : (u.fresh.upd Ctx.fixLoads).upd (fun c => if d = .none then c else c.owe d k.id u.t) = u.fresh.upd (fun c => c.owes d k.id u.t) :=
  (State.upd_upd _ _ _).trans (congrArg u.fresh.upd (funext fun c => owes_eq c d k.id u.t))
/-- Inside a segment a command with external effect waits for the commit. -/
theorem sendE_held (h : (u.cur.inSeg && external k.op) = true) : sendE d k u = u.fresh.upd (fun c => (c.owes d k.id u.t).closes k) := by
  unfold sendE
  dsimp only
  rw [sendE_owes, State.cur_upd]
  exact (if_pos h).trans (State.upd_upd _ _ _)
theorem sendE_enters (h : (u.cur.inSeg && external k.op) = false) : ∃ (q : ECmd) (sq : AMap (Nat × Nat) Nat) (od : List (Nat × Nat)), k.numbered q ∧
    (∀ f n, q.lane = some (f, n) → q.seq = u.cur.seqs.get (n, f) 0 ∧ sq.get (n, f) 0 = (q.seq + q.parts) % 4096) ∧
    sendE d k u = u.fresh.upd (fun c => ((c.owes d k.id u.t).reseq sq od).enter (.e q)) := by
  obtain ⟨q, sq, od, hq, hseq, heq⟩ := numberCmd_enter (u.fresh.upd (fun c => c.owes d k.id u.t)) k
  rw [State.cur_upd] at hseq
  refine ⟨q, sq, od, hq, hseq, ?_⟩
  unfold sendE
  dsimp only
  rw [sendE_owes, State.cur_upd]
  refine (if_neg ?_).trans (heq.trans (State.upd_upd _ _ _))
  exact fun hc => Bool.false_ne_true (h.symm.trans hc)
end

theorem enter_e (c : Ctx) (k : ECmd) :
    c.enter (.e k) = if c.inRing 0 then { c with ovfWait := c.ovfWait ++ [RingEntry.e k] }.noteHwm else { c with eq := c.eq ++ [k] } := rfl
/-- What every command leaves of its context but for the queue that takes it (R207). -/
def Ctx.sent (c u : Ctx) (d : Dest) (id : Nat) : Prop :=
  u.regs = c.regs ∧ u.pc = c.pc ∧ u.busy = c.busy ∧ u.cq0 = c.cq0 ∧ u.cq1 = c.cq1 ∧ u.rq = c.rq ∧
    (if d = .none then u.flight = c.fixLoads.flight
     else ∃ x, u.flight = c.fixLoads.flight ++ [x] ∧ x.dest = d ∧ x.id = id ∧ x.bound = 2 ^ 64) ∧ u.ring = c.ring
theorem owes_sent (c : Ctx) (l : List LateFault) (d : Dest) (id t : Nat) : c.sent ((c.withLate l).owes d id t) d id := by
  refine ⟨rfl, rfl, rfl, rfl, rfl, rfl, ?_, rfl⟩
  split
  · next h => exact if_pos h
  · next h => exact ⟨_, if_neg h, rfl, rfl, rfl⟩
theorem held_sent (c : Ctx) (l : List LateFault) (d : Dest) (id t : Nat) (k : ECmd) : c.sent (((c.withLate l).owes d id t).closes k) d id := owes_sent c l d id t
theorem enter_sent {c u : Ctx} {d : Dest} {id : Nat} (h : c.sent u d id) (k : ECmd) : c.sent (u.enter (.e k)) d id := by
  rw [enter_e]
  split
  · exact h
  · exact h
theorem reseq_sent {c u : Ctx} {d : Dest} {id : Nat} (h : c.sent u d id) (sq : AMap (Nat × Nat) Nat) (od : List (Nat × Nat)) :
    c.sent (u.reseq sq od) d id := h
theorem lateOnly.upd {s u : State} (h : lateOnly s u) (f : Ctx → Ctx) : ∃ l, (u.fresh.upd f).cur = f (s.cur.withLate l) ∧
    (u.fresh.upd f).mem = s.mem ∧ (u.fresh.upd f).pkts = s.pkts ∧ (u.fresh.upd f).cores = s.cores ∧ (u.fresh.upd f).sel = s.sel ∧
    ∀ w, w ≠ s.sel.who → (u.fresh.upd f).ctx w = s.ctx w := by
  obtain ⟨⟨heq, hctx⟩, l, hcur⟩ := h
  have hsel : u.sel = s.sel := by rw [heq]
  refine ⟨l, ?_, ?_, ?_, ?_, hsel, fun w hw => ?_⟩
  · exact (State.cur_upd u.fresh f).trans (congrArg f hcur)
  · show u.mem = s.mem; rw [heq]
  · show u.pkts = s.pkts; rw [heq]
  · show u.cores = s.cores; rw [heq]
  · exact (State.ctx_upd u.fresh f w).trans ((if_neg (by rw [← hsel] at hw; exact hw)).trans (hctx w hw))
/-- Where a command goes: among those that the commit releases, on its way to the ring, or into the E queue. -/
def Ctx.takesCmd (c u : Ctx) (k : ECmd) (ext : Bool) : Prop :=
  if ext && c.inSeg then u.closing = c.closing ++ [k] ∧ u.eq = c.eq ∧ u.ovfWait = c.ovfWait
  else u.closing = c.closing ∧
    (if c.inRing 0 then u.eq = c.eq ∧ u.ovfWait = c.ovfWait ++ [.e k] else u.eq = c.eq ++ [k] ∧ u.ovfWait = c.ovfWait) ∧
    ∀ f n, k.lane = some (f, n) → k.seq = c.seqs.get (n, f) 0 ∧ u.seqs.get (n, f) 0 = (k.seq + k.parts) % 4096
theorem held_takesCmd (c : Ctx) (l : List LateFault) (d : Dest) (id t : Nat) {k : ECmd} {ext : Bool} (hx : (ext && c.inSeg) = true) :
    c.takesCmd (((c.withLate l).owes d id t).closes k) k ext := by
  rw [Ctx.takesCmd, if_pos hx]
  exact ⟨rfl, rfl, rfl⟩
theorem enter_takesCmd {c u : Ctx} {k : ECmd} {ext : Bool} (hc : u.closing = c.closing) (he : u.eq = c.eq) (hw : u.ovfWait = c.ovfWait) (hr : u.ring = c.ring)
    (hx : (ext && c.inSeg) = false) (hlane : ∀ f n, k.lane = some (f, n) → k.seq = c.seqs.get (n, f) 0 ∧ u.seqs.get (n, f) 0 = (k.seq + k.parts) % 4096) :
    c.takesCmd (u.enter (.e k)) k ext := by
  have hring : u.inRing 0 = c.inRing 0 := by rw [Ctx.inRing, Ctx.inRing, hr, hw]
  rw [Ctx.takesCmd, hx, if_neg Bool.false_ne_true, enter_e, hring]
  by_cases h : c.inRing 0 = true
  · rw [if_pos h, if_pos h]
    exact ⟨hc, ⟨he, congrArg (· ++ [RingEntry.e k]) hw⟩, hlane⟩
  · rw [if_neg h, if_neg h]
    exact ⟨hc, ⟨congrArg (· ++ [k]) he, hw⟩, hlane⟩
theorem queued_takesCmd (c : Ctx) (l : List LateFault) (d : Dest) (id t : Nat) {sq : AMap (Nat × Nat) Nat} (od : List (Nat × Nat)) {k : ECmd} {ext : Bool}
    (hx : (ext && c.inSeg) = false)
    (hlane : ∀ f n, k.lane = some (f, n) → k.seq = c.seqs.get (n, f) 0 ∧ sq.get (n, f) 0 = (k.seq + k.parts) % 4096) :
    c.takesCmd ((((c.withLate l).owes d id t).reseq sq od).enter (.e k)) k ext :=
  enter_takesCmd rfl rfl rfl rfl hx hlane
theorem commandIssued_of {s t : State} {i : Instr} {o : EOp} {d : Dest} {ext : Bool} {k : ECmd} (hk : (s.mkECmd i o).numbered k) (hmem : t.mem = s.mem)
    (hpkts : t.pkts = s.pkts) (hcores : t.cores = s.cores) (hctx : ∀ w, w ≠ s.sel.who → t.ctx w = s.ctx w) (hsent : s.cur.sent t.cur d s.nextId)
    (htakes : s.cur.takesCmd t.cur k ext) : s.commandIssued t i o d ext := by
  obtain ⟨hregs, hpc, hbusy, hcq0, hcq1, hrq, hflight, hring⟩ := hsent
  refine ⟨k, ?_, ?_, ?_, ?_, ?_, ?_, ?_, hmem, hpkts, hcores, hctx, hregs, hpc, hbusy, hcq0, hcq1, hrq, hflight, hring, htakes⟩
  all_goals rw [hk]; rfl
/-- A command as it is issued: read at its issue, and where the queue, the ring or the commit takes it. -/
theorem sendE_commandIssued {s u : State} (h : lateOnly s u) (i : Instr) (o : EOp) (d : Dest) :
    s.commandIssued (sendE d (s.mkECmd i o) u) i o d (external i) := by
  have hseg : u.cur.inSeg = s.cur.inSeg := by obtain ⟨_, l, hcur⟩ := h; rw [hcur]; rfl
  have hseqs : u.cur.seqs = s.cur.seqs := by obtain ⟨_, l, hcur⟩ := h; rw [hcur]; rfl
  cases hx : external i && s.cur.inSeg with
  | true =>
    obtain ⟨l, hcur, hmem, hpkts, hcores, _, hctx⟩ := h.upd (fun c => (c.owes d (s.mkECmd i o).id u.t).closes (s.mkECmd i o))
    rw [sendE_held (by rw [hseg, Bool.and_comm]; exact hx)]
    refine commandIssued_of (k := s.mkECmd i o) rfl hmem hpkts hcores hctx ?_ ?_
    · rw [hcur]
      exact held_sent s.cur l d s.nextId u.t _
    · rw [hcur]
      exact held_takesCmd s.cur l d s.nextId u.t hx
  | false =>
    obtain ⟨q, sq, od, hq, hlane, heq⟩ := sendE_enters (d := d) (k := s.mkECmd i o) (u := u) (by rw [hseg, Bool.and_comm]; exact hx)
    rw [hseqs] at hlane
    obtain ⟨l, hcur, hmem, hpkts, hcores, _, hctx⟩ := h.upd (fun c => ((c.owes d (s.mkECmd i o).id u.t).reseq sq od).enter (.e q))
    rw [heq]
    refine commandIssued_of hq hmem hpkts hcores hctx ?_ ?_
    · rw [hcur]
      exact enter_sent (reseq_sent (owes_sent s.cur l d s.nextId u.t) sq od) q
    · rw [hcur]
      exact queued_takesCmd s.cur l d s.nextId u.t od hx hlane

end Sys2Proof.Machine

namespace Sys2Proof.Machine

/-! ## E commands (R207, R233 to R236) -/

section
variable {s : State} {i : Instr} {o : EOp}
/-- A command that only goes into its queue. -/
theorem eIssue_issues {priv : Bool} {op : Nat} {own : State → Option TrapArgs} {d : Dest}
    (h : exec i s = eIssue o priv op 0 own (fun s => sendE d (s.mkECmd i o) s) s) (hg : s.guard .e o.g = true)
    (hpriv : priv = true → s.cur.csr.mode = true) (hown : own s = none) (hroom : s.cur.room 0 = .ok) :
    ∃ t, exec i s = .next t ∧ s.commandIssued t i o d (external i) :=
  ⟨_, eIssue_acts h hg hpriv hown hroom, sendE_commandIssued (lateOnly_refl s) i o d⟩
end

/-- A command's issue changes contexts alone. -/
theorem sendE_upd (d : Dest) (k : ECmd) (u : State) : ∃ f, sendE d k u = u.fresh.upd f := by
  cases h : u.cur.inSeg && external k.op with
  | true => exact ⟨_, sendE_held h⟩
  | false =>
    obtain ⟨q, sq, od, _, _, heq⟩ := sendE_enters (d := d) h
    exact ⟨_, heq⟩
theorem sendE_sel (d : Dest) (k : ECmd) (u : State) : (sendE d k u).sel = u.sel := by
  obtain ⟨f, hf⟩ := sendE_upd d k u
  rw [hf]
  rfl
theorem sendE_chip (d : Dest) (k : ECmd) (u : State) (n : Nat) : (sendE d k u).chip n = u.chip n := by
  obtain ⟨f, hf⟩ := sendE_upd d k u
  rw [hf]
  rfl

/-! ### coll (R317) -/

theorem coll_issues {s : State} {o : EOp} (hg : s.guard .e o.g = true) (hroom : s.cur.room 0 = .ok) (hown : collFault o s = none) :
    ∃ t x, exec (.coll o) s = .next t ∧ s.commandIssued t (.coll o) o (.e o.ed) true ∧
      (t.chip s.sel.who.chip).colls = (s.chip s.sel.who.chip).colls ++ [x] ∧ x.id = s.nextId ∧ x.who = s.sel.who ∧
      x.desc = scratchRead s s.sel.who ((s.rd64 .e 0 (.e o.ea)).toNat / 64 * 64) 64 := by
  have hexec : exec (.coll o) s = execColl o s := rfl
  have hlate := poolPoison_lateOnly s 10 (s.collAt o) 64
  have hissued := sendE_commandIssued hlate (.coll o) o (.e o.ed)
  refine ⟨_, newColl o (s.mkECmd (.coll o) o) s, eIssue_acts hexec hg (fun h => by cases h) hown hroom, hissued, ?_, rfl, rfl, rfl⟩
  obtain ⟨⟨heq, _⟩, _⟩ := hlate
  rw [State.chip_updChip_same, sendE_chip, heq]
  rfl

/-! ### flow.mode (R301) -/

/-- The flow modes of a context set for every chip of a list (R301). -/
def setModes (ds : List Nat) (f : Nat) (v : BitVec 2) (m : AMap (Nat × Nat) (BitVec 2)) : AMap (Nat × Nat) (BitVec 2) :=
  ds.foldl (fun m d => m.set (d, f) v) m
theorem setModes_get (f : Nat) (v : BitVec 2) {d : Nat} : ∀ (ds : List Nat) (m : AMap (Nat × Nat) (BitVec 2)),
    d ∈ ds ∨ m.get (d, f) 0 = v → (setModes ds f v m).get (d, f) 0 = v
  | [], _, h => h.resolve_left List.not_mem_nil
  | b :: r, m, h => by
    refine setModes_get f v r (m.set (b, f) v) ?_
    by_cases hb : d = b
    · subst hb
      exact .inr (AMap.get_set_same _ _ _ _)
    · rw [AMap.get_set_other _ _ _ _ _ (fun hk => hb (congrArg Prod.fst hk))]
      exact h.imp_left (fun hm => (List.mem_cons.mp hm).resolve_left hb)
/-- A context with flow modes that wait to drain. -/
def Ctx.withModes (c : Ctx) (m : AMap (Nat × Nat) (BitVec 2)) (od : List (Nat × Nat)) (fw : List FlowWait) : Ctx :=
  { c with modes := m, ords := od, flowWait := fw }
/-- Flow modes are none of what the issue of a command promises. -/
theorem commandIssued_withModes {s t : State} {i : Instr} {o : EOp} {d : Dest} {ext : Bool} (h : s.commandIssued t i o d ext) (hsel : t.sel = s.sel)
    {f : Ctx → Ctx} {m : AMap (Nat × Nat) (BitVec 2)} {od : List (Nat × Nat)} {fw : List FlowWait} (hf : f t.cur = t.cur.withModes m od fw) :
    s.commandIssued (t.upd f) i o d ext := by
  have hcur : (t.upd f).cur = t.cur.withModes m od fw := (State.cur_upd t f).trans hf
  obtain ⟨k, hop, hid, hea, heb, hflow, hslack, hinst, hmem, hpkts, hcores, hctx, hrest⟩ := h
  refine ⟨k, hop, hid, hea, heb, hflow, hslack, hinst, hmem, hpkts, hcores, fun w hw => ?_, ?_⟩
  · exact (State.ctx_upd t f w).trans ((if_neg (by rw [hsel]; exact hw)).trans (hctx w hw))
  · rw [hcur]
    exact hrest
theorem flowMode_issues {s : State} {o : EOp} (hg : s.guard .e o.g = true) (hroom : s.cur.room 0 = .ok) (hown : fmFault o s = none) :
    ∃ t, exec (.flowMode o) s = .next t ∧ s.commandIssued t (.flowMode o) o .none false ∧
      ∀ d ∈ fmChips o s, t.cur.modes.get (d, fmFlow o) 0 = o.opt.setWidth 2 := by
  have hexec : exec (.flowMode o) s = execFlowMode o s := rfl
  refine ⟨_, eIssue_acts hexec hg (fun h => by cases h) hown hroom,
    commandIssued_withModes (sendE_commandIssued (lateOnly_refl s) (.flowMode o) o .none) (sendE_sel _ _ _) rfl, fun d hd => ?_⟩
  rw [State.cur_upd]
  exact setModes_get _ _ _ _ (.inl hd)

/-- Settles O32: every command issues with its queue's room, or stops in the way stated. -/
theorem engineCommands : Obligations.EngineCommands := by
  unfold Obligations.EngineCommands
  intro o s hg c n used room noQuota stops
  have hok : c.room 0 = .ok ↔ room := room_ok_iff c 0
  have hquota : c.room 0 = .quota ↔ noQuota := room_quota_iff c 0
  have hstops {i : Instr} {priv : Bool} {op : Nat} {own : State → Option TrapArgs} {act : State → State} (h : exec i s = eIssue o priv op 0 own act s) :
      stops i priv (own s) :=
    ⟨eIssue_private h hg, fun hpriv _ ha => eIssue_faults h hg hpriv ha, fun hpriv hown hq => eIssue_quota h hg hpriv hown (hquota.mpr hq),
      fun hpriv hown hr hq => eIssue_blocks h hg hpriv hown (room_block (hok.not.mpr hr) (hquota.not.mpr hq))⟩
  have hown {i : Instr} {own : State → Option TrapArgs} {d : Dest} (h : exec i s = eIssue o false 0 0 own (fun s => sendE d (s.mkECmd i o) s) s) :
      (room → own s = none → ∃ t, exec i s = .next t ∧ s.commandIssued t i o d (external i)) ∧ stops i false (own s) :=
    ⟨fun hr hf => eIssue_issues h hg (fun hp => by cases hp) hf (hok.mpr hr), hstops h⟩
  have hplain {i : Instr} {d : Dest} (h : exec i s = ePlain i o d s) :
      (room → ∃ t, exec i s = .next t ∧ s.commandIssued t i o d (external i)) ∧ stops i false none :=
    ⟨fun hr => (hown (own := fun _ => none) h).1 hr rfl, hstops (own := fun _ => none) h⟩
  have hpriv {i : Instr} {op : Nat} (h : exec i s = ePriv i o op s) :
      (room → c.csr.mode = true → ∃ t, exec i s = .next t ∧ s.commandIssued t i o (.e o.ed) (external i)) ∧ stops i true none :=
    ⟨fun hr hm => eIssue_issues (own := fun _ => none) h hg (fun _ => hm) rfl (hok.mpr hr), hstops (own := fun _ => none) h⟩
  have amsg := hown (show exec (.amsg o) s = execAmsg o s from rfl)
  have taskPost := hplain (show exec (.taskPost o) s = execTaskPost o s from rfl)
  have taskDec := hown (show exec (.taskDec o) s = execTaskDec o s from rfl)
  have clbar := hplain (show exec (.clbar o) s = execClbar o s from rfl)
  have chbar := hplain (show exec (.chbar o) s = execChbar o s from rfl)
  have gbar := hplain (show exec (.gbar o) s = execGbar o s from rfl)
  have fork := hplain (show exec (.fork o) s = execFork o s from rfl)
  have spawn := hplain (show exec (.spawn o) s = execSpawn o s from rfl)
  have join := hplain (show exec (.join o) s = execJoin o s from rfl)
  have revSt := hplain (show exec (.revSt o) s = execRevSt o s from rfl)
  have flowMode := hstops (show exec (.flowMode o) s = execFlowMode o s from rfl)
  have slk := hplain (show exec (.slk o) s = execSlk o s from rfl)
  have coll := hstops (show exec (.coll o) s = execColl o s from rfl)
  have esend := hown (show exec (.esend o) s = execEsend o s from rfl)
  have erel := hown (show exec (.erel o) s = execErel o s from rfl)
  have eprobe := hown (show exec (.eprobe o) s = execEprobe o s from rfl)
  have xtloadFull := hpriv (show exec (.xtloadFull o) s = execXtloadFull o s from rfl)
  have xtloadEntry := hpriv (show exec (.xtloadEntry o) s = execXtloadEntry o s from rfl)
  have xtloadPage := hpriv (show exec (.xtloadPage o) s = execXtloadPage o s from rfl)
  have almw := hpriv (show exec (.almw o) s = execAlmw o s from rfl)
  have almwLen := hpriv (show exec (.almwLen o) s = execAlmwLen o s from rfl)
  have migCtlStart := hpriv (show exec (.migCtlStart o) s = execMigCtlStart o s from rfl)
  have migCtlDone := hpriv (show exec (.migCtlDone o) s = execMigCtlDone o s from rfl)
  exact ⟨amsg.1, taskPost.1, taskDec.1, clbar.1, chbar.1, gbar.1, fork.1, spawn.1, join.1, revSt.1, fun hr hf => flowMode_issues hg (hok.mpr hr) hf,
    slk.1, fun hr hf => coll_issues hg (hok.mpr hr) hf, esend.1, erel.1, eprobe.1, xtloadFull.1, xtloadEntry.1, xtloadPage.1, almw.1,
    almwLen.1, migCtlStart.1, migCtlDone.1, amsg.2, taskPost.2, taskDec.2, clbar.2, chbar.2, gbar.2, fork.2, spawn.2, join.2, revSt.2,
    flowMode, slk.2, coll, esend.2, erel.2, eprobe.2, xtloadFull.2, xtloadEntry.2, xtloadPage.2, almw.2, almwLen.2, migCtlStart.2, migCtlDone.2⟩

end Sys2Proof.Machine

namespace Sys2Proof.Machine

/-! ## cpy (R209 to R212, R234) -/

/-- The copy that a cpy gives, behind the M form of its own bundle that it waits for. -/
def State.newCopy (s : State) (o : EOp) (after : Option Nat) : CopyCmd :=
  { readCpy (scratchRead s s.sel.who (s.cpyAt o) 96) s.nextId s.sel.who o.cc.toNat s.cur.inst with after := after }
/-- A copy enters with the busy bits of the tiles and latches that it names. -/
theorem cpy_enters {o : EOp} {s : State} (hg : s.guard .e o.g = true) (hown : cpyFault o s = none) (hroom : s.cur.room (1 + o.opt.toNat % 2) = .ok) :
    ∃ after, exec (.cpy o) s = .next ((poolPoison s 10 (s.cpyAt o) 96).fresh.upd (fun c =>
      (c.withBusy (s.newCopy o after).elems s.nextId false).enter (.copy (o.opt.toNat % 2) (s.newCopy o after)))) := by
  have hexec : exec (.cpy o) s = execCpy o s := rfl
  apply Exists.intro
  refine (eIssue_acts hexec hg (fun h => by cases h) hown hroom).trans (congrArg Host.Outcome.next ?_)
  exact setBusy_all_upd s.nextId false (fun c => c.enter (.copy (o.opt.toNat % 2) (s.newCopy o _))) (s.newCopy o _).elems _

/-- What a copy's entry leaves of its context, and the queue that takes it. -/
def Ctx.takesCopy (c u : Ctx) (eng : Nat) (k : CopyCmd) : Prop :=
  u.regs = c.regs ∧ u.flight = c.flight ∧ u.busy = c.busy ∧ u.ring = c.ring ∧
    (if c.inRing (1 + eng) then u.ovfWait = c.ovfWait ++ [.copy eng k] ∧ u.cq0 = c.cq0 ∧ u.cq1 = c.cq1
     else u.ovfWait = c.ovfWait ∧ u.cq0 = (if eng = 0 then c.cq0 ++ [k] else c.cq0) ∧ u.cq1 = (if eng = 0 then c.cq1 else c.cq1 ++ [k]))
theorem enter_copy (c : Ctx) {eng : Nat} (heng : eng < 2) (k : CopyCmd) : c.takesCopy (c.enter (.copy eng k)) eng k := by
  have henter : c.enter (.copy eng k) = if c.inRing (1 + eng) then { c with ovfWait := c.ovfWait ++ [RingEntry.copy eng k] }.noteHwm
      else if eng = 0 then { c with cq0 := c.cq0 ++ [k] } else { c with cq1 := c.cq1 ++ [k] } := by
    obtain rfl | rfl : eng = 0 ∨ eng = 1 := by omega
    · rfl
    · rfl
  rw [Ctx.takesCopy, henter]
  by_cases hr : c.inRing (1 + eng) = true
  · rw [if_pos hr, if_pos hr]
    exact ⟨rfl, rfl, rfl, rfl, rfl, rfl, rfl⟩
  · rw [if_neg hr, if_neg hr]
    by_cases h0 : eng = 0
    · rw [if_pos h0, if_pos h0, if_pos h0]
      exact ⟨rfl, rfl, rfl, rfl, rfl, rfl, rfl⟩
    · rw [if_neg h0, if_neg h0, if_neg h0]
      exact ⟨rfl, rfl, rfl, rfl, rfl, rfl, rfl⟩

/-! ## ecnt (R213) -/

/-- A form of ecnt changes one counter as it issues. -/
theorem ecnt_changes {i : Instr} {o : EOp} {s : State} (hg : s.guard .e o.g = true) (f : BitVec 32 → BitVec 32 → BitVec 32)
    (h : exec i s = guarded .e o.g s (fun s => s.upd (fun c => c.setCC o.cc.toNat (f (ecntSrc o s))))) :
    ∃ t, exec i s = .next t ∧ onlyCtx s.sel.who s t ∧ t.cur = { s.cur with csr := { s.cur.csr with ccnt := t.cur.csr.ccnt } } ∧
      ∀ n : Fin 16, t.cur.csr.ccnt[n] = if n.val = o.cc.toNat then f (ecntSrc o s) s.cur.csr.ccnt[n] else s.cur.csr.ccnt[n] := by
  refine ⟨_, h.trans (guarded_on .e o.g s _ hg), ⟨rfl, fun w hw => (State.ctx_upd s _ w).trans (if_neg hw)⟩, ?_, fun n => ?_⟩
  · rw [State.cur_upd]
    rfl
  · rw [State.cur_upd, getElem_setCC]

/-- Settles O33: the descriptor's copy in its queue, or the fault, the quota or the block; and the counter of an ecnt. -/
theorem copyAndCounterIssue : Obligations.CopyAndCounterIssue := by
  unfold Obligations.CopyAndCounterIssue
  intro o s hg c eng len used room noQuota v a
  have heng : eng < 2 := Nat.mod_lt _ (by decide)
  have hlen : c.queueLen (1 + eng) = len := by
    obtain h | h : eng = 0 ∨ eng = 1 := by omega
    · show c.queueLen (1 + eng) = if eng = 0 then _ else _
      rw [h]; rfl
    · show c.queueLen (1 + eng) = if eng = 0 then _ else _
      rw [h]; rfl
  have hok : c.room (1 + eng) = .ok ↔ room := by rw [room_ok_iff, hlen]
  have hquota : c.room (1 + eng) = .quota ↔ noQuota := by rw [room_quota_iff, hlen]
  have hexec : exec (.cpy o) s = execCpy o s := rfl
  have user : false = true → c.csr.mode = true := fun h => by cases h
  refine ⟨fun hf hr => ?enters, fun f hf => eIssue_faults hexec hg user hf, fun hf hq => eIssue_quota hexec hg user hf (hquota.mpr hq),
    fun hf hr hq => eIssue_blocks hexec hg user hf (room_block (hok.not.mpr hr) (hquota.not.mpr hq)),
    ecnt_changes hg (fun v x => x + v) rfl, ecnt_changes hg (fun v _ => v) rfl⟩
  case enters =>
    obtain ⟨after, henters⟩ := cpy_enters hg hf (hok.mpr hr)
    obtain ⟨l, hcur, hmem, hpkts, _, _, hctx⟩ := (poolPoison_lateOnly s 10 (s.cpyAt o) 96).upd (fun c =>
      (c.withBusy (s.newCopy o after).elems s.nextId false).enter (.copy eng (s.newCopy o after)))
    obtain ⟨hregs, hflight, hbusy, hring, htakes⟩ := enter_copy ((s.cur.withLate l).withBusy (s.newCopy o after).elems s.nextId false) heng (s.newCopy o after)
    refine ⟨_, s.newCopy o after, henters, hmem, hpkts, ?_, ?_, hctx, rfl, rfl, rfl, rfl, ?_⟩
    · rw [hcur]; exact hregs
    · rw [hcur]; exact hflight
    · rw [hcur]; exact ⟨hbusy, hring, htakes⟩

end Sys2Proof.Machine

namespace Sys2Proof.Machine

/-! ## The M queue with one of its forms changed (R192) -/

theorem updWhere_id_cons (f : MForm → MForm) (i : Nat) (a : MForm) (r : List MForm) :
    updWhere (fun m => m.id = i) f (a :: r) = (if a.id = i then f a else a) :: updWhere (fun m => m.id = i) f r := by
  simp only [updWhere, List.map_cons, decide_eq_true_eq]
section
variable {f : MForm → MForm} (hf : ∀ m, (f m).id = m.id) (i : Nat)
include hf
theorem find?_updWhere_id : ∀ l : List MForm, (updWhere (fun m => m.id = i) f l).find? (fun m => m.id = i) = (l.find? (fun m => m.id = i)).map f
  | [] => rfl
  | a :: r => by
    rw [updWhere_id_cons]
    by_cases h : a.id = i
    · rw [if_pos h, List.find?_cons_of_pos (by simpa [hf] using h), List.find?_cons_of_pos (by simpa using h)]
      rfl
    · rw [if_neg h, List.find?_cons_of_neg (by simpa using h), List.find?_cons_of_neg (by simpa using h), find?_updWhere_id r]
theorem formsBefore_updWhere_id : ∀ l : List MForm, formsBefore (updWhere (fun m => m.id = i) f l) i = formsBefore l i
  | [] => rfl
  | a :: r => by
    have ih := formsBefore_updWhere_id r
    rw [formsBefore, formsBefore] at ih ⊢
    rw [updWhere_id_cons]
    by_cases h : a.id = i
    · rw [if_pos h, List.takeWhile_cons_of_neg (by simpa [hf] using h), List.takeWhile_cons_of_neg (by simpa using h)]
    · rw [if_neg h, List.takeWhile_cons_of_pos (by simpa using h), List.takeWhile_cons_of_pos (by simpa using h), ih]
end
/-- A form whose last row has been read. -/
def MForm.withRead (m : MForm) (x : FormRead) : MForm := { m with read := some x }

/-! ## The start and the completion of a matrix form (R192, R193) -/

section
variable {s : State} {m : MForm} (hfound : (s.core s.sel.who.coreId).mq.find? (fun f => f.id = s.sel.id) = some m)
  (hready : s.unitsReady s.sel.who.coreId (formRanges (s.ctx m.who) m.op) = true)
include hfound hready
theorem matrixOpStart_starts (hnot : m.started = false) (hmay : mayStart (formsBefore (s.core s.sel.who.coreId).mq m.id) m = true) :
    exec .matrixOpStart s = .next (feedForms (s.updCore s.sel.who.coreId (fun k =>
      { k with mq := updWhere (fun f => f.id = m.id) (fun f => { f with started := true }) k.mq })) s.sel.who.coreId) := by
  show execMatrixOpStart s = _
  rw [execMatrixOpStart]
  simp only [hfound]
  rw [hnot, hmay, hready]
  rfl
omit hready in
theorem found_by_id : (s.core s.sel.who.coreId).mq.find? (fun f => f.id = m.id) = some m := by
  have hid : m.id = s.sel.id := by simpa using List.find?_some hfound
  rw [hid]
  exact hfound
variable (hmay : mayComplete (formsBefore (s.core s.sel.who.coreId).mq m.id) m = true)
include hmay
/-- A form that has read what it reads first, or reads nothing first, has its effect. -/
theorem matrixOpComplete_ends (hval : s.sel.val = 0) (hread : readFirst m.op = [] ∨ m.read ≠ none) : exec .matrixOpComplete s =
    .next (formEffect (clearBusy (s.updCore s.sel.who.coreId (fun k => { k with mq := k.mq.filter (fun f => f.id ≠ m.id) })) m.who m.id) m).settle := by
  have hnow : (m.read.isNone && decide (readFirst m.op ≠ [])) = false := by
    rcases hread with h | h
    · rw [h]; simp
    · rw [Option.isNone_eq_false_iff.mpr (Option.isSome_iff_ne_none.mpr h)]; rfl
  have hzero : s.sel.val.toNat = 0 := by rw [hval]; rfl
  have hagain := found_by_id hfound
  show execMatrixOpComplete s = _
  rw [execMatrixOpComplete]
  simp only [hfound]
  rw [hmay, hready, hzero, hnow, if_neg Bool.false_ne_true, hagain]
  rfl
end

/-- What a form reads at its last row. -/
def State.rowsSeen (s : State) (m : MForm) : FormRead :=
  match m.op with
  | .mma o => s.latSeen m.who o.lat.toNat
  | .mter o => s.latSeen m.who o.lat.toNat
  | .mdrain o => s.accSeen m o.acc.toNat
  | .maccLd _ => s.tilesSeen m
  | _ => ⟨[], [], 0⟩
/-- A core whose M-queue form `m` has read its last row. -/
def Core.withRows (k : Core) (m : MForm) (x : FormRead) : Core := { k with mq := updWhere (fun f => f.id = m.id) (fun f => f.withRead x) k.mq }
/-- A context where form `m` has read its last row: its busy bits, and the traps `l` that wait. -/
def Ctx.rowsRead (c : Ctx) (m : MForm) (l : List LateFault) : Ctx :=
  { c with busy := c.busy.filter (fun b => !(b.id = m.id && (readFirst m.op).contains b.elem)), late := l }
theorem readRows_core (s : State) (m : MForm) : (readRows s m).core m.who.coreId = (s.core m.who.coreId).withRows m (s.rowsSeen m) :=
  State.core_updCore_same s m.who.coreId (fun k => k.withRows m (s.rowsSeen m))
theorem readRows_ctx (s : State) (m : MForm) : ∃ l, (readRows s m).ctx m.who = (s.ctx m.who).rowsRead m l :=
  ⟨_, State.ctx_updCtx_same _ m.who _⟩
theorem formRanges_of_limits {c c' : Ctx} (h : c'.csr = c.csr) (i : Instr) : formRanges c' i = formRanges c i := by
  have htile : c'.tileAt = c.tileAt := by funext n; rw [Ctx.tileAt, Ctx.tileAt, Ctx.limit, Ctx.limit, h]
  have hacc : c'.accAt = c.accAt := by funext n; rw [Ctx.accAt, Ctx.accAt, Ctx.limit, Ctx.limit, h]
  simp only [formRanges, htile, hacc]

section
variable {s : State} {m : MForm} (hfound : (s.core s.sel.who.coreId).mq.find? (fun f => f.id = s.sel.id) = some m) (hwho : m.who = s.sel.who)
  (hready : s.unitsReady s.sel.who.coreId (formRanges (s.ctx m.who) m.op) = true)
  (hmay : mayComplete (formsBefore (s.core s.sel.who.coreId).mq m.id) m = true) (hfirst : readFirst m.op ≠ []) (hread : m.read = none)
include hfound hready hmay hfirst hread
/-- The last row of a form is read in a step of its own. -/
theorem matrixOpComplete_reads (hval : s.sel.val = 1) : exec .matrixOpComplete s = .next (readRows s m) := by
  have hone : s.sel.val.toNat = 1 := by rw [hval]; rfl
  show execMatrixOpComplete s = _
  rw [execMatrixOpComplete]
  simp only [hfound]
  rw [hmay, hready, hone, hread, if_pos (show (true && true) = true from rfl)]
  exact if_pos (by rw [decide_eq_true hfirst]; rfl)
include hwho
/-- A form that completes reads its last row as such a step does, and then has its effect. -/
theorem matrixOpComplete_readRows (hval : s.sel.val = 0) : exec .matrixOpComplete s = exec .matrixOpComplete (readRows s m) := by
  have hcore := readRows_core s m
  obtain ⟨l, hctx⟩ := readRows_ctx s m
  rw [hwho] at hcore
  have hid : m.id = s.sel.id := by simpa using List.find?_some hfound
  have hkeep (f : MForm) : (f.withRead (s.rowsSeen m)).id = f.id := rfl
  have hmq : ((readRows s m).core s.sel.who.coreId).mq =
      updWhere (fun f => f.id = m.id) (fun f => f.withRead (s.rowsSeen m)) (s.core s.sel.who.coreId).mq := by rw [hcore]; rfl
  have hfound' : ((readRows s m).core s.sel.who.coreId).mq.find? (fun f => f.id = s.sel.id) = some (m.withRead (s.rowsSeen m)) := by
    rw [hmq, ← hid, find?_updWhere_id hkeep, found_by_id hfound]
    rfl
  have hcsr : ((readRows s m).ctx m.who).csr = (s.ctx m.who).csr := by rw [hctx]; rfl
  have hready' : (readRows s m).unitsReady s.sel.who.coreId (formRanges ((readRows s m).ctx m.who) m.op) = true := by
    rw [formRanges_of_limits hcsr, ← hready]
    simp only [State.unitsReady, State.wantedIn, hcore]
    rfl
  have hmay' : mayComplete (formsBefore ((readRows s m).core s.sel.who.coreId).mq m.id) (m.withRead (s.rowsSeen m)) = true := by
    rw [hmq, formsBefore_updWhere_id hkeep]
    exact hmay
  have hzero : s.sel.val.toNat = 0 := by rw [hval]; rfl
  rw [matrixOpComplete_ends (s := readRows s m) hfound' hready' hmay' hval (.inr (Option.some_ne_none (s.rowsSeen m)))]
  have hagain : ((readRows s m).core s.sel.who.coreId).mq.find? (fun f => f.id = m.id) = some (m.withRead (s.rowsSeen m)) := by
    rw [hid]
    exact hfound'
  show execMatrixOpComplete s = _
  rw [execMatrixOpComplete]
  simp only [hfound]
  rw [hmay, hready, hzero, hread, if_pos (show (true && true) = true from rfl)]
  rw [if_pos (by rw [decide_eq_true hfirst]; rfl)]
  rw [hagain]
  rfl
end

end Sys2Proof.Machine

namespace Sys2Proof.Machine

/-! ### mzero, with what has been read of it (R197) -/

section
variable {s : State} {m : MForm} {o : MRow} (hop : m.op = .mzero o) (hwho : m.who = s.sel.who) (hmoved : m.moved = [])
include hop hwho hmoved
/-- An accumulator cleared when its form leaves the M queue. -/
theorem mzeroEffect_mem : (formEffect (s.popForm m) m).mem = (s.poke (s.accKey o.acc.toNat) (List.replicate 65536 0)).mem := by
  have hdst : formDst ((s.popForm m).ctx s.sel.who) m.op = (s.cur.accAt o.acc.toNat, 65536) := by rw [popForm_ctx, hop]; rfl
  have hout : (s.popForm m).formOut m = List.replicate 65536 0 := by rw [State.formOut, hop]
  have hwrite : writeOut (s.popForm m) m = (s.popForm m).poke (s.accKey o.acc.toNat) (List.replicate 65536 0) := by
    rw [writeOut, hwho, hdst, hout, State.pokeRest, if_pos hmoved]
    rfl
  show (formEffect (s.popForm m) m).mem = _
  rw [formEffect, hop]
  show (writeOut (s.popForm m) m).mem = _
  rw [hwrite]
  rfl
omit hwho in
theorem mzeroEffect_pkts : (formEffect (s.popForm m) m).pkts = s.pkts := by
  rw [formEffect, hop]
  show (writeOut (s.popForm m) m).pkts = _
  rw [writeOut, State.pokeRest, if_pos hmoved]
  rfl
theorem mzero_completes (hfound : (s.core s.sel.who.coreId).mq.find? (fun f => f.id = s.sel.id) = some m)
    (hready : s.unitsReady s.sel.who.coreId (formRanges (s.ctx m.who) m.op) = true)
    (hmay : mayComplete (formsBefore (s.core s.sel.who.coreId).mq m.id) m = true) (hval : s.sel.val = 0) (hidle : s.poolIdle)
    (hwf : Memory.wf s.mem = true) : ∃ t, exec .matrixOpComplete s = .next t ∧
      memSameBut s t (s.accKey o.acc.toNat) 65536 ∧ ∀ k < 65536, memGet t.mem (s.accKey o.acc.toNat + k) = 0 := by
  have hexec := matrixOpComplete_ends hfound hready hmay hval (.inl (by rw [hop]; rfl))
  rw [hwho] at hexec
  have hkeep : (formEffect (s.popForm m) m).poolIdle := by rw [State.poolIdle, mzeroEffect_pkts hop hmoved]; exact hidle
  have ht : (formEffect (s.popForm m) m).settle.mem = (s.poke (s.accKey o.acc.toNat) (List.replicate 65536 0)).mem :=
    (settle_mem_idle hkeep).trans (mzeroEffect_mem hop hwho hmoved)
  refine ⟨_, hexec, ?_, fun k hk => ?_⟩
  · rw [← List.length_replicate (n := 65536) (a := (0 : Byte))]
    exact memSameBut_of_stored hwf ht
  · refine (memGet_of_stored hwf ht _).trans ?_
    rw [List.length_replicate, if_pos (by omega), List.getD_eq_getElem?_getD, List.getElem?_replicate]
    split <;> rfl
end

/-- A step that only reads the last row of a form clears busy bits of that form alone, and leaves the rest to the completion. -/
theorem matrixOpComplete_twoSteps {s : State} {m : MForm} (hfound : (s.core s.sel.who.coreId).mq.find? (fun f => f.id = s.sel.id) = some m)
    (hwho : m.who = s.sel.who) (hready : s.unitsReady s.sel.who.coreId (formRanges (s.ctx m.who) m.op) = true)
    (hmay : mayComplete (formsBefore (s.core s.sel.who.coreId).mq m.id) m = true) (hfirst : readFirst m.op ≠ []) (hread : m.read = none) :
    ∃ u, exec .matrixOpComplete { s with sel := { s.sel with val := 1 } } = .next u ∧ u.mem = s.mem ∧
      (∀ b ∈ u.cur.busy, b ∈ s.cur.busy ∧ ¬ (b.id = m.id ∧ b.elem ∈ readFirst m.op)) ∧
      (s.sel.val = 0 → exec .matrixOpComplete s = exec .matrixOpComplete { u with sel := s.sel }) := by
  refine ⟨readRows { s with sel := { s.sel with val := 1 } } m,
    matrixOpComplete_reads (s := { s with sel := { s.sel with val := 1 } }) hfound hready hmay hfirst hread rfl, rfl, fun b hb => ?_, fun hval => ?_⟩
  · obtain ⟨l, hctx⟩ := readRows_ctx s m
    have hcur : (readRows { s with sel := { s.sel with val := 1 } } m).cur = (readRows s m).ctx m.who := by rw [hwho]; rfl
    rw [hcur, hctx, hwho] at hb
    simp only [Ctx.rowsRead, List.mem_filter, Bool.not_eq_true', Bool.and_eq_false_imp, decide_eq_true_eq, List.contains_eq_mem, decide_eq_false_iff_not] at hb
    exact ⟨hb.1, fun h => hb.2 h.1 h.2⟩
  · exact matrixOpComplete_readRows hfound hwho hready hmay hfirst hread hval

/-! ## The copies of an engine (R209 to R212) -/

theorem engine_setEngine (k : Core) (e : Nat) (r : Option CopyRun) : (k.setEngine e r).engine e = r := by
  unfold Core.setEngine Core.engine
  split <;> rfl
/-- The copy of an engine, after it has been set last. -/
theorem engine_updCore_setEngine (s : State) (c : CoreId) (e : Nat) (r : Option CopyRun) :
    ((s.updCore c (fun q => q.setEngine e r)).core c).engine e = r := by
  rw [State.core_updCore_same, engine_setEngine]

/-- R210: a copy leaves its context's queue for the engine. -/
theorem copyStart_starts {s : State} {k : CopyCmd} {r : List CopyCmd} (he : s.sel.id < 2) (hq : (if s.sel.id = 0 then s.cur.cq0 else s.cur.cq1) = k :: r)
    (hfree : (s.core s.sel.who.coreId).engine s.sel.id = none) (hafter : (s.core s.sel.who.coreId).mq.all (fun m => some m.id ≠ k.after) = true)
    (hstores : s.storesBefore s.sel.who k.id = false) (hready : s.unitsReady s.sel.who.coreId (copyRanges s.cur k) = true) :
    ∃ t, exec .copyStart s = .next t ∧ t.mem = s.mem ∧
      (t.core s.sel.who.coreId).engine s.sel.id = some { cmd := k, pos := 0, part := [], poison := false, moved := [] } := by
  have hforms : (s.core s.sel.who.coreId).mq.any (fun m => some m.id = k.after) = false := by
    rw [List.any_eq_false]
    intro m hm h
    have := List.all_eq_true.mp hafter m hm
    simp_all
  have hex : exec .copyStart s = execCopyStart s := rfl
  rw [hex]
  unfold execCopyStart
  dsimp only
  have hq' : (if s.sel.id = 0 then (s.ctx s.sel.who).cq0 else (s.ctx s.sel.who).cq1) = k :: r := hq
  have hready' : s.unitsReady s.sel.who.coreId (copyRanges (s.ctx s.sel.who) k) = true := hready
  rw [hq']
  dsimp only
  rw [if_pos (by rw [hfree, hforms, hstores, hready', decide_eq_true he]; rfl)]
  exact ⟨_, rfl, rfl, engine_updCore_setEngine _ _ _ _⟩

/-! ### Entries that started forms take -/

theorem takeEntries_mem (s : State) (m : MForm) : (takeEntries s m).mem = s.mem := rfl
/-- What forms take of the queues is nothing of an engine. -/
theorem takeEntries_engine (c : CoreId) (e : Nat) (s : State) (m : MForm) : ((takeEntries s m).core c).engine e = (s.core c).engine e := by
  rw [takeEntries]
  dsimp only
  rw [State.core_updCore]
  split
  · next h => rw [h]; rfl
  · rfl
theorem feedForms_mem (s : State) (c : CoreId) : (feedForms s c).mem = s.mem :=
  foldl_keeps State.mem takeEntries takeEntries_mem _ s
theorem feedForms_engine (s : State) (c d : CoreId) (e : Nat) : ((feedForms s d).core c).engine e = (s.core c).engine e :=
  foldl_keeps (fun t => (t.core c).engine e) takeEntries (takeEntries_engine c e) _ s

section
variable {s : State} {r : CopyRun} (hrun : (s.core s.sel.who.coreId).engine s.sel.id = some r)
  (hready : s.unitsReady s.sel.who.coreId (copyRanges (s.ctx r.cmd.who) r.cmd) = true)
include hrun hready
/-- R188, R210: an engine pushes an entry of 256 bytes into a queue with room. -/
theorem fifoEntryPush_pushes (hto : r.cmd.toFifo = true) (hleft : r.pos < r.cmd.total)
    (hroom : (if r.cmd.dk = 3 then (s.ctx r.cmd.who).fifoB else (s.ctx r.cmd.who).fifoA).length < 64) :
    ∃ t, exec .fifoEntryPush s = .next t ∧ t.mem = s.mem ∧
      (t.core s.sel.who.coreId).engine s.sel.id = some { r with pos := r.pos + 256 / r.cmd.esz, moved := [] } := by
  have hex : exec .fifoEntryPush s = execFifoEntryPush s := rfl
  rw [hex]
  unfold execFifoEntryPush
  dsimp only
  rw [hrun]
  dsimp only
  rw [hto, hready, decide_eq_true hleft, decide_eq_true hroom, if_pos (show (true && true && true && true) = true from rfl)]
  refine ⟨_, rfl, feedForms_mem _ _, ?_⟩
  rw [feedForms_engine, engine_updCore_setEngine]
  rfl

/-- R212, R241: a byte of a copy moves ahead of the others. -/
theorem copyComplete_ahead {i : Nat} (hi : i < r.cmd.total * r.cmd.esz) (hval : s.sel.val.toNat = i + 1) (hnew : ∀ q ∈ r.moved, q.1 ≠ i)
    (hmay : if r.cmd.toFifo then r.pos * r.cmd.esz ≤ i ∧ i < r.pos * r.cmd.esz + 256 else r.cmd.mayAhead (r.moved.map (·.1)) i = true) :
    ∃ t, exec .copyComplete s = .next t ∧
      (t.core s.sel.who.coreId).engine s.sel.id = some { r with moved := (i, copySees s r.cmd i) :: r.moved } := by
  have hne : s.sel.val ≠ 0 := by intro h; rw [h] at hval; simp at hval
  have hcond : (decide (r.cmd.total * r.cmd.esz ≤ i) || r.moved.any (fun q => q.1 = i)) = false := by
    rw [Bool.or_eq_false_iff, decide_eq_false_iff_not, List.any_eq_false]
    exact ⟨by omega, fun q hq h => hnew q hq (by simpa using h)⟩
  have hex : exec .copyComplete s = copyAhead s s.sel.who.coreId s.sel.id r i := by
    show execCopyComplete s = _
    rw [execCopyComplete]
    simp only [hrun]
    rw [hready, hval, if_neg (by simp), if_pos hne]
    rfl
  rw [hex, copyAhead]
  dsimp only
  rw [hcond, if_neg Bool.false_ne_true]
  cases hto : r.cmd.toFifo with
  | true =>
    rw [hto, if_pos rfl] at hmay
    rw [if_pos rfl, if_pos (by rw [decide_eq_true hmay.1, decide_eq_true hmay.2]; rfl)]
    exact ⟨_, rfl, engine_updCore_setEngine _ _ _ _⟩
  | false =>
    rw [hto, if_neg Bool.false_ne_true] at hmay
    rw [if_neg Bool.false_ne_true, if_pos hmay]
    exact ⟨_, rfl, engine_updCore_setEngine _ _ _ _⟩
end

/-! ### The counter of a copy -/

/-- The bytes of an element that are written change no completion counter. -/
theorem copyPut_ccnt (w : Who) (k : CopyCmd) (p : Nat) (l : List (Nat × Byte × Bool)) (s : State) :
    ((copyPut k p l s).ctx w).csr.ccnt = (s.ctx w).csr.ccnt := by
  have hput (at0 : Nat) (t : State) : (l.foldl (fun s b => let s1 := s.poke (at0 + b.1) [b.2.1]; if b.2.2 then s1.setPoison (at0 + b.1) 1 else s1) t).ctx w = t.ctx w :=
    foldl_keeps (fun t => t.ctx w) _ (fun t b => by dsimp only; split <;> rfl) l t
  unfold copyPut
  dsimp only
  split
  · rw [State.ctx_updCtx]
    split
    · next h => rw [← h, hput]
    · rw [hput]
  · rw [hput]
theorem copyRest_ccnt (w : Who) (r : CopyRun) (s : State) : ((copyRest r s).ctx w).csr.ccnt = (s.ctx w).csr.ccnt := by
  unfold copyRest
  exact foldl_keeps (fun t => (t.ctx w).csr.ccnt) _ (fun t p => copyPut_ccnt w r.cmd p _ t) _ s
theorem clearBusy_ccnt (s : State) (w : Who) (id : Nat) : ((clearBusy s w id).ctx w).csr.ccnt = (s.ctx w).csr.ccnt := by
  rw [clearBusy, State.ctx_updCtx_same]
theorem incCC_counts (c : Ctx) {n : Nat} (hn : n < 16) (inst k : Nat) :
    (c.incCC n inst k).csr.ccnt.toList.getD n 0 = c.csr.ccnt.toList.getD n 0 + BitVec.ofNat 32 k := by
  rw [Ctx.incCC]
  simp [List.getD_eq_getElem?_getD, hn]

/-- R210, R212: a copy that has no entries left to push moves what is left of it, and its counter moves. -/
theorem copyComplete_ends {s : State} {r : CopyRun} (hrun : (s.core s.sel.who.coreId).engine s.sel.id = some r)
    (hready : s.unitsReady s.sel.who.coreId (copyRanges (s.ctx r.cmd.who) r.cmd) = true)
    (hval : s.sel.val = 0) (hdone : r.cmd.toFifo = false ∨ r.cmd.total ≤ r.pos) :
    ∃ t, exec .copyComplete s = .next t ∧ (t.core s.sel.who.coreId).engine s.sel.id = none ∧
      (r.cmd.cc < 16 → (t.ctx r.cmd.who).csr.ccnt.toList.getD r.cmd.cc 0 = (s.ctx r.cmd.who).csr.ccnt.toList.getD r.cmd.cc 0 + 1) := by
  have hnone : (r.cmd.toFifo && decide (r.pos < r.cmd.total)) = false := by
    rcases hdone with h | h
    · rw [h]; rfl
    · rw [decide_eq_false (by omega), Bool.and_false]
  have hex : exec .copyComplete s = .next (((clearBusy (if r.cmd.toFifo then s else copyRest r s) r.cmd.who r.cmd.id).updCtx r.cmd.who
      (fun c => c.incCC r.cmd.cc r.cmd.inst 1)).updCore s.sel.who.coreId (fun q => q.setEngine s.sel.id none)) := by
    show execCopyComplete s = _
    rw [execCopyComplete]
    simp only [hrun]
    rw [hready, hnone, if_neg (by simp), if_neg (by simp [hval]), if_neg Bool.false_ne_true]
  refine ⟨_, hex, engine_updCore_setEngine _ _ _ _, fun hcc => ?_⟩
  have hmoved : ((if r.cmd.toFifo then s else copyRest r s).ctx r.cmd.who).csr.ccnt = (s.ctx r.cmd.who).csr.ccnt := by
    split
    · rfl
    · exact copyRest_ccnt _ _ _
  rw [State.ctx_updCore, State.ctx_updCtx_same, incCC_counts _ hcc, clearBusy_ccnt, hmoved]
  rfl

/-- Settles O38: a form's start, its last row and its completion, and each step of a copy, by its lemma above. -/
theorem engineEvents : Obligations.EngineEvents := by
  unfold Obligations.EngineEvents
  intro s
  refine ⟨fun m hfound => ⟨fun hnot hmay hready => matrixOpStart_starts hfound hready hnot hmay, fun hmay hready => ⟨?_, ?_, ?_⟩⟩, ?_, ?_⟩
  · exact matrixOpComplete_ends hfound hready hmay
  · exact fun hwho hfirst hread => matrixOpComplete_twoSteps hfound hwho hready hmay hfirst hread
  · exact fun o hop hwho hmoved hval hidle hwf => mzero_completes hop hwho hmoved hfound hready hmay hval hidle hwf
  · exact fun k r he hq hfree hafter hstores hready => copyStart_starts he hq hfree hafter hstores hready
  · exact fun r hrun hready => ⟨fifoEntryPush_pushes hrun hready, fun i hi hval hnew hmay => copyComplete_ahead hrun hready hi hval hnew hmay,
      copyComplete_ends hrun hready⟩

end Sys2Proof.Machine

namespace Sys2Proof.Machine

/-! ## The gang context that runs on a chip -/

theorem rgang_updRgang (s : State) (n : Nat) (f : Gang → Gang) : (s.updRgang n f).rgang n = f (s.rgang n) := by
  have hrun : (s.updRgang n f).gctxOf n = s.gctxOf n := by
    rw [State.gctxOf, State.updRgang, State.updGang, State.chip_updChip_same]
    rfl
  rw [State.rgang, hrun]
  exact State.gang_updGang_same s n _ f

/-! ## A parked context starts (R228, R231) -/

/-- A scalar register written whole. -/
theorem merge_word (old : BitVec 4096) (v : BitVec 64) : (merge old (v.setWidth 4096) (Dest.e 0).full).setWidth 64 = v := by
  refine BitVec.eq_of_getLsbD_eq (fun i hi => ?_)
  have hi' : i < 4096 := by omega
  have hfull : (Dest.e 0).full = BitVec.ofNat 4096 (2 ^ 64 - 1) := rfl
  rw [BitVec.getLsbD_setWidth, getLsbD_merge _ _ _ i hi', hfull, BitVec.getLsbD_ofNat, Nat.testBit_two_pow_sub_one, BitVec.getLsbD_setWidth]
  simp [hi, hi']
/-- A context that starts at an address with two arguments. -/
def Ctx.startsAt (c : Ctx) (pc e0 e1 : BitVec 64) : Ctx :=
  let c1 := (c.putReg 0 (.e 0) (e0.setWidth 4096) (Dest.e 0).full).putReg 0 (.e 1) (e1.setWidth 4096) (Dest.e 1).full
  { c1 with st := .ready, block := .none, pc := regTarget pc, arrive := .taken, rep := 0, repOn := false, sig := { c.sig with live := false } }
theorem ctx_startAt (s : State) (v : Who) (pc e0 e1 : BitVec 64) : (startAt s v pc e0 e1).ctx v = (s.ctx v).startsAt pc e0 e1 :=
  State.ctx_updCtx_same s v (fun c => c.startsAt pc e0 e1)
theorem startsAt_e0 (c : Ctx) (pc e0 e1 : BitVec 64) : (c.startsAt pc e0 e1).regs.e[0] = e0 := by
  show ((c.regs.e.set 0 _ (by decide)).set 1 _ (by decide))[0] = e0
  rw [Vector.getElem_set_ne _ _ (by decide), Vector.getElem_set_self]
  exact merge_word _ e0
theorem startsAt_e1 (c : Ctx) (pc e0 e1 : BitVec 64) : (c.startsAt pc e0 e1).regs.e[1] = e1 := by
  show ((c.regs.e.set 0 _ (by decide)).set 1 _ (by decide))[1] = e1
  rw [Vector.getElem_set_self]
  exact merge_word _ e1
theorem startAt_starts (s : State) (v : Who) (pc e0 e1 : BitVec 64) : let t := startAt s v pc e0 e1
    onlyCtx v s t ∧ (t.ctx v).st = .ready ∧ (t.ctx v).pc = regTarget pc ∧ (t.ctx v).regs.e[0] = e0 ∧ (t.ctx v).regs.e[1] = e1 ∧ (t.ctx v).csr = (s.ctx v).csr := by
  have hctx := ctx_startAt s v pc e0 e1
  refine ⟨⟨rfl, fun w hw => (State.ctx_updCtx s v w _).trans (if_neg hw)⟩, ?_, ?_, ?_, ?_, ?_⟩
  · rw [hctx]; rfl
  · rw [hctx]; rfl
  · rw [hctx]; exact startsAt_e0 _ _ _ _
  · rw [hctx]; exact startsAt_e1 _ _ _ _
  · rw [hctx]; rfl

/-- R228: the oldest arrival of a parked context starts its handler. -/
theorem handlerStart_starts {s : State} {r : Arrival} {l : List Arrival} (hrq : s.cur.rq = r :: l) (htakes : s.cur.takesAm = true)
    (hpend : s.cur.pend = none) (hpicked : ∀ q ∈ (s.rgang s.sel.who.chip).picked, q.1 ≠ s.sel.who) :
    exec .handlerStart s = .next (startAt (s.upd (fun c => { c with rq := l })) s.sel.who
      (s.cur.imageBase + (s.cur.csr.ctxHdl >>> 2) * 4 + BitVec.ofNat 64 (4 * r.hoff)) r.e0 r.e1) := by
  have hnot : (s.rgang s.sel.who.chip).picked.any (fun q => q.1 = s.sel.who) = false := by
    rw [List.any_eq_false]
    exact fun q hq h => hpicked q hq (of_decide_eq_true h)
  have hrq' : (s.ctx s.sel.who).rq = r :: l := hrq
  have htakes' : (s.ctx s.sel.who).takesAm = true := htakes
  have hpend' : (s.ctx s.sel.who).pend = none := hpend
  show execHandlerStart s = _
  rw [execHandlerStart, hrq']
  dsimp only
  rw [htakes', hpend', hnot]
  rfl

/-! ## Tasks (R215, R230, R231) -/

section
variable {s : State} {q : UnitReq} {o : EOp} (hreq : s.theReq = some q) (hop : q.cmd.op = .taskPost o)
  (hrel : s.released q.who q.cmd.po 3 = true) (hturn : s.reqTurn q = true)
include hreq hop hrel hturn
theorem taskPost_decides : exec .taskPostAccept s =
    let i := natFld o.ext.imm.toNat 0 12
    let r := (s.rgang q.who.chip).post i (natFld o.ext.imm.toNat 12 7) q.cmd.ea q.cmd.eb 0 s.now
    if ((s.rgang q.who.chip).task i).posted then .next (answerReq (setEng s q.who q.cmd.inst 1) q 0)
    else .next (answerReq (let s1 := s.updRgang q.who.chip (fun _ => r.1); if r.2 then setEng s1 q.who q.cmd.inst 4 else s1) q 0) := by
  show execTaskPostAccept s = _
  rw [execTaskPostAccept, hreq]
  dsimp only
  rw [hop]
  dsimp only
  rw [hrel, hturn]
  rfl
end

/-- R231: the oldest task of the window goes to the first free context. -/
theorem dispatch_picks {s : State} {t : WTask} {r : List WTask} {v : Who} (hwin : (s.rgang s.sel.who.chip).window = t :: r)
    (hfree : (rotated s.sel.who.chip (s.rgang s.sel.who.chip).ptr).find? s.freeForTasks = some v) :
    ∃ u, exec .dispatchDecision s = .next u ∧ u.mem = s.mem ∧ u.ctxs = s.ctxs ∧
      (u.rgang s.sel.who.chip).picked = (s.rgang s.sel.who.chip).picked ++ [(v, t)] ∧
      (u.rgang s.sel.who.chip).window = r ++ (s.rgang s.sel.who.chip).waiting.take 1 ∧
      (u.rgang s.sel.who.chip).ptr = (v.clus * 32 + v.core * 4 + v.ctx + 1) % 1024 := by
  have hex : exec .dispatchDecision s = execDispatchDecision s := rfl
  rw [hex]
  unfold execDispatchDecision
  dsimp only
  rw [hwin, hfree]
  refine ⟨_, rfl, rfl, rfl, ?_, ?_, ?_⟩
  all_goals rw [rgang_updRgang]

/-- A task outside a revision starts in the root revision, with its index for an indexed one. -/
theorem startTask_root (s : State) (w : Who) {t : WTask} (hrev : t.rev = 0) :
    ((startTask s w t).ctx w).csr.revCur = 0x8000000000000000 ∧ ∀ i, t.idx = some i → ((startTask s w t).ctx w).regs.e[1] = BitVec.ofNat 64 i := by
  have hroot : (s.rgang w.chip).revs.find? (fun v => v.num = t.rev && t.rev ≠ 0) = none := by
    rw [List.find?_eq_none]
    intro v _
    rw [hrev]
    simp
  unfold startTask
  dsimp only
  rw [hroot, State.ctx_updCtx_same, ctx_startAt]
  refine ⟨rfl, fun i hi => ?_⟩
  dsimp only
  rw [hi]
  exact startsAt_e1 _ _ _ _
/-- A chosen context with its task started, in the revision of a handle. -/
def Ctx.withTask (c : Ctx) (t : WTask) (e1 hdl : BitVec 64) : Ctx :=
  let c1 := c.startsAt t.entry t.arg e1
  { c1 with csr := { c1.csr with revCur := hdl } }
theorem startTask_ctx (s : State) (w : Who) (t : WTask) : ∃ k : BitVec 64 × BitVec 64, (startTask s w t).ctx w = (s.ctx w).withTask t k.1 k.2 := by
  unfold startTask
  dsimp only
  rw [State.ctx_updCtx_same, ctx_startAt]
  exact ⟨(_, _), rfl⟩
/-- R231: a chosen context starts its task. -/
theorem taskStart_starts {s : State} {q : Who × WTask} (hq : (s.rgang s.sel.who.chip).picked.find? (fun q => q.1 = s.sel.who) = some q)
    (hst : s.cur.st = .dormant) :
    ∃ u, exec .taskStart s = .next u ∧ u.mem = s.mem ∧ u.cur.st = .ready ∧ u.cur.pc = regTarget q.2.entry ∧ u.cur.regs.e[0] = q.2.arg ∧
      (∀ i, q.2.idx = some i → q.2.rev = 0 → u.cur.regs.e[1] = BitVec.ofNat 64 i) ∧ (q.2.rev = 0 → u.cur.csr.revCur = 0x8000000000000000) := by
  have hst' : (s.ctx s.sel.who).st = .dormant := hst
  have hex : exec .taskStart s = .next (startTask s s.sel.who q.2) := by
    show execTaskStart s = _
    rw [execTaskStart]
    simp only [hq]
    exact if_neg (fun h => h hst')
  obtain ⟨k, hk⟩ := startTask_ctx s s.sel.who q.2
  refine ⟨_, hex, rfl, ?_, ?_, ?_, fun i hi hrev => (startTask_root s s.sel.who hrev).2 i hi, fun hrev => (startTask_root s s.sel.who hrev).1⟩
  · exact congrArg Ctx.st hk
  · exact congrArg Ctx.pc hk
  · exact (congrArg (fun c : Ctx => c.regs.e[0]) hk).trans (startsAt_e0 (s.ctx s.sel.who) q.2.entry q.2.arg k.1)
end Sys2Proof.Machine

namespace Sys2Proof.Machine

/-! ## Barriers (R217, R394) -/

theorem rgang_of_chips {s t : State} (h : t.chips = s.chips) (n : Nat) : t.rgang n = s.rgang n := by
  simp only [State.rgang, State.gang, State.gctxOf, State.chip, h]

section
variable (s : State) (q : UnitReq) (o : EOp)
/-- The barrier of a request with its arrival, and whether its n differs. -/
def State.arrivalOf : Barrier × Bool :=
  arriveAt ((s.rgang q.who.chip).bar (barKey q.cmd.op q.who.clus)) (natFld o.ext.imm.toNat 0 16) q.who (ccOf q.cmd.op)
/-- The request taken, and counted at its barrier. -/
def State.arrived : State :=
  let s1 := (s.dropReq q.id).updRgang q.who.chip (fun g => { g with bars := g.bars.set (barKey q.cmd.op q.who.clus) (s.arrivalOf q o).1 })
  if (s.arrivalOf q o).2 then setEng s1 q.who q.cmd.inst 2 else s1
/-- Its packet waits at the barrier. -/
def State.arrivedParked : State :=
  (s.reqPkt q).elim (s.arrived q o) (fun p => parkAt (s.arrived q o) p (barKey q.cmd.op q.who.clus) false)

theorem arrived_kept : (s.arrived q o).mem = s.mem ∧ (s.arrived q o).reqs = s.reqs.filter (fun r => r.id ≠ q.id) ∧
    ((s.arrived q o).rgang q.who.chip).bars.get (barKey q.cmd.op q.who.clus) ⟨0, []⟩ = (s.arrivalOf q o).1 := by
  have hcount : (((s.dropReq q.id).updRgang q.who.chip (fun g => { g with bars := g.bars.set (barKey q.cmd.op q.who.clus) (s.arrivalOf q o).1 })).rgang
      q.who.chip).bars.get (barKey q.cmd.op q.who.clus) ⟨0, []⟩ = (s.arrivalOf q o).1 := by
    rw [rgang_updRgang]
    exact AMap.get_set_same _ _ _ _
  unfold State.arrived
  split <;> exact ⟨rfl, rfl, hcount⟩
theorem arrivedParked_kept : (s.arrivedParked q o).mem = s.mem ∧ (s.arrivedParked q o).reqs = s.reqs.filter (fun r => r.id ≠ q.id) ∧
    ((s.arrivedParked q o).rgang q.who.chip).bars.get (barKey q.cmd.op q.who.clus) ⟨0, []⟩ = (s.arrivalOf q o).1 := by
  unfold State.arrivedParked
  cases s.reqPkt q with
  | none => exact arrived_kept s q o
  | some p => exact arrived_kept s q o
end

/-- R217: a request that may arrive is counted at its barrier. -/
theorem barrierArrival_arrives {s : State} {q : UnitReq} {o : EOp} (hreq : s.theReq = some q)
    (hop : (q.cmd.op = .clbar o ∧ s.released q.who q.cmd.po 2 = true) ∨ (q.cmd.op = .chbar o ∧ s.released q.who q.cmd.po 3 = true))
    (hopen : ((s.rgang q.who.chip).bar (barKey q.cmd.op q.who.clus)).any Barrier.full = false) :
    exec .barrierArrival s = .next (s.arrivedParked q o) := by
  have hex : exec .barrierArrival s = execBarrierArrival s := rfl
  rw [hex, execBarrierArrival, hreq]
  dsimp only
  unfold State.arrivedParked
  rcases hop with ⟨hop, hrel⟩ | ⟨hop, hrel⟩
  all_goals
    rw [hop] at hopen ⊢
    dsimp only
    rw [hrel, hopen, if_neg (by decide)]
    unfold State.arrived State.arrivalOf
    rw [hop]
    cases s.reqPkt q <;> rfl

/-- A packet that goes back no longer waits at a barrier. -/
theorem mem_barrierDone {s : State} {n key : Nat} {p : Pkt} (hp : p ∈ (barrierDone s n key).pkts) (hstage : p.stage = .parked) (hdst : p.dst = n)
    (hgctx : p.gctx = s.gctxOf n) : p.va ≠ key := by
  obtain ⟨x, _, rfl⟩ := List.mem_map.mp hp
  dsimp only at hstage hdst hgctx ⊢
  split at hstage
  · cases hstage
  · next hnot =>
    rw [if_neg hnot] at hdst hgctx ⊢
    exact fun hva => hnot (by simp [hstage, hdst, hgctx, hva])
theorem barrierDone_done (s : State) (n key : Nat) : let t := barrierDone s n key
    t.mem = s.mem ∧ t.ctxs = s.ctxs ∧ (t.rgang n).bar key = none ∧
      (∀ p ∈ s.pkts, p.stage = .parked → p.dst = n → p.gctx = s.gctxOf n → p.va = key → p.toReply s.now ∈ t.pkts) ∧
      ∀ p ∈ t.pkts, p.stage = .parked → p.dst = n → p.gctx = s.gctxOf n → p.va ≠ key := by
  refine ⟨rfl, rfl, ?_, fun p hp hstage hdst hgctx hva => ?_, fun p hp hstage hdst hgctx => mem_barrierDone hp hstage hdst hgctx⟩
  · have hgang : (barrierDone s n key).rgang n = (s.updRgang n (fun g => { g with bars := g.bars.del key })).rgang n := rgang_of_chips rfl n
    rw [hgang, rgang_updRgang, Gang.bar, AMap.get_del_same]
    rfl
  · refine List.mem_map.mpr ⟨p, hp, if_pos ?_⟩
    simp [hstage, hdst, hgctx, hva]
/-- R217, R394: a full barrier completes, by the step of its kind. -/
theorem barrier_completes {s : State} {b : Barrier} (hbar : (s.rgang s.sel.who.chip).bar s.sel.id = some b) (hfull : b.full = true) :
    exec (if s.sel.id < 2000 then Instr.barrierComplete else .gbarComplete) s = .next (barrierDone s s.sel.who.chip s.sel.id) := by
  by_cases h : s.sel.id < 2000
  · rw [if_pos h]
    show execBarrierComplete s = _
    rw [execBarrierComplete]
    simp only [hbar]
    exact if_pos (by rw [hfull, decide_eq_true h]; rfl)
  · rw [if_neg h]
    show execGbarComplete s = _
    rw [execGbarComplete]
    simp only [hbar]
    exact if_pos (by rw [hfull, decide_eq_true (Nat.le_of_not_lt h)]; rfl)

/-- R223: a member whose work is done finishes its kernel. -/
theorem memberFinish_ends {s : State} (hrun : (s.chip s.sel.who.chip).running.isSome = true)
    (hphase : (s.rgang s.sel.who.chip).kernel.any (fun k => k.phase = 1) = true) (hdone : s.finished s.sel.who.chip (s.gctxOf s.sel.who.chip) = true)
    (hstop : s.stopPending s.sel.who.chip (s.gctxOf s.sel.who.chip) = false) :
    exec .memberFinish s = .next (endKernel s s.sel.who.chip (s.gctxOf s.sel.who.chip) 0) := by
  have hphase' : (s.gang s.sel.who.chip (s.gctxOf s.sel.who.chip)).kernel.any (fun k => k.phase = 1) = true := hphase
  show execMemberFinish s = _
  rw [execMemberFinish]
  rw [hrun, hphase', hdone, hstop]
  rfl

/-- Settles O44: each step of handlers, tasks, barriers and kernels, by its lemma above. -/
theorem tasksAndBarriers : Obligations.TasksAndBarriers := by
  unfold Obligations.TasksAndBarriers
  intro s
  refine ⟨fun r l => handlerStart_starts, startAt_starts s, fun q o hreq hop hrel hturn => ⟨fun hposted => ?_, fun hnot => ?_⟩, fun t r v => dispatch_picks,
    fun q => taskStart_starts, fun q o hreq hop hopen => ?_, fun b hbar hfull => ?_, memberFinish_ends⟩
  · exact (taskPost_decides hreq hop hrel hturn).trans (if_pos hposted)
  · exact (taskPost_decides hreq hop hrel hturn).trans (if_neg (by rw [hnot]; decide))
  · exact ⟨_, barrierArrival_arrives hreq hop hopen, arrivedParked_kept s q o⟩
  · exact ⟨_, barrier_completes hbar hfull, barrierDone_done s s.sel.who.chip s.sel.id⟩

end Sys2Proof.Machine

namespace Sys2Proof.Machine

/-! ## A packet served where it has arrived (R285) -/

theorem bumpExpect_ctx (s : State) (p : Pkt) (w : Who) : (bumpExpect s p).ctx w = s.ctx w := by
  unfold bumpExpect; split <;> rfl
theorem answer_ctx (s : State) (p : Pkt) (w : Who) : (answer s p).ctx w = s.ctx w := by
  rw [answer, settle_ctx, bumpExpect_ctx]
  rfl
theorem gang_settle_idle {s : State} (h : s.poolIdle) (n g : Nat) : s.settle.gang n g = s.gang n g := by
  rw [settle_idle h]
  rfl
/-- A destination that expects its next packet has the barriers it had. -/
theorem bumpExpect_bars (s : State) (p : Pkt) : ((bumpExpect s p).gang p.dst p.gctx).bars = (s.gang p.dst p.gctx).bars := by
  unfold bumpExpect
  split
  · rw [State.gang_updGang_same]
  · rfl

/-- A gang arrival counted at its barrier, where its packet waits. -/
def State.gangArrived (s : State) (p : Pkt) (i k cc : Nat) : State :=
  let r := arriveAt ((s.gang p.dst p.gctx).bar (2000 + i)) k p.who cc
  parkAt (s.updGang p.dst p.gctx (fun g => { g with bars := g.bars.set (2000 + i) r.1 })) p (2000 + i) r.2
theorem gangArrived_idle {s : State} (h : s.poolIdle) (p : Pkt) (i k cc : Nat) : (s.gangArrived p i k cc).poolIdle :=
  poolIdle_putPkt (s := s.updGang p.dst p.gctx (fun g =>
    { g with bars := g.bars.set (2000 + i) (arriveAt ((s.gang p.dst p.gctx).bar (2000 + i)) k p.who cc).1 })) h rfl
theorem gangArrived_counts (s : State) (p : Pkt) (i k cc : Nat) :
    ((s.gangArrived p i k cc).gang p.dst p.gctx).bars.get (2000 + i) ⟨0, []⟩ = (arriveAt ((s.gang p.dst p.gctx).bar (2000 + i)) k p.who cc).1 := by
  have hgang := State.gang_updGang_same s p.dst p.gctx (fun g =>
    { g with bars := g.bars.set (2000 + i) (arriveAt ((s.gang p.dst p.gctx).bar (2000 + i)) k p.who cc).1 })
  exact (congrArg (fun g : Gang => g.bars.get (2000 + i) ⟨0, []⟩) hgang).trans (AMap.get_set_same _ _ _ _)

section
variable {s : State} {p : Pkt} (hpkt : s.thePkt = some p) (hmay : s.mayPerform p = true)
include hpkt hmay

/-- R323: a notice moves TAIL. -/
theorem notice_arrives {ring k cc : Nat} {r : Ring} (hop : p.op = .notice ring k cc) (hring : (s.rings p.dst)[ring]? = some r) :
    exec .erelNoticeArrival s = .next (answer (s.updCtx (s.ringTx p.dst p.gctx r) (fun c =>
      c.setView ring (fun v => { v with tail := v.tail + BitVec.ofNat 32 k }))) p) := by
  show execErelNoticeArrival s = _
  rw [execErelNoticeArrival, hpkt]
  dsimp only
  rw [hop]
  dsimp only
  rw [hmay, hring]
  rfl
/-- R215: a decrement lowers its task's count. -/
theorem taskDec_applies {i k cc : Nat} (hop : p.op = .taskDec i k cc) (hdue : s.dispatchDue p.dst i = false) :
    let g := s.gang p.dst p.gctx
    let v := satCount ((g.task i).c - k)
    let s2 := s.updGang p.dst p.gctx (fun _ => ({ g with tasks := g.tasks.set i { g.task i with c := v.1 } }).noteReady i s.now)
    exec .taskDecApply s = .next (answer (if v.2 then setEng s2 p.who p.inst 4 else s2) p) := by
  intro g v s2
  show execTaskDecApply s = _
  rw [execTaskDecApply, hpkt]
  dsimp only
  rw [hop]
  dsimp only
  rw [hmay, hdue]
  rfl
theorem gbarArrival_counts {i k cc : Nat} (hop : p.op = .gbar i k cc) (hopen : ((s.gang p.dst p.gctx).bar (2000 + i)).any Barrier.full = false) :
    exec .gbarArrival s = .next (bumpExpect (s.gangArrived p i k cc) p).settle := by
  show execGbarArrival s = _
  rw [execGbarArrival, hpkt]
  dsimp only
  rw [hop]
  dsimp only
  rw [hmay, hopen]
  rfl
/-- R394: a gang arrival counts at the coordinator. -/
theorem gbar_arrives (hidle : s.poolIdle) {i k cc : Nat} (hop : p.op = .gbar i k cc)
    (hopen : ((s.gang p.dst p.gctx).bar (2000 + i)).any Barrier.full = false) :
    ∃ t, exec .gbarArrival s = .next t ∧ t.mem = s.mem ∧
      (t.gang p.dst p.gctx).bars.get (2000 + i) ⟨0, []⟩ = (arriveAt ((s.gang p.dst p.gctx).bar (2000 + i)) k p.who cc).1 := by
  obtain ⟨hmem, hpkts⟩ := bumpExpect_kept (s.gangArrived p i k cc) p
  have hkeep : (bumpExpect (s.gangArrived p i k cc) p).poolIdle := by
    rw [State.poolIdle, hpkts]
    exact gangArrived_idle hidle p i k cc
  refine ⟨_, gbarArrival_counts hpkt hmay hop hopen, (settle_mem_idle hkeep).trans hmem, ?_⟩
  rw [gang_settle_idle hkeep, bumpExpect_bars, gangArrived_counts]
end

/-! ## A message lands (R214, R227, R235) -/

theorem putPayload_mem (s : State) (k : Nat) (b : List Byte) (bad : Bool) : (putPayload s k b [] bad).mem = (s.poke k b).mem := by
  unfold putPayload State.pokeRest
  rw [if_pos rfl]
  cases bad <;> rfl
theorem putPayload_kept (s : State) (k : Nat) (b : List Byte) (bad : Bool) :
    (putPayload s k b [] bad).pkts = s.pkts ∧ (putPayload s k b [] bad).ctxs = s.ctxs := by
  unfold putPayload State.pokeRest
  rw [if_pos rfl]
  cases bad <;> exact ⟨rfl, rfl⟩

/-- A packet of a message in the pool, recorded, and with the last one the message's arrival. -/
def State.msgLanded (s : State) (p : Pkt) (y : Who) (b : List Byte) (off msg parts : Nat) (r : Arrival) : State :=
  let q := (s.gang p.dst p.gctx).landed p.who msg b.length
  let s1 := (putPayload s (poolKey y.coreId off) b [] p.poison).updGang p.dst p.gctx (fun g => g.putLanded p.who msg parts q)
  if parts ≤ q.1 then s1.updCtx y (fun c => c.arrive_ r) else s1

section
variable (s : State) (p : Pkt) (y : Who) (b : List Byte) (off msg parts : Nat) (r : Arrival)
theorem msgLanded_mem : (s.msgLanded p y b off msg parts r).mem = (s.poke (poolKey y.coreId off) b).mem := by
  unfold State.msgLanded
  dsimp only
  split <;> exact putPayload_mem _ _ _ _
theorem msgLanded_pkts : (s.msgLanded p y b off msg parts r).pkts = s.pkts := by
  unfold State.msgLanded
  dsimp only
  split <;> exact (putPayload_kept _ _ _ _).1
theorem msgLanded_ctx : (s.msgLanded p y b off msg parts r).ctx y =
    if parts ≤ ((s.gang p.dst p.gctx).landed p.who msg b.length).1 then (s.ctx y).arrive_ r else s.ctx y := by
  have hctx : (putPayload s (poolKey y.coreId off) b [] p.poison).ctx y = s.ctx y := by
    rw [State.ctx, (putPayload_kept _ _ _ _).2]
    rfl
  unfold State.msgLanded
  dsimp only
  split
  · rw [State.ctx_updCtx_same, State.updGang, State.ctx_updChip, hctx]
  · rw [State.updGang, State.ctx_updChip, hctx]
end

section
variable {s : State} {p : Pkt} (hpkt : s.thePkt = some p) (hmay : s.mayPerform p = true) (hval : s.sel.val = 0)
include hpkt hmay hval

theorem amsgLand_lands {b : List Byte} {x hoff cc msg part parts cl co off : Nat} (hop : p.op = .amsg b x hoff cc msg part parts)
    (htarget : p.target = .pool cl co off) (hpieces : p.pieces = []) (hunits : s.wantedIn ⟨p.dst, cl, co⟩ off b.length = none)
    (hroom : parts ≤ ((s.gang p.dst p.gctx).landed p.who msg b.length).1 → (s.ctx ⟨p.dst, cl, co, x⟩).room 3 = .ok) :
    exec .amsgLand s = .next (answer (s.msgLanded p ⟨p.dst, cl, co, x⟩ b off msg parts
      ⟨BitVec.ofNat 64 (off - 256 * part), sourceWord s p (((s.gang p.dst p.gctx).landed p.who msg b.length).2 / 64), hoff, s.now⟩) p) := by
  have hroom' : (if decide (parts ≤ ((s.gang p.dst p.gctx).landed p.who msg b.length).1) then (s.ctx ⟨p.dst, cl, co, x⟩).room 3 else .ok) = .ok := by
    split
    · next h => exact hroom (of_decide_eq_true h)
    · rfl
  have hunits' : s.wantedIn (Who.coreId ⟨p.dst, cl, co, x⟩) off b.length = none := hunits
  show execAmsgLand s = _
  rw [execAmsgLand, hpkt]
  dsimp only
  rw [hmay, hop, htarget]
  dsimp only
  rw [if_neg (by decide), hunits', if_neg (by decide), if_neg (by rw [hval]; exact fun h => h rfl), hroom', hpieces]
  dsimp only
  unfold State.msgLanded
  simp only [decide_eq_true_eq]

/-- R214, R227, R235: a packet of a message lands whole, and the last one queues the message's record. -/
theorem amsg_lands (hidle : s.poolIdle) (hwf : Memory.wf s.mem = true) {b : List Byte} {x hoff cc msg part parts cl co off : Nat}
    (hop : p.op = .amsg b x hoff cc msg part parts) (htarget : p.target = .pool cl co off) (hpieces : p.pieces = [])
    (hunits : s.wantedIn ⟨p.dst, cl, co⟩ off b.length = none) :
    let y : Who := ⟨p.dst, cl, co, x⟩
    let l := (s.gang p.dst p.gctx).landed p.who msg b.length
    let key := poolKey ⟨p.dst, cl, co⟩ off
    (parts ≤ l.1 → (s.ctx y).room 3 = .ok) →
    ∃ t, exec .amsgLand s = .next t ∧ memSameBut s t key b.length ∧ (∀ k < b.length, memGet t.mem (key + k) = b.getD k 0) ∧
      (l.1 < parts → t.ctx y = s.ctx y) ∧
      (parts ≤ l.1 → (s.ctx y).inRing 3 = false →
        (t.ctx y).rq = putArrival ⟨BitVec.ofNat 64 (off - 256 * part), sourceWord s p (l.2 / 64), hoff, s.now⟩ (s.ctx y).rq) := by
  intro y l key hroom
  have hland := amsgLand_lands hpkt hmay hval hop htarget hpieces hunits hroom
  have hkeep : (s.msgLanded p y b off msg parts ⟨BitVec.ofNat 64 (off - 256 * part), sourceWord s p (l.2 / 64), hoff, s.now⟩).poolIdle := by
    rw [State.poolIdle, msgLanded_pkts]
    exact hidle
  have hmem := (answer_mem_idle hkeep (p := p) (by rw [Pkt.isPool, hop])).trans (msgLanded_mem _ _ _ _ _ _ _ _)
  refine ⟨_, hland, memSameBut_of_stored hwf hmem, fun k hk => ?_, fun hless => ?_, fun hlast hring => ?_⟩
  · rw [memGet_of_stored hwf hmem, if_pos ⟨Nat.le_add_right _ _, Nat.add_lt_add_left hk _⟩]
    exact congrArg (b.getD · 0) (Nat.add_sub_cancel_left key k)
  · rw [answer_ctx, msgLanded_ctx, if_neg (Nat.not_le.mpr hless)]
  · rw [answer_ctx, msgLanded_ctx, if_pos hlast, Ctx.arrive_, hring, if_neg Bool.false_ne_true]
end
end Sys2Proof.Machine

namespace Sys2Proof.Machine

/-! ## What a unit's lines leave alone (R244, R247) -/

/-- No scratchpad store comes to be held back, and the gangs keep their tables and the messages they have in part. -/
structure UnitKept (s t : State) : Prop where
  ctxs : t.ctxs = s.ctxs
  idle : s.poolIdle → t.poolIdle
  xlat : ∀ n g, (t.gang n g).xlat = (s.gang n g).xlat
  parts : ∀ n g, (t.gang n g).parts = (s.gang n g).parts

theorem unitKept_refl (s : State) : UnitKept s s := ⟨rfl, id, fun _ _ => rfl, fun _ _ => rfl⟩
theorem UnitKept.trans {s t u : State} (h : UnitKept s t) (h' : UnitKept t u) : UnitKept s u where
  ctxs := h'.ctxs.trans h.ctxs
  idle hs := h'.idle (h.idle hs)
  xlat n g := (h'.xlat n g).trans (h.xlat n g)
  parts n g := (h'.parts n g).trans (h.parts n g)
/-- A change that leaves contexts, packets and chips. -/
theorem unitKept_of_same {s t : State} (hctxs : t.ctxs = s.ctxs) (hpkts : t.pkts = s.pkts) (hchips : t.chips = s.chips) : UnitKept s t := by
  have hgang (n g : Nat) : t.gang n g = s.gang n g := by rw [State.gang, State.chip, hchips]; rfl
  exact ⟨hctxs, fun h => by rw [State.poolIdle, hpkts]; exact h, fun n g => by rw [hgang], fun n g => by rw [hgang]⟩
/-- A chip changed, but for its gangs. -/
theorem unitKept_updChip (s : State) (n : Nat) {f : Chip → Chip} (hf : (f (s.chip n)).gangs = (s.chip n).gangs) : UnitKept s (s.updChip n f) := by
  have hgang (m g : Nat) : (s.updChip n f).gang m g = s.gang m g := by
    rw [State.gang, State.chip_updChip]
    split
    case isTrue h => rw [hf, h]; rfl
    case isFalse => rfl
  exact ⟨rfl, id, fun m g => by rw [hgang], fun m g => by rw [hgang]⟩
theorem gang_updGang (s : State) (n g m h : Nat) (f : Gang → Gang) :
    (s.updGang n g f).gang m h = if m = n ∧ h = g then f (s.gang n g) else s.gang m h := by
  rw [State.gang, State.updGang, State.chip_updChip]
  by_cases hm : m = n
  · subst hm
    rw [if_pos rfl]
    dsimp only
    rw [AMap.get_set]
    by_cases hh : h = g
    · rw [if_pos hh, if_pos ⟨rfl, hh⟩]; rfl
    · rw [if_neg hh, if_neg (fun hc => hh hc.2)]; rfl
  · rw [if_neg hm, if_neg (fun hc => hm hc.1)]; rfl
theorem unitKept_updGang (s : State) (n g : Nat) {f : Gang → Gang} (hxlat : (f (s.gang n g)).xlat = (s.gang n g).xlat)
    (hparts : (f (s.gang n g)).parts = (s.gang n g).parts) : UnitKept s (s.updGang n g f) := by
  refine ⟨rfl, id, fun m h => ?_, fun m h => ?_⟩
  all_goals
    rw [gang_updGang]
    split
    case isFalse => rfl
    case isTrue hc => rw [hc.1, hc.2]; assumption

theorem touchLine_unitKept (s : State) (n a : Nat) (w : Who) (ef wr : Bool) : UnitKept s (touchLine s n a w ef wr).1 := by
  unfold touchLine
  dsimp only
  split
  · dsimp only
    exact unitKept_updChip s n rfl
  · split
    · dsimp only
      exact unitKept_updChip s n rfl
    · exact unitKept_refl s
theorem countHeld_unitKept (s : State) (n : Nat) (st : Stage) : UnitKept s (countHeld s n st) := by
  unfold countHeld
  split
  · exact unitKept_updChip s n rfl
  · exact unitKept_refl s
/-- A writeback is no store to a scratchpad. -/
theorem writeBack_unitKept (s : State) (n : Nat) (x : Pkt) (o : Option (Nat × Nat)) : UnitKept s (writeBack s n x o) := by
  match o with
  | none => exact unitKept_refl s
  | some (b, g) =>
    have hsend : UnitKept s { s.fresh with pkts := s.pkts ++ [x.backOf s.nextId n s.now g b (mcStage (s.chip n).mig b)] } :=
      ⟨rfl, fun h => poolIdle_append h rfl rfl, fun _ _ => rfl, fun _ _ => rfl⟩
    exact hsend.trans (countHeld_unitKept _ n _)
theorem fillLine_unitKept (s : State) (n a : Nat) : UnitKept s (fillLine s n a) := by
  unfold fillLine
  dsimp only
  split
  · have hpoison : UnitKept s (s.setPoison (hbmKey n (a / 128 * 128)) 128) := unitKept_of_same rfl rfl rfl
    refine hpoison.trans ?_
    exact unitKept_updChip _ n rfl
  · split
    · exact unitKept_of_same rfl rfl rfl
    · exact unitKept_refl s
theorem homeLine_unitKept (n g : Nat) (w : Who) (wr : Bool) (s : State) (a : Nat) : UnitKept s (homeLine n g w wr s a) := by
  have hfill : UnitKept s (fillIn s n a w false wr (ownPkt n)).1 := (touchLine_unitKept s n a w false wr).trans (writeBack_unitKept _ _ _ _)
  unfold homeLine
  dsimp only
  split
  · exact unitKept_refl s
  · split
    · exact hfill
    · exact hfill.trans ((unitKept_updGang _ n g rfl rfl).trans (fillLine_unitKept _ _ _))
theorem homeLines_kept (g : Nat) (w : Who) (wr : Bool) : ∀ (l : List (Nat × Nat)) (s : State), let t := l.foldl (fun t q => homeLine q.1 g w wr t q.2) s
    ReadKept s t ∧ UnitKept s t
  | [], s => ⟨readKept_refl s, unitKept_refl s⟩
  | q :: r, s => by
    obtain ⟨hread, hunit⟩ := homeLines_kept g w wr r (homeLine q.1 g w wr s q.2)
    exact ⟨(homeLine_readKept _ _ _ _ _ _).trans hread, (homeLine_unitKept _ _ _ _ _ _).trans hunit⟩

/-! ## The bytes of a slot, each where the receiver's table has it (R322) -/

theorem hbmKey_add (n a k : Nat) : hbmKey n (a + k) = hbmKey n a + k := by unfold hbmKey keyAt; omega
/-- Outside a revision an address lies where its extent's entry has it. -/
theorem dpaOf_root (s : State) (n g va : Nat) : s.dpaOf n g 0 va = (s.xentry n g (va / 2 ^ 28 % 4096)).base + va % 2 ^ 28 := by
  have hroot : (s.gang n g).revVa 10 0 va = va := by rw [Gang.revVa, if_pos rfl]
  unfold State.dpaOf
  dsimp only
  rw [hroot, ite_self]
/-- Bytes of one block of 64 lie side by side. -/
theorem slotKey_block (s : State) (p : Pkt) {i j : Nat} (h : i ≤ j) (hblock : (p.va + i) / 64 = (p.va + j) / 64) :
    s.slotKey p j = s.slotKey p i + (j - i) := by
  have hext : (p.va + i) / 2 ^ 28 = (p.va + j) / 2 ^ 28 := by omega
  have hoff : (p.va + j) % 2 ^ 28 = (p.va + i) % 2 ^ 28 + (j - i) := by omega
  rw [State.slotKey, State.slotKey, dpaOf_root, dpaOf_root, hext, hoff, ← Nat.add_assoc, hbmKey_add]
theorem slotKey_kept {s t : State} (h : UnitKept s t) (p : Pkt) (i : Nat) : t.slotKey p i = s.slotKey p i := by
  rw [State.slotKey, State.slotKey, dpaOf_root, dpaOf_root, State.xentry, State.xentry, h.xlat]
theorem writePieces_unitKept (p : Pkt) (k : Nat) (b : List Byte) : ∀ (l : List (Nat × Nat)) (s : State), UnitKept s (writePieces s p k b l)
  | [], s => unitKept_refl s
  | q :: r, s => by
    rw [writePieces, List.foldl_cons]
    refine UnitKept.trans ?_ (writePieces_unitKept p k b r _)
    cases p.poison <;> exact unitKept_of_same rfl rfl rfl
theorem coverLines_unitKept (s : State) (p : Pkt) (k n : Nat) : UnitKept s (coverLines s p k n) := by
  unfold coverLines
  dsimp only
  split
  · exact unitKept_refl s
  · exact unitKept_of_same rfl rfl rfl

/-- The writes of the pieces of a slot. -/
def State.slotWrites (s : State) (p : Pkt) (b : List Byte) (l : List (Nat × Nat)) : List (Nat × List Byte) :=
  l.map (fun q => (s.slotKey p q.1, (b.drop q.1).take q.2))
theorem slotWrite_kept (p : Pkt) (b : List Byte) : ∀ (l : List (Nat × Nat)) (s : State),
    (slotWrite s p b l).mem = memPuts s.mem (s.slotWrites p b l) ∧ UnitKept s (slotWrite s p b l)
  | [], s => ⟨rfl, unitKept_refl s⟩
  | q :: r, s => by
    have hpiece := writePieces_unitKept p (s.slotKey p q.1) ((b.drop q.1).take q.2) [(0, q.2)] s
    obtain ⟨hmem, hunit⟩ := slotWrite_kept p b r (writePieces s p (s.slotKey p q.1) ((b.drop q.1).take q.2) [(0, q.2)])
    have hwrites : State.slotWrites (writePieces s p (s.slotKey p q.1) ((b.drop q.1).take q.2) [(0, q.2)]) p b r = s.slotWrites p b r :=
      List.map_congr_left (fun x _ => by rw [slotKey_kept hpiece])
    refine ⟨?_, hpiece.trans hunit⟩
    rw [hwrites, writePieces_mem] at hmem
    refine hmem.trans ?_
    simp only [List.map_cons, List.map_nil, Nat.add_zero, List.drop_zero, List.take_take, Nat.min_self]
    rfl
theorem slotCover_kept (p : Pkt) (n : Nat) (s : State) : (slotCover s p n).mem = s.mem ∧ UnitKept s (slotCover s p n) := by
  unfold slotCover
  induction (linesOver p.va n).filter (fun a => decide (p.va ≤ a) && decide (a + 128 ≤ p.va + n)) generalizing s with
  | nil => exact ⟨rfl, unitKept_refl s⟩
  | cons a r ih =>
    obtain ⟨hmem, hunit⟩ := ih (coverLines s p (s.slotKey p (a - p.va)) 128)
    exact ⟨hmem.trans (coverLines_mem _ _ _ _), (coverLines_unitKept _ _ _ _).trans hunit⟩

/-- A piece of a slot covers the keys of its own bytes, and leaves them there. -/
theorem slotWrites_bytes {s : State} {p : Pkt} {b : List Byte} {q : Nat × List Byte} (hq : q ∈ s.slotWrites p b (piecesOf p.va b.length)) {x : Nat}
    (hx : covers q x) : ∃ k < b.length, x = s.slotKey p k ∧ byteAt q x = b.getD k 0 := by
  obtain ⟨r, hr, rfl⟩ := List.mem_map.mp hq
  obtain ⟨_, hfit, hblock⟩ := mem_piecesOf hr
  obtain ⟨hlo, hhi⟩ := hx
  simp only [List.length_take, List.length_drop] at hlo hhi
  obtain ⟨i, rfl⟩ := Nat.exists_eq_add_of_le hlo
  have hkey : s.slotKey p (r.1 + i) = s.slotKey p r.1 + i := by
    rw [slotKey_block s p (Nat.le_add_right r.1 i) (hblock _ (by omega) (by omega)), Nat.add_sub_cancel_left]
  refine ⟨r.1 + i, by omega, hkey.symm, ?_⟩
  rw [byteAt, Nat.add_sub_cancel_left, List.getD_eq_getElem?_getD, List.getD_eq_getElem?_getD, List.getElem?_take, if_pos (by omega), List.getElem?_drop]
theorem slotWrites_cover {s : State} {p : Pkt} {b : List Byte} {k : Nat} (hk : k < b.length) :
    ∃ q ∈ s.slotWrites p b (piecesOf p.va b.length), covers q (s.slotKey p k) := by
  obtain ⟨r, hr, hlo, hhi⟩ := exists_piece (k := p.va) hk
  obtain ⟨_, hfit, hblock⟩ := mem_piecesOf hr
  refine ⟨_, List.mem_map.mpr ⟨r, hr, rfl⟩, ?_⟩
  rw [slotKey_block s p hlo (hblock _ (by omega) (by omega)), covers, List.length_take, List.length_drop]
  dsimp only
  omega
end Sys2Proof.Machine

namespace Sys2Proof.Machine

/-! ## A slot fills, and HEAD and its counter move (R322) -/

theorem slotLeft_all {p : Pkt} (h : p.pieces = []) (n : Nat) {keep : Nat → Bool} (hkeep : ∀ j, keep j = true) : slotLeft p n keep = piecesOf p.va n := by
  have hall : ∀ q ∈ (piecesOf p.va n).zipIdx, (keep q.2 && !p.pieces.contains q.2) = true := fun q _ => by rw [hkeep, h]; rfl
  rw [slotLeft, List.filter_eq_self.mpr hall]
  exact List.zipIdx_map_fst 0 _

/-- The state in which the bytes of a packet of a slot have been written, before its arrival is counted. -/
def State.slotFilled (s : State) (p : Pkt) (rx : Who) (b : List Byte) : State :=
  slotCover (slotWrite ((s.slotLines p b.length).foldl (fun t q => homeLine q.1 p.gctx rx true t q.2) s) p b (piecesOf p.va b.length)) p b.length
theorem slotFilled_kept (s : State) (p : Pkt) (rx : Who) (b : List Byte) :
    (s.slotFilled p rx b).mem = memPuts s.mem (s.slotWrites p b (piecesOf p.va b.length)) ∧ UnitKept s (s.slotFilled p rx b) := by
  obtain ⟨hread, hlines⟩ := homeLines_kept p.gctx rx true (s.slotLines p b.length) s
  obtain ⟨hmem, hwrite⟩ := slotWrite_kept p b (piecesOf p.va b.length) ((s.slotLines p b.length).foldl (fun t q => homeLine q.1 p.gctx rx true t q.2) s)
  obtain ⟨hcmem, hcover⟩ := slotCover_kept p b.length
    (slotWrite ((s.slotLines p b.length).foldl (fun t q => homeLine q.1 p.gctx rx true t q.2) s) p b (piecesOf p.va b.length))
  have hwrites : State.slotWrites ((s.slotLines p b.length).foldl (fun t q => homeLine q.1 p.gctx rx true t q.2) s) p b (piecesOf p.va b.length) =
      s.slotWrites p b (piecesOf p.va b.length) := List.map_congr_left (fun x _ => by rw [slotKey_kept hlines])
  rw [hwrites, hread.mem] at hmem
  exact ⟨hcmem.trans hmem, hlines.trans (hwrite.trans hcover)⟩

/-- HEAD of a ring one further, and its counter. -/
def Ctx.headMoved (c : Ctx) (ring hcc : Nat) : Ctx := (c.setView ring (fun v => { v with head := v.head + 1 })).incCC hcc 0 1
theorem headMoved_head (c : Ctx) (ring hcc : Nat) : ((c.headMoved ring hcc).view ring).head = (c.view ring).head + 1 :=
  congrArg EagerView.head (AMap.get_set_same c.eager ring _ _)
theorem headMoved_counts (c : Ctx) (ring : Nat) {hcc : Nat} (h : hcc < 16) :
    (c.headMoved ring hcc).csr.ccnt.toList.getD hcc 0 = c.csr.ccnt.toList.getD hcc 0 + 1 := incCC_counts _ h 0 1

section
variable {s : State} {p : Pkt} (rx : Who) (ring hcc msg parts n : Nat)
theorem slotDone_mem (h : s.poolIdle) (hp : p.isPool = false) : (slotDone s p rx ring hcc msg parts n).mem = s.mem := by
  unfold slotDone
  dsimp only
  split
  all_goals
    refine (answer_mem_idle ?_ hp).trans rfl
    exact h
theorem slotDone_ctx : (slotDone s p rx ring hcc msg parts n).ctx rx =
    if parts ≤ ((s.gang p.dst p.gctx).landed p.who msg n).1 then (s.ctx rx).headMoved ring hcc else s.ctx rx := by
  unfold slotDone
  rw [answer_ctx]
  split
  · rw [State.ctx_updCtx_same, State.updGang, State.ctx_updChip]
    rfl
  · rw [State.updGang, State.ctx_updChip]
end

section
variable {s : State} {p : Pkt} {ring i cc msg part parts : Nat} {b : List Byte} {r : Ring} {a : Nat} {rv : Bool}
  (hpkt : s.thePkt = some p) (hmay : s.mayPerform p = true) (hval : s.sel.val = 0) (hop : p.op = .slot ring i b cc msg part parts)
  (hring : (s.rings p.dst)[ring]? = some r) (hmeets : slotMeets s p b.length = .dpa a rv)
  (hclean : ∀ x ∈ [p.va, p.va + b.length - 1], s.pageClean p.dst p.gctx x = none) (hpieces : p.pieces = [])
  (hheld : s.unitHeld (s.slotLines p b.length) = [])
include hpkt hmay hval hop hring hmeets hclean hpieces hheld

theorem slot_performs : exec .esendSlotPerform s =
    .next (slotDone (s.slotFilled p (s.ringRx p.dst p.gctx r) b) p (s.ringRx p.dst p.gctx r) ring r.hcc msg parts b.length) := by
  have hnone : [p.va, p.va + b.length - 1].findSome? (fun x => s.pageClean p.dst p.gctx x) = none := List.findSome?_eq_none_iff.mpr hclean
  have hzero : s.sel.val.toNat = 0 := by rw [hval]; rfl
  have hall : slotLeft p b.length (fun j => decide (0 = 0) || decide (j + 1 = 0)) = piecesOf p.va b.length := slotLeft_all hpieces _ (fun _ => rfl)
  show execEsendSlotPerform s = _
  rw [execEsendSlotPerform, hpkt]
  dsimp only
  rw [hop]
  dsimp only
  rw [hmay, hring, hmeets, hzero]
  dsimp only
  rw [hnone, hall]
  dsimp only
  rw [unitGate_clear hheld]
  rfl
/-- R322: a packet of a slot is written where the receiver's table has it, and the last one moves HEAD and the counter. -/
theorem slot_fills (hidle : s.poolIdle) (hwf : Memory.wf s.mem = true) :
    let y := s.ringRx p.dst p.gctx r
    let l := (s.gang p.dst p.gctx).landed p.who msg b.length
    let key := fun (k : Nat) => hbmKey p.dst (s.dpaOf p.dst p.gctx 0 (p.va + k))
    ∃ t, exec .esendSlotPerform s = .next t ∧ (∀ x, (∀ k < b.length, x ≠ key k) → memGet t.mem x = memGet s.mem x) ∧
      ((∀ i < b.length, ∀ k < b.length, key i = key k → i = k) → ∀ k < b.length, memGet t.mem (key k) = b.getD k 0) ∧
      (l.1 < parts → t.ctx y = s.ctx y) ∧
      (parts ≤ l.1 → ((t.ctx y).view ring).head = ((s.ctx y).view ring).head + 1 ∧
        (r.hcc < 16 → (t.ctx y).csr.ccnt.toList.getD r.hcc 0 = (s.ctx y).csr.ccnt.toList.getD r.hcc 0 + 1)) := by
  intro y l key
  obtain ⟨hfill, hkept⟩ := slotFilled_kept s p y b
  have hmem := (slotDone_mem y ring r.hcc msg parts b.length (hkept.idle hidle) (p := p) (by rw [Pkt.isPool, hop])).trans hfill
  have hctx := slotDone_ctx (s := s.slotFilled p y b) (p := p) y ring r.hcc msg parts b.length
  have hsame : (s.slotFilled p y b).ctx y = s.ctx y := by rw [State.ctx, hkept.ctxs]; rfl
  have hlanded : ((s.slotFilled p y b).gang p.dst p.gctx).landed p.who msg b.length = l := by rw [Gang.landed, hkept.parts]; rfl
  rw [hsame, hlanded] at hctx
  refine ⟨_, slot_performs hpkt hmay hval hop hring hmeets hclean hpieces hheld, fun x hx => ?_, fun hinj k hk => ?_, fun hless => ?_, fun hlast => ?_⟩
  · rw [hmem]
    refine memGet_memPuts_apart hwf (fun q hq hc => ?_)
    obtain ⟨k, hk, hkey, _⟩ := slotWrites_bytes hq hc
    exact hx k hk hkey
  · rw [hmem]
    refine memGet_memPuts_agree hwf (slotWrites_cover hk) (fun q hq hc => ?_)
    obtain ⟨j, hj, hkey, hbyte⟩ := slotWrites_bytes hq hc
    rw [hbyte, hinj k hk j hj hkey]
  · rw [hctx, if_neg (Nat.not_le.mpr hless)]
  · rw [hctx, if_pos hlast]
    exact ⟨headMoved_head _ _ _, headMoved_counts _ _⟩
end

/-- Settles O43: each kind of arrival, by its lemma above. -/
theorem arrivals : Obligations.Arrivals := by
  unfold Obligations.Arrivals
  intro s p hpkt hmay hval hidle hwf
  refine ⟨fun b x hoff cc msg part parts cl co off hop htarget hpieces hunits => ?_, fun i k cc => taskDec_applies hpkt hmay, ?_,
    fun ring k cc r => notice_arrives hpkt hmay, fun i k cc => gbar_arrives hpkt hmay hidle⟩
  · exact amsg_lands hpkt hmay hval hidle hwf hop htarget hpieces hunits
  · intro ring i b cc msg part parts r a rv hop hring hmeets hclean hpieces _ hheld
    exact slot_fills hpkt hmay hval hop hring hmeets hclean hpieces hheld hidle hwf

end Sys2Proof.Machine

namespace Sys2Proof.Machine

/-! ## Memory keeps its canonical form (R239, R243)

A step writes memory by poke and by clearing a range and in no other way, and both leave it canonical. So each of the model's functions
has one lemma, which follows the function's own branches; where memory is not written the state's Inv is its predecessor's. -/

/-- The next state of an outcome, where it has one, holds memory in its canonical form. -/
def keepsInv : Out → Prop
  | .next t => t.Inv
  | _ => True

theorem inv_of_mem {s t : State} (e : t.mem = s.mem) (h : s.Inv) : t.Inv := (congrArg Memory.wf e).trans h
theorem inv_ite {c : Prop} [Decidable c] {s t : State} (hs : s.Inv) (ht : t.Inv) : (if c then s else t).Inv := by
  split
  · exact hs
  · exact ht
theorem inv_ite_fst {α : Type} {c : Prop} [Decidable c] {x y : State × α} (hx : x.1.Inv) (hy : y.1.Inv) : (if c then x else y).1.Inv := by
  split
  · exact hx
  · exact hy
theorem inv_foldl {α : Type} {f : State → α → State} {l : List α} {s : State} (hf : ∀ s a, s.Inv → (f s a).Inv) (h : s.Inv) :
    (l.foldl f s).Inv := by
  induction l generalizing s with
  | nil => exact h
  | cons a r ih => exact ih (hf s a h)
theorem inv_foldl_fst {α β : Type} {f : State × β → α → State × β} {l : List α} {q : State × β} (hf : ∀ q a, q.1.Inv → (f q a).1.Inv)
    (h : q.1.Inv) : (l.foldl f q).1.Inv := by
  induction l generalizing q with
  | nil => exact h
  | cons a r ih => exact ih (hf q a h)
theorem keepsInv_ite {c : Prop} [Decidable c] {x y : Out} (hx : keepsInv x) (hy : keepsInv y) : keepsInv (if c then x else y) := by
  split
  · exact hx
  · exact hy
/-- A step that its gate refuses has no next state. -/
theorem keepsInv_gate {c : Prop} [Decidable c] {e : Fault} {x : Out} (hx : keepsInv x) : keepsInv (if c then .fault e else x) :=
  keepsInv_ite trivial hx

section
variable {s : State}

theorem setCtx_inv {w : Who} {c : Ctx} (h : s.Inv) : (s.setCtx w c).Inv := h
theorem setPoison_inv {k n : Nat} (h : s.Inv) : (s.setPoison k n).Inv := h
theorem updCtx_inv {w : Who} {f : Ctx → Ctx} (h : s.Inv) : (s.updCtx w f).Inv := h
theorem updCore_inv {c : CoreId} {f : Core → Core} (h : s.Inv) : (s.updCore c f).Inv := h
theorem updChip_inv {n : Nat} {f : Chip → Chip} (h : s.Inv) : (s.updChip n f).Inv := h
theorem updGang_inv {n g : Nat} {f : Gang → Gang} (h : s.Inv) : (s.updGang n g f).Inv := h
theorem poke_inv {k : Nat} {b : List Byte} (h : s.Inv) : (s.poke k b).Inv := wf_poke s k b h
theorem zeroRange_inv {k len : Nat} (h : s.Inv) : (zeroRange s k len).Inv := wf_filter _ _ h
theorem guarded_inv {sl : Slot} {g : Guard} {f : State → State} (h : s.Inv) (hf : (f s).Inv) : keepsInv (guarded sl g s f) :=
  inv_ite hf h
theorem guardedFault_inv {sl : Slot} {g : Guard} {flt : Option TrapArgs} {f : State → State} (h : s.Inv) (hf : (f s).Inv) :
    keepsInv (guardedFault sl g s flt f) := by
  refine inv_ite ?_ h
  split
  · exact inv_of_mem (raiseTrap_mem s _) h
  · exact hf
theorem eIssue_inv {o : EOp} {priv : Bool} {op q : Nat} {own : State → Option TrapArgs} {act : State → State} (h : s.Inv) (hact : (act s).Inv) :
    keepsInv (eIssue o priv op q own act s) := guardedFault_inv h (inv_ite h hact)
theorem unitGate_inv {l : List (Nat × Nat)} {go : Out} (h : s.Inv) (hgo : keepsInv go) : keepsInv (unitGate s l go) :=
  keepsInv_ite hgo (keepsInv_gate (inv_foldl (fun _ _ h => h) h))
theorem takeMsg_inv {n : Nat} {p : VoteMsg → Bool} {r : VoteMsg × State} (ht : takeMsg s n p = some r) (h : s.Inv) : r.2.Inv := by
  obtain ⟨q, _, rfl⟩ := Option.map_eq_some_iff.mp ht
  exact h

/-! ### Shared operations on the state -/

theorem pokeRest_inv {k : Nat} {b : List Byte} {gone : List Nat} (h : s.Inv) : (State.pokeRest s k b gone).Inv :=
  inv_ite (poke_inv h) (inv_foldl (fun _ _ h => inv_ite h (poke_inv h)) h)
theorem dropClosing_inv {w : Who} (h : s.Inv) : (dropClosing s w).Inv := inv_of_mem (dropClosing_mem s w) h
theorem trapTerminal_inv {w : Who} {a : TrapArgs} (h : s.Inv) : (trapTerminal s w a).Inv :=
  inv_of_mem (trapTerminal_mem s w a) h
theorem takeTrap_inv {w : Who} {a : TrapArgs} (h : s.Inv) : (takeTrap s w a).Inv := inv_of_mem (takeTrap_mem s w a) h

/-! ### Traps, packets and pools -/

theorem raiseTrap_inv {a : TrapArgs} (h : s.Inv) : (raiseTrap s a).Inv := inv_of_mem (raiseTrap_mem s a) h
theorem clampCount_inv {ord : Bool} {sc : BitVec 3} (h : s.Inv) : (clampCount s ord sc).Inv := inv_ite h h
theorem issuePkt_inv {p : Pkt} {held : Bool} (h : s.Inv) : (issuePkt s p held).Inv :=
  inv_of_mem (issuePkt_mem s p held) h
theorem pokeAll_inv {c : CoreId} {ws : List (Nat × List Byte)} (h : s.Inv) : (pokeAll s c ws).Inv :=
  inv_foldl (fun _ _ h => poke_inv h) h
theorem performPool_inv {p : Pkt} (h : s.Inv) : (performPool s p).Inv := by
  unfold performPool
  split
  · exact pokeAll_inv h
  · exact h
theorem settlePools_inv (h : s.Inv) : (State.settlePools s).Inv :=
  inv_foldl (fun _ _ h => inv_ite (performPool_inv h) h) h
theorem settle_inv (h : s.Inv) : (State.settle s).Inv := settlePools_inv h

/-! ### Matrix forms at issue -/

theorem mEnqueue_inv {i : Instr} {elems : List Elem} {ka kb : BitVec 4096} (h : s.Inv) : (mEnqueue i elems ka kb s).Inv :=
  inv_foldl (fun _ _ h => h) h
theorem mIssue_inv {i : Instr} {g : Guard} {elems : List Elem} {ka kb : State → BitVec 4096} (h : s.Inv) : keepsInv (mIssue i g elems ka kb s) :=
  guarded_inv h (by split; exacts [h, inv_ite h (mEnqueue_inv h)])

/-! ### Memory forms at issue -/

theorem poolPoison_inv {slot a n : Nat} (h : s.Inv) : (poolPoison s slot a n).Inv := inv_ite h h
theorem daClamp_inv {o : DA} (h : s.Inv) : (daClamp o s).Inv := by
  unfold daClamp
  split
  · exact clampCount_inv h
  · exact h
theorem scratchLoad_inv {o : DA} {a n lat : Nat} {val : List Byte → Nat} {en : BitVec 4096} (h : s.Inv) : (scratchLoad o s a n lat val en).Inv :=
  poolPoison_inv (inv_ite (daClamp_inv h) (daClamp_inv h))
theorem scratchStore_inv {o : DA} {w : List (Nat × List Byte)} (h : s.Inv) : (scratchStore o s w).Inv :=
  inv_ite (daClamp_inv h) (inv_ite (inv_ite (pokeAll_inv (daClamp_inv h)) (performPool_inv (daClamp_inv h))) (daClamp_inv h))
theorem windowStore_inv {o : DA} {a : Nat} (h : s.Inv) : (windowStore o s a).Inv :=
  settle_inv (issuePkt_inv (daClamp_inv h))
theorem atomicIssue_inv {o : DM} {f : Nat} (h : s.Inv) : (atomicIssue o f s).Inv :=
  settle_inv (issuePkt_inv (by split; exacts [clampCount_inv h, h]))
theorem atomicOp_inv {o : DM} {f : Nat} (h : s.Inv) : keepsInv (atomicOp o f s) :=
  guardedFault_inv h (atomicIssue_inv h)
theorem dtClamp_inv {o : DT} (h : s.Inv) : (dtClamp o s).Inv := by
  unfold dtClamp
  split
  · exact clampCount_inv h
  · exact h
theorem issueLines_inv {o : DT} {xfer : Nat} {op : Nat → AccOp} {bad : Nat → Bool} {held : Bool} {l : List (Nat × Nat)} (h : s.Inv) :
    (issueLines o xfer op bad held s l).Inv :=
  inv_foldl (fun _ _ h => issuePkt_inv h) h
theorem l2Issue_inv {o : DL} {kind : Nat} (h : s.Inv) : keepsInv (l2Issue o kind s) :=
  guardedFault_inv h (settle_inv (issuePkt_inv h))

/-! ### Engine commands at issue -/

theorem numberCmd_inv {w : Who} {k : ECmd} (h : s.Inv) : (numberCmd s w k).1.Inv := by
  unfold numberCmd
  split <;> exact h
theorem sendE_inv {d : Dest} {k : ECmd} (h : s.Inv) : (sendE d k s).Inv := inv_ite h (numberCmd_inv h)
theorem ePlain_inv {i : Instr} {o : EOp} {d : Dest} (h : s.Inv) : keepsInv (ePlain i o d s) :=
  eIssue_inv h (sendE_inv h)
theorem ePriv_inv {i : Instr} {o : EOp} {op : Nat} (h : s.Inv) : keepsInv (ePriv i o op s) := eIssue_inv h (sendE_inv h)

/-! ### Lines of the L2 -/

theorem touchLine_inv {n a : Nat} {w : Who} {ef wr : Bool} (h : s.Inv) : (touchLine s n a w ef wr).1.Inv := by
  unfold touchLine
  dsimp only
  split
  · exact h
  · split <;> exact h
theorem countHeld_inv {n : Nat} {st : Stage} (h : s.Inv) : (countHeld s n st).Inv := inv_ite h h
theorem writeBack_inv {n : Nat} {x : Pkt} {o : Option (Nat × Nat)} (h : s.Inv) : (writeBack s n x o).Inv := by
  unfold writeBack
  split
  · exact h
  · exact countHeld_inv h
theorem fillIn_inv {n a : Nat} {w : Who} {ef wr : Bool} {x : Pkt} (h : s.Inv) : (fillIn s n a w ef wr x).1.Inv :=
  writeBack_inv (touchLine_inv h)
theorem fillLine_inv {n a : Nat} (h : s.Inv) : (fillLine s n a).Inv := inv_ite h (inv_ite h h)
theorem lineFails_inv {n a : Nat} (h : s.Inv) : (State.lineFails s n a).Inv := inv_ite h h
theorem homeLine_inv {n g : Nat} {w : Who} {wr : Bool} {a : Nat} (h : s.Inv) : (homeLine n g w wr s a).Inv :=
  inv_ite h (inv_ite (fillIn_inv h) (fillLine_inv (fillIn_inv h)))
theorem homeLines_inv {n g : Nat} {w : Who} {wr : Bool} {a len : Nat} (h : s.Inv) : (State.homeLines s n g w wr a len).Inv :=
  inv_foldl (fun _ _ h => homeLine_inv h) h
theorem hbmWrite_inv {k : Nat} {b : List Byte} (h : s.Inv) : (hbmWrite s k b).Inv := poke_inv h
theorem poisonAt_inv {k : Nat} {m : List Bool} (h : s.Inv) : (State.poisonAt s k m).Inv :=
  inv_foldl (fun _ _ h => inv_ite h h) h
theorem fetchLines_inv {pc len : Nat} (h : s.Inv) : (State.fetchLines s pc len).Inv :=
  inv_foldl (fun _ _ h => homeLine_inv h) h

/-! ### Waiting, fetching and registers -/

theorem enterHalt_inv {w : Who} (h : s.Inv) : (enterHalt s w).Inv := inv_of_mem (enterHalt_mem s w) h
theorem waitOn_inv {cc : Nat} {thr : BitVec 32} (h : s.Inv) : (waitOn cc thr s).Inv := by
  unfold waitOn
  split <;> exact h
theorem skipRead_inv {pc : Nat} (h : s.Inv) : (State.skipRead s pc).Inv := fetchLines_inv h
theorem csrWrite_inv {o : SRX} (h : s.Inv) : (csrWrite o s).Inv := by
  unfold csrWrite
  split <;> exact h

/-! ### Slot operations -/

theorem execGth_inv {o : DA} (h : s.Inv) : keepsInv (execGth o s) :=
  guardedFault_inv h (inv_foldl (fun _ _ h => poolPoison_inv h) (inv_ite (daClamp_inv h) (daClamp_inv h)))
theorem execStv_inv {o : DA} (h : s.Inv) : keepsInv (execStv o s) :=
  guardedFault_inv h (inv_ite (inv_ite h (windowStore_inv h)) (scratchStore_inv h))
theorem execLdt_inv {o : DT} (h : s.Inv) : keepsInv (execLdt o s) :=
  guardedFault_inv h (settle_inv (issueLines_inv (dtClamp_inv h)))
theorem execStt_inv {o : DT} (h : s.Inv) : keepsInv (execStt o s) :=
  guardedFault_inv h (inv_ite (issueLines_inv (dtClamp_inv h)) (issueLines_inv (dtClamp_inv h)))
theorem execLdtp_inv {o : DT} (h : s.Inv) : keepsInv (execLdtp o s) :=
  guardedFault_inv h (settle_inv (issueLines_inv (dtClamp_inv h)))
theorem rfeRead_inv {o : SRF} (h : s.Inv) : (if o.skip then s.skipRead s.trapPc.toNat else s).Inv :=
  inv_ite (skipRead_inv h) h
theorem execRfe_inv {o : SRF} (h : s.Inv) : keepsInv (execRfe o s) := by
  refine guardedFault_inv h ?_
  refine inv_ite ?_ (inv_ite ?_ ?_)
  all_goals exact rfeRead_inv h

theorem execMdrain_inv {o : MDrain} (h : s.Inv) : keepsInv (execMdrain o s) := by
  unfold execMdrain
  exact mIssue_inv h
theorem execCall_inv {o : SB} (h : s.Inv) : keepsInv (exec (.call o) s) := by
  obtain ⟨t, ht, ⟨hctx, _⟩, _⟩ := execCall_frame o s
  rw [ht]
  exact inv_of_mem (by rw [hctx]) h
/-- A slot operation of fixed latency, or a transfer, leaves memory alone. -/
theorem fixed_inv {i : Instr} (hi : landsOnly i = true ∨ transfersOnly i = true) (h : s.Inv) : keepsInv (exec i s) := by
  rcases hi with hl | ht
  · obtain ⟨t, ht, ⟨hctx, _⟩, _⟩ := landsOnly_lands i s hl
    rw [ht]
    exact inv_of_mem (by rw [hctx]) h
  · obtain ⟨t, ht, ⟨hctx, _⟩, _⟩ := transfersOnly_transfers i s ht
    rw [ht]
    exact inv_of_mem (by rw [hctx]) h

/-- The slot operations left beside those, each by the shared operation that it is made of. -/
theorem acting_inv {i : Instr} (hi : (!landsOnly i && !transfersOnly i && (slotOf i).isSome) = true) (h : s.Inv) : keepsInv (exec i s) := by
  cases i with
  | call o => exact execCall_inv h
  | halt o => exact show keepsInv (execHalt o s) from guarded_inv h (inv_ite h (inv_of_mem (enterHalt_mem _ _) h))
  | wait o => exact show keepsInv (execWait o s) from guarded_inv h (waitOn_inv h)
  | waitReg o => exact show keepsInv (execWaitReg o s) from guarded_inv h (waitOn_inv h)
  | yield o => exact show keepsInv (execYield o s) from guarded_inv h (inv_ite h h)
  | trap o => exact show keepsInv (execTrap o s) from guarded_inv h (raiseTrap_inv h)
  | rfe o => exact execRfe_inv h
  | csrr o => exact show keepsInv (execCsrr o s) from guardedFault_inv h h
  | ovtLd o => exact show keepsInv (execOvtLd o s) from guardedFault_inv h h
  | csrw o => exact show keepsInv (execCsrw o s) from guardedFault_inv h (csrWrite_inv h)
  | csrx o => exact show keepsInv (execCsrx o s) from guardedFault_inv h (csrWrite_inv h)
  | ldv o => exact show keepsInv (execLdv o s) from guardedFault_inv h (scratchLoad_inv h)
  | lds o => exact show keepsInv (execLds o s) from guardedFault_inv h (scratchLoad_inv h)
  | ldb o => exact show keepsInv (execLdb o s) from guardedFault_inv h (scratchLoad_inv h)
  | sts o => exact show keepsInv (execSts o s) from guardedFault_inv h (scratchStore_inv h)
  | sct o => exact show keepsInv (execSct o s) from guardedFault_inv h (scratchStore_inv h)
  | gth o => exact execGth_inv h
  | stv o => exact execStv_inv h
  | ldg o => exact show keepsInv (execLdg o s) from guardedFault_inv h (settle_inv (issuePkt_inv (daClamp_inv h)))
  | stg o => exact show keepsInv (execStg o s) from guardedFault_inv h (settle_inv (issuePkt_inv (daClamp_inv h)))
  | ldt o => exact execLdt_inv h
  | stt o => exact execStt_inv h
  | ldtp o => exact execLdtp_inv h
  | aadd o => exact show keepsInv (execAadd o s) from atomicOp_inv h
  | amin o => exact show keepsInv (execAmin o s) from atomicOp_inv h
  | amax o => exact show keepsInv (execAmax o s) from atomicOp_inv h
  | aminn o => exact show keepsInv (execAminn o s) from atomicOp_inv h
  | amaxn o => exact show keepsInv (execAmaxn o s) from atomicOp_inv h
  | aand o => exact show keepsInv (execAand o s) from atomicOp_inv h
  | aor o => exact show keepsInv (execAor o s) from atomicOp_inv h
  | axor o => exact show keepsInv (execAxor o s) from atomicOp_inv h
  | aswp o => exact show keepsInv (execAswp o s) from atomicOp_inv h
  | acas o => exact show keepsInv (execAcas o s) from atomicOp_inv h
  | afadd o => exact show keepsInv (execAfadd o s) from atomicOp_inv h
  | afmax o => exact show keepsInv (execAfmax o s) from atomicOp_inv h
  | fence o => exact show keepsInv (execFence o s) from guarded_inv h (clampCount_inv h)
  | l2pin o => exact show keepsInv (execL2pin o s) from l2Issue_inv h
  | l2unpin o => exact show keepsInv (execL2unpin o s) from l2Issue_inv h
  | l2inv o => exact show keepsInv (execL2inv o s) from l2Issue_inv h
  | wwait o => exact show keepsInv (execWwait o s) from guarded_inv h (inv_ite h h)
  | mzero o => exact show keepsInv (execMzero o s) from mIssue_inv h
  | mlat o => exact show keepsInv (execMlat o s) from mIssue_inv h
  | mma o => exact show keepsInv (execMma o s) from mIssue_inv h
  | mter o => exact show keepsInv (execMter o s) from mIssue_inv h
  | mdrain o => exact execMdrain_inv h
  | maccLd o => exact show keepsInv (execMaccLd o s) from mIssue_inv h
  | mkat o => exact show keepsInv (execMkat o s) from mIssue_inv h
  | mchk o => exact show keepsInv (execMchk o s) from mIssue_inv h
  | kld o => exact show keepsInv (execKld o s) from guardedFault_inv h (inv_ite h h)
  | kset o => exact show keepsInv (execKset o s) from guarded_inv h h
  | kmov o => exact show keepsInv (execKmov o s) from guarded_inv h h
  | ecntAdd o => exact show keepsInv (execEcntAdd o s) from guarded_inv h h
  | ecntSet o => exact show keepsInv (execEcntSet o s) from guarded_inv h h
  | cpy o => exact show keepsInv (execCpy o s) from eIssue_inv h (inv_foldl (fun _ _ h => h) (poolPoison_inv h))
  | coll o => exact show keepsInv (execColl o s) from eIssue_inv h (sendE_inv (poolPoison_inv h))
  | flowMode o => exact show keepsInv (execFlowMode o s) from eIssue_inv h (sendE_inv h)
  | amsg o => exact show keepsInv (execAmsg o s) from eIssue_inv h (sendE_inv h)
  | taskDec o => exact show keepsInv (execTaskDec o s) from eIssue_inv h (sendE_inv h)
  | esend o => exact show keepsInv (execEsend o s) from eIssue_inv h (sendE_inv h)
  | erel o => exact show keepsInv (execErel o s) from eIssue_inv h (sendE_inv h)
  | eprobe o => exact show keepsInv (execEprobe o s) from eIssue_inv h (sendE_inv h)
  | taskPost o => exact show keepsInv (execTaskPost o s) from ePlain_inv h
  | clbar o => exact show keepsInv (execClbar o s) from ePlain_inv h
  | chbar o => exact show keepsInv (execChbar o s) from ePlain_inv h
  | gbar o => exact show keepsInv (execGbar o s) from ePlain_inv h
  | fork o => exact show keepsInv (execFork o s) from ePlain_inv h
  | spawn o => exact show keepsInv (execSpawn o s) from ePlain_inv h
  | join o => exact show keepsInv (execJoin o s) from ePlain_inv h
  | revSt o => exact show keepsInv (execRevSt o s) from ePlain_inv h
  | slk o => exact show keepsInv (execSlk o s) from ePlain_inv h
  | xtloadFull o => exact show keepsInv (execXtloadFull o s) from ePriv_inv h
  | xtloadEntry o => exact show keepsInv (execXtloadEntry o s) from ePriv_inv h
  | xtloadPage o => exact show keepsInv (execXtloadPage o s) from ePriv_inv h
  | almw o => exact show keepsInv (execAlmw o s) from ePriv_inv h
  | almwLen o => exact show keepsInv (execAlmwLen o s) from ePriv_inv h
  | migCtlStart o => exact show keepsInv (execMigCtlStart o s) from ePriv_inv h
  | migCtlDone o => exact show keepsInv (execMigCtlDone o s) from ePriv_inv h
  | _ => cases hi
theorem slotOp_inv {i : Instr} (hi : (slotOf i).isSome = true) (h : s.Inv) : keepsInv (exec i s) := by
  by_cases hf : landsOnly i = true ∨ transfersOnly i = true
  · exact fixed_inv hf h
  · rw [not_or, Bool.not_eq_true, Bool.not_eq_true] at hf
    exact acting_inv (by rw [hf.1, hf.2, hi]; rfl) h
/-- What stands in no slot has no meaning there. -/
theorem slotMeaning_event {i : Instr} (hi : slotOf i = none) : keepsInv (slotMeaning i s) := by
  cases i <;> cases hi <;> trivial
theorem slotMeaning_inv {i : Instr} (h : s.Inv) : keepsInv (slotMeaning i s) := by
  cases hi : slotOf i with
  | none => exact slotMeaning_event hi
  | some x =>
    have hx : (slotOf i).isSome = true := by rw [hi]; rfl
    rw [slotMeaning_exec i hx]
    exact slotOp_inv hx h
theorem runOps_inv {l : List Instr} (h : s.Inv) : keepsInv (runOps l s) := by
  induction l generalizing s with
  | nil => exact h
  | cons i r ih =>
    have hi : keepsInv (slotMeaning i s) := slotMeaning_inv h
    rw [runOps]
    split
    next t ht => rw [ht] at hi; exact ih hi
    next => exact hi

/-! ### Segments -/

theorem handOver_inv {p : Pkt} (h : s.Inv) : (handOver s p).Inv :=
  inv_ite (performPool_inv (inv_ite_fst h h)) (inv_ite_fst h h)
theorem segCommit_inv {w : Who} (h : s.Inv) : (segCommit s w).Inv :=
  settle_inv (inv_foldl (fun _ _ h => numberCmd_inv h) (inv_foldl (fun _ _ h => handOver_inv h) h))
theorem afterCommit_inv {w : Who} (h : s.Inv) : (afterCommit s w).Inv := by
  unfold afterCommit
  dsimp only
  split
  · exact takeTrap_inv h
  · exact inv_ite (enterHalt_inv h) h
theorem stopForm_inv {m : MForm} (h : s.Inv) : (stopForm s m).Inv := by
  unfold stopForm
  split
  · exact h
  · split
    · exact updCore_inv (poke_inv h)
    · exact h
theorem rewind_inv {w : Who} {lcause : Nat} {failure : Bool} (h : s.Inv) : (rewind s w lcause failure).Inv := by
  refine inv_ite (inv_foldl (fun _ _ h => h) ?_) ?_
  all_goals exact dropClosing_inv (inv_foldl (fun _ _ h => stopForm_inv h) h)
theorem segTerminal_inv {w : Who} {a : TrapArgs} (h : s.Inv) : (segTerminal s w a).Inv :=
  have hs : (trapTerminal s w a).Inv := trapTerminal_inv h
  inv_ite hs hs
theorem raiseCause_inv {w : Who} {a : TrapArgs} {stale : Bool} {inst : Nat} (h : s.Inv) : (raiseCause s w a stale inst).Inv := by
  unfold raiseCause
  dsimp only
  split
  · exact inv_ite h (trapTerminal_inv h)
  · split
    · exact segTerminal_inv h
    · split
      · exact inv_ite (inv_ite (segTerminal_inv h) (rewind_inv h)) (takeTrap_inv h)
      · exact inv_ite h (takeTrap_inv h)

/-! ### Bundles at issue -/

theorem firstDecode_inv {r : Raw} (h : s.Inv) : (s.firstDecode r).1.Inv :=
  inv_ite_fst h (inv_ite_fst h (inv_ite_fst (inv_ite_fst h h) h))
theorem firstDecode_inv_of {t : State} {r : Raw} {x : Option TrapArgs} (hd : s.firstDecode r = (t, x)) (h : s.Inv) : t.Inv := by
  have ht := firstDecode_inv (r := r) h
  rwa [hd] at ht
theorem beginIssue_inv {r : Raw} {u : List BundleSlot} (h : s.Inv) : (beginIssue r u s).Inv := inv_ite h h
theorem failWith_inv {a : TrapArgs} (h : s.Inv) : (State.failWith s a).Inv := raiseTrap_inv h
theorem coalesce_inv {a : TrapArgs} {l : List TrapArgs} {rec : Bool} (h : s.Inv) : (State.coalesce s a l rec).Inv :=
  inv_ite (inv_foldl (fun _ _ h => h) h) h
theorem issueFrom_inv {r : Raw} (h : s.Inv) : keepsInv (issueFrom r s) := by
  unfold issueFrom
  dsimp only
  split
  · exact failWith_inv h
  · split
    · exact h
    · split
      · exact h
      · split
        · exact h
        · split
          · exact h
          · split
            · exact coalesce_inv (failWith_inv h)
            · have hops : keepsInv (runOps (runOrder (opsOf (s.uses r))) (beginIssue r (s.uses r) s)) := runOps_inv (beginIssue_inv h)
              split
              next t ht => rw [ht] at hops; exact hops
              next => exact hops
theorem examine_inv (h : s.Inv) : keepsInv (examine s) := by
  have hread {pc len : Nat} : (s.fetchLines pc len).Inv := fetchLines_inv h
  unfold examine
  dsimp only
  split
  · exact h
  · split
    · exact failWith_inv h
    · refine keepsInv_ite (issueFrom_inv h) (unitGate_inv h ?_)
      split
      · exact raiseCause_inv hread
      · split
        next hd => exact raiseCause_inv (firstDecode_inv_of hd hread)
        next hd => exact issueFrom_inv (firstDecode_inv_of hd hread)
theorem takeCore_inv {w : Who} (h : s.Inv) : (takeCore s w).Inv := inv_ite h h
theorem execBundleIssue_inv (h : s.Inv) : keepsInv (execBundleIssue s) :=
  keepsInv_ite (examine_inv (takeCore_inv h)) trivial
theorem commitNow_inv (h : s.Inv) : (commitNow s).Inv := inv_ite (afterCommit_inv (segCommit_inv h)) (segCommit_inv h)
theorem execSegmentCommit_inv (h : s.Inv) : keepsInv (execSegmentCommit s) := keepsInv_ite (commitNow_inv h) trivial
theorem execSegmentIssueLimit_inv (h : s.Inv) : keepsInv (execSegmentIssueLimit s) :=
  keepsInv_ite (commitNow_inv h) trivial
theorem execHoldRelease_inv (h : s.Inv) : keepsInv (execHoldRelease s) := keepsInv_gate h

/-! ### Events of a core -/

theorem when_inv {b : Bool} (h : s.Inv) : keepsInv (when_ b s) := keepsInv_ite h trivial
theorem landStatus_inv {w : Who} {l : Landing} (h : s.Inv) : (landStatus w s l).Inv :=
  inv_of_mem (landStatus_mem w s l) h
theorem landDue_inv {w : Who} (h : s.Inv) : (landDue s w).Inv := inv_of_mem (landDue_mem s w) h
theorem readAgain_inv {w : Who} {i piece : Nat} (h : s.Inv) : keepsInv (readAgain s w i piece) := by
  unfold readAgain
  split
  · exact trivial
  · exact keepsInv_gate h
theorem execResultLand_inv (h : s.Inv) : keepsInv (execResultLand s) :=
  keepsInv_ite (readAgain_inv h) (when_inv (landDue_inv h))
theorem execLateFault_inv (h : s.Inv) : keepsInv (execLateFault s) := by
  unfold execLateFault
  dsimp only
  split
  · exact trivial
  · exact keepsInv_gate (raiseCause_inv h)
theorem execBlockRelease_inv (h : s.Inv) : keepsInv (execBlockRelease s) := when_inv h
theorem sendCmd_inv {p : Pkt} (h : s.Inv) : (sendCmd s p).Inv := inv_ite (settle_inv h) (settle_inv h)
theorem headGo_inv {w : Who} {k : ECmd} (h : s.Inv) : (headGo s w k).Inv := by
  unfold headGo
  split
  · exact sendCmd_inv h
  · split
    · exact sendCmd_inv h
    · exact sendCmd_inv h
    · exact h
    · exact h
theorem execEQueueHead_inv (h : s.Inv) : keepsInv (execEQueueHead s) := by
  unfold execEQueueHead
  dsimp only
  split
  · exact keepsInv_gate (headGo_inv h)
  · exact trivial
theorem feedForms_inv {c : CoreId} (h : s.Inv) : (feedForms s c).Inv := inv_of_mem (feedForms_mem s c) h
theorem execMatrixOpStart_inv (h : s.Inv) : keepsInv (execMatrixOpStart s) := by
  unfold execMatrixOpStart
  dsimp only
  split
  · exact trivial
  · exact keepsInv_ite (feedForms_inv h) trivial
theorem writeOut_inv {m : MForm} (h : s.Inv) : (writeOut s m).Inv := pokeRest_inv h
theorem doMma_inv {m : MForm} {acc : Nat} {f : BitVec 4} (h : s.Inv) : (doMma s m acc f).Inv := writeOut_inv h
theorem doDrain_inv {m : MForm} {o : MDrain} (h : s.Inv) : (doDrain s m o).Inv := writeOut_inv h
theorem doLoad_inv {m : MForm} {o : MLd} (h : s.Inv) : (doLoad s m o).Inv := writeOut_inv h
theorem doLat_inv {m : MForm} {o : MRow} (h : s.Inv) : (doLat s m o).Inv := poke_inv h
theorem doZero_inv {m : MForm} {acc : Nat} (h : s.Inv) : (doZero s m acc).Inv := writeOut_inv h
theorem failForm_inv {m : MForm} {code : BitVec 8} {info : BitVec 64} (h : s.Inv) : (failForm s m code info).Inv :=
  raiseCause_inv h
theorem doCheck_inv {m : MForm} {o : MChk} (h : s.Inv) : (doCheck s m o).Inv := by
  unfold doCheck
  dsimp only
  split
  · exact failForm_inv h
  · exact h
theorem formEffect_inv {m : MForm} (h : s.Inv) : (formEffect s m).Inv := by
  unfold formEffect
  split
  · exact doZero_inv h
  · exact doLat_inv h
  · exact doMma_inv h
  · exact doMma_inv h
  · exact doDrain_inv h
  · exact doLoad_inv h
  · exact inv_ite h (failForm_inv h)
  · exact doCheck_inv h
  · exact h
theorem earlyByte_inv {m : MForm} {i : Nat} (h : s.Inv) : keepsInv (earlyByte s m i) := keepsInv_gate h
theorem keepOld_inv {m : MForm} (h : s.Inv) : keepsInv (keepOld s m) := by
  unfold keepOld
  split
  · exact keepsInv_gate h
  · exact keepsInv_gate h
  · exact keepsInv_gate h
  · exact trivial
theorem aheadByte_inv {m : MForm} {i : Nat} (h : s.Inv) : keepsInv (aheadByte s m i) := keepsInv_gate (poke_inv h)
theorem execMatrixOpComplete_inv (h : s.Inv) : keepsInv (execMatrixOpComplete s) := by
  unfold execMatrixOpComplete
  dsimp only
  split
  · exact trivial
  · split
    · split
      · exact settle_inv (formEffect_inv (inv_ite h h))
      · exact keepsInv_ite h trivial
      · exact keepOld_inv h
      · exact keepsInv_ite (earlyByte_inv h) (aheadByte_inv h)
    · exact trivial
theorem execCopyStart_inv (h : s.Inv) : keepsInv (execCopyStart s) := by
  unfold execCopyStart
  dsimp only
  split
  · exact trivial
  · exact keepsInv_ite h trivial
theorem copyPut_inv {k : CopyCmd} {p : Nat} {l : List (Nat × Byte × Bool)} (h : s.Inv) : (copyPut k p l s).Inv :=
  inv_ite (inv_foldl (fun _ _ h => inv_ite (poke_inv h) (poke_inv h)) h) (inv_foldl (fun _ _ h => inv_ite (poke_inv h) (poke_inv h)) h)
theorem copyElem_inv {k : CopyCmd} {own : List Nat} {p : Nat} (h : s.Inv) : (copyElem k own s p).Inv := copyPut_inv h
theorem copyRest_inv {r : CopyRun} (h : s.Inv) : (copyRest r s).Inv := inv_foldl (fun _ _ h => copyElem_inv h) h
theorem copyAhead_inv {c : CoreId} {e : Nat} {r : CopyRun} {i : Nat} (h : s.Inv) : keepsInv (copyAhead s c e r i) :=
  keepsInv_gate (keepsInv_ite (keepsInv_ite h trivial) (keepsInv_ite (copyPut_inv h) trivial))
theorem execFifoEntryPush_inv (h : s.Inv) : keepsInv (execFifoEntryPush s) := by
  unfold execFifoEntryPush
  dsimp only
  split
  · exact trivial
  · exact keepsInv_ite (feedForms_inv h) trivial
theorem execCopyComplete_inv (h : s.Inv) : keepsInv (execCopyComplete s) := by
  unfold execCopyComplete
  dsimp only
  split
  · exact trivial
  · exact keepsInv_gate (keepsInv_ite (copyAhead_inv h) (keepsInv_gate (inv_ite h (copyRest_inv h))))

/-! ### Dirty pages and copies -/

theorem countS_inv {p : Pkt} (h : s.Inv) : (countS s p).Inv := inv_ite h h
theorem countR_inv {p : Pkt} (h : s.Inv) : (countR s p).Inv := inv_ite h h
theorem countGrant_inv {p : Pkt} (h : s.Inv) : (State.countGrant s p).Inv := by
  unfold State.countGrant
  split <;> exact h
theorem replyCmd_inv {id : Nat} {v : BitVec 64} (h : s.Inv) : (replyCmd s id v).Inv := by
  unfold replyCmd
  split <;> exact h
theorem askDirty_inv {n g : Nat} {w : Who} {ext page : Nat} (h : s.Inv) : (askDirty s n g w ext page).Inv :=
  inv_of_mem (askDirty_mem s n g w ext page) h
theorem takeSlot_inv {n g rev gran : Nat} {w : Who} {serves : List Nat} {b : List Byte} {m : List Bool} {t : State}
    (ht : takeSlot s n g rev gran w serves b m = some t) (h : s.Inv) : t.Inv := by
  obtain ⟨i, _, rfl⟩ := Option.map_eq_some_iff.mp ht
  exact poisonAt_inv (hbmWrite_inv (homeLines_inv h))
theorem takeIfAny_inv {c : Prop} [Decidable c] {n g rev gran : Nat} {w : Who} {serves : List Nat} {b : List Byte} {m : List Bool} {t : State}
    (ht : (if c then some s else takeSlot s n g rev gran w serves b m) = some t) (h : s.Inv) : t.Inv := by
  split at ht
  · exact Option.some.inj ht ▸ h
  · exact takeSlot_inv ht h
theorem prepareWrite_inv {n g rev gran : Nat} {w : Who} {t : State} (ht : prepareWrite s n g rev gran w = some t) (h : s.Inv) : t.Inv := by
  have hread {d : Nat} : (s.homeLines n g w false d 256).Inv := homeLines_inv h
  unfold prepareWrite at ht
  dsimp only at ht
  split at ht
  · cases ht
  · split at ht
    · exact Option.some.inj ht ▸ h
    · split at ht
      · obtain ⟨u, hu, ht⟩ := Option.bind_eq_some_iff.mp ht
        exact takeSlot_inv ht (takeIfAny_inv hu hread)
      · exact takeIfAny_inv ht hread

/-! ### Accesses on the fabric -/

theorem pktFault_inv {p : Pkt} {code : BitVec 8} {fr : FreezeCause} (h : s.Inv) : (pktFault s p code fr).Inv :=
  inv_ite h h
theorem endPkt_inv {p : Pkt} (h : s.Inv) : (endPkt s p).Inv := settle_inv h
theorem acceptWire_inv {w : Wire} (h : s.Inv) : (acceptWire s w).Inv := inv_ite h h
theorem arriveAtStage_inv {p : Pkt} (h : s.Inv) : (arriveAtStage s p).Inv := by
  unfold arriveAtStage
  split <;> exact h
theorem resend_inv (h : s.Inv) : keepsInv (resend s) := by
  unfold resend
  split
  · exact trivial
  · split
    · exact keepsInv_gate h
    · exact trivial
theorem grantPkt_inv {p : Pkt} (h : s.Inv) : keepsInv (grantPkt s p) := by
  unfold grantPkt
  dsimp only
  split
  · exact arriveAtStage_inv (countGrant_inv h)
  · exact arriveAtStage_inv (countGrant_inv h)
  · exact arriveAtStage_inv (countGrant_inv h)
  · exact arriveAtStage_inv (countGrant_inv h)
  · exact arriveAtStage_inv (countGrant_inv h)
  · exact keepsInv_ite (countGrant_inv h) (countS_inv (countGrant_inv h))
  · exact countS_inv (countGrant_inv h)
  · exact countGrant_inv h
  · exact countGrant_inv h
  · exact countGrant_inv h
  · exact trivial
theorem execArbiterGrant_inv (h : s.Inv) : keepsInv (execArbiterGrant s) := by
  unfold execArbiterGrant
  split
  · exact resend_inv h
  · split
    · exact trivial
    · exact keepsInv_ite (grantPkt_inv h) trivial
theorem capture_inv {n g : Nat} {p : Pkt} {out : Bool} (h : s.Inv) : (capture s n g p out).Inv := by
  unfold capture
  dsimp only
  exact inv_ite (updGang_inv (hbmWrite_inv h)) h
theorem intoIngress_inv {n : Nat} {p : Pkt} (h : s.Inv) : (intoIngress s n p).Inv :=
  inv_ite h (inv_ite (inv_ite h (capture_inv h)) (inv_ite h (inv_ite (capture_inv h) (inv_ite h h))))
theorem takeWire_inv {w : Wire} {bad : Bool} (h : s.Inv) : (takeWire s w bad).Inv := by
  unfold takeWire
  dsimp only
  split
  · exact h
  · split
    · exact h
    · exact intoIngress_inv (countR_inv (acceptWire_inv h))
theorem execPacketArrival_inv (h : s.Inv) : keepsInv (execPacketArrival s) := by
  unfold execPacketArrival
  split
  · exact trivial
  · exact keepsInv_ite h (keepsInv_ite h (keepsInv_ite (takeWire_inv h) (takeWire_inv h)))
theorem bumpExpect_inv {p : Pkt} (h : s.Inv) : (bumpExpect s p).Inv := inv_ite h h
theorem answer_inv {p : Pkt} (h : s.Inv) : (answer s p).Inv := settle_inv (bumpExpect_inv h)
theorem putPayload_inv {k : Nat} {b : List Byte} {gone : List Nat} {bad : Bool} (h : s.Inv) : (putPayload s k b gone bad).Inv :=
  inv_ite (pokeRest_inv h) (pokeRest_inv h)
theorem putByte_inv {p : Pkt} {k : Nat} {b : List Byte} {i : Nat} (h : s.Inv) : keepsInv (putByte s p k b i) :=
  keepsInv_ite (inv_ite (poke_inv h) (poke_inv h)) trivial
theorem putRun_inv {p : Pkt} {k : Nat} {b : List Byte} {i n : Nat} (h : s.Inv) : keepsInv (putRun s p k b i n) :=
  keepsInv_gate (inv_foldl (fun _ _ h => inv_ite (poke_inv h) (poke_inv h)) h)
theorem windowAhead_inv {p : Pkt} {off k : Nat} {b : List Byte} {v : Nat} (h : s.Inv) : keepsInv (windowAhead s p off k b v) := by
  unfold windowAhead
  split
  · split
    · exact putRun_inv h
    · exact trivial
  · exact keepsInv_ite (putByte_inv h) trivial
theorem execRequestPerform_inv (h : s.Inv) : keepsInv (execRequestPerform s) := by
  unfold execRequestPerform
  split
  · exact trivial
  · split
    · exact trivial
    · split
      · exact keepsInv_gate (keepsInv_ite (windowAhead_inv h) (answer_inv (putPayload_inv h)))
      · split
        · exact trivial
        · split
          · exact keepsInv_ite (answer_inv h) h
          · exact keepsInv_ite (answer_inv h) (pktFault_inv h)
          · exact answer_inv h
          · exact answer_inv h
      · exact trivial
theorem execHomeSliceAccess_inv (h : s.Inv) : keepsInv (execHomeSliceAccess s) := by
  unfold execHomeSliceAccess
  split
  · exact trivial
  next p _ =>
    have hgrant : (s.countGrant p).Inv := countGrant_inv h
    refine keepsInv_gate (keepsInv_ite ?_ (keepsInv_ite hgrant (keepsInv_ite (touchLine_inv hgrant) ?_)))
    · exact keepsInv_ite (answer_inv hgrant) (keepsInv_ite (answer_inv (pktFault_inv hgrant)) (answer_inv hgrant))
    · exact writeBack_inv (countHeld_inv (touchLine_inv hgrant))
theorem cellsShow_inv {n a : Nat} (h : s.Inv) : (cellsShow s n a).Inv := inv_ite (lineFails_inv h) (inv_ite h h)
theorem execMcRequestAccept_inv (h : s.Inv) : keepsInv (execMcRequestAccept s) := by
  unfold execMcRequestAccept
  refine keepsInv_ite (lineFails_inv h) ?_
  split
  · exact trivial
  · split
    · refine keepsInv_gate ?_
      dsimp only
      refine keepsInv_ite (countHeld_inv (countGrant_inv h)) ?_
      split
      · exact countGrant_inv h
      · exact fillLine_inv (cellsShow_inv (countGrant_inv h))
    · exact trivial
theorem writePieces_inv {p : Pkt} {k : Nat} {b : List Byte} {l : List (Nat × Nat)} (h : s.Inv) : (writePieces s p k b l).Inv :=
  inv_foldl (fun _ _ h => inv_ite (hbmWrite_inv h) (hbmWrite_inv h)) h
theorem coverLines_inv {p : Pkt} {k n : Nat} (h : s.Inv) : (coverLines s p k n).Inv :=
  inv_of_mem (coverLines_mem s p k n) h
theorem memEffect_inv {p : Pkt} (h : s.Inv) : (memEffect s p).1.Inv := by
  unfold memEffect
  dsimp only
  split
  · exact h
  · exact h
  · exact coverLines_inv (writePieces_inv h)
  · dsimp only
    split
    · exact hbmWrite_inv h
    · exact h
  · exact h
theorem pinFill_inv {p : Pkt} {n a : Nat} (h : s.Inv) :
    (if (fillIn s n a p.who false false p).2 then (fillIn s n a p.who false false p).1
      else fillLine (cellsShow (fillIn s n a p.who false false p).1 n a) n a).Inv :=
  inv_ite (fillIn_inv h) (fillLine_inv (cellsShow_inv (fillIn_inv h)))
theorem pinLine_inv {p : Pkt} {ret a : Nat} (h : s.Inv) : (pinLine s p ret a).1.Inv := by
  unfold pinLine
  dsimp only
  split
  · exact pinFill_inv h
  · split
    · exact pinFill_inv h
    · exact inv_ite_fst (updChip_inv (pinFill_inv h)) (pinFill_inv h)
theorem l2Line_inv {p : Pkt} {kind ret a : Nat} (h : s.Inv) : (l2Line s p kind ret a).Inv := writeBack_inv h
theorem l2Effect_inv {p : Pkt} {kind len ret : Nat} (h : s.Inv) : (l2Effect s p kind len ret).Inv := by
  refine inv_ite (updCtx_inv (inv_foldl_fst (fun q x hq => ?_) h)) (inv_foldl (fun t x ht => ?_) h)
  · cases x with
    | none => exact hq
    | some a => exact pinLine_inv hq
  · cases x with
    | none => exact ht
    | some a => exact l2Line_inv ht
theorem performNow_inv {p : Pkt} (h : s.Inv) : (performNow s p).Inv := by
  unfold performNow
  split
  · exact answer_inv (l2Effect_inv h)
  · exact answer_inv (memEffect_inv h)
theorem mergeLimit_inv {w : Who} {slot gran : Nat} (h : s.Inv) : (mergeLimit s w slot gran).Inv :=
  inv_of_mem (mergeLimit_mem s w slot gran) h
theorem sorrelPerform_inv {p : Pkt} (h : s.Inv) : keepsInv (sorrelPerform s p) := by
  unfold sorrelPerform
  dsimp only
  split
  · split
    · exact keepsInv_gate h
    · exact keepsInv_gate (inv_ite h h)
    · exact answer_inv h
    · exact keepsInv_gate (askDirty_inv h)
    · exact keepsInv_ite (keepsInv_gate (unitGate_inv h (performNow_inv h))) (performNow_inv h)
  · exact performNow_inv h
  · split
    · exact keepsInv_gate (mergeLimit_inv h)
    · exact keepsInv_gate (inv_ite h h)
    · exact answer_inv h
    · exact keepsInv_gate (askDirty_inv h)
    · refine unitGate_inv h ?_
      split
      next hw =>
        split at hw
        · exact performNow_inv (prepareWrite_inv hw h)
        · exact performNow_inv (Option.some.inj hw ▸ h)
      · exact trivial
theorem performPiece_inv {p : Pkt} {i : Nat} (h : s.Inv) : keepsInv (performPiece s p i) := by
  unfold performPiece
  refine keepsInv_gate ?_
  split
  · exact h
  · exact h
  · exact writePieces_inv h
  · exact trivial
theorem performLeft_inv {p : Pkt} {v : Nat} (h : s.Inv) : keepsInv (performLeft s p v) := by
  unfold performLeft
  split
  · split
    · exact trivial
    · split
      · exact settle_inv (pokeAll_inv h)
      · split
        · exact keepsInv_gate (pokeAll_inv h)
        · exact trivial
  · exact trivial
theorem execAccessPerformed_inv (h : s.Inv) : keepsInv (execAccessPerformed s) := by
  unfold execAccessPerformed
  split
  · exact trivial
  · split
    · exact performLeft_inv h
    · split
      · exact trivial
      · split
        · exact keepsInv_gate (askDirty_inv h)
        · exact keepsInv_ite (performPiece_inv h) (sorrelPerform_inv h)
theorem execSorrelSlotGrant_inv (h : s.Inv) : keepsInv (execSorrelSlotGrant s) := by
  unfold execSorrelSlotGrant
  split
  · exact trivial
  · exact keepsInv_ite (sorrelPerform_inv h) trivial
theorem countExh_inv {p : Pkt} (h : s.Inv) : (countExh s p).Inv := inv_ite h h
theorem ackCommand_inv {p : Pkt} (h : s.Inv) : (ackCommand s p).Inv := by
  unfold ackCommand
  dsimp only
  split
  · exact inv_ite h h
  · exact inv_ite h h
  · exact h
  · exact h
  · exact inv_ite h h
  · exact inv_ite h h
  · exact h
  · exact h
theorem execReplyLand_inv (h : s.Inv) : keepsInv (execReplyLand s) := by
  unfold execReplyLand
  split
  · exact trivial
  · split
    · exact trivial
    · dsimp only
      split
      · exact pktFault_inv (endPkt_inv (countExh_inv h))
      · split
        · exact settle_inv (countExh_inv h)
        · exact settle_inv (countExh_inv h)
        · exact settle_inv (countExh_inv h)
        · exact ackCommand_inv (endPkt_inv (countExh_inv h))
theorem execWindowAck_inv (h : s.Inv) : keepsInv (execWindowAck s) := by
  unfold execWindowAck
  split
  · exact trivial
  · split
    · exact trivial
    · exact keepsInv_gate (endPkt_inv (countExh_inv h))
theorem landLoad_inv {p : Pkt} {f : Ctx → Ctx} (h : s.Inv) :
    (if p.poison then pktFault (if p.dropLanding then endPkt s p else (endPkt s p).updCtx p.who f) p 0x05 .none
      else if p.dropLanding then endPkt s p else (endPkt s p).updCtx p.who f).Inv := by
  have hend : (if p.dropLanding then endPkt s p else (endPkt s p).updCtx p.who f).Inv := inv_ite (endPkt_inv h) (updCtx_inv (endPkt_inv h))
  exact inv_ite (pktFault_inv hend) hend
theorem execGlobalLoadLand_inv (h : s.Inv) : keepsInv (execGlobalLoadLand s) := by
  unfold execGlobalLoadLand
  dsimp only
  split
  · exact trivial
  · split
    · exact keepsInv_gate (landLoad_inv h)
    · exact keepsInv_gate (landLoad_inv h)
    · exact trivial
theorem landTile_inv {x : Xfer} (h : s.Inv) : (landTile s x).Inv :=
  inv_foldl (fun t _ h => by
    have hrow {c : Prop} [Decidable c] {k : Nat} {b : List Byte} {l : List Nat} {f : Nat → Nat} {g : Nat → List Byte} :
        (if c then t.poke k b else l.foldl (fun t i => t.poke (f i) (g i)) t).Inv := inv_ite (poke_inv h) (inv_foldl (fun _ _ h => poke_inv h) h)
    split
    · exact inv_ite hrow hrow
    · exact h) h
theorem tileByte_inv {x : Xfer} {i : Nat} (h : s.Inv) : keepsInv (tileByte s x i) := by
  unfold tileByte
  dsimp only
  split
  · exact trivial
  · split
    · exact h
    · split
      · exact inv_ite (poke_inv h) (poke_inv h)
      · exact trivial
theorem execTileRowsDone_inv (h : s.Inv) : keepsInv (execTileRowsDone s) := by
  unfold execTileRowsDone
  split
  · exact trivial
  · exact keepsInv_gate (keepsInv_ite (tileByte_inv h) (settle_inv (inv_ite h (landTile_inv h))))
theorem execPortLinkChange_inv (h : s.Inv) : keepsInv (execPortLinkChange s) := h
theorem execLinkStateNotice_inv (h : s.Inv) : keepsInv (execLinkStateNotice s) := h
theorem execFlowModeDrained_inv (h : s.Inv) : keepsInv (execFlowModeDrained s) := by
  unfold execFlowModeDrained
  dsimp only
  split
  · exact trivial
  · exact settle_inv h
theorem ovfMove_inv {w : Who} {slots : List Nat} {write : Bool} {f : Ctx → Ctx} (h : s.Inv) : keepsInv (ovfMove s w slots write f) := by
  unfold ovfMove
  dsimp only
  split
  · exact keepsInv_ite h trivial
  · exact keepsInv_gate (askDirty_inv h)
  · exact h
theorem execQueueSpill_inv (h : s.Inv) : keepsInv (execQueueSpill s) := by
  unfold execQueueSpill
  dsimp only
  split
  · exact keepsInv_ite (ovfMove_inv h) trivial
  · exact keepsInv_gate (ovfMove_inv h)
  · exact keepsInv_ite (ovfMove_inv h) trivial
  · exact trivial

/-! ### Messages, tasks and barriers -/

theorem answerReq_inv {q : UnitReq} {v : BitVec 64} (h : s.Inv) : (answerReq s q v).Inv := by
  unfold answerReq
  dsimp only
  split
  · exact bumpExpect_inv (replyCmd_inv h)
  · exact replyCmd_inv h
theorem takeByte_inv {w : Who} {id i : Nat} (h : s.Inv) : keepsInv (takeByte s w id i) := by
  unfold takeByte
  split
  · exact trivial
  · exact keepsInv_ite h trivial
theorem sendParts_inv {p : Pkt} {b : List (Byte × Bool)} {f : Nat → List Byte → Pkt → Pkt} (h : s.Inv) : (sendParts p b f s).Inv :=
  inv_foldl (fun _ _ h => inv_ite (sendCmd_inv h) (sendCmd_inv h)) h
theorem execAmsgSend_inv (h : s.Inv) : keepsInv (execAmsgSend s) := by
  unfold execAmsgSend
  dsimp only
  split
  · exact takeByte_inv h
  · split
    · exact trivial
    · split
      · exact keepsInv_gate (sendParts_inv h)
      · exact trivial
theorem arrivalQuota_inv {w : Who} (h : s.Inv) : keepsInv (arrivalQuota s w) := keepsInv_gate (takeTrap_inv h)
theorem execAmsgLand_inv (h : s.Inv) : keepsInv (execAmsgLand s) := by
  unfold execAmsgLand
  split
  · exact trivial
  · split
    · split
      · exact arrivalQuota_inv h
      · exact trivial
    · split
      · dsimp only
        split
        · exact trivial
        · split
          · exact putByte_inv h
          · split
            · exact trivial
            · exact arrivalQuota_inv h
            · exact answer_inv (inv_ite (putPayload_inv h) (putPayload_inv h))
      · exact trivial
theorem execHandlerStart_inv (h : s.Inv) : keepsInv (execHandlerStart s) := by
  unfold execHandlerStart
  dsimp only
  split
  · exact trivial
  · exact keepsInv_ite h trivial
theorem execTaskPostAccept_inv (h : s.Inv) : keepsInv (execTaskPostAccept s) := by
  unfold execTaskPostAccept
  split
  · exact trivial
  · split
    · exact keepsInv_gate (keepsInv_ite (answerReq_inv h) (answerReq_inv (inv_ite h h)))
    · exact trivial
theorem execTaskDecApply_inv (h : s.Inv) : keepsInv (execTaskDecApply s) := by
  unfold execTaskDecApply
  split
  · exact trivial
  · split
    · exact keepsInv_gate (answer_inv (inv_ite h h))
    · exact trivial
theorem execDispatchDecision_inv (h : s.Inv) : keepsInv (execDispatchDecision s) := by
  unfold execDispatchDecision
  dsimp only
  split
  · exact h
  · exact trivial
theorem execTaskStart_inv (h : s.Inv) : keepsInv (execTaskStart s) := by
  unfold execTaskStart
  dsimp only
  split
  · exact trivial
  · exact keepsInv_gate h
theorem startPicked_inv {n : Nat} (h : s.Inv) : (startPicked s n).Inv := inv_foldl (fun _ _ h => inv_ite h h) h
theorem execBarrierArrival_inv (h : s.Inv) : keepsInv (execBarrierArrival s) := by
  unfold execBarrierArrival
  dsimp only
  split
  · exact trivial
  · split
    · refine keepsInv_gate ?_
      split <;> exact inv_ite h h
    · refine keepsInv_gate ?_
      split <;> exact inv_ite h h
    · exact trivial
theorem execBarrierComplete_inv (h : s.Inv) : keepsInv (execBarrierComplete s) := by
  unfold execBarrierComplete
  dsimp only
  split
  · exact trivial
  · exact keepsInv_ite h trivial
theorem execGbarArrival_inv (h : s.Inv) : keepsInv (execGbarArrival s) := by
  unfold execGbarArrival
  split
  · exact trivial
  · split
    · exact keepsInv_gate (settle_inv (bumpExpect_inv h))
    · exact trivial
theorem execGbarComplete_inv (h : s.Inv) : keepsInv (execGbarComplete s) := by
  unfold execGbarComplete
  dsimp only
  split
  · exact trivial
  · exact keepsInv_ite h trivial

/-! ### Revisions -/

theorem execForkPerform_inv (h : s.Inv) : keepsInv (execForkPerform s) := by
  unfold execForkPerform
  split
  · exact trivial
  · dsimp only
    split
    · exact keepsInv_gate (keepsInv_ite (answerReq_inv (inv_ite h h)) (answerReq_inv (inv_ite h h)))
    · exact keepsInv_gate (keepsInv_ite (answerReq_inv (inv_ite h h)) (answerReq_inv (inv_ite h h)))
    · exact trivial
theorem putElems_inv {k e : Nat} {l : List (Nat × Nat × Bool)} (h : s.Inv) : (putElems s k e l).Inv :=
  inv_foldl (fun _ _ h => inv_ite h h) (inv_foldl (fun _ _ h => inv_ite (hbmWrite_inv h) (inv_foldl (fun _ _ h => poke_inv h) h)) h)
theorem joinEnd_inv {n id : Nat} (h : s.Inv) : (joinEnd s n id).Inv := by
  unfold joinEnd
  split
  · exact h
  · dsimp only
    split
    · exact h
    · exact replyCmd_inv h
theorem addImplicit_inv {n : Nat} {j : JoinRec} {l : List Rev} (h : s.Inv) : (addImplicit s n j l).Inv :=
  inv_foldl (fun _ _ h => h) h
/-- The state a granule's merge leaves, done or waiting. -/
def GranRes.keepsInv : GranRes → Prop
  | .done t => t.Inv
  | .wait t => t.Inv
theorem GranRes.keepsInv_ite {c : Prop} [Decidable c] {x y : GranRes} (hx : x.keepsInv) (hy : y.keepsInv) : (if c then x else y).keepsInv := by
  split
  · exact hx
  · exact hy
theorem joinGran_inv {n g gran hi : Nat} {j : JoinRec} {v : Rev} (h : s.Inv) : (joinGran s n g j v gran hi).keepsInv := by
  have hread {l : List Nat} : (l.foldl (fun s d => s.homeLines n g j.who false d 256) s).Inv := inv_foldl (fun _ _ h => homeLines_inv h) h
  unfold joinGran
  dsimp only
  refine GranRes.keepsInv_ite (inv_ite h (mergeLimit_inv h)) ?_
  split
  · exact inv_ite h h
  · exact inv_ite h h
  · exact askDirty_inv h
  · refine GranRes.keepsInv_ite hread ?_
    split
    · exact h
    next hw => exact putElems_inv (homeLines_inv (prepareWrite_inv hw hread))
theorem joinRun_inv {n : Nat} {j : JoinRec} {hi : Nat} (h : s.Inv) : keepsInv (joinRun s n j hi) := by
  unfold joinRun
  dsimp only
  split
  · exact trivial
  next v _ =>
    refine keepsInv_gate (keepsInv_ite (addImplicit_inv h) (keepsInv_gate ?_))
    split
    · exact joinEnd_inv h
    next x _ =>
      have hg : (joinGran s n (s.gctxOf n) j v x (if hi = 0 then 256 else hi)).keepsInv := joinGran_inv h
      refine keepsInv_gate (unitGate_inv h ?_)
      split
      next he => rw [he] at hg; exact hg
      next he => rw [he] at hg; exact keepsInv_gate hg
theorem joinArrive_inv {q : UnitReq} (h : s.Inv) : keepsInv (joinArrive s q) := by
  unfold joinArrive
  refine keepsInv_gate ?_
  dsimp only
  split
  · exact answerReq_inv h
  · refine keepsInv_ite (answerReq_inv h) (keepsInv_ite (answerReq_inv h) ?_)
    split <;> exact h
theorem execJoinPerform_inv (h : s.Inv) : keepsInv (execJoinPerform s) := by
  unfold execJoinPerform
  dsimp only
  split
  · split
    · exact joinArrive_inv h
    · exact trivial
  · split
    · exact joinRun_inv h
    · exact trivial
theorem execRevStPerform_inv (h : s.Inv) : keepsInv (execRevStPerform s) := by
  unfold execRevStPerform
  split
  · exact trivial
  · split
    · exact keepsInv_ite (answerReq_inv h) trivial
    · exact trivial

/-! ### Eager slots -/

theorem esendGo_inv {w : Who} {k : ECmd} {o : EOp} {r : Ring} (h : s.Inv) : keepsInv (esendGo s w k o r) :=
  keepsInv_ite h (keepsInv_gate (sendParts_inv h))
theorem execEsendSlot_inv (h : s.Inv) : keepsInv (execEsendSlot s) := by
  unfold execEsendSlot
  dsimp only
  split
  · exact takeByte_inv h
  · split
    · split
      · exact esendGo_inv h
      · exact trivial
    · exact trivial
theorem slotWrite_inv {p : Pkt} {b : List Byte} {l : List (Nat × Nat)} (h : s.Inv) : (slotWrite s p b l).Inv :=
  inv_foldl (fun _ _ h => writePieces_inv h) h
theorem slotCover_inv {p : Pkt} {n : Nat} (h : s.Inv) : (slotCover s p n).Inv :=
  inv_foldl (fun _ _ h => coverLines_inv h) h
theorem slotDone_inv {p : Pkt} {rx : Who} {ring hcc msg parts n : Nat} (h : s.Inv) : (slotDone s p rx ring hcc msg parts n).Inv :=
  answer_inv (inv_ite h h)
theorem execEsendSlotPerform_inv (h : s.Inv) : keepsInv (execEsendSlotPerform s) := by
  unfold execEsendSlotPerform
  split
  · exact trivial
  · split
    · split
      · exact trivial
      · split
        · exact trivial
        · dsimp only
          split
          · exact h
          · split
            · exact askDirty_inv h
            · refine keepsInv_gate (unitGate_inv h (keepsInv_ite ?_ (slotDone_inv (slotCover_inv ?_))))
              all_goals exact slotWrite_inv (inv_foldl (fun _ _ h => homeLine_inv h) h)
          · exact answer_inv h
          · exact answer_inv h
    · exact trivial
theorem execErelNotice_inv (h : s.Inv) : keepsInv (execErelNotice s) := by
  unfold execErelNotice
  dsimp only
  split
  · split
    · exact keepsInv_gate (sendCmd_inv h)
    · exact trivial
  · exact trivial
theorem execErelNoticeArrival_inv (h : s.Inv) : keepsInv (execErelNoticeArrival s) := by
  unfold execErelNoticeArrival
  split
  · exact trivial
  · split
    · split
      · exact trivial
      · split
        · exact trivial
        · exact answer_inv h
    · exact trivial
theorem execEprobeRead_inv (h : s.Inv) : keepsInv (execEprobeRead s) := by
  unfold execEprobeRead
  dsimp only
  split
  · split
    · exact h
    · exact trivial
  · exact trivial
theorem execSlkApply_inv (h : s.Inv) : keepsInv (execSlkApply s) := by
  unfold execSlkApply
  dsimp only
  split
  · exact trivial
  · split
    · exact h
    · exact trivial

/-! ### Collectives -/

theorem vaTouches_inv {n g : Nat} {w : Who} {wr : Bool} {a len : Nat} (h : s.Inv) : (State.vaTouches s n g w wr a len).Inv :=
  inv_foldl (fun _ _ h => homeLine_inv h) h
theorem vaWrite_inv {n g : Nat} {w : Who} {a : Nat} {b : List (Byte × Bool)} (h : s.Inv) : (vaWrite s n g w a b).Inv :=
  inv_foldl (fun _ _ h => by split; exacts [poisonAt_inv (hbmWrite_inv h), h]) (vaTouches_inv h)
theorem takePorts_inv {n : Nat} {k : Coll} {l : List (Option Nat)} (h : s.Inv) : (takePorts s n k l).Inv :=
  inv_foldl (fun _ _ h => by split <;> exact h) h
theorem execCollContextTake_inv (h : s.Inv) : keepsInv (execCollContextTake s) := by
  unfold execCollContextTake
  dsimp only
  split
  · exact trivial
  · exact keepsInv_ite h (keepsInv_gate (keepsInv_ite h (keepsInv_ite h (keepsInv_ite (takePorts_inv h) (keepsInv_gate h)))))
theorem collSend_inv {k : Coll} {m : Nat} {op : AccOp} {flow : Nat} {f : Pkt → Pkt} (h : s.Inv) : (collSend s k m op flow f).Inv :=
  sendCmd_inv h
theorem collDecide_inv {n g tag : Nat} (h : s.Inv) : (collDecide s n g tag).Inv := by
  unfold collDecide
  split
  · exact h
  · exact inv_ite h h
theorem execCollStartFlit_inv (h : s.Inv) : keepsInv (execCollStartFlit s) := by
  unfold execCollStartFlit
  dsimp only
  split
  · split
    · exact trivial
    · split
      · split
        · exact collSend_inv h
        · exact trivial
      · exact keepsInv_ite h (collSend_inv h)
  · exact collDecide_inv (answer_inv h)
  · exact trivial
theorem formLine_inv {k : Coll} {step : Nat} (h : s.Inv) : (formLine s k step).Inv := by
  unfold formLine
  split
  · exact h
  · exact inv_ite (inv_foldl (fun _ _ h => h) h) h
theorem readInput_inv {k : Coll} {step : Nat} {marks : List Bool} (h : s.Inv) : (readInput s k step marks).Inv :=
  formLine_inv (vaTouches_inv h)
theorem takeSrc_inv {k : Coll} {i : Nat} (h : s.Inv) : keepsInv (takeSrc s k i) :=
  keepsInv_gate (unitGate_inv h (vaTouches_inv h))
theorem collPages_inv {k : Coll} {a len : Nat} {wr : Bool} {go : Out} (h : s.Inv) (hgo : keepsInv go) : keepsInv (collPages s k a len wr go) := by
  unfold collPages
  dsimp only
  split
  · exact keepsInv_gate h
  · exact keepsInv_gate h
  · split
    · exact keepsInv_gate (askDirty_inv h)
    · exact unitGate_inv h hgo
theorem execCollGo_inv (h : s.Inv) : keepsInv (execCollGo s) := by
  unfold execCollGo
  split
  · exact keepsInv_ite (takeSrc_inv h) (keepsInv_ite (collPages_inv h (readInput_inv h)) trivial)
  · exact answer_inv (by split <;> exact h)
  · exact trivial
theorem execCollAbort_inv (h : s.Inv) : keepsInv (execCollAbort s) := by
  unfold execCollAbort
  split
  · split
    · exact keepsInv_ite h trivial
    · exact trivial
  · exact answer_inv (by split <;> exact h)
  · exact trivial
theorem sendChunk_inv {k : Coll} {st : PStep} {i : Nat} {c : Cut} (h : s.Inv) : (sendChunk s k st i c).Inv :=
  inv_foldl (fun _ _ h => collSend_inv h) h
theorem putDst_inv {k : Coll} {b : List (Byte × Bool)} {i : Nat} (h : s.Inv) : keepsInv (putDst s k b i) := by
  unfold putDst
  split
  · exact collPages_inv h (vaWrite_inv h)
  · exact trivial
theorem chunkComes_inv {p : Pkt} {tag step : Nat} (h : s.Inv) : (chunkComes s p tag step).Inv := by
  unfold chunkComes
  split <;> exact h
theorem execCollChunk_inv (h : s.Inv) : keepsInv (execCollChunk s) := by
  unfold execCollChunk
  split
  · dsimp only
    split
    · split
      · exact trivial
      · split
        · exact putDst_inv h
        · split
          · exact keepsInv_gate (sendChunk_inv h)
          · exact keepsInv_gate (collPages_inv h (readInput_inv (updCtx_inv (vaWrite_inv h))))
    · exact trivial
  · split
    · exact answer_inv (chunkComes_inv h)
    · exact trivial
  · exact trivial
theorem execCollComplete_inv (h : s.Inv) : keepsInv (execCollComplete s) := by
  unfold execCollComplete
  split
  · exact trivial
  · refine keepsInv_ite (inv_ite (vaWrite_inv h) h) (keepsInv_ite (keepsInv_ite ?_ (keepsInv_gate h)) trivial)
    exact keepsInv_ite (putDst_inv h) (collPages_inv h (vaWrite_inv h))

theorem csrLand_inv {w : Who} {n : BitVec 12} {v : BitVec 64} (h : s.Inv) : (csrLand s w n v).Inv :=
  inv_of_mem (csrLand_mem s w n v) h

/-! ### Kernels and rings -/

theorem setBarN_inv {n f off v : Nat} (h : s.Inv) : (s.setBarN n f off v).Inv := h
theorem signal_inv {n f v : Nat} (h : s.Inv) : (signal s n f v).Inv := h
theorem ringPut_inv {n f off : Nat} {b : List Byte} (h : s.Inv) : (ringPut s n f off b).Inv :=
  signal_inv (setBarN_inv (poke_inv h))
theorem walkApply_inv {n vf g ext : Nat} {l : List WalkRes} (h : s.Inv) : (walkApply s n vf g ext l).Inv :=
  inv_ite (inv_foldl (fun _ _ h => h) h) (inv_foldl (fun _ _ h => h) h)
theorem putCompletion_inv {n vf q crec : Nat} {irq : Bool} {b : List Byte} (h : s.Inv) : (putCompletion s n vf q crec irq b).Inv :=
  inv_ite (poke_inv h) (poke_inv h)
theorem dropColls_inv {n g : Nat} (h : s.Inv) : (dropColls s n g).Inv := inv_foldl (fun _ _ h => h) h
theorem clearGangWork_inv {n g : Nat} (h : s.Inv) : (clearGangWork s n g).Inv := dropColls_inv h
theorem startKernel_inv {n g : Nat} {k : Kernel} (h : s.Inv) : (startKernel s n g k).Inv :=
  inv_foldl (fun _ _ h => inv_foldl (fun _ _ h => h) (poisonAt_inv (hbmWrite_inv h))) (clearGangWork_inv h)
theorem endKernel_inv {n g status : Nat} (h : s.Inv) : (endKernel s n g status).Inv := by
  unfold endKernel
  dsimp only
  split
  · exact h
  · refine putCompletion_inv ?_
    exact inv_ite (inv_foldl (fun _ _ h => updCtx_inv h) (updGang_inv h)) (updGang_inv h)
theorem stopKernel_inv {n g status : Nat} (h : s.Inv) : (stopKernel s n g status).Inv := by
  unfold stopKernel
  split
  · exact h
  · exact inv_ite h (endKernel_inv (dropColls_inv (inv_ite (inv_foldl (fun _ _ h => h) h) h)))
theorem setAbsent_inv {n g ext page : Nat} {v : Bool} (h : s.Inv) : (setAbsent s n g ext page v).Inv := inv_ite h h

/-! ### Launch, translation and fault records -/

theorem acceptLaunch_inv {n vf q : Nat} {b : List Byte} (h : s.Inv) : (acceptLaunch s n vf q b).Inv :=
  inv_ite (startKernel_inv (inv_ite h h)) (inv_ite h h)
theorem execLaunchRecord_inv (h : s.Inv) : keepsInv (execLaunchRecord s) := by
  unfold execLaunchRecord
  dsimp only
  split
  · exact trivial
  · exact keepsInv_gate (keepsInv_ite (inv_ite (inv_foldl (fun _ _ h => h) h) h) (acceptLaunch_inv h))
theorem xtApply_inv {n vf mode eb ea imm : Nat} {val : Bool} (h : s.Inv) : (xtApply s n vf mode eb ea imm val).1.Inv := by
  unfold xtApply
  dsimp only
  split
  · exact h
  · split
    · exact h
    · split
      all_goals dsimp only
      · exact walkApply_inv h
      · exact walkApply_inv h
      · exact setAbsent_inv h
theorem execXtloadApply_inv (h : s.Inv) : keepsInv (execXtloadApply s) := by
  unfold execXtloadApply
  dsimp only
  split
  · exact trivial
  · split
    · exact trivial
    · exact keepsInv_ite (keepsInv_gate h) (keepsInv_ite (xtApply_inv h) (xtApply_inv h))
theorem xtComplete_inv {n vf q : Nat} {b : List Byte} {st : Nat} (h : s.Inv) : (xtComplete s n vf q b st).Inv :=
  putCompletion_inv h
theorem execTranslationRecord_inv (h : s.Inv) : keepsInv (execTranslationRecord s) := by
  unfold execTranslationRecord
  dsimp only
  split
  · split
    · exact trivial
    · exact keepsInv_gate (xtComplete_inv h)
  · split
    · exact trivial
    · exact keepsInv_gate (keepsInv_ite h (keepsInv_ite (xtApply_inv h) (xtComplete_inv (xtApply_inv h))))
theorem execMemberFinish_inv (h : s.Inv) : keepsInv (execMemberFinish s) := when_inv (endKernel_inv h)
theorem afterTerminal_inv {n vf : Nat} {r : FaultRec} (h : s.Inv) : (afterTerminal s n vf r).Inv := by
  unfold afterTerminal
  split
  · split
    · exact h
    · exact putCompletion_inv h
  · exact inv_ite h (stopKernel_inv h)
theorem execFaultReportWrite_inv (h : s.Inv) : keepsInv (execFaultReportWrite s) := by
  unfold execFaultReportWrite
  dsimp only
  split
  · exact updChip_inv (ringPut_inv h)
  · split
    · exact trivial
    · split
      · exact trivial
      · exact inv_ite (afterTerminal_inv (updChip_inv (ringPut_inv h))) (updChip_inv (ringPut_inv h))
theorem execFrResume_inv (h : s.Inv) : keepsInv (execFrResume s) := keepsInv_ite h (keepsInv_ite h h)
theorem execGangKill_inv (h : s.Inv) : keepsInv (execGangKill s) := inv_ite (stopKernel_inv h) h
theorem dirtyFull_inv {n : Nat} {r : DlogReq} (h : s.Inv) : (dirtyFull s n r).Inv := inv_ite (inv_ite h h) (inv_ite h h)
theorem execDirtyLogRecord_inv (h : s.Inv) : keepsInv (execDirtyLogRecord s) := by
  unfold execDirtyLogRecord
  dsimp only
  split
  · exact trivial
  · exact keepsInv_ite (keepsInv_ite (ringPut_inv h) trivial) (keepsInv_gate (dirtyFull_inv h))

/-! ### Registers, frames and scrubs -/

theorem pfWrite_inv {n off : Nat} {v : BitVec 64} (h : s.Inv) : (pfWrite s n off v).Inv := by
  unfold pfWrite
  dsimp only
  split
  · split <;> exact h
  · exact inv_ite (inv_ite h h) (inv_ite h (inv_ite h (inv_ite h (inv_ite h (inv_ite h (inv_ite (inv_ite h h) (inv_ite h h)))))))
theorem vfWrite_inv {n f off : Nat} {v : BitVec 64} (h : s.Inv) : (vfWrite s n f off v).Inv := inv_ite h h
theorem runtimeLoad_inv {w : Who} {k : Nat} {v : BitVec 64} (h : s.Inv) : (runtimeLoad s w k v).Inv :=
  inv_ite h (inv_ite h (inv_ite h (inv_ite h (csrLand_inv h))))
theorem execRegisterWrite_inv (h : s.Inv) : keepsInv (execRegisterWrite s) :=
  keepsInv_ite (runtimeLoad_inv h) (keepsInv_gate (keepsInv_ite (pfWrite_inv h) (keepsInv_ite (vfWrite_inv h) trivial)))
theorem execGcCtlWrite_inv (h : s.Inv) : keepsInv (execGcCtlWrite s) := keepsInv_gate (keepsInv_ite h h)
theorem execS2BaseWrite_inv (h : s.Inv) : keepsInv (execS2BaseWrite s) := keepsInv_gate (inv_ite h h)
theorem execDlClear_inv (h : s.Inv) : keepsInv (execDlClear s) := keepsInv_gate h
theorem execFrameAssign_inv (h : s.Inv) : keepsInv (execFrameAssign s) := keepsInv_gate h
theorem execFrameFree_inv (h : s.Inv) : keepsInv (execFrameFree s) := keepsInv_gate h
theorem execFrameQuery_inv (h : s.Inv) : keepsInv (execFrameQuery s) := keepsInv_gate h
theorem execScrubEnd_inv (h : s.Inv) : keepsInv (execScrubEnd s) := keepsInv_gate (unitGate_inv h (zeroRange_inv h))
theorem landOne_inv {w : Who} {p : Nat → Bool} (h : s.Inv) : keepsInv (landOne s w p) := by
  unfold landOne
  split
  · exact trivial
  · exact landStatus_inv h
theorem execWinAllowMaxWrite_inv (h : s.Inv) : keepsInv (execWinAllowMaxWrite s) := landOne_inv h
theorem execRetwWaysWrite_inv (h : s.Inv) : keepsInv (execRetwWaysWrite s) := landOne_inv h
theorem execAncPoolWrite_inv (h : s.Inv) : keepsInv (execAncPoolWrite s) := landOne_inv h
theorem execAncBaseWrite_inv (h : s.Inv) : keepsInv (execAncBaseWrite s) := landOne_inv h

/-! ### Saved contexts -/

theorem landUnsnapped_inv {w : Who} (h : s.Inv) : (landUnsnapped s w).Inv :=
  updCtx_inv (inv_foldl (fun _ _ h => landStatus_inv h) (updCtx_inv h))
theorem saveCtx_inv {n g : Nat} {w : Who} (h : s.Inv) : (saveCtx s n g w).Inv := by
  unfold saveCtx
  dsimp only
  exact updGang_inv (inv_foldl (fun _ _ h => poke_inv h) (zeroRange_inv (updCtx_inv (landUnsnapped_inv h))))
theorem restoreCtx_inv {n g : Nat} {q : Who × Ctx} (h : s.Inv) : (restoreCtx s n g q).Inv := by
  have hput {l : List Nat} {w : Who} {v : Ctx} {b : List Byte} {k : Nat} {f : Nat → Nat} :
      (l.foldl (fun t off => t.setPoison (f off) 1) ((s.setCtx w v).poke k b)).Inv :=
    inv_foldl (fun _ _ h => setPoison_inv h) (poke_inv (setCtx_inv h))
  unfold restoreCtx
  dsimp only
  exact inv_ite hput (updCore_inv (updCtx_inv hput))
theorem restoreShared_inv {n g : Nat} {w : Who} (h : s.Inv) : (restoreShared n g s w).Inv :=
  inv_foldl (fun _ _ h => inv_ite h h) (inv_ite h h)

/-! ### The almanac -/

theorem post_inv {n dst : Nat} {m : VoteMsg} (h : s.Inv) : (post s n dst m).Inv := inv_ite h h
theorem postAll_inv {n : Nat} {l : List Nat} {m : VoteMsg} (h : s.Inv) : (postAll s n l m).Inv :=
  inv_foldl (fun _ _ h => post_inv h) h
theorem accrue_inv {n : Nat} (h : s.Inv) : (accrue s n).Inv := by
  unfold accrue
  split <;> exact h
theorem writeSign_inv {n : Nat} (h : s.Inv) : (writeSign s n).Inv := inv_ite (updChip_inv (ringPut_inv h)) h
theorem writeUsage_inv {n : Nat} (h : s.Inv) : (writeUsage s n).Inv := by
  unfold writeUsage
  dsimp only
  split
  · exact h
  · exact inv_ite h (writeSign_inv (updChip_inv (ringPut_inv h)))
theorem recordUsage_inv {n : Nat} (h : s.Inv) : (recordUsage s n).Inv := by
  unfold recordUsage
  dsimp only
  refine writeUsage_inv ?_
  split
  · exact updGang_inv (updChip_inv (writeSign_inv h))
  · exact updChip_inv (writeSign_inv h)
theorem startIncoming_inv {n : Nat} {aborted : Bool} (h : s.Inv) : (startIncoming s n aborted).Inv := by
  unfold startIncoming
  split
  · exact h
  · exact inv_ite h (inv_ite (post_inv h) (post_inv h))
theorem openStart_inv {n : Nat} (h : s.Inv) : (openStart s n).Inv := by
  unfold openStart
  split
  · exact h
  · exact inv_ite h h
theorem refuseOthers_inv {n : Nat} (h : s.Inv) : (refuseOthers s n).Inv :=
  inv_foldl (fun _ _ h => inv_ite (post_inv h) h) h
theorem openVote_inv {n g : Nat} (h : s.Inv) : (openVote s n g).Inv := postAll_inv h
theorem execSlotBoundary_inv (h : s.Inv) : keepsInv (execSlotBoundary s) := by
  unfold execSlotBoundary
  refine keepsInv_gate ?_
  dsimp only
  have hopen {m k : Nat} {f : Chip → Chip} : (refuseOthers (openStart ((if (s.chip s.sel.who.chip).alm.begun
      then recordUsage (accrue s s.sel.who.chip) s.sel.who.chip else s).updChip s.sel.who.chip f) m) k).Inv :=
    refuseOthers_inv (openStart_inv (updChip_inv (inv_ite (recordUsage_inv (accrue_inv h)) h)))
  split
  · exact inv_ite (openVote_inv hopen) hopen
  · exact startIncoming_inv hopen
theorem execFrameEndReport_inv (h : s.Inv) : keepsInv (execFrameEndReport s) := by
  unfold execFrameEndReport
  refine keepsInv_gate ?_
  dsimp only
  split
  · exact post_inv h
  · exact h
theorem execAlmanacDeltas_inv (h : s.Inv) : keepsInv (execAlmanacDeltas s) := by
  unfold execAlmanacDeltas
  dsimp only
  split
  next hm => exact updChip_inv (takeMsg_inv hm h)
  next hm _ => exact updChip_inv (takeMsg_inv hm h)
  · exact keepsInv_ite (postAll_inv h) trivial
theorem execAlmwApply_inv (h : s.Inv) : keepsInv (execAlmwApply s) := by
  unfold execAlmwApply
  dsimp only
  split
  · exact trivial
  · split
    · exact keepsInv_ite h (keepsInv_ite h h)
    · exact keepsInv_ite h (keepsInv_ite h h)
    · exact trivial

/-! ### Votes, switches and resets of a function -/

theorem maybeAck_inv {n g : Nat} (h : s.Inv) : (maybeAck s n g).Inv := inv_ite (post_inv h) h
theorem refuse_inv {n g epoch slot r : Nat} (h : s.Inv) : (refuse s n g epoch slot r).Inv := post_inv h
theorem prepare_inv {n g epoch slot : Nat} (h : s.Inv) : (prepare s n g epoch slot).Inv :=
  inv_ite (refuse_inv h) (inv_ite (post_inv h) (maybeAck_inv h))
theorem execPrepare_inv (h : s.Inv) : keepsInv (execPrepare s) := by
  unfold execPrepare
  split
  next hm =>
    have hs := takeMsg_inv hm h
    exact prepare_inv hs
  · exact trivial
theorem stopFor_inv {w : Who} {g : Nat} (h : s.Inv) : (stopFor s w g).Inv := maybeAck_inv h
theorem execPreemptionRequest_inv (h : s.Inv) : keepsInv (execPreemptionRequest s) := by
  unfold execPreemptionRequest
  dsimp only
  split
  · exact trivial
  · refine keepsInv_gate (keepsInv_ite (stopFor_inv h) (keepsInv_ite (stopFor_inv (rewind_inv h)) ?_))
    exact keepsInv_ite (stopFor_inv h) (keepsInv_ite (stopFor_inv (commitNow_inv h)) trivial)
theorem closeVote_inv {n g : Nat} {m : VoteMsg} (h : s.Inv) : (closeVote s n g m).Inv := postAll_inv h
theorem execAck_inv (h : s.Inv) : keepsInv (execAck s) := by
  unfold execAck
  dsimp only
  split
  next hm =>
    have hs := takeMsg_inv hm h
    exact keepsInv_ite (inv_ite (closeVote_inv hs) hs) hs
  · exact trivial
theorem execAckResend_inv (h : s.Inv) : keepsInv (execAckResend s) := by
  unfold execAckResend
  dsimp only
  split
  · exact trivial
  · exact keepsInv_ite (post_inv h) trivial
theorem execRefuse_inv (h : s.Inv) : keepsInv (execRefuse s) := by
  unfold execRefuse
  dsimp only
  split
  next hm =>
    have hs := takeMsg_inv hm h
    exact inv_ite (closeVote_inv hs) hs
  · exact trivial
theorem execVoteTimeout_inv (h : s.Inv) : keepsInv (execVoteTimeout s) := by
  unfold execVoteTimeout
  dsimp only
  split
  · exact trivial
  · exact keepsInv_gate (keepsInv_ite (closeVote_inv h) (closeVote_inv h))
theorem captureOut_inv {n g : Nat} {p : Pkt} (h : s.Inv) : (captureOut s n g p).Inv := capture_inv (inv_ite h h)
theorem capturePkts_inv {n g : Nat} (h : s.Inv) : (capturePkts s n g).Inv :=
  inv_foldl (fun _ _ h => by split; exacts [captureOut_inv h, capture_inv h, h]) h
theorem switchOut_inv {n g : Nat} (h : s.Inv) : (switchOut s n g).Inv :=
  inv_foldl (fun _ _ h => h) (inv_foldl (fun _ _ h => saveCtx_inv h) (capturePkts_inv (accrue_inv (startPicked_inv h))))
theorem execCommit_inv (h : s.Inv) : keepsInv (execCommit s) := by
  unfold execCommit
  dsimp only
  split
  next hm =>
    have hs := takeMsg_inv hm h
    refine keepsInv_ite (inv_ite hs hs) (keepsInv_gate ?_)
    split
    · exact keepsInv_gate (askDirty_inv h)
    · exact unitGate_inv h (startIncoming_inv (switchOut_inv hs))
  · exact trivial
theorem execAbort_inv (h : s.Inv) : keepsInv (execAbort s) := by
  unfold execAbort
  dsimp only
  split
  next hm =>
    have hs := takeMsg_inv hm h
    have hopen {c : Prop} [Decidable c] {n g k : Nat} {f : Gang → Gang} {t : State} (ht : t.Inv) :
        ((if c then reopen t n g else t).updGang n k f).Inv :=
      updGang_inv (inv_ite ht ht)
    exact inv_ite (startIncoming_inv (hopen hs)) (hopen hs)
  · exact trivial
theorem decideStart_inv {n g : Nat} {m : VoteMsg} (h : s.Inv) : (decideStart s n g m).Inv := postAll_inv h
theorem haltStart_inv {n g epoch slot : Nat} (h : s.Inv) : (haltStart s n g epoch slot).Inv := decideStart_inv h
theorem execReady_inv (h : s.Inv) : keepsInv (execReady s) := by
  unfold execReady
  dsimp only
  split
  next hm =>
    have hs := takeMsg_inv hm h
    exact keepsInv_ite hs (keepsInv_ite (post_inv hs) (keepsInv_ite hs (keepsInv_ite (decideStart_inv hs) hs)))
  · exact trivial
theorem execNotready_inv (h : s.Inv) : keepsInv (execNotready s) := by
  unfold execNotready
  dsimp only
  split
  next hm =>
    have hs := takeMsg_inv hm h
    exact inv_ite (haltStart_inv hs) hs
  · exact trivial
theorem execStartTimeout_inv (h : s.Inv) : keepsInv (execStartTimeout s) := by
  unfold execStartTimeout
  dsimp only
  split
  · exact trivial
  · exact when_inv (haltStart_inv h)
theorem restoreSpill_inv {n g : Nat} {c : CoreId} (h : s.Inv) : (restoreSpill n g s c).Inv :=
  inv_ite h (inv_foldl (fun _ _ h => h) h)
theorem resumeGang_inv {n g : Nat} (h : s.Inv) : (resumeGang s n g).Inv := by
  refine settle_inv (inv_foldl (fun _ _ h => restoreShared_inv h) (inv_foldl (fun _ _ h => restoreSpill_inv h) ?_))
  exact inv_foldl (fun _ _ h => restoreCtx_inv h) (inv_foldl (fun _ _ h => h) h)
theorem goNow_inv {n g : Nat} {stop : Bool} (h : s.Inv) : (goNow s n g stop).Inv := by
  unfold goNow
  dsimp only
  split
  · exact stopKernel_inv h
  · split
    · exact inv_ite (startKernel_inv h) (resumeGang_inv h)
    · exact h
theorem execGo_inv (h : s.Inv) : keepsInv (execGo s) := by
  unfold execGo
  dsimp only
  split
  next hm =>
    have hs := takeMsg_inv hm h
    exact keepsInv_ite (keepsInv_gate (goNow_inv hs)) hs
  · exact trivial
theorem execVoteHalt_inv (h : s.Inv) : keepsInv (execVoteHalt s) := by
  unfold execVoteHalt
  dsimp only
  split
  next hm =>
    have hs := takeMsg_inv hm h
    exact hs
  · exact trivial
theorem copyBytes_inv {src dst len : Nat} (h : s.Inv) : (copyBytes s src dst len).Inv :=
  inv_foldl (fun _ _ h => h) (hbmWrite_inv h)
theorem spillUnit_inv {n : Nat} {c : CoreId} {u owner : Nat} (h : s.Inv) : (spillUnit s n c u owner).Inv :=
  inv_foldl (fun _ _ h => poke_inv h) (copyBytes_inv h)
theorem fillUnit_inv {n g : Nat} {c : CoreId} {u : Nat} (h : s.Inv) : (fillUnit s n g c u).Inv :=
  inv_ite (inv_foldl (fun _ _ h => h) (copyBytes_inv (zeroRange_inv h))) (zeroRange_inv h)
theorem execUnitFillDone_inv (h : s.Inv) : keepsInv (execUnitFillDone s) := by
  unfold execUnitFillDone
  dsimp only
  split
  · exact trivial
  · exact keepsInv_gate (unitGate_inv h (inv_foldl (fun _ _ h => inv_ite h h) (fillUnit_inv (by split; exacts [spillUnit_inv h, h]))))
theorem resetVotes_inv {n g : Nat} (h : s.Inv) : (resetVotes s n g).Inv := by
  unfold resetVotes
  dsimp only
  split
  · exact inv_ite (post_inv (inv_ite (refuse_inv h) h)) (inv_ite (refuse_inv h) h)
  · exact inv_ite (refuse_inv h) h
theorem resetGang_inv {n g : Nat} (h : s.Inv) : (resetGang s n g).Inv := by
  refine postAll_inv (inv_ite (inv_ite (inv_foldl (fun _ _ h => h) ?_) ?_) (inv_ite (inv_foldl (fun _ _ h => h) ?_) ?_))
  all_goals exact stopKernel_inv (dropColls_inv (resetVotes_inv h))
theorem emptyQueues_inv {n vf : Nat} (h : s.Inv) : (emptyQueues s n vf).Inv :=
  updChip_inv (inv_foldl (fun _ _ h => h) h)
theorem execVfReset_inv (h : s.Inv) : keepsInv (execVfReset s) :=
  keepsInv_gate (inv_foldl (fun _ _ h => resetGang_inv h) (emptyQueues_inv h))
theorem execVfResetEnd_inv (h : s.Inv) : keepsInv (execVfResetEnd s) := when_inv h
theorem execPeerReset_inv (h : s.Inv) : keepsInv (execPeerReset s) := by
  unfold execPeerReset
  dsimp only
  split
  next hm =>
    have hs := takeMsg_inv hm h
    exact inv_foldl (fun _ _ h => h) hs
  · exact trivial

/-! ### Migration -/

theorem startMig_inv {n stack : Nat} {fw : Bool} (h : s.Inv) : (startMig s n stack fw).Inv :=
  inv_foldl (fun _ _ h => writeBack_inv h) h
theorem execMigStartApply_inv (h : s.Inv) : keepsInv (execMigStartApply s) := by
  unfold execMigStartApply
  dsimp only
  split
  · exact trivial
  · split
    · exact inv_ite (startMig_inv h) h
    · exact trivial
theorem execMigDoneApply_inv (h : s.Inv) : keepsInv (execMigDoneApply s) := by
  unfold execMigDoneApply
  dsimp only
  split
  · exact trivial
  · split
    · exact keepsInv_gate h
    · exact trivial
theorem execPeriodMark_inv (h : s.Inv) : keepsInv (execPeriodMark s) := when_inv h
theorem loseLine_inv {n k : Nat} (h : s.Inv) : (loseLine n s k).Inv := inv_ite h h
theorem stageShows_inv {n i : Nat} {lost : Bool} (h : s.Inv) : (stageShows s n i lost).Inv :=
  inv_ite (lineFails_inv h) h
theorem execPeriodDrained_inv (h : s.Inv) : keepsInv (execPeriodDrained s) := by
  refine keepsInv_gate (keepsInv_ite (stageShows_inv h) (inv_ite ?_ ?_))
  all_goals exact inv_foldl (fun _ _ h => loseLine_inv h) h
theorem askRetire_inv {n i : Nat} (h : s.Inv) : (askRetire s n i).Inv := by
  unfold askRetire
  split
  · exact startMig_inv h
  · exact h
  · exact h
theorem execPolicyEvaluation_inv (h : s.Inv) : keepsInv (execPolicyEvaluation s) := by
  unfold execPolicyEvaluation
  refine keepsInv_gate ?_
  dsimp only
  refine updChip_inv ?_
  split
  · exact inv_ite h (inv_ite h (askRetire_inv h))
  · exact h
theorem execFirmwareRetireRetry_inv (h : s.Inv) : keepsInv (execFirmwareRetireRetry s) := by
  unfold execFirmwareRetireRetry
  dsimp only
  split
  · exact trivial
  · exact when_inv (askRetire_inv h)

/-! ### Checkpoints -/

theorem execCkTake_inv (h : s.Inv) : keepsInv (execCkTake s) := keepsInv_gate h
theorem partPut_inv {k : Nat} {p : Part} (h : s.Inv) : (Part.put s k p).Inv :=
  inv_foldl (fun _ _ h => setPoison_inv h) (hbmWrite_inv h)
theorem spillOwned_inv {n g : Nat} (h : s.Inv) : (spillOwned s n g).Inv :=
  inv_foldl (fun _ _ h => inv_foldl (fun _ _ h => spillUnit_inv h) h) h
theorem ckFail_inv {n g err : Nat} (h : s.Inv) : (ckFail s n g err).Inv := h
theorem execCheckpointWrite_inv (h : s.Inv) : keepsInv (execCheckpointWrite s) := by
  unfold execCheckpointWrite
  extract_lets n g k b seq id s1 l at_ s2 members snap s3
  have hs1 : s1.Inv := spillOwned_inv h
  have hs2 : s2.Inv := inv_foldl (fun _ _ h => partPut_inv h) (poke_inv hs1)
  refine keepsInv_gate (unitGate_inv h ?_)
  clear_value l s2 s1
  exact keepsInv_ite (ckFail_inv hs1) (keepsInv_ite (ckFail_inv hs1) hs2)
theorem finishWrite_inv {n g : Nat} {j : CkJob} (h : s.Inv) : (finishWrite s n g j).Inv := by
  unfold finishWrite
  dsimp only
  split
  · exact ckFail_inv h
  · exact updGang_inv (ckFail_inv (poke_inv (inv_foldl (fun _ _ h => partPut_inv h) h)))
theorem putExtent_inv {n : Nat} {e : XEntry} {p : Part} (h : s.Inv) : (putExtent s n e p).Inv :=
  inv_foldl (fun _ _ h => inv_ite h (partPut_inv h)) h
theorem putExtents_inv {n g : Nat} {l : List Part} (h : s.Inv) : (putExtents s n g l).Inv :=
  inv_foldl (fun _ _ h => putExtent_inv h) h
theorem putGang_inv {n g : Nat} {l : List Part} (h : s.Inv) : (putGang s n g l).Inv :=
  inv_foldl (fun _ _ h => by split; exacts [partPut_inv h, partPut_inv h, partPut_inv h, h]) h
theorem spoilExtents_inv {n g : Nat} {l : List Part} (h : s.Inv) : (spoilExtents s n g l).Inv := putExtents_inv h
theorem restoreSlot_inv {n g : Nat} {b : Bool} (h : s.Inv) : (restoreSlot s n g b).Inv := by
  unfold restoreSlot
  dsimp only
  split
  · exact ckFail_inv h
  · split
    · exact ckFail_inv h
    · split
      · exact ckFail_inv h
      · split
        · exact ckFail_inv (spoilExtents_inv h)
        · exact updGang_inv (ckFail_inv (inv_ite (putExtents_inv h) (putGang_inv (putExtents_inv h))))
theorem execCheckpointComplete_inv (h : s.Inv) : keepsInv (execCheckpointComplete s) := by
  unfold execCheckpointComplete
  dsimp only
  split
  · exact trivial
  · exact keepsInv_ite h (keepsInv_ite (unitGate_inv h (finishWrite_inv h)) (keepsInv_ite h (unitGate_inv h (restoreSlot_inv h))))
theorem execCkRestore_inv (h : s.Inv) : keepsInv (execCkRestore s) := keepsInv_gate (keepsInv_ite h (keepsInv_ite h h))

/-! ### Attestation, scans and power -/

theorem execAttestationRequest_inv (h : s.Inv) : keepsInv (execAttestationRequest s) := h
theorem execAttestationReportWrite_inv (h : s.Inv) : keepsInv (execAttestationReportWrite s) := by
  unfold execAttestationReportWrite
  dsimp only
  split
  · exact trivial
  · exact keepsInv_gate (updChip_inv (poke_inv h))
theorem spillCore_inv {n : Nat} {c : CoreId} (h : s.Inv) : (spillCore s n c).Inv :=
  inv_foldl (fun _ _ h => by split; exacts [spillUnit_inv h, h]) h
theorem execIfsScan_inv (h : s.Inv) : keepsInv (execIfsScan s) := keepsInv_ite h (keepsInv_ite h (spillCore_inv h))
theorem remap_inv {n v : Nat} (h : s.Inv) : (remap s n v).Inv := inv_foldl (fun _ _ h => h) h
theorem execIfsComplete_inv (h : s.Inv) : keepsInv (execIfsComplete s) := keepsInv_gate (keepsInv_ite h (remap_inv h))
theorem execSupplySag_inv (h : s.Inv) : keepsInv (execSupplySag s) := h
theorem execSagRecover_inv (h : s.Inv) : keepsInv (execSagRecover s) := when_inv h
theorem setHost_inv {n port : Nat} {up : Bool} (h : s.Inv) : (setHost s n port up).Inv :=
  inv_ite h (inv_foldl (fun _ _ h => h) h)
theorem execHostLinkChange_inv (h : s.Inv) : keepsInv (execHostLinkChange s) := setHost_inv h
theorem execFreeze_inv (h : s.Inv) : keepsInv (execFreeze s) := setHost_inv (setHost_inv h)
theorem execPowerOn_inv (h : s.Inv) : keepsInv (execPowerOn s) := h
theorem execDeviceReset_inv (h : s.Inv) : keepsInv (execDeviceReset s) := h

/-! ### Every step -/

/-- What stands in no slot: each event by its own lemma. -/
theorem event_inv {i : Instr} (hi : slotOf i = none) (h : s.Inv) : keepsInv (exec i s) := by
  cases i with
  | bundleIssue => exact execBundleIssue_inv h
  | blockRelease => exact execBlockRelease_inv h
  | resultLand => exact execResultLand_inv h
  | lateFault => exact execLateFault_inv h
  | queueSpill => exact execQueueSpill_inv h
  | eQueueHead => exact execEQueueHead_inv h
  | globalLoadLand => exact execGlobalLoadLand_inv h
  | tileRowsDone => exact execTileRowsDone_inv h
  | accessPerformed => exact execAccessPerformed_inv h
  | homeSliceAccess => exact execHomeSliceAccess_inv h
  | mcRequestAccept => exact execMcRequestAccept_inv h
  | sorrelSlotGrant => exact execSorrelSlotGrant_inv h
  | arbiterGrant => exact execArbiterGrant_inv h
  | packetArrival => exact execPacketArrival_inv h
  | requestPerform => exact execRequestPerform_inv h
  | replyLand => exact execReplyLand_inv h
  | windowAck => exact execWindowAck_inv h
  | portLinkChange => exact execPortLinkChange_inv h
  | linkStateNotice => exact execLinkStateNotice_inv h
  | flowModeDrained => exact execFlowModeDrained_inv h
  | matrixOpStart => exact execMatrixOpStart_inv h
  | matrixOpComplete => exact execMatrixOpComplete_inv h
  | copyStart => exact execCopyStart_inv h
  | copyComplete => exact execCopyComplete_inv h
  | fifoEntryPush => exact execFifoEntryPush_inv h
  | amsgSend => exact execAmsgSend_inv h
  | amsgLand => exact execAmsgLand_inv h
  | handlerStart => exact execHandlerStart_inv h
  | taskPostAccept => exact execTaskPostAccept_inv h
  | taskDecApply => exact execTaskDecApply_inv h
  | dispatchDecision => exact execDispatchDecision_inv h
  | taskStart => exact execTaskStart_inv h
  | barrierArrival => exact execBarrierArrival_inv h
  | barrierComplete => exact execBarrierComplete_inv h
  | gbarArrival => exact execGbarArrival_inv h
  | gbarComplete => exact execGbarComplete_inv h
  | memberFinish => exact execMemberFinish_inv h
  | forkPerform => exact execForkPerform_inv h
  | joinPerform => exact execJoinPerform_inv h
  | revStPerform => exact execRevStPerform_inv h
  | segmentCommit => exact execSegmentCommit_inv h
  | segmentIssueLimit => exact execSegmentIssueLimit_inv h
  | holdRelease => exact execHoldRelease_inv h
  | preemptionRequest => exact execPreemptionRequest_inv h
  | esendSlot => exact execEsendSlot_inv h
  | esendSlotPerform => exact execEsendSlotPerform_inv h
  | erelNotice => exact execErelNotice_inv h
  | erelNoticeArrival => exact execErelNoticeArrival_inv h
  | eprobeRead => exact execEprobeRead_inv h
  | slkApply => exact execSlkApply_inv h
  | collContextTake => exact execCollContextTake_inv h
  | collStartFlit => exact execCollStartFlit_inv h
  | collGo => exact execCollGo_inv h
  | collAbort => exact execCollAbort_inv h
  | collChunk => exact execCollChunk_inv h
  | collComplete => exact execCollComplete_inv h
  | almwApply => exact execAlmwApply_inv h
  | xtloadApply => exact execXtloadApply_inv h
  | migStartApply => exact execMigStartApply_inv h
  | migDoneApply => exact execMigDoneApply_inv h
  | periodMark => exact execPeriodMark_inv h
  | periodDrained => exact execPeriodDrained_inv h
  | policyEvaluation => exact execPolicyEvaluation_inv h
  | firmwareRetireRetry => exact execFirmwareRetireRetry_inv h
  | slotBoundary => exact execSlotBoundary_inv h
  | frameEndReport => exact execFrameEndReport_inv h
  | almanacDeltas => exact execAlmanacDeltas_inv h
  | prepare => exact execPrepare_inv h
  | ack => exact execAck_inv h
  | ackResend => exact execAckResend_inv h
  | refuse => exact execRefuse_inv h
  | voteTimeout => exact execVoteTimeout_inv h
  | commit => exact execCommit_inv h
  | abort => exact execAbort_inv h
  | ready => exact execReady_inv h
  | notready => exact execNotready_inv h
  | startTimeout => exact execStartTimeout_inv h
  | go => exact execGo_inv h
  | voteHalt => exact execVoteHalt_inv h
  | unitFillDone => exact execUnitFillDone_inv h
  | peerReset => exact execPeerReset_inv h
  | vfReset => exact execVfReset_inv h
  | deviceReset => exact execDeviceReset_inv h
  | launchRecord => exact execLaunchRecord_inv h
  | translationRecord => exact execTranslationRecord_inv h
  | faultReportWrite => exact execFaultReportWrite_inv h
  | frResume => exact execFrResume_inv h
  | gangKill => exact execGangKill_inv h
  | dirtyLogRecord => exact execDirtyLogRecord_inv h
  | dlClear => exact execDlClear_inv h
  | frameAssign => exact execFrameAssign_inv h
  | frameFree => exact execFrameFree_inv h
  | frameQuery => exact execFrameQuery_inv h
  | scrubEnd => exact execScrubEnd_inv h
  | gcCtlWrite => exact execGcCtlWrite_inv h
  | s2BaseWrite => exact execS2BaseWrite_inv h
  | winAllowMaxWrite => exact execWinAllowMaxWrite_inv h
  | retwWaysWrite => exact execRetwWaysWrite_inv h
  | ancPoolWrite => exact execAncPoolWrite_inv h
  | ancBaseWrite => exact execAncBaseWrite_inv h
  | registerWrite => exact execRegisterWrite_inv h
  | ckTake => exact execCkTake_inv h
  | checkpointWrite => exact execCheckpointWrite_inv h
  | checkpointComplete => exact execCheckpointComplete_inv h
  | ckRestore => exact execCkRestore_inv h
  | attestationRequest => exact execAttestationRequest_inv h
  | ifsScan => exact execIfsScan_inv h
  | ifsComplete => exact execIfsComplete_inv h
  | supplySag => exact execSupplySag_inv h
  | sagRecover => exact execSagRecover_inv h
  | freeze => exact execFreeze_inv h
  | powerOn => exact execPowerOn_inv h
  | hostLinkChange => exact execHostLinkChange_inv h
  | vfResetEnd => exact execVfResetEnd_inv h
  | attestationReportWrite => exact execAttestationReportWrite_inv h
  | _ => cases hi
theorem exec_inv {i : Instr} (h : s.Inv) : keepsInv (exec i s) := by
  cases hi : slotOf i with
  | none => exact event_inv hi h
  | some x => exact slotOp_inv (by rw [hi]; rfl) h
theorem pickEnabled_inv {l : List Cand} {k : Nat} {last : Option Out} {x : Out} (h : s.Inv) (hlast : ∀ y, last = some y → keepsInv y)
    (hx : pickEnabled s l k last = some x) : keepsInv x := by
  induction l generalizing k last with
  | nil => exact hlast x hx
  | cons q r ih =>
    have hq : keepsInv (exec q.op (q.at s)) := exec_inv h
    rw [pickEnabled] at hx
    split at hx
    next t ht =>
      rw [ht] at hq
      split at hx
      · exact Option.some.inj hx ▸ hq
      · exact ih (fun _ hy => Option.some.inj hy ▸ hq) hx
    · exact ih hlast hx
    · exact Option.some.inj hx ▸ trivial
end

/-- Settles O58: what a candidate's operation leaves is canonical, and neither the clock nor an idle cycle writes memory. -/
theorem stepKeepsInv : Obligations.StepKeepsInv := by
  unfold Obligations.StepKeepsInv
  intro s t h ht
  unfold step at ht
  dsimp only at ht
  split at ht
  next u hu =>
    have hkept : keepsInv (.next u) := pickEnabled_inv (s := s.ready) (last := none) h (fun _ hy => nomatch hy) hu
    exact Host.Outcome.next.inj ht ▸ hkept
  next o hnext ho => exact absurd ht (hnext t)
  next => exact Host.Outcome.next.inj ht ▸ h

end Sys2Proof.Machine

namespace Sys2Proof.Machine

/-! ## BAR registers, frames and registers of a context that land (R245, R264, R297, R365, R369 to R374, R378, R425) -/

/-! ### A range that reads zero (R370) -/

/-- What stands above its first key is canonical above that key. -/
theorem memOk_tail {o : Option Nat} {k : Nat} {b : Byte} {r : List Host.Cell} (h : memOk o ((k, b) :: r) = true) : memOk (some k) r = true := by
  cases o with
  | none => exact ((Bool.and_eq_true ..).mp h).2
  | some p => exact ((Bool.and_eq_true ..).mp h).2
theorem memGet_filter_of_memOk (keep : Nat → Bool) {a : Nat} : ∀ {m : List Host.Cell} {o : Option Nat}, memOk o m = true →
    memGet (m.filter (fun c => keep c.1)) a = if keep a then memGet m a else 0
  | [], _, _ => by simp [memGet]
  | (k, b) :: r, _, hm => by
    have hr := memOk_tail hm
    have ih := memGet_filter_of_memOk keep (a := a) hr
    rcases lt_trichotomy a k with hlt | rfl | hgt
    · have hbelow : memGet r a = 0 := memGet_below r k a hr hlt.le
      by_cases hk : keep k = true
      · simp [hk, memGet, hlt, hlt.ne']
      · simp [hk, memGet, hlt, hlt.ne', ih, hbelow]
    · by_cases hk : keep a = true
      · simp [hk, memGet]
      · simp [hk, ih]
    · by_cases hk : keep k = true
      · simp [hk, memGet, hgt.ne, hgt.not_gt, ih]
      · simp [hk, memGet, hgt.ne, hgt.not_gt, ih]

section
variable {s : State}

/-- A byte of memory after a range of it has been cleared. -/
theorem memGet_zeroRange (hwf : Memory.wf s.mem = true) (k len a : Nat) :
    memGet (zeroRange s k len).mem a = if k ≤ a ∧ a < k + len then 0 else memGet s.mem a := by
  have h := memGet_filter_of_memOk (fun a => decide (a < k) || decide (k + len ≤ a)) (a := a) hwf
  simp only [Bool.or_eq_true, decide_eq_true_eq] at h
  refine h.trans ?_
  by_cases hin : k ≤ a ∧ a < k + len
  · rw [if_neg (by omega), if_pos hin]
  · rw [if_pos (by omega), if_neg hin]
theorem scrubEnd_effect {n f : Nat} (hn : s.sel.who.chip = n) (hf : s.sel.id = f) (hst : s.frame n f = .scrubbing) (hwf : Memory.wf s.mem = true)
    (hidle : s.unitHeld (((s.chip n).mig.linesIn (f * 2 ^ 28) (2 ^ 28)).map (fun a => (n, a))) = []) :
    ∃ t, exec .scrubEnd s = .next t ∧ t.frame n f = .free ∧ memSameBut s t (hbmKey n (f * 2 ^ 28)) (2 ^ 28) ∧
      ∀ k < 2 ^ 28, memGet t.mem (hbmKey n (f * 2 ^ 28) + k) = 0 := by
  subst hn hf
  refine ⟨_, (if_neg (not_not_intro hst)).trans (unitGate_clear hidle _), ?_, fun a ha => ?_, fun k hk => ?_⟩
  · simp [State.frame]
  · exact (memGet_zeroRange hwf _ _ a).trans (if_neg ha)
  · exact (memGet_zeroRange hwf _ _ _).trans (if_pos (by omega))
end

section
variable (s : State)

/-! ### Frame commands (R370, R372) -/

theorem assignRes_free {n f vf : Nat} (hfree : s.frameNow n f = .free) (hcap : (f + 1) * 2 ^ 28 ≤ s.capLimit n) (hvf : vf < 126) :
    s.assignRes n f vf = (0, .assigned vf) := by
  rw [State.assignRes, hfree]
  exact (if_neg (not_not_intro rfl)).trans ((if_neg (by omega)).trans (if_neg (by omega)))
theorem freeRes_assigned {n f w : Nat} (h : s.frameNow n f = .assigned w) :
    s.freeRes n f = if s.frameNamed n f then (1, .assigned w) else (0, .scrubbing) := by
  rw [State.freeRes, h]

/-! ### Registers of the BARs -/

theorem bar_setBar_same (n f off : Nat) (v : BitVec 64) : (s.setBar n f off v).bar n f off = v := by
  simp [State.bar, State.setBar]
theorem bar_setBar_other {n f off k : Nat} (v : BitVec 64) (h : k ≠ off) : (s.setBar n f off v).bar n f k = s.bar n f k := by
  simp [State.bar, State.setBar, AMap.get_set_other, h]
theorem gang_setBar (n f off g : Nat) (v : BitVec 64) : (s.setBar n f off v).gang n g = s.gang n g := by
  simp [State.gang, State.setBar]
theorem frameDone_effect (n f : Nat) (st : Frame) (err : Nat) :
    ((frameDone s n f st err).chip n).frames.get f .free = st ∧ (frameDone s n f st err).barN n 0 0x50008 = frameStat st err f % 2 ^ 64 ∧
      (frameDone s n f st err).mem = s.mem ∧ (frameDone s n f st err).ctxs = s.ctxs := by
  refine ⟨?_, ?_, rfl, rfl⟩
  · simp [frameDone, State.setBarN, State.setBar]
  · rw [State.barN, frameDone, State.setBarN, bar_setBar_same, BitVec.toNat_ofNat]

/-! ### The control and status of a gang context (R374, R393) -/

/-- GC_STAT's ERR is what its register holds. -/
theorem gcStat_err (n g : Nat) : natFld (s.gcStat n g) 0 1 = natFld (s.barN n 0 (gcBlock g + 0x30)) 0 1 := by
  simp only [State.gcStat, natFld, Nat.shiftRight_zero]
  omega
/-- GC_STAT's RESET is the gang's reset flag. -/
theorem gcStat_reset (n g : Nat) : natFld (s.gcStat n g) 3 1 = bit (s.gang n g).resetDone := by
  have hbit (b : Bool) : bit b < 2 := by cases b <;> decide
  have hrun := hbit ((s.chip n).running = some g)
  have hovf := hbit (s.gang n g).ovf
  have hreset := hbit (s.gang n g).resetDone
  simp only [State.gcStat, natFld, Nat.shiftRight_eq_div_pow]
  omega
/-- GC_CTL as a write with EN 0 before leaves it: x, and ERR. -/
def gcCtlStored (n g : Nat) (x : BitVec 64) (bad : Bool) : State :=
  ((s.updGang n g (fun k => { k with resetDone := false })).setBar n 0 (gcBlock g) x).setBarN n 0 (gcBlock g + 0x30) (bit bad)
theorem gcCtl_gcCtlStored (n g : Nat) (x : BitVec 64) (bad : Bool) : (gcCtlStored s n g x bad).gcCtl n g = x.toNat := by
  rw [State.gcCtl, State.barN, gcCtlStored, State.setBarN, bar_setBar_other _ _ (by omega), bar_setBar_same]
theorem gcErr_gcCtlStored (n g : Nat) (x : BitVec 64) (bad : Bool) : natFld ((gcCtlStored s n g x bad).gcStat n g) 0 1 = bit bad := by
  rw [gcStat_err, State.barN, gcCtlStored, State.setBarN, bar_setBar_same]
  cases bad <;> rfl
theorem gcReset_gcCtlStored (n g : Nat) (x : BitVec 64) (bad : Bool) : natFld ((gcCtlStored s n g x bad).gcStat n g) 3 1 = 0 := by
  rw [gcStat_reset, gcCtlStored, State.setBarN, gang_setBar, gang_setBar, State.gang_updGang_same]
  rfl
end

section
variable {s : State}

theorem gcCtlWrite_enabled (hg : s.sel.reg < 256) (hen : natFld (s.gcCtl s.sel.who.chip s.sel.reg) 0 1 = 1) :
    ∃ t, exec .gcCtlWrite s = .next t ∧ t.mem = s.mem ∧ t.ctxs = s.ctxs :=
  ⟨_, (if_neg (by omega)).trans (if_pos hen), rfl, rfl⟩
/-- A write while EN is 0. -/
theorem gcCtlWrite_disabled {bad : Bool} (hg : s.sel.reg < 256) (hen : natFld (s.gcCtl s.sel.who.chip s.sel.reg) 0 1 = 0)
    (hv : s.sel.val.getLsbD 0 = true) (hown : s.gcOwned s.sel.who.chip s.sel.reg (natFld s.sel.val.toNat 1 7) (natFld s.sel.val.toNat 18 11) = !bad) :
    exec .gcCtlWrite s = .next (gcCtlStored s s.sel.who.chip s.sel.reg
      (if bad then keepBits (keepBits s.sel.val 0x1FFFFFFF) 0x1FFFFFFE else keepBits s.sel.val 0x1FFFFFFF) bad) := by
  have hbad : (s.sel.val.getLsbD 0 && !s.gcOwned s.sel.who.chip s.sel.reg (natFld s.sel.val.toNat 1 7) (natFld s.sel.val.toNat 18 11)) = bad := by
    rw [hv, hown, Bool.not_not, Bool.true_and]
  refine (if_neg (by omega)).trans ((if_neg (by omega)).trans ?_)
  rw [hbad]
  rfl
/-- A mask without bit 0 clears EN. -/
theorem keepBits_even (x : BitVec 64) : natFld (keepBits x 0x1FFFFFFE).toNat 0 1 = 0 := by
  rw [natFld_toNat, keepBits, BitVec.extractLsb'_and]
  simp

/-! ### A register write without an event of its own -/

theorem registerWrite_runtime (h : s.sel.id = 200) : exec .registerWrite s = .next (runtimeLoad s s.sel.who s.sel.reg s.sel.val) := if_pos h
theorem registerWrite_pf (hid : s.sel.id = 0) (hown : ownEvent 0 s.sel.reg s.sel.val = false) :
    exec .registerWrite s = .next (pfWrite s s.sel.who.chip s.sel.reg s.sel.val) := by
  refine (if_neg (by omega)).trans ((if_neg ?_).trans (if_pos hid))
  rw [hid, hown]
  exact Bool.false_ne_true
theorem registerWrite_vf (hlo : 1 ≤ s.sel.id) (hhi : s.sel.id ≤ 126) (hreg : s.sel.reg < 0x240) :
    exec .registerWrite s = .next (s.setBar s.sel.who.chip s.sel.id s.sel.reg
      (ringStore (s.sel.reg % 0x20) (s.bar s.sel.who.chip s.sel.id s.sel.reg) s.sel.val)) := by
  have hown : ownEvent s.sel.id s.sel.reg s.sel.val = false := by
    rw [ownEvent, if_neg (by omega), decide_eq_false (p := s.sel.reg = 0x240) (by omega), decide_eq_false (p := s.sel.reg = 0x248) (by omega)]
    exact Bool.and_false _
  have hvf : vfWrite s s.sel.who.chip s.sel.id s.sel.reg s.sel.val = s.setBar s.sel.who.chip s.sel.id s.sel.reg
      (ringStore (s.sel.reg % 0x20) (s.bar s.sel.who.chip s.sel.id s.sel.reg) s.sel.val) := if_pos hreg
  rw [← hvf]
  refine (if_neg (by omega)).trans ((if_neg ?_).trans ((if_neg (by omega)).trans (if_pos hhi)))
  rw [hown]
  exact Bool.false_ne_true

/-! ### A register of a context that lands -/

/-- The one result in flight, due and for a register that the event takes, lands. -/
theorem landOne_only {l : Landing} {k : BitVec 12} {p : Nat → Bool} (hf : s.cur.flight = [l]) (hd : l.dest = .csr k) (hb : l.bound ≤ s.t)
    (hp : p k.toNat = true) : landOne s s.sel.who p = .next (landStatus s.sel.who (s.upd (fun c => { c with flight := [] })) l) := by
  have hdue : (splitDue s.t s.cur.flight []).1 = [l] := by
    rw [hf, splitDue, if_pos ⟨hb, rfl⟩]
    rfl
  have hland : s.upd (fun c => { c with flight := c.flight.erase l }) = s.upd (fun c => { c with flight := [] }) := by
    show s.setCtx s.sel.who { s.cur with flight := s.cur.flight.erase l } = _
    rw [hf, List.erase_cons_head]
    rfl
  have hfind : (splitDue s.t s.cur.flight []).1.find? (fun l => match l.dest with | .csr n => p n.toNat | _ => false) = some l := by
    rw [hdue]
    exact List.find?_cons_of_pos (by rw [hd]; exact hp)
  rw [← hland]
  unfold landOne
  split
  next hnone => exact absurd (hnone.symm.trans hfind) (by simp)
  next l' hsome =>
    obtain rfl : l' = l := Option.some.inj (hsome.symm.trans hfind)
    rfl
end

/-- Settles O52: each command by its outcome, each write by the branch its register takes. -/
theorem registersAndFrames : Obligations.RegistersAndFrames := by
  unfold Obligations.RegistersAndFrames
  intro s n v f
  refine ⟨fun hop => if_neg (not_not_intro hop), assignRes_free s, fun hst => if_pos hst, fun hop => if_neg (not_not_intro hop),
    fun w => freeRes_assigned s, fun hop => if_neg (not_not_intro hop), frameDone_effect s n f, scrubEnd_effect rfl rfl, ?_, fun hreg => if_neg (by omega),
    registerWrite_runtime, registerWrite_pf, registerWrite_vf, ?_⟩
  · intro hreg g
    refine ⟨fun hen hv hown => ?_, fun hen hv hown => ?_, gcCtlWrite_enabled hreg⟩
    · refine ⟨_, gcCtlWrite_disabled (bad := true) hreg hen hv hown, ?_, gcErr_gcCtlStored s n g _ true, gcReset_gcCtlStored s n g _ true, rfl⟩
      rw [gcCtl_gcCtlStored]
      exact keepBits_even _
    · exact ⟨_, gcCtlWrite_disabled (bad := false) hreg hen hv hown, gcCtl_gcCtlStored s n g _ false, gcErr_gcCtlStored s n g _ false,
        gcReset_gcCtlStored s n g _ false, rfl⟩
  · intro l k hf hd hb
    refine ⟨fun hlo hhi => ?_, fun hlo hhi => ?_, ?_, ?_⟩
    · show execWinAllowMaxWrite s = _
      exact landOne_only hf hd hb ((Bool.and_eq_true ..).mpr ⟨decide_eq_true hlo, decide_eq_true hhi⟩)
    · show execRetwWaysWrite s = _
      exact landOne_only hf hd hb ((Bool.and_eq_true ..).mpr ⟨decide_eq_true hlo, decide_eq_true hhi⟩)
    · rintro rfl
      show execAncPoolWrite s = _
      exact landOne_only hf hd hb rfl
    · rintro rfl
      show execAncBaseWrite s = _
      exact landOne_only hf hd hb rfl

end Sys2Proof.Machine
